-- ==== Sys2Proof/Word.lean ====
section
/-! DEFINITION. Word.lean: the word types of the GN-4016 and their plainest arithmetic.

Octets and the 36-bit words of the troupe memories are bit vectors, because the manual adds, shifts and masks them.
Addresses, numbers of objects, counts and times are natural numbers; where the manual makes one of them wrap, the
wrap is written out where it happens. -/

namespace Sys2Proof

/-- One octet. -/
abbrev Byte := BitVec 8

/-- One word of a tumbler, a troupe memory or an instruction memory (03 R76, 09 R242). -/
abbrev Word := BitVec 36

/-- A sparse table of numbered objects, in ascending order of the number, each number at most once. -/
abbrev Tbl (α : Type) := List (Nat × α)

/-- The octet of a number's low eight bits. -/
def byteOf (v : Nat) : Byte := BitVec.ofNat 8 v

/-- `n` octets of a number, least significant first (00 R9: host structures are little-endian). -/
def le : Nat → Nat → List Byte
  | 0, _ => []
  | n + 1, v => byteOf v :: le n (v / 256)

/-- `n` octets of a number, most significant first (00 R9: wire formats are in network order). -/
def be (n v : Nat) : List Byte := (le n v).reverse

/-- The number of a little-endian octet string. -/
def ofLe : List Byte → Nat
  | [] => 0
  | b :: bs => b.toNat + 256 * ofLe bs

/-- The number of a network-order octet string. -/
def ofBe (bs : List Byte) : Nat := ofLe bs.reverse

/-- `n` zero octets. -/
def zeros (n : Nat) : List Byte := List.replicate n 0

/-- An octet string cut or zero-filled to exactly `n` octets. -/
def fit (n : Nat) (bs : List Byte) : List Byte := (bs ++ zeros (n - bs.length)).take n

/-- One bit of a number. -/
def bit (v i : Nat) : Bool := v / 2 ^ i % 2 == 1

/-- The field of a number of width `w` that starts at bit `i`. -/
def field (v i w : Nat) : Nat := v / 2 ^ i % 2 ^ w

/-- A truth value as a bit. -/
def b2n (b : Bool) : Nat := if b then 1 else 0

/-- A signed number of `w` bits read from its two's-complement pattern. -/
def signed (w v : Nat) : Int := if v < 2 ^ (w - 1) then (v : Int) else (v : Int) - (2 ^ w : Nat)

/-- The two's-complement pattern of a number in `w` bits. -/
def unsigned (w : Nat) (v : Int) : Nat := (v % (2 ^ w : Nat)).toNat

/-- Smallest multiple count: the quotient rounded up. -/
def ceilDiv (a b : Nat) : Nat := (a + b - 1) / b

/-- A difference of free-running counts of `w` bits. -/
def modSub (w a b : Nat) : Nat := (a + 2 ^ w - b % 2 ^ w) % 2 ^ w

/-- Addition of counts of `w` bits. -/
def modAdd (w a b : Nat) : Nat := (a + b) % 2 ^ w

/-- Addition that stops at the greatest number of `w` bits. -/
def satAdd (w a b : Nat) : Nat := min (a + b) (2 ^ w - 1)

end Sys2Proof
end

