-- ==== Sys2Proof/Machine/Status.lean ====
section
/-! DEFINITION. Machine/Status.lean: the booth statuses (19 R530) and their 16-bit values. -/

namespace Sys2Proof.Machine

/-- A booth status. The names are those of the manual. -/
inductive Status where
  | ok
  | idInUse
  | unsupported
  | badRequest
  | notPermitted
  | notAttached
  | fwRestarted
  | fwUnavailable
  | cancelled
  | cancelledAtStage
  | tooLate
  | notFound
  | busyEpoch
  | noResource
  | tooLarge
  | fixedMode
  | unmapped
  | tagDenied
  | align
  | memUncorrectable
  | hostAbort
  | partnerStalled
  | partnerTimeout
  | portDown
  | islandQuarantined
  | lockDenied
  | lockNested
  | lockBroken
  | bufferSmall
  | resizeBusy
  | shareInUse
  | tenantLimit
  | alreadyAttached
  | noDoorbells
  | windowBad
  | windowOverlap
  | portInUse
  | gclCycleMismatch
  | gateWindowShort
  | strictOvercommit
  | sampleRate
  | noCells
  | noSessions
  | keyDenied
  | keyBadType
  | keyBadMaterial
  | slotOccupied
  | slotEmpty
  | keyInUse
  | keyShared
  | keySpent
  | keyExhausted
  | selftestFail
  | actInvalid
  | imBusy
  | noActs
  | noBindings
  | badBinding
  | actInUse
  | allowanceOverrun
  | actFault
  | gdpTimeout
  | gdpRemoteAccess
  | gdpRemoteMemory
  | gdpRemotePartner
  | gdpLength
  | gdpLocalAccess
  | gdpFlushed
  | gdpPeerClosed
  | gdpParamMismatch
  | gdpCycle
  | regionBad
  | noConnections
  | codecBusy
  | noStreams
  | bufferBad
  | bufferBusy
  | driveInUse
  | volumeOverlap
  | noVolumes
  | volumeUnknown
  | driveError
  | remoteLost
  | driveLost
  | paramMismatch
  | sumExcess
  | sumMismatch
  | sumMemberLost
  | pressState
  | pressSetTimeout
  | pressVerifyFail
  | pressImageBad
  | pressShardMap
  | timeInvalid
  | playbillRate
  | noStandby
  deriving DecidableEq, Repr, Inhabited

/-- The value of a status in a record (19 R530). -/
def Status.code : Status → Nat
  | .ok => 0x00
  | .idInUse => 0x01
  | .unsupported => 0x02
  | .badRequest => 0x03
  | .notPermitted => 0x04
  | .notAttached => 0x05
  | .fwRestarted => 0x06
  | .fwUnavailable => 0x07
  | .cancelled => 0x08
  | .cancelledAtStage => 0x09
  | .tooLate => 0x0A
  | .notFound => 0x0B
  | .busyEpoch => 0x0C
  | .noResource => 0x0D
  | .tooLarge => 0x0E
  | .fixedMode => 0x0F
  | .unmapped => 0x10
  | .tagDenied => 0x11
  | .align => 0x12
  | .memUncorrectable => 0x13
  | .hostAbort => 0x14
  | .partnerStalled => 0x15
  | .partnerTimeout => 0x16
  | .portDown => 0x17
  | .islandQuarantined => 0x18
  | .lockDenied => 0x19
  | .lockNested => 0x1A
  | .lockBroken => 0x1B
  | .bufferSmall => 0x1C
  | .resizeBusy => 0x20
  | .shareInUse => 0x21
  | .tenantLimit => 0x22
  | .alreadyAttached => 0x23
  | .noDoorbells => 0x24
  | .windowBad => 0x25
  | .windowOverlap => 0x26
  | .portInUse => 0x28
  | .gclCycleMismatch => 0x29
  | .gateWindowShort => 0x2A
  | .strictOvercommit => 0x2B
  | .sampleRate => 0x2C
  | .noCells => 0x30
  | .noSessions => 0x31
  | .keyDenied => 0x38
  | .keyBadType => 0x39
  | .keyBadMaterial => 0x3A
  | .slotOccupied => 0x3B
  | .slotEmpty => 0x3C
  | .keyInUse => 0x3D
  | .keyShared => 0x3E
  | .keySpent => 0x3F
  | .keyExhausted => 0x40
  | .selftestFail => 0x41
  | .actInvalid => 0x48
  | .imBusy => 0x49
  | .noActs => 0x4A
  | .noBindings => 0x4B
  | .badBinding => 0x4C
  | .actInUse => 0x4D
  | .allowanceOverrun => 0x4E
  | .actFault => 0x4F
  | .gdpTimeout => 0x50
  | .gdpRemoteAccess => 0x51
  | .gdpRemoteMemory => 0x52
  | .gdpRemotePartner => 0x53
  | .gdpLength => 0x54
  | .gdpLocalAccess => 0x55
  | .gdpFlushed => 0x56
  | .gdpPeerClosed => 0x57
  | .gdpParamMismatch => 0x58
  | .gdpCycle => 0x59
  | .regionBad => 0x5A
  | .noConnections => 0x5B
  | .codecBusy => 0x60
  | .noStreams => 0x61
  | .bufferBad => 0x62
  | .bufferBusy => 0x63
  | .driveInUse => 0x68
  | .volumeOverlap => 0x69
  | .noVolumes => 0x6A
  | .volumeUnknown => 0x6B
  | .driveError => 0x6C
  | .remoteLost => 0x6D
  | .driveLost => 0x6E
  | .paramMismatch => 0x70
  | .sumExcess => 0x71
  | .sumMismatch => 0x72
  | .sumMemberLost => 0x73
  | .pressState => 0x78
  | .pressSetTimeout => 0x79
  | .pressVerifyFail => 0x7A
  | .pressImageBad => 0x7B
  | .pressShardMap => 0x7C
  | .timeInvalid => 0x80
  | .playbillRate => 0x81
  | .noStandby => 0x82

/-- The status of the first check that fails, if any fails: the checks of a command are made in order, and the first
that fails decides its status. -/
def firstBad : List (Bool × Status) → Option Status
  | [] => none
  | (bad, st) :: cs => if bad then some st else firstBad cs

end Sys2Proof.Machine
end

