-- ==== Sys2Proof/Syntax/Base.lean ====
section
/-! DEFINITION. Syntax/Base.lean: the header every booth command carries and the shapes its parameters share
(18 R489, 19 R500 to R503). A field is a natural number; `WellFormed.lean` holds it to the width the manual gives it. -/

namespace Sys2Proof

/-- The header of a submission entry (18 R489). `fn` is the function whose booth holds the entry: 0 is the manager,
`n` virtual function `n`. `rsvZero` says that the reserved bits of the header are 0 (R493 check 3) and `paramsClean`
that every PARAMS octet the command does not list is 0 (R500, R504). -/
structure Hdr where
  fn : Nat
  id : Nat
  part : Nat
  tenant : Nat
  fence : Bool
  signal : Bool
  context : Nat
  rsvZero : Bool
  paramsClean : Bool
  deriving DecidableEq, Repr

/-- An output block (19 R503): its address in the submitting function's host space and its length. -/
structure OutBlk where
  addr : Nat
  len : Nat
  deriving DecidableEq, Repr

/-- What the device's read of a host block answers (19 R503): the block, or nothing, when the read fails and the
command ends with HOST_ABORT. -/
abbrev HostBlk (α : Type) := Option α

/-- A host window entry (16 R444). -/
structure HostWindow where
  hostBase : Nat
  offset : Nat
  sizeLog2 : Nat
  part : Nat
  tenant : Nat
  fn : Nat
  pasid : Nat
  pasidEn : Bool
  valid : Bool
  write : Bool
  read : Bool
  deriving DecidableEq, Repr

/-- A Trapeze outbound or inbound window entry (11 R311, R314). -/
structure TpWindow where
  accBase : Nat
  offset : Nat
  sizeLog2 : Nat
  part : Nat
  tenant : Nat
  valid : Bool
  atomic : Bool
  write : Bool
  read : Bool
  deriving DecidableEq, Repr

/-- The session block of SESSION_OPEN and SESSION_MODIFY (19 R514). Addresses are network-order numbers. -/
structure SessionBlock where
  profile : Nat
  ipVersion : Nat
  localPort : Nat
  remotePort : Nat
  lport : Nat
  learn : Bool
  suppress : Bool
  anyRemote : Bool
  localAddr : Nat
  remoteAddr : Nat
  tci : Nat
  period : Nat
  depth : Nat
  delay : Nat
  slotCode : Nat
  spf : Nat
  ssrcIn : Nat
  ssrcOut : Nat
  ptSet : List Nat
  ptOut : Nat
  rocInInit : Nat
  rocOutInit : Nat
  keyRx : Nat
  keyTx : Nat
  meter : Nat
  txq : Nat
  binding : Nat
  rtcpRing : Nat
  seed : Nat
  /-- reserved octets and flag bits of the block are 0 -/
  rsvZero : Bool
  deriving DecidableEq, Repr

/-- The parameters of FEED_RING_BIND and RETURN_RING_BIND (19 R513). -/
structure RingBind where
  ring : Nat
  log2 : Nat
  entryArray : Nat
  dataArea : Nat
  dataLen : Nat
  control : Nat
  deriving DecidableEq, Repr

/-- The key block of KEY_LOAD (07 R196). -/
structure KeyBlock where
  alg : Nat
  use : Nat
  dir : Nat
  tenant : Nat
  material : List Byte
  rsvZero : Bool
  deriving DecidableEq, Repr

/-- The binding layout of ACT_BIND and ACT_REBIND (19 R516). -/
structure ActBinding where
  binding : Nat
  act : Nat
  entry : Nat
  priority : Nat
  serial : Bool
  dump : Bool
  tumblers : List Nat
  allowance : Nat
  inputBase : Nat
  inputWords : Nat
  hbmBase : Nat
  dumpOffset : Nat
  arg : Nat
  deriving DecidableEq, Repr

/-- The rule block of RXRULE_SET (19 R518). An address is the network-order number of its sixteen octets. -/
structure RxRule where
  priority : Nat
  ring : Nat
  meter : Nat
  etherType : Nat
  ipVersion : Nat
  protocol : Nat
  dscp : Nat
  matchBits : Nat
  srcPort : Nat
  dstPort : Nat
  srcAddr : Nat
  dstAddr : Nat
  srcPrefix : Nat
  dstPrefix : Nat
  lport : Nat
  /-- the reserved octets of the block are 0 -/
  rsvZero : Bool
  deriving DecidableEq, Repr

/-- PORT_CONFIG_SET (19 R517). `xoff` and `xon` have one threshold for each priority, in units of 256 octets. -/
structure PortConfig where
  lport : Nat
  maxFrame : Nat
  defaultVid : Nat
  promiscuous : Bool
  strip : Bool
  lossless : Nat
  xoff : List Nat
  xon : List Nat
  rxHoldMaxUs : Nat
  pauseWatchdogMs : Nat
  deriving DecidableEq, Repr

/-- RXRING_CREATE (19 R517). -/
structure RxRingCreate where
  base : Nat
  log2 : Nat
  bufCode : Nat
  vector : Nat
  isDefault : Bool
  lport : Nat
  deriving DecidableEq, Repr

/-- TXQ_CREATE (19 R517). -/
structure TxqCreate where
  queue : Nat
  lport : Nat
  cls : Nat
  share : Nat
  internal : Bool
  meter : Nat
  base : Nat
  log2 : Nat
  vector : Nat
  frameLimit : Nat
  rateKbps : Nat
  size : Nat
  deriving DecidableEq, Repr

/-- METER_SET (19 R517). -/
structure MeterSet where
  meter : Nat
  algorithm : Nat
  colourAware : Bool
  mode : Nat
  actGreen : Nat
  actYellow : Nat
  actRed : Nat
  cir : Nat
  pir : Nat
  cbs : Nat
  ebs : Nat
  dscp : Nat
  deriving DecidableEq, Repr

/-- One gate control list entry (05 R139): GATES, and INTERVAL in units of 8 ns. -/
structure GclEntry where
  gates : Nat
  interval : Nat
  deriving DecidableEq, Repr

/-- QUEUE_SAMPLE_SET (19 R517). -/
structure SampleSet where
  queue : Nat
  periodUs : Nat
  base : Nat
  log2 : Nat
  vector : Nat
  deriving DecidableEq, Repr

/-- GDP_REGION_SET (19 R520). -/
structure RegionSet where
  region : Nat
  loc : Bool
  rWrite : Bool
  rRead : Bool
  rAtomic : Bool
  valid : Bool
  key : Nat
  base : Nat
  length : Nat
  deriving DecidableEq, Repr

/-- The connect block of GDP_CONNECT (19 R521). -/
structure ConnectBlock where
  localConn : Nat
  peerConn : Nat
  incarnation : Nat
  ipVersion : Nat
  paths : Nat
  localAddr : Nat
  remoteAddr : Nat
  remotePort : Nat
  sportBase : Nat
  log2Payload : Nat
  prot : Bool
  alg : Nat
  dscp : Nat
  keyTx : Nat
  keyRx : Nat
  txq : Nat
  lport : Nat
  retryLimit : Nat
  tci : Nat
  targetUs : Nat
  winMin : Nat
  winMax : Nat
  initWindow : Nat
  progressMs : Nat
  opBase : Nat
  recvBase : Nat
  compBase : Nat
  opLog2 : Nat
  recvLog2 : Nat
  compLog2 : Nat
  vector : Nat
  rsvZero : Bool
  deriving DecidableEq, Repr

/-- GDP_MODIFY (19 R520). -/
structure GdpModify where
  conn : Nat
  txq : Nat
  paths : Nat
  retryLimit : Nat
  mask : Nat
  targetUs : Nat
  winMin : Nat
  winMax : Nat
  progressMs : Nat
  deriving DecidableEq, Repr

/-- MOVER_QUEUE_CREATE and STOR_QUEUE_CREATE (19 R522, R525). -/
structure QueueCreate where
  queue : Nat
  log2 : Nat
  vector : Nat
  descBase : Nat
  compBase : Nat
  pasidEn : Bool
  pasid : Nat
  bounceCells : Nat
  deriving DecidableEq, Repr

/-- The open block of CODEC_STREAM_OPEN (19 R524). -/
structure CodecOpen where
  unit : Nat
  dir : Nat
  standard : Nat
  profile : Nat
  levelMax : Nat
  bitDepth : Nat
  priority : Nat
  sliceRows : Nat
  maxWidth : Nat
  maxHeight : Nat
  descLog2 : Nat
  compLog2 : Nat
  vector : Nat
  descBase : Nat
  compBase : Nat
  workBase : Nat
  workLen : Nat
  rcMode : Nat
  quantiser : Nat
  gop : Nat
  rate : Nat
  maxRate : Nat
  keyInterval : Nat
  deriving DecidableEq, Repr

/-- CODEC_STREAM_MODIFY (19 R523). -/
structure CodecModify where
  stream : Nat
  mask : Nat
  priority : Nat
  rcMode : Nat
  quantiser : Nat
  rate : Nat
  maxRate : Nat
  deriving DecidableEq, Repr

/-- CODEC_BUFFER_REGISTER (19 R523). -/
structure CodecBuffer where
  stream : Nat
  index : Nat
  pitch : Nat
  luma : Nat
  chroma : Nat
  deriving DecidableEq, Repr

/-- VOLUME_CREATE (19 R525). -/
structure VolumeCreate where
  volume : Nat
  backing : Nat
  source : Nat
  nsid : Nat
  startLba : Nat
  blocks : Nat
  keySlot : Nat
  readOnly : Bool
  preserve : Bool
  deriving DecidableEq, Repr

/-- The subsystem block of NVMET_SUBSYSTEM_SET (19 R525). -/
structure SubsystemBlock where
  nqn : List Byte
  hosts : List (List Byte)
  namespaces : List Nat
  deriving DecidableEq, Repr

/-- NVMET_LISTENER_SET (19 R525). -/
structure ListenerSet where
  listener : Nat
  subsystem : Nat
  ipVersion : Nat
  lport : Nat
  tcpPort : Nat
  meter : Nat
  txq : Nat
  discovery : Bool
  headerDigest : Bool
  dataDigest : Bool
  addr : Nat
  deriving DecidableEq, Repr

/-- The initiator block of NVMEI_CONNECT (19 R525). -/
structure InitiatorBlock where
  addr : Nat
  tcpPort : Nat
  ipVersion : Nat
  lport : Nat
  txq : Nat
  ioQueues : Nat
  digests : Nat
  ctrlLossTmo : Nat
  subNqn : List Byte
  hostNqn : List Byte
  deriving DecidableEq, Repr

/-- A drive's answer to an admin command (19 R526): its completion queue entry, or the drive is lost. -/
inductive DriveAnswer where
  | entry (cqe : List Byte) (data : List Byte)
  | lost
  deriving DecidableEq, Repr

/-- TRAPEZE_SUM (19 R527). -/
structure SumCmd where
  scalar : Bool
  members : Nat
  value : Nat
  stepNo : Nat
  timeoutUs : Nat
  deriving DecidableEq, Repr

end Sys2Proof
end

