-- ==== Sys2Proof/Syntax/Gdp.lean ====
section
/-! DEFINITION. Syntax/Gdp.lean: a received GDP packet (12 R331 to R334) and an operation descriptor of a connection's
OP_RING (12 R335), as their fields. -/

namespace Sys2Proof

/-- The header of a received GDP packet of any TYPE, with its CTR and tag and whether it arrived with CE. `part` is the
partition whose GDP port it was steered to (05 R124). -/
structure GdpHdr where
  part : Nat
  prot : Bool
  ackReq : Bool
  dstConn : Nat
  incarnation : Nat
  path : Nat
  psn : Nat
  ts : Nat
  msn : Nat
  pidx : Nat
  chunk : Nat
  len : Nat
  region : Nat
  rkey : Nat
  msgLen : Nat
  offset : Nat
  ce : Bool
  /-- header and CTR as they stood on the wire, which the tag covers -/
  aad : List Byte
  ctr : Nat
  tag : List Byte
  deriving DecidableEq, Repr

/-- The body of an ACK (12 R333). -/
structure GdpAckBody where
  cumPsn : Nat
  sackBase : Nat
  /-- the PSNs the SACK bits report received -/
  sacked : List Nat
  echoTs : Nat
  echoPath : Nat
  echoCe : Bool
  ceCount : Nat
  /-- completion entries: MSN and STATUS -/
  comps : List (Nat × Nat)
  deriving DecidableEq, Repr

/-- An operation descriptor (12 R335). -/
structure GdpDesc where
  fence : Bool
  signal : Bool
  op : Nat
  tag : Nat
  operand1 : Nat
  operand0 : Nat
  length : Nat
  remoteKey : Nat
  localOffset : Nat
  localRegion : Nat
  remoteOffset : Nat
  remoteRegion : Nat
  /-- a reserved bit or flag is set -/
  rsvBad : Bool
  deriving DecidableEq, Repr, Inhabited

/-- A receive descriptor of RECV_RING (12 R339). -/
structure GdpRecv where
  offset : Nat
  region : Nat
  length : Nat
  tag : Nat
  deriving DecidableEq, Repr, Inhabited

end Sys2Proof
end

