-- ==== Sys2Proof/Syntax/Host.lean ====
section
/-! DEFINITION. Syntax/Host.lean: what the rows of the host port carry (16). -/

namespace Sys2Proof

/-- How the host answers a read of its memory (16 R451). -/
inductive HostRdAns where
  | data (d : List Byte)
  /-- a completion with UR or CA status -/
  | abort
  | poisoned
  deriving DecidableEq, Repr

/-- A write that reaches a function's MSI-X: octets of the table, or the message control register (16 R438, R439). -/
inductive MsixWrite where
  | table (off : Nat) (data : List Byte)
  | control (enable mask : Bool)
  deriving DecidableEq, Repr

/-- A Translation Completion (16 R448, R450): a translated page with its permissions, or an error status. -/
inductive TransAns where
  | page (base size : Nat) (read write : Bool)
  | error
  deriving DecidableEq, Repr

/-- A host access to a BAR: a read, or a write that may be poisoned (16 R434, R452). -/
inductive BarAccess where
  | read (len : Nat)
  | write (data : List Byte) (poisoned : Bool)
  deriving DecidableEq, Repr

end Sys2Proof
end

