-- ==== Sys2Proof/Syntax/Press.lean ====
section
/-! DEFINITION. Syntax/Press.lean: the blocks of the Press (20 R534, R547, R548) and of management (21 R559, R576) as
their fields, an image as the boot ROM finds it (22 R597) and the sensors of a PLDM read (21 R556). -/

namespace Sys2Proof

/-- A region entry (20 R547). `crc` and `wheelOffset` are 0 in an arm block. -/
structure PressRegion where
  region : Nat
  kind : Nat
  member : Nat
  source : Nat
  length : Nat
  crc : Nat
  wheelOffset : Nat
  deriving DecidableEq, Repr, Inhabited

/-- A shard entry (20 R547). -/
structure PressShard where
  object : Nat
  objectOffset : Nat
  region : Nat
  regionOffset : Nat
  length : Nat
  deriving DecidableEq, Repr, Inhabited

/-- A target entry of a restore (20 R548). -/
structure PressTarget where
  object : Nat
  objectOffset : Nat
  length : Nat
  kind : Nat
  member : Nat
  target : Nat
  deriving DecidableEq, Repr, Inhabited

/-- An arm block (20 R534). -/
structure ArmBlock where
  mode : Nat
  partition : Nat
  members : Nat
  peers : List Nat
  held : List Nat
  regions : List PressRegion
  shards : List PressShard
  targets : List PressTarget
  setTimeoutMs : Nat
  pasidEn : Bool
  pasid : Nat
  staging : Nat
  stagingLen : Nat
  generation : Nat
  flushKind : Nat
  flushTarget : Nat
  flushKey : Nat
  flushRegion : Nat
  flushOffset : Nat
  /-- reserved bytes are 0 and the length is that of the block -/
  rsvZero : Bool
  deriving DecidableEq, Repr, Inhabited

/-- A wheel's manifest (20 R547). `crcOk` says that MANIFEST_CRC matches. -/
structure Manifest where
  magic : Nat
  version : Nat
  step : Nat
  generation : Nat
  verified : Nat
  crcOk : Bool
  wheelBytes : Nat
  regions : List PressRegion
  shards : List PressShard
  deriving DecidableEq, Repr, Inhabited

/-- A Press message (20 R537), with the connection it arrived on and the number its sender had it as a SEND. -/
structure PressMsg where
  conn : Nat
  magicOk : Bool
  job : Nat
  step : Nat
  generation : Nat
  status : Nat
  deriving DecidableEq, Repr, Inhabited

/-- The device configuration block (21 R559). -/
structure ConfigBlock where
  magicOk : Bool
  shareMode : Nat
  smbusAddr : Nat
  playbill : Nat
  featureDisable : Nat
  nodeName : List Byte
  /-- reserved bytes are 0 and the length is 256 -/
  rsvZero : Bool
  deriving DecidableEq, Repr, Inhabited

/-- The Playbill content block (21 R576). -/
structure ContentBlock where
  nodeName : List Byte
  serviceCode : List Byte
  cal : Bool
  cfgName : Bool
  text : List Byte
  rsvZero : Bool
  deriving DecidableEq, Repr, Inhabited

/-- A firmware image in a slot, as the checks of 22 R598 find it. -/
structure Image where
  readable : Bool
  headerOk : Bool
  steppings : Nat
  keyIndex : Nat
  keyMatches : Bool
  hashOk : Bool
  ecdsaOk : Bool
  mldsaOk : Bool
  svn : Nat
  imageId : Nat
  major : Nat
  minor : Nat
  deriving DecidableEq, Repr, Inhabited

end Sys2Proof
end

