-- ==== Sys2Proof/Syntax/Mgmt.lean ====
section
/-! DEFINITION. Syntax/Mgmt.lean: what management rows carry (21 R554 to R557; 23 R607): messages, firmware transfers,
samples of the sensors, and the registers of REGISTER_WRITE (00 R13, 16, 18 R483). -/

namespace Sys2Proof

/-- An MCTP control request by its command code (DSP0236): Set Endpoint ID carries the identifier. -/
structure MctpReq where
  /-- 0 PCI Express VDM, 1 SMBus, 2 I3C (21 R554) -/
  binding : Nat
  command : Nat
  eid : Nat
  deriving DecidableEq, Repr, Inhabited

/-- A PLDM firmware update transfer (21 R557); `whole` says that it did not break off. -/
inductive FwUpdate where
  | image (i : Image) (whole : Bool)
  | config (c : ConfigBlock) (whole : Bool)
  deriving DecidableEq, Repr

/-- What the sensors read in one second (23 R607), where a supply or port has a reading: temperatures in 0.125 °C,
voltages in mV, power in mW, the droop in 0.01%, heaters in µW, the frequency in MHz, currents in mA. -/
structure SecondSample where
  hot : Int
  vmain : Nat
  vstby : Nat
  power : Nat
  droop : Nat
  heaters : List Nat
  freq : Nat
  tumblerCurrent : Nat
  otherCurrent : Nat
  deriving DecidableEq, Repr, Inhabited

/-- A register that a write reaches (00 R13). -/
inductive RegTarget where
  /-- a word of control space, by its offset, written over the management SPI -/
  | control (off : Nat)
  /-- a booth capability register of a function, by its offset (18 R483) -/
  | booth (fn off : Nat)
  /-- configuration-space controls of a function: Enable Relaxed Ordering in bit 0, IDO Request Enable in bit 1, IDO
  Completion Enable in bit 2, ATS Enable in bit 3, PASID Enable in bit 4 (16 R441, R448) -/
  | config (fn : Nat)
  deriving DecidableEq, Repr

end Sys2Proof
end

