-- ==== Sys2Proof/Syntax/Midway.lean ====
section
/-! DEFINITION. Syntax/Midway.lean: a Midway transaction as its master issues it (03 R68, R84, R85, R89, R91). -/

namespace Sys2Proof

/-- What a transaction does at its target. -/
inductive MwKind where
  | read (len : Nat)
  | write (data : List Byte)
  | fadd (addend : Nat)
  | cas (compare swap : Nat)
  deriving DecidableEq, Repr

/-- A transaction. `corrected` and `uncorrectable` are what the error code finds in the units it reads: whether it
corrects an error, and the device addresses of units it finds uncorrectable. -/
structure MwReq where
  master : Nat
  part : Nat
  tenant : Nat
  priv : Bool
  epoch : Nat
  addr : Nat
  kind : MwKind
  lock : Bool
  unlock : Bool
  corrected : Bool
  uncorrectable : List Nat
  deriving DecidableEq, Repr

end Sys2Proof
end

