-- ==== Sys2Proof/Syntax/Mover.lean ====
section
/-! DEFINITION. Syntax/Mover.lean: the descriptors of the data mover (13 R359), the visual codec (14 R381) and the
storage queues (15 R408), as their fields. -/

namespace Sys2Proof

/-- A mover descriptor. For FILL, `src` is PATTERN. -/
structure MvDesc where
  src : Nat
  dst : Nat
  srcPitchZ : Nat
  dstPitchZ : Nat
  srcPitchY : Nat
  dstPitchY : Nat
  x : Nat
  y : Nat
  z : Nat
  tag : Nat
  op : Nat
  dims : Nat
  dstHost : Bool
  srcHost : Bool
  roHint : Bool
  signal : Bool
  fence : Bool
  rsvBad : Bool
  deriving DecidableEq, Repr, Inhabited

/-- A codec descriptor. -/
structure CdDesc where
  addr : Nat
  length : Nat
  tag : Nat
  pts : Nat
  buf : Nat
  host : Bool
  signal : Bool
  forceKey : Bool
  typ : Nat
  rsvBad : Bool
  deriving DecidableEq, Repr, Inhabited

/-- One write of a decoded picture: plane (0 luma, 1 chroma), offset in it and octets. -/
structure CdWrite where
  plane : Nat
  offset : Nat
  data : List Byte
  deriving DecidableEq, Repr, Inhabited

/-- What coding a picture came to, as far as the standards and the octets of the stream decide it (14 R374, R389 to R395). -/
structure CdResult where
  /-- status of the parse: 0 OK, 1 CONCEALED, 2 STREAM_EXCEEDS, 3 NO_PICTURE -/
  status : Nat
  /-- octets consumed, or the length of the coded picture -/
  bytes : Nat
  concealed : Nat
  ptype : Nat
  propagated : Bool
  errSyntax : Bool
  errRef : Bool
  grain : Bool
  /-- 0, or the codec status with which the host or a partner failed a read of the source -/
  readFail : Nat
  /-- 0, or the codec status with which the host or a partner failed a write of the result -/
  writeFail : Nat
  writes : List CdWrite
  /-- buffers the picture predicts from -/
  refs : List Nat
  /-- the picture will be output -/
  shown : Bool
  /-- buffers whose pictures are output now, in output order, and buffers that hold no picture any more -/
  outs : List Nat
  frees : List Nat
  bits : List Byte
  deriving DecidableEq, Repr, Inhabited

/-- A storage descriptor. -/
structure StDesc where
  bufAddr : Nat
  lba : Nat
  tag : Nat
  blocksM1 : Nat
  volume : Nat
  op : Nat
  host : Bool
  fua : Bool
  roHint : Bool
  signal : Bool
  fence : Bool
  rsvBad : Bool
  deriving DecidableEq, Repr, Inhabited

end Sys2Proof
end

