-- ==== Sys2Proof/Syntax/Storage.lean ====
section
/-! DEFINITION. Syntax/Storage.lean: what a drive reports of itself (15 R401, R403), and the capsules of NVMe/TCP as the
standard's PDUs carry them (15 R416 to R419). -/

namespace Sys2Proof

/-- A namespace of a drive or of a remote subsystem, as Identify reported it (15 R403). -/
structure NamespaceInfo where
  nsid : Nat
  blocks : Nat
  blockSize : Nat
  /-- deallocated blocks read as zero (15 R405) -/
  zeroDealloc : Bool
  ident : Nat
  deriving DecidableEq, Repr, Inhabited

/-- A drive as its link comes up (15 R401, R403). -/
structure DriveInfo where
  /-- exactly one NVMe controller that needs no host memory buffer -/
  supported : Bool
  serial : Nat
  /-- the largest transfer of one command, in octets -/
  mdts : Nat
  spaces : List NamespaceInfo
  deriving DecidableEq, Repr, Inhabited

/-- A whole NVMe/TCP exchange that the octets received so far complete. -/
inductive NvmePdu where
  /-- a host's Connect: command identifier, queue, entries of it, subsystem and host NQN -/
  | connect (cid qid entries : Nat) (subNqn hostNqn : List Byte)
  /-- a write whose data does not come in its capsule: the device asks for it -/
  | wants (cid len : Nat)
  /-- an I/O command with all its data; `op` is its NVMe opcode -/
  | io (cid op nsid lba blocks : Nat) (fua : Bool) (data : List Byte)
  /-- an admin, property or discovery command with the answer that the controller's static contents give -/
  | admin (cid status : Nat) (data : List Byte)
  /-- as initiator: the controller is connected and reports its namespaces -/
  | ready (spaces : List NamespaceInfo)
  /-- as initiator: the answer to a command -/
  | answer (cid status : Nat) (data : List Byte)
  /-- a PDU the transport ends the connection for -/
  | broken
  deriving DecidableEq, Repr

end Sys2Proof
end

