-- ==== Sys2Proof/Syntax/Trapeze.lean ====
section
/-! DEFINITION. Syntax/Trapeze.lean: the messages of the Trapeze link (11 R297) and the header of a flit (11 R296). -/

namespace Sys2Proof

/-- A Trapeze message. -/
inductive TpMsg where
  | write (tag part tenant addr : Nat) (data : List Byte)
  | read (tag part tenant addr len : Nat)
  | fadd (tag part tenant addr addend : Nat)
  | cas (tag part tenant addr compare swap : Nat)
  | rdcomp (tag : Nat) (data : List Byte)
  | wcomp (tag : Nat)
  | atcomp (tag old : Nat)
  | err (tag status : Nat)
  | param (data : List Byte)
  | ringSignal (ring prod : Nat)
  | boundary (job stepNo : Nat)
  | sumArm (job op mode stepNo : Nat)
  | sumSample (op delay : Nat)
  | hold (job stepNo : Nat)
  | resume (job : Nat)
  | sumClear (op : Nat)
  | spareReq (fibre lane : Nat)
  | spareAck (fibre lane fs : Nat)
  | telemetry (seq : Nat) (data : List Byte)
  | calPulse (width : Nat)
  deriving DecidableEq, Repr

/-- A received flit: its header, whether its CRC-64 is good, the slots its messages take on each channel, and how many
of its messages have a reserved opcode. -/
structure Flit where
  crcOk : Bool
  null : Bool
  nak : Bool
  fseq : Nat
  ackSeq : Nat
  crReq : Nat
  crRsp : Nat
  crCtl : Nat
  slotsReq : Nat
  slotsRsp : Nat
  slotsCtl : Nat
  badMsgs : Nat
  deriving DecidableEq, Repr

/-- An access of an accelerator to device memory through an inbound window (11 R314). -/
structure TpAccess where
  port : Nat
  tag : Nat
  addr : Nat
  deriving DecidableEq, Repr

end Sys2Proof
end

