-- ==== Sys2Proof/Syntax.lean ====
section
/-! DEFINITION. Syntax.lean: the commands and events of the GN-4016, one constructor for each row of the table, in its order.
A booth command carries its submission header and its parameters; an event carries what the outside decides about it: the
octets a host, a drive or a wire delivers, the outcome of a check of another standard, the reading of a sensor. -/

namespace Sys2Proof

open Machine (Status)

/-- A command or an event of the table. -/
inductive Instr where
  /-- NOP (R508): BOOTH command that does nothing and completes OK. -/
  | nop (h : Hdr)
  /-- CANCEL (R497): BOOTH command that cancels an outstanding command of the same booth, with exactly one outcome for the target. -/
  | cancel (h : Hdr) (target : Nat)
  /-- BOOTH_INFO (R508): Returns the lost-event count, the fetched and outstanding counts and the interface version the booth behaves as. -/
  | boothInfo (h : Hdr)
  /-- MSIX_HOLDOFF_SET (R440): Sets the holdoff of one MSI-X vector of the function. -/
  | msixHoldoffSet (h : Hdr) (v us : Nat)
  /-- PARTITION_SHARES_SET (R467): Resizes partitions in dynamic mode by shrink, retire, scrub and grow. -/
  | partitionSharesSet (h : Hdr) (blk : HostBlk (List Nat))
  /-- PARTITION_INFO (R663): Writes a copy of the partition's share-status block, and the unit map for the manager. -/
  | partitionInfo (h : Hdr) (blk : OutBlk)
  /-- MIDWAY_PRIORITY_SET (R88): Installs a new Midway priority table as a device-wide change. -/
  | midwayPrioritySet (h : Hdr) (blk : HostBlk (List Nat))
  /-- HOST_WINDOW_SET (R445): Writes a host window entry under a new epoch of its partition. -/
  | hostWindowSet (h : Hdr) (n : Nat) (w : HostWindow) (rsvZero : Bool)
  /-- APERTURE_SET (R433): Maps or unmaps one 16 MiB aperture entry of a tenant function's BAR2. -/
  | apertureSet (h : Hdr) (vf entry mapped base : Nat)
  /-- HOST_TIMEOUT_SET (R453): Sets the device-wide host DMA completion timeout. -/
  | hostTimeoutSet (h : Hdr) (us : Nat)
  /-- ISLAND_RELEASE (R54): Self-tests a quarantined tumbler and returns it to service if allowed. -/
  | islandRelease (h : Hdr) (island : Nat) (passes : Bool)
  /-- TENANT_ATTACH (R471): Attaches a virtual function, writes its share-status block and assigns parley doorbells. -/
  | tenantAttach (h : Hdr) (vf addr pasid : Nat) (pasidEn : Bool) (caps : Option (HostBlk (List Nat))) (writable : Bool)
  /-- TENANT_DETACH (R472): Detaches a tenant in stages, closing its objects and releasing its parley doorbells. -/
  | tenantDetach (h : Hdr) (vf : Nat)
  /-- TENANT_LIMITS_SET (R462): Sets one tenant's cap on one resource code. -/
  | tenantLimitsSet (h : Hdr) (vf code cap : Nat)
  /-- TENANT_MEMORY_SET (R464): Sets the owner tenant of a range of HBM or troupe granules under a new epoch. -/
  | tenantMemorySet (h : Hdr) (code first count tenant : Nat)
  /-- EPOCH_INFO (R511): Returns the partition's current and retiring epochs. -/
  | epochInfo (h : Hdr)
  /-- EPOCH_WAIT (R512): Completes when the partition has a single live epoch at or newer than the one named. -/
  | epochWait (h : Hdr) (e : Nat)
  /-- LEDGER_AUDIT (R51): Writes one ledger audit record per permitted instance into the named buffer. -/
  | ledgerAudit (h : Hdr) (blk : OutBlk) (kind index : Nat)
  /-- SESSION_OPEN (R155): Opens a session context, drawing jitter buffer cells, under a new epoch. -/
  | sessionOpen (h : Hdr) (n : Nat) (blk : HostBlk SessionBlock)
  /-- SESSION_MODIFY (R154): Changes the modifiable fields of a session context under a new epoch. -/
  | sessionModify (h : Hdr) (n : Nat) (blk : HostBlk SessionBlock)
  /-- SESSION_CLOSE (R156): Moves a session context to closing under a new epoch and ends its transmit key binding. -/
  | sessionClose (h : Hdr) (n : Nat)
  /-- SESSION_STATS (R157): Returns the session's 64-bit counters. -/
  | sessionStats (h : Hdr) (n : Nat) (blk : OutBlk)
  /-- FEED_RING_BIND (R174): Binds a feed ring and zero-fills its entry array. -/
  | feedRingBind (h : Hdr) (r : RingBind)
  /-- RETURN_RING_BIND (R174): Binds a return ring with its binding and zero-fills its entry array. -/
  | returnRingBind (h : Hdr) (r : RingBind) (binding : Nat)
  /-- FEED_RING_RESET (R181): Clears a feed ring's ERROR, sets both counts to 0 and zero-fills its entries. -/
  | feedRingReset (h : Hdr) (n : Nat)
  /-- RETURN_RING_RESET (R181): Clears a return ring's ERROR, sets both counts to 0 and zero-fills its entries. -/
  | returnRingReset (h : Hdr) (n : Nat)
  /-- FEED_RING_UNBIND (R513): Unbinds a feed ring under a new epoch. -/
  | feedRingUnbind (h : Hdr) (n : Nat)
  /-- RETURN_RING_UNBIND (R513): Unbinds a return ring under a new epoch. -/
  | returnRingUnbind (h : Hdr) (n : Nat)
  /-- FEED_SEED (R188): Seeds the partition's stochastic rounding generator when its epoch is adopted. -/
  | feedSeed (h : Hdr) (seed : Nat)
  /-- KEY_LOAD (R197): Reads an 80-byte key block once and loads a free key slot, returning its KCV. -/
  | keyLoad (h : Hdr) (slot : Nat) (blk : HostBlk KeyBlock)
  /-- KEY_INFO (R199): Returns a key slot's state, type, owner, SPENT flag, binding count and KCV. -/
  | keyInfo (h : Hdr) (slot : Nat)
  /-- KEY_DESTROY (R203): Moves a loaded, unbound key slot to zeroising. -/
  | keyDestroy (h : Hdr) (slot : Nat)
  /-- CIPHER_SELFTEST (R210): Runs the known-answer tests in ascending ALG order; a failure faults island 139. -/
  | cipherSelftest (h : Hdr) (failing : Nat)
  /-- ACT_LOAD (R219): Validates an act image whole and writes it into every tumbler of the partition. -/
  | actLoad (h : Hdr) (act : Nat) (image : HostBlk (List Byte))
  /-- ACT_UNLOAD (R221): Zero-fills an act's instruction range on every tumbler unless a binding names it. -/
  | actUnload (h : Hdr) (act : Nat)
  /-- ACT_BIND (R223): Creates a binding of an act to events under a new epoch. -/
  | actBind (h : Hdr) (b : ActBinding)
  /-- ACT_REBIND (R222): Changes the rebindable fields of a binding under a new epoch. -/
  | actRebind (h : Hdr) (b : ActBinding)
  /-- ACT_UNBIND (R223): Removes a binding that nothing names. -/
  | actUnbind (h : Hdr) (n : Nat)
  /-- ACT_TIMER_SET (R516): Sets or disables one act timer of the partition. -/
  | actTimerSet (h : Hdr) (timer binding period first : Nat)
  /-- ACT_DOORBELL_SET (R516): Binds or unbinds one act doorbell of the partition. -/
  | actDoorbellSet (h : Hdr) (doorbell binding : Nat)
  /-- ACT_STATS (R234): Returns a binding's counters and sticky maxima, optionally clearing the maxima. -/
  | actStats (h : Hdr) (n clear : Nat) (blk : OutBlk)
  /-- PORT_MODE_SET (R120): Changes a network port's breakout mode as a device-wide change and retrains its links. -/
  | portModeSet (h : Hdr) (port mode : Nat)
  /-- PORT_CONFIG_SET (R517): Sets a logical port's frame size, VLAN, flow-control thresholds and watchdogs. -/
  | portConfigSet (h : Hdr) (p : PortConfig)
  /-- VLAN_MAP_SET (R517): Maps one VLAN ID of a logical port to a partition. -/
  | vlanMapSet (h : Hdr) (lport vid part : Nat)
  /-- MAC_FILTER_SET (R517): Writes one unicast or multicast MAC filter entry of a logical port. -/
  | macFilterSet (h : Hdr) (lport list_ index : Nat) (valid : Bool) (mac : Nat)
  /-- RXRING_CREATE (R517): Creates a receive ring and assigns its doorbells. -/
  | rxringCreate (h : Hdr) (r : RxRingCreate)
  /-- RXRING_DESTROY (R517): Destroys a receive ring under a new epoch. -/
  | rxringDestroy (h : Hdr) (ring : Nat)
  /-- RXRULE_SET (R126): Installs or removes a receive rule. -/
  | rxruleSet (h : Hdr) (rule : Nat) (valid : Bool) (blk : HostBlk RxRule)
  /-- TXQ_CREATE (R135): Creates a transmit queue with its shaper, meter and doorbells. -/
  | txqCreate (h : Hdr) (q : TxqCreate)
  /-- TXQ_DESTROY (R517): Destroys a transmit queue under a new epoch. -/
  | txqDestroy (h : Hdr) (q : Nat)
  /-- TX_CANCEL (R519): Cancels one transmit descriptor at the selection point and reports its outcome. -/
  | txCancel (h : Hdr) (q count : Nat)
  /-- QUEUE_FLUSH (R145): Flushes every queued frame of a transmit queue at the selection point. -/
  | queueFlush (h : Hdr) (q : Nat)
  /-- METER_SET (R131): Configures a Turnstile meter with a bucket change mode. -/
  | meterSet (h : Hdr) (m : MeterSet)
  /-- SHAPER_SET (R144): Configures a queue or class shaper with a bucket change mode. -/
  | shaperSet (h : Hdr) (shaper mode rate size : Nat)
  /-- CLASS_SET (R138): Sets the STRICT or WEIGHTED configuration of a logical port's classes. -/
  | classSet (h : Hdr) (lport : Nat) (ws : List Nat)
  /-- GCL_SET (R140): Installs or removes a port's gate control list after the window check. -/
  | gclSet (h : Hdr) (port n cycle base : Nat) (blk : HostBlk (List GclEntry))
  /-- QUEUE_SAMPLE_SET (R147): Binds or unbinds a queue's depth and delay sampler. -/
  | queueSampleSet (h : Hdr) (x : SampleSet)
  /-- QUEUE_STATS (R148): Returns a queue's counters and high-water records, optionally read-clearing them. -/
  | queueStats (h : Hdr) (q : Nat) (clear : Bool) (blk : OutBlk)
  /-- PORT_STATS (R149): Returns a logical port's counters or a port's ingress high-water mark. -/
  | portStats (h : Hdr) (n : Nat) (clear : Bool) (blk : OutBlk)
  /-- GDP_PORT_SET (R517): Sets the partition's GDP UDP port and meter. -/
  | gdpPortSet (h : Hdr) (port meter : Nat)
  /-- GDP_REGION_SET (R325): Writes or removes a GDP region entry under a new epoch. -/
  | gdpRegionSet (h : Hdr) (r : RegionSet)
  /-- GDP_CONNECT (R327): Creates a GDP connection in CONNECTING and assigns its ring doorbells. -/
  | gdpConnect (h : Hdr) (blk : HostBlk ConnectBlock)
  /-- GDP_MODIFY (R328): Changes a connection's queue, paths, window limits and timeouts under a new epoch. -/
  | gdpModify (h : Hdr) (m : GdpModify)
  /-- GDP_CLOSE (R328): Moves a connection to DRAINING, or an ERROR connection to CLOSED. -/
  | gdpClose (h : Hdr) (n : Nat)
  /-- GDP_STATS (R355): Returns a connection's counters and window state. -/
  | gdpStats (h : Hdr) (n : Nat) (blk : OutBlk)
  /-- MOVER_QUEUE_CREATE (R356): Creates a data mover queue and assigns its doorbells. -/
  | moverQueueCreate (h : Hdr) (q : QueueCreate)
  /-- MOVER_QUEUE_FLUSH (R370): Completes every unstarted descriptor of a mover queue FLUSHED. -/
  | moverQueueFlush (h : Hdr) (q : Nat)
  /-- MOVER_QUEUE_DESTROY (R370): Flushes a mover queue, waits for started descriptors and frees it. -/
  | moverQueueDestroy (h : Hdr) (q : Nat)
  /-- MOVER_STATS (R373): Returns a mover queue's counters. -/
  | moverStats (h : Hdr) (q : Nat) (blk : OutBlk)
  /-- CODEC_MODE_SET (R376): Sets a codec instance's mode and its ageing, idle and watchdog times. -/
  | codecModeSet (h : Hdr) (i mode age idle watchdog : Nat)
  /-- CODEC_STREAM_OPEN (R378): Opens a codec stream on an instance and assigns its doorbells. -/
  | codecStreamOpen (h : Hdr) (n : Nat) (blk : HostBlk CodecOpen)
  /-- CODEC_STREAM_MODIFY (R382): Changes a stream's priority or rate control under a new epoch. -/
  | codecStreamModify (h : Hdr) (m : CodecModify)
  /-- CODEC_STREAM_FLUSH (R396): Completes every untaken descriptor of a stream FLUSHED. -/
  | codecStreamFlush (h : Hdr) (n : Nat)
  /-- CODEC_STREAM_CLOSE (R396): Flushes a stream, waits for its running picture, returns its buffers and frees it. -/
  | codecStreamClose (h : Hdr) (n : Nat)
  /-- CODEC_BUFFER_REGISTER (R379): Registers a picture buffer as an index of a stream. -/
  | codecBufferRegister (h : Hdr) (x : CodecBuffer)
  /-- CODEC_STATS (R398): Returns a stream's counters. -/
  | codecStats (h : Hdr) (n : Nat) (blk : OutBlk)
  /-- STORAGE_PORT_SET (R400): Changes a storage root port's mode and retrains its links. -/
  | storagePortSet (h : Hdr) (port mode : Nat)
  /-- DRIVE_ADMIN (R526): Passes one permitted NVMe admin command to a drive and returns its completion. -/
  | driveAdmin (h : Hdr) (drive : Nat) (blk : HostBlk (List Byte)) (buf len : Nat) (answer : DriveAnswer)
  /-- VOLUME_CREATE (R404): Creates a volume in CREATING and starts its scrub unless PRESERVE. -/
  | volumeCreate (h : Hdr) (v : VolumeCreate)
  /-- VOLUME_DESTROY (R406): Destroys a volume under a new epoch. -/
  | volumeDestroy (h : Hdr) (n : Nat)
  /-- STOR_QUEUE_CREATE (R408): Creates a storage queue with its bounce cells and doorbells. -/
  | storQueueCreate (h : Hdr) (q : QueueCreate)
  /-- STOR_QUEUE_FLUSH (R413): Completes every unstarted storage descriptor FLUSHED. -/
  | storQueueFlush (h : Hdr) (q : Nat)
  /-- STOR_QUEUE_DESTROY (R413): Flushes a storage queue, waits for started descriptors and frees its cells. -/
  | storQueueDestroy (h : Hdr) (q : Nat)
  /-- NVMET_SUBSYSTEM_SET (R418): Defines or removes an NVMe/TCP target subsystem of a partition. -/
  | nvmetSubsystemSet (h : Hdr) (sub valid : Nat) (blk : HostBlk SubsystemBlock)
  /-- NVMET_LISTENER_SET (R418): Binds or removes an NVMe/TCP listener. -/
  | nvmetListenerSet (h : Hdr) (l : ListenerSet)
  /-- NVMEI_CONNECT (R419): Connects the partition as an NVMe/TCP initiator to a remote subsystem. -/
  | nvmeiConnect (h : Hdr) (blk : HostBlk InitiatorBlock)
  /-- NVMEI_DISCONNECT (R525): Disconnects an initiator controller that backs no volume. -/
  | nvmeiDisconnect (h : Hdr) (c : Nat)
  /-- STORAGE_TIMEOUT_SET (R420): Sets the storage command timeout. -/
  | storageTimeoutSet (h : Hdr) (seconds : Nat)
  /-- STORAGE_STATS (R424): Returns a volume's or a drive's counters. -/
  | storageStats (h : Hdr) (kind n : Nat) (blk : OutBlk)
  /-- TRAPEZE_ENABLE (R309): Starts training a Trapeze port and completes when it first reaches ACTIVE or DEGRADED. -/
  | trapezeEnable (h : Hdr) (p : Nat)
  /-- TRAPEZE_DISABLE (R527): Takes a Trapeze port DOWN. -/
  | trapezeDisable (h : Hdr) (p : Nat)
  /-- TRAPEZE_WINDOW_SET (R312): Writes an outbound Trapeze window entry under a new epoch. -/
  | trapezeWindowSet (h : Hdr) (p k : Nat) (e : TpWindow) (rsvZero : Bool)
  /-- TRAPEZE_INWINDOW_SET (R314): Writes an inbound Trapeze window entry naming HBM or stage memory. -/
  | trapezeInwindowSet (h : Hdr) (p k : Nat) (e : TpWindow) (rsvZero : Bool)
  /-- TRAPEZE_TELEM_SET (R316): Binds or unbinds a telemetry ring for a port's TELEMETRY messages. -/
  | trapezeTelemSet (h : Hdr) (p base log2 vector : Nat)
  /-- TRAPEZE_SUM (R317): Opens a count or scalar sum lane operation over the named members. -/
  | trapezeSum (h : Hdr) (c : SumCmd)
  /-- TRAPEZE_WATCHDOG_SET (R322): Sets a port's credit watchdog and read timeout. -/
  | trapezeWatchdogSet (h : Hdr) (p creditUs readUs : Nat)
  /-- TRAPEZE_STATS (R527): Returns a Trapeze port's counters. -/
  | trapezeStats (h : Hdr) (p : Nat) (blk : OutBlk)
  /-- PRESS_ARM (R535): Reads an arm block and arms a checkpoint or restore job after its checks. -/
  | pressArm (h : Hdr) (jn : Nat) (blk : HostBlk ArmBlock)
  /-- PRESS_CHECKPOINT (R540): Starts a checkpoint of an armed job at a step number, beginning with the Set. -/
  | pressCheckpoint (h : Hdr) (jn : Nat) (flush : Bool) (step : Nat)
  /-- PRESS_RESTORE (R548): Checks a manifest and starts restoring a wheel onto an armed restore job. -/
  | pressRestore (h : Hdr) (jn : Nat) (blk : HostBlk Manifest)
  /-- PRESS_DISARM (R536): Disarms an idle job and returns its connections to their rings. -/
  | pressDisarm (h : Hdr) (jn : Nat)
  /-- PRESS_STATUS (R552): Returns a job's state, stage, step number and generation. -/
  | pressStatus (h : Hdr) (jn : Nat)
  /-- DEVICE_INFO (R665): Returns the unit identifier, interface version, image, boot slot, share mode and revision. -/
  | deviceInfo (h : Hdr)
  /-- DEVICE_CONFIG_SET (R559): Writes the inactive copy of the device configuration block. -/
  | deviceConfigSet (h : Hdr) (blk : HostBlk ConfigBlock) (len : Nat)
  /-- TIME_SET (R567): Steps Device Time, sets the RTC and clears TIME_INVALID. -/
  | timeSet (h : Hdr) (time : Nat)
  /-- TIME_ADJUST (R565): Sets the frequency offset of Device Time and the cadence clock. -/
  | timeAdjust (h : Hdr) (ppb : Nat)
  /-- ALARM_SET (R571): Sets one alarm's time, period and flags and clears its status. -/
  | alarmSet (h : Hdr) (n flags time period : Nat)
  /-- PLAYBILL_UPDATE (R576): Checks a content block and starts a three-phase Playbill update. -/
  | playbillUpdate (h : Hdr) (blk : HostBlk ContentBlock)
  /-- RIND_READ (R614): Writes a Rind section read from the shadow. -/
  | rindRead (h : Hdr) (section_ : Nat) (blk : OutBlk)
  /-- RIND_COMMIT (R611): Triggers a DELTA commit and completes after its read-back. -/
  | rindCommit (h : Hdr)
  /-- BOOTH_ENABLE (R484): A BOOTH_CTRL write with ENABLE 1 checks rings, version and features and makes the booth READY. -/
  | boothEnable (fn : Nat) (negotiating : Bool)
  /-- BOOTH_DISABLE (R485): A BOOTH_CTRL write with ENABLE 0 stops fetching and ends fetched commands without records. -/
  | boothDisable (fn : Nat)
  /-- BOOTH_STOP_COMPLETE (R485): The last fetched command of a stopping booth ends; STOPPING clears and READY reads 0. -/
  | boothStopComplete (fn : Nat)
  /-- BOOTH_FETCH_VISIT (R492): Booth service visits a booth in round robin and issues a read of up to 8 entries. -/
  | boothFetchVisit
  /-- SUBMISSION_READ_DONE (R492): A submission entry read completes and the fetched commands are checked and handed over. -/
  | submissionReadDone (fn : Nat) (x : HostRdAns)
  /-- COMMAND_HANDOFF (R494): A waiting command is handed to its component once its FENCE or the component's restart allows. -/
  | commandHandoff (fn id : Nat)
  /-- COMPONENT_FAULT (R479): A firmware component faults and is stopped and reloaded alone, its held commands completing FW_RESTARTED. -/
  | componentFault (c : Nat)
  /-- SUPERVISOR_TIMEOUT (R479): A component fails to answer its core's supervisor for 20 ms. -/
  | supervisorTimeout (c : Nat)
  /-- COMPONENT_RESUME (R479): A restarted component resumes and takes the commands waiting in booth service. -/
  | componentResume (c : Nat)
  /-- BOOTH_SUBMISSION_DOORBELL (R488): A write of the submission producer count is accepted or discarded. -/
  | boothSubmissionDoorbell (fn size v : Nat)
  /-- BOOTH_COMPLETION_DOORBELL (R496): A write of the completion consumer count frees completion entries and identifiers. -/
  | boothCompletionDoorbell (fn size v : Nat)
  /-- BOOTH_EVENT_DOORBELL (R101): A write of the event consumer count frees event entries. -/
  | boothEventDoorbell (fn size v : Nat)
  /-- RING_PRODUCER_DOORBELL (R437): A ring producer doorbell write is accepted or counted in DB_DISCARDS. -/
  | ringProducerDoorbell (fn off size v : Nat)
  /-- RING_CONSUMER_DOORBELL (R437): A ring consumer doorbell write is accepted or counted in DB_DISCARDS. -/
  | ringConsumerDoorbell (fn off size v : Nat)
  /-- ACT_DOORBELL_WRITE (R226): A write to an act doorbell raises or coalesces a doorbell event, or is discarded. -/
  | actDoorbellWrite (fn k size v : Nat)
  /-- PARLEY_DOORBELL (R475): A write to a parley doorbell places or schedules a PARLEY record on the other side's booth. -/
  | parleyDoorbell (fn off size v : Nat)
  /-- PARLEY_INTERVAL_END (R475): The 10 µs parley interval ends and a pending PARLEY record is placed. -/
  | parleyIntervalEnd (vf : Nat) (up : Bool)
  /-- HOST_BAR0_ACCESS (R434): A host access to BAR0 outside the doorbell pages is performed or refused. -/
  | hostBar0Access (fn off : Nat) (x : BarAccess)
  /-- HOST_BAR2_ACCESS (R434): A host access through BAR2 is split, checked and performed or refused. -/
  | hostBar2Access (fn off : Nat) (x : BarAccess)
  /-- MSIX_TABLE_WRITE (R439): A write to an MSI-X table entry or control may unmask and send a pending message. -/
  | msixTableWrite (fn : Nat) (w : MsixWrite)
  /-- MSIX_HOLDOFF_END (R440): A vector's holdoff ends and one message covering earlier raises is sent. -/
  | msixHoldoffEnd (fn v : Nat)
  /-- VF_ENABLE_CHANGE (R429): A change of VF Enable or NumVFs creates or removes virtual functions. -/
  | vfEnableChange (enable : Bool) (n : Nat)
  /-- FUNCTION_LEVEL_RESET (R454): The host initiates a function-level reset of a tenant function. -/
  | functionLevelReset (vf : Nat)
  /-- FLR_READY (R454): The reset function becomes ready and TENANT_RESET is placed on the manager booth. -/
  | flrReady (vf : Nat)
  /-- MANAGER_FLR (R455): A function-level reset of the manager function resets only its own state. -/
  | managerFlr
  /-- D_STATE_CHANGE (R591): A function enters or leaves D3hot. -/
  | dStateChange (fn : Nat) (d3 : Bool)
  /-- HOST_READ_COMPLETION (R451): A completion for a device read of host memory arrives, with data or an error. -/
  | hostReadCompletion (fn tag : Nat) (x : HostRdAns)
  /-- HOST_DMA_TIMEOUT (R453): A device read of host memory exceeds its timeout and completes HOST_ABORT. -/
  | hostDmaTimeout (tag : Nat)
  /-- TRANSLATION_COMPLETION (R448): A Translation Completion returns and the held request is issued or fails. -/
  | translationCompletion (fn : Nat) (pasid : Option Nat) (addr : Nat) (x : TransAns)
  /-- INVALIDATE_REQUEST (R449): An ATS Invalidate Request removes entries and is answered after their users finish. -/
  | invalidateRequest (fn : Nat) (pasid : Option Nat) (base size tag : Nat)
  /-- HOST_LINK_UP (R425): The host link trains, reporting a HOST_LINK event if below x8 or 32 GT/s. -/
  | hostLinkUp (rate width : Nat)
  /-- HOST_LINK_FATAL (R451): A fatal host link error such as surprise down is detected. -/
  | hostLinkFatal (down : Bool)
  /-- MIDWAY_GRANT (R86): A target grants one head request and performs the transaction or completes it with a status. -/
  | midwayGrant (t : Nat) (rs : List MwReq)
  /-- LOCK_WATCHDOG (R90): A locked sequence exceeds 8 transactions or 2 µs and its target is released. -/
  | lockWatchdog (t : Nat)
  /-- PATROL_SCRUB (R82): The patrol scrubber reads one unit, correcting or reporting errors. -/
  | patrolScrub (a : Nat) (corrected uncorrectable : Bool)
  /-- HANDSHAKE_TRANSFER (R40): One four-phase transfer on a handshake channel spends a ticket and fills a slot. -/
  | handshakeTransfer (receiver sender traffic i freed returned : Nat)
  /-- LEDGER_AUDIT_SAMPLE (R48): The ledger auditor samples an instance of a hardware-kept quantity. -/
  | ledgerAuditSample (kind island index held inUse : Nat)
  /-- EPOCH_ADOPT (R59): An island adopts a committed epoch at its local boundary; the last adoption completes the command. -/
  | epochAdopt (p i : Nat)
  /-- EPOCH_RETIRE (R59): The last work tagged with the old epoch reaches a rest point and the old epoch retires. -/
  | epochRetire (p : Nat)
  /-- RESIZE_SCRUB_DONE (R467): The scrub of moving units completes and the grow stage of a resize runs. -/
  | resizeScrubDone
  /-- RX_FRAME (R124): A frame arrives on a logical port and is checked, classified, metered and steered. -/
  | rxFrame (lport : Nat) (d : List Byte) (fcsOk fecOk : Bool) (corrected : Nat)
  /-- RX_PFC_FRAME (R134): A received PFC frame makes a class ineligible for the paused time. -/
  | rxPfcFrame (lport : Nat) (quanta : List (Nat × Nat))
  /-- PFC_PAUSE_EXPIRE (R134): A received pause time ends and the class is eligible again. -/
  | pfcPauseExpire (lport prio : Nat)
  /-- PFC_REFRESH (R132): A sent pause is refreshed before it expires. -/
  | pfcRefresh (lport prio : Nat)
  /-- PAUSE_WATCHDOG (R102): Pause held too long on a priority raises PAUSE_STUCK and stops honouring pause. -/
  | pauseWatchdog (lport prio : Nat)
  /-- PAUSE_QUIET_EXPIRE (R102): 1 ms without a pause frame lets the port honour pause again. -/
  | pauseQuietExpire (lport prio : Nat)
  /-- RX_HOLD_RELEASE (R133): A destination accepts a held lossless frame, possibly sending XON. -/
  | rxHoldRelease (lport prio : Nat)
  /-- RX_HOLD_MAX_EXPIRE (R133): A held lossless frame reaches RX_HOLD_MAX and is dropped as DROP_HOLD. -/
  | rxHoldMaxExpire (lport prio : Nat)
  /-- CAROUSEL_SELECT (R137): The MAC can take a frame and the Carousel selects one and grants it. -/
  | carouselSelect (lport : Nat)
  /-- TX_FRAME_END (R136): A frame leaves the wire and its transmit completion is written. -/
  | txFrameEnd (lport time : Nat)
  /-- LINK_DOWN (R146): A logical port's link goes down and its frames complete FLUSHED LINK_DOWN. -/
  | linkDown (lport : Nat)
  /-- LINK_UP (R146): A logical port's link comes up and a LINK_STATE record is placed. -/
  | linkUp (lport : Nat)
  /-- GCL_CYCLE_START (R140): A gate control list cycle starts, installing a pending list and counting CAR_TURN. -/
  | gclCycleStart (port : Nat)
  /-- BUCKET_TICK (R128): A 1 µs tick refills meter and shaper buckets. -/
  | bucketTick
  /-- QUEUE_SAMPLE_TICK (R147): A sampler period ends and a queue sample record is written or skipped. -/
  | queueSampleTick (q : Nat)
  /-- CIPHER_INTAKE (R205): A packet leaves its partition's intake queue once its granules are reserved and decryption starts. -/
  | cipherIntake (p : Nat)
  /-- TAG_VERIFY (R206): Decryption ends and the tag verifies, releasing the plaintext, or fails. -/
  | tagVerify (k : Nat)
  /-- RELEASE_COMPLETE (R206): Every release write of a packet completes and its granules return to free. -/
  | releaseComplete (k : Nat)
  /-- GRANULE_SCRUB_DONE (R207): Scrubbed granules return to free. -/
  | granuleScrubDone (k : Nat)
  /-- FRAME_TICK (R165): A session's cadence tick raises a frame-due event, frees a slot and advances e. -/
  | frameTick (n : Nat)
  /-- SEND_REQUEST (R172): The session engine builds, protects and queues an outbound RTP packet. -/
  | sendRequest
  /-- SHIFT_REQUEST (R167): The session engine shifts a session's later ticks by one period. -/
  | shiftRequest
  /-- FEED_REQUEST (R178): The format stage checks a FEED, reserves ring space and converts and writes the tensor. -/
  | feedRequest
  /-- FEED_ENTRY_WRITE (R178): After every data write completes, the feed ring entry is written. -/
  | feedEntryWrite (ring : Nat)
  /-- RETURN_READ_REQUEST (R180): The format stage checks and converts a return entry's tensor into troupe memory. -/
  | returnReadRequest (entry data : List Byte) (fail : Option Status)
  /-- RETURN_RELEASE_REQUEST (R180): A return entry is released and CONS advanced past released entries. -/
  | returnReleaseRequest
  /-- NOTE_REQUEST (R235): A NOTE places an ACT_NOTE record on the owning function's booth. -/
  | noteRequest
  /-- RETURN_PROD_POLL (R179): Every 1 ms the session engine reads each bound return ring's PROD. -/
  | returnProdPoll (ring : Nat) (sessions : List Nat)
  /-- TUMBLER_DISPATCH (R228): An idle tumbler takes the chosen event and starts an invocation. -/
  | tumblerDispatch (n : Nat)
  /-- ACT_TIMER_EXPIRE (R225): An act timer falls due and raises or coalesces a timer event. -/
  | actTimerExpire (p k : Nat)
  /-- ALLOWANCE_OVERRUN (R232): An invocation's cycle count reaches its allowance and it ends. -/
  | allowanceOverrun (n : Nat)
  /-- PORT_REPLY (R236): A port reply arrives at the tumbler, ending a TAKE stall if one waits. -/
  | portReply (n port stall : Nat)
  /-- LOAD_RETURN (R216): A Midway load's data returns and the stalled load completes or faults. -/
  | loadReturn (n stall : Nat)
  /-- STORE_FAILURE (R259): A store completes with a failure after the tumbler moved on, counted in FAULTS. -/
  | storeFailure (n : Nat)
  /-- ADD (R264): Adds two words. -/
  | add (n : Nat)
  /-- ADC (R264): Adds two words with carry. -/
  | adc (n : Nat)
  /-- SUB (R264): Subtracts two words. -/
  | sub (n : Nat)
  /-- SBC (R264): Subtracts two words with borrow. -/
  | sbc (n : Nat)
  /-- CMP (R264): Sets flags from a subtraction. -/
  | cmp (n : Nat)
  /-- NEG (R264): Negates a word. -/
  | neg (n : Nat)
  /-- ADDS (R264): Saturating add. -/
  | adds (n : Nat)
  /-- SUBS (R264): Saturating subtract. -/
  | subs (n : Nat)
  /-- AND (R264): Bitwise and. -/
  | and (n : Nat)
  /-- OR (R264): Bitwise or. -/
  | or (n : Nat)
  /-- XOR (R264): Bitwise exclusive or. -/
  | xor (n : Nat)
  /-- ANDN (R264): And with complement. -/
  | andn (n : Nat)
  /-- SHL (R265): Shift left. -/
  | shl (n : Nat)
  /-- SHR (R265): Logical shift right. -/
  | shr (n : Nat)
  /-- SAR (R265): Arithmetic shift right. -/
  | sar (n : Nat)
  /-- ROR (R265): Rotate right within 36 bits. -/
  | ror (n : Nat)
  /-- BFX (R266): Extracts a bit field zero-extended. -/
  | bfx (n : Nat)
  /-- BFXS (R266): Extracts a bit field sign-extended. -/
  | bfxs (n : Nat)
  /-- BFI (R266): Inserts a bit field. -/
  | bfi (n : Nat)
  /-- CNT (R267): Counts leading zeros, ones, marks or trailing zeros. -/
  | cnt (n : Nat)
  /-- NPERM (R268): Permutes nonets of two words. -/
  | nperm (n : Nat)
  /-- ADDP (R269): Adds halves as independent lanes. -/
  | addp (n : Nat)
  /-- SUBP (R269): Subtracts halves as independent lanes. -/
  | subp (n : Nat)
  /-- ADDPS (R269): Saturating lane add of halves. -/
  | addps (n : Nat)
  /-- SUBPS (R269): Saturating lane subtract of halves. -/
  | subps (n : Nat)
  /-- MUL (R270): Low word of a product. -/
  | mul (n : Nat)
  /-- MULHS (R270): High word of a signed product. -/
  | mulhs (n : Nat)
  /-- MULHU (R270): High word of an unsigned product. -/
  | mulhu (n : Nat)
  /-- MAC (R270): Multiply-accumulate modulo 2^36. -/
  | mac (n : Nat)
  /-- MACS (R270): Saturating multiply-accumulate. -/
  | macs (n : Nat)
  /-- MACP (R270): Saturating accumulate of two half products. -/
  | macp (n : Nat)
  /-- SAT (R271): Clips a word to n bits signed. -/
  | sat (n : Nat)
  /-- ADDI (R272): Adds a signed immediate. -/
  | addi (n : Nat)
  /-- CMPI (R272): Compares with a signed immediate. -/
  | cmpi (n : Nat)
  /-- ANDI (R272): And with an immediate. -/
  | andi (n : Nat)
  /-- ORI (R272): Or with an immediate. -/
  | ori (n : Nat)
  /-- XORI (R272): Exclusive or with an immediate. -/
  | xori (n : Nat)
  /-- SETH (R273): Sets the upper half and clears the lower. -/
  | seth (n : Nat)
  /-- SETL (R273): Sets the lower half. -/
  | setl (n : Nat)
  /-- LDW (R274): Loads a word. -/
  | ldw (n : Nat)
  /-- STW (R274): Stores a word. -/
  | stw (n : Nat)
  /-- LDH (R274): Loads a half zero-extended. -/
  | ldh (n : Nat)
  /-- LDHS (R274): Loads a half sign-extended. -/
  | ldhs (n : Nat)
  /-- STH (R274): Stores a half. -/
  | sth (n : Nat)
  /-- LDN (R274): Loads a nonet. -/
  | ldn (n : Nat)
  /-- STN (R274): Stores a nonet. -/
  | stn (n : Nat)
  /-- AADD (R275): Indivisible fetch-add in troupe memory. -/
  | aadd (n : Nat)
  /-- ACAS (R275): Indivisible compare-swap in troupe memory. -/
  | acas (n : Nat)
  /-- B (R277): Conditional direct branch. -/
  | b (n : Nat)
  /-- BR (R277): Conditional register branch. -/
  | br (n : Nat)
  /-- CALL (R277): Conditional direct call. -/
  | call (n : Nat)
  /-- CALLR (R278): Conditional register call. -/
  | callr (n : Nat)
  /-- RET (R277): Conditional return through W31. -/
  | ret (n : Nat)
  /-- LOOPI (R252): Starts an immediate-count loop. -/
  | loopi (n : Nat)
  /-- LOOPR (R252): Starts a register-count loop. -/
  | loopr (n : Nat)
  /-- LEXIT (R252): Leaves the innermost loop to a target. -/
  | lexit (n : Nat)
  /-- POST (R281): Sends a request from troupe memory to a port. -/
  | post (n : Nat)
  /-- TAKE (R282): Delivers the oldest reply of a port, stalling until one is present. -/
  | take (n : Nat)
  /-- POLL (R282): Returns the number of replies present on a port. -/
  | poll (n : Nat)
  /-- MFS (R244): Reads a special register. -/
  | mfs (n : Nat)
  /-- MTS (R283): Writes a special register. -/
  | mts (n : Nat)
  /-- ENDACT (R231): Ends the invocation with OK after earlier stores complete. -/
  | endact (n : Nat)
  /-- BRK (R283): Raises the break exception. -/
  | brk (n : Nat)
  /-- FLIT_RX (R306): A flit arrives and is accepted, NAKed or discarded, with credits and acknowledgements taken. -/
  | flitRx (p : Nat) (f : Flit)
  /-- ACK_TIMER (R306): An acknowledgement falls due 100 ns after an unacknowledged flit. -/
  | ackTimer (p : Nat)
  /-- TP_WRITE (R303): An accelerator WRITE through an inbound window is performed in arrival order. -/
  | tpWrite (x : TpAccess) (data : List Byte)
  /-- TP_READ (R314): An accelerator READ through an inbound window is performed and answered. -/
  | tpRead (x : TpAccess) (len : Nat)
  /-- TP_FADD (R314): An accelerator FADD through an inbound window is performed and answered with ATCOMP. -/
  | tpFadd (x : TpAccess) (addend : Nat)
  /-- TP_CAS (R314): An accelerator CAS through an inbound window is performed and answered with ATCOMP. -/
  | tpCas (x : TpAccess) (compare swap : Nat)
  /-- RDCOMP (R305): A read completion arrives and completes its read or is discarded as late. -/
  | rdcomp (p tag : Nat) (data : List Byte)
  /-- WCOMP (R304): A write completion covers every earlier write not answered by ERR. -/
  | wcomp (p tag : Nat)
  /-- ATCOMP (R305): An atomic completion returns the old value. -/
  | atcomp (p tag old : Nat)
  /-- TP_ERR (R304): An ERR response maps to a device status reported to the issuing operation. -/
  | tpErr (p tag code : Nat)
  /-- PARAM (R300): A PARAM message is checked for revision and credits during training. -/
  | param (p : Nat) (d : List Byte)
  /-- RING_SIGNAL (R315): An accelerator signals a return ring, and the device reads its control block. -/
  | ringSignal (p ring prod : Nat) (sessions : List Nat)
  /-- BOUNDARY (R319): An accelerator reports reaching a step boundary. -/
  | boundary (p job stepNo : Nat)
  /-- SPARE_REQ (R293): A partner asks to move a faulted lane to the spare, answered with SPARE_ACK. -/
  | spareReq (p fibre lane : Nat)
  /-- SPARE_ACK (R293): The partner names the flit at which a lane moves to its spare. -/
  | spareAck (p fibre lane fs : Nat)
  /-- TELEMETRY (R316): A telemetry message is time-stamped, kept and optionally written to a ring. -/
  | telemetry (p seq : Nat) (data : List Byte)
  /-- LANE_SWAP (R293): At flit FS a lane moves to its spare, or a fibre is dropped and the port goes DEGRADED. -/
  | laneSwap (p : Nat)
  /-- RING_LOCK_LOSS (R292): A ring's error exceeds 8 GHz for 200 ns and its lane is faulted. -/
  | ringLockLoss (p fibre lane : Nat)
  /-- LANE_BER_FAULT (R293): A lane's bit error density over 1 ms exceeds 10^-9 and it is faulted. -/
  | laneBerFault (p fibre lane : Nat)
  /-- SPARE_ACK_TIMEOUT (R323): A SPARE_REQ goes unanswered for 10 µs and the fibre is dropped. -/
  | spareAckTimeout (p fibre lane : Nat)
  /-- COMB_LOSS (R290): A comb line below +6.5 dBm for 1 µs takes the port DOWN. -/
  | combLoss (p : Nat)
  /-- TRAINING_STEP (R309): A training step completes and the next starts, or training fails. -/
  | trainingStep (p : Nat) (ok : Bool) (delay : Nat)
  /-- TRAINING_RETRY (R309): 100 ms after a failed training, training is retried. -/
  | trainingRetry (p : Nat)
  /-- CREDIT_WATCHDOG (R102): No Trapeze credit returns while transfers wait, and the port enters STALLED. -/
  | creditWatchdog (p : Nat)
  /-- TRAPEZE_READ_TIMEOUT (R102): A device read on a Trapeze port goes unanswered and completes PARTNER_TIMEOUT. -/
  | trapezeReadTimeout (p tag : Nat)
  /-- SUM_WINDOW (R318): A 64 ns sum lane window ends and its reading is judged. -/
  | sumWindow (light : Nat)
  /-- SUM_CONFIRM_TIMEOUT (R319): A count reaches N without every BOUNDARY within 10 µs: SUM_MISMATCH. -/
  | sumConfirmTimeout
  /-- SUM_CALIBRATION (R321): Every 1 s the sum lane gains and deskews are calibrated. -/
  | sumCalibration (delays : List (Nat × Nat))
  /-- GDP_OP_START (R335): An operation descriptor is checked and its first packet enters the transmit queue. -/
  | gdpOpStart (n : Nat) (ext : List Byte)
  /-- GDP_WRITE (R342): A WRITE packet is tracked, covered and placed. -/
  | gdpWrite (h : GdpHdr) (pay : List Byte)
  /-- READ_REQ (R337): A READ_REQ is checked and the responder reads the source and sends READ_RESP packets. -/
  | readReq (h : GdpHdr) (pay ext : List Byte) (fail : Option Status)
  /-- READ_RESP (R342): A READ_RESP packet is placed into the requester's sink. -/
  | readResp (h : GdpHdr) (pay : List Byte)
  /-- GDP_FADD (R344): A FADD packet performs an indivisible add once and sends ATOMIC_RESP. -/
  | gdpFadd (h : GdpHdr) (pay : List Byte)
  /-- GDP_CAS (R344): A CAS packet performs an indivisible compare-swap once and sends ATOMIC_RESP. -/
  | gdpCas (h : GdpHdr) (pay : List Byte)
  /-- ATOMIC_RESP (R337): An ATOMIC_RESP completes the initiator's atomic with the old value. -/
  | atomicResp (h : GdpHdr) (pay : List Byte)
  /-- GDP_SEND (R339): A SEND packet is placed in the receive buffer posted for its SSN. -/
  | gdpSend (h : GdpHdr) (pay : List Byte)
  /-- GDP_ACK (R333): An ACK acknowledges packets, delivers COMP entries and drives the window. -/
  | gdpAck (h : GdpHdr) (b : GdpAckBody)
  /-- HELLO (R328): A HELLO opens a CONNECTING connection or fails it on mismatch. -/
  | hello (h : GdpHdr) (localConn log2Payload alg : Nat) (prot : Bool)
  /-- GDP_CLOSE_PACKET (R328): A CLOSE from the peer moves the connection to ERROR with GDP_PEER_CLOSED. -/
  | gdpClosePacket (h : GdpHdr)
  /-- HELLO_TIMER (R328): Every 100 µs a CONNECTING connection sends HELLO. -/
  | helloTimer (n : Nat)
  /-- CLOSE_RESEND_TIMER (R328): A DRAINING connection sends CLOSE again 100 µs apart. -/
  | closeResendTimer (n : Nat)
  /-- ACK_DELAY_TIMER (R346): 2 µs after an unacknowledged accepted packet, an ACK is sent. -/
  | ackDelayTimer (n : Nat)
  /-- GDP_RTO (R348): A packet's retransmission timeout expires; it is lost, retransmitted or the connection fails. -/
  | gdpRto (n psn : Nat)
  /-- GDP_PROGRESS_TIMEOUT (R102): No progress within PROGRESS sends the connection to ERROR with GDP_TIMEOUT. -/
  | gdpProgressTimeout (n : Nat)
  /-- GDP_MESSAGE_COMPLETE (R343): A message's coverage is full and its placement writes complete; a COMP entry is sent. -/
  | gdpMessageComplete (n msn : Nat)
  /-- PRESS_READY (R540): A peer's READY arrives during the Set. -/
  | pressReady (m : PressMsg)
  /-- PRESS_DRAINED (R541): A peer's DRAINED arrives. -/
  | pressDrained (m : PressMsg)
  /-- PRESS_COPIED (R545): A peer's COPIED arrives and may release the job. -/
  | pressCopied (m : PressMsg)
  /-- PRESS_ABANDON (R550): A peer's ABANDON ends the running operation and releases. -/
  | pressAbandon (m : PressMsg)
  /-- PRESS_DRAIN_DONE (R541): Local drain conditions are met and DRAINED is sent to peers. -/
  | pressDrainDone (jn : Nat)
  /-- PRESS_COPY_DONE (R543): Every region is copied and the manifest written; Verify starts. -/
  | pressCopyDone (jn : Nat) (data : List (List Byte)) (fail : Option Status)
  /-- PRESS_VERIFY_DONE (R544): Read-back CRCs are compared; the wheel is marked verified or the operation fails. -/
  | pressVerifyDone (jn : Nat) (crcs : List Nat) (manifestOk : Bool) (fail : Option Status)
  /-- PRESS_FLUSH_DONE (R546): The wheel's flush to a volume or over GDP completes. -/
  | pressFlushDone (jn : Nat) (st : Status)
  /-- PRESS_SET_TIMEOUT (R541): Set and Drain exceed SET_TIMEOUT and the operation fails. -/
  | pressSetTimeout (jn : Nat)
  /-- PRESS_RELEASE_TIMEOUT (R545): Peers' COPIED do not arrive within SET_TIMEOUT and the node releases anyway. -/
  | pressReleaseTimeout (jn : Nat)
  /-- MOVER_START (R362): An engine takes a descriptor and checks it before start. -/
  | moverStart (engine : Nat)
  /-- MOVER_COMPLETE (R364): Every write of a descriptor has completed and its record is written. -/
  | moverComplete (engine i : Nat) (ext : List Byte) (srcFail : Option (Status × Nat))
  /-- CODEC_DESCRIPTOR_TAKE (R382): An instance takes a stream descriptor in ring order. -/
  | codecDescriptorTake (n : Nat)
  /-- CODEC_PICTURE_GRANT (R384): An instance chooses a ready picture and gives it the engine. -/
  | codecPictureGrant (i : Nat)
  /-- CODEC_TAKEOVER_POINT (R385): A running picture reaches a slice or tile boundary and may be suspended. -/
  | codecTakeoverPoint (i : Nat)
  /-- CODEC_PICTURE_END (R389): A picture completes and its DECODE, OUTPUT or ENCODE records are written. -/
  | codecPictureEnd (i : Nat) (r : CdResult)
  /-- STREAM_WATCHDOG (R393): A picture holds the engine past the watchdog and is abandoned. -/
  | streamWatchdog (i : Nat)
  /-- CODEC_SLOT_END (R387): A fixed-mode rotation slot of an instance ends. -/
  | codecSlotEnd (i : Nat)
  /-- EXCL_IDLE_EXPIRE (R388): The served exclusive stream has no ready picture for EXCL_IDLE and is passed over. -/
  | exclIdleExpire (i : Nat)
  /-- STOR_START (R409): A storage descriptor is checked and split into drive commands. -/
  | storStart (q : Nat) (ext : List Byte) (fail : Nat)
  /-- DRIVE_COMPLETION (R412): A drive completes a command and, when all parts are done, the record is written. -/
  | driveCompletion (drive id nvme : Nat) (ext : List Byte) (fail : Nat)
  /-- STORAGE_TIMEOUT (R420): A drive command exceeds the storage timeout and is aborted. -/
  | storageTimeout (drive id : Nat)
  /-- ABORT_CONFIRM_TIMEOUT (R420): The drive does not confirm the abort within 1 s and is reset. -/
  | abortConfirmTimeout (drive id : Nat)
  /-- DRIVE_REINIT_DONE (R420): A reset drive is re-initialised and its volumes return READY. -/
  | driveReinitDone (drive : Nat)
  /-- DRIVE_LOSS (R421): Link loss, removal, containment or a fatal status ends a drive. -/
  | driveLoss (drive : Nat)
  /-- DRIVE_LINK_UP (R421): A drive link comes up and is matched against the lost drive. -/
  | driveLinkUp (drive : Nat) (i : DriveInfo)
  /-- DRIVE_DMA_REQUEST (R402): A drive request is translated to a live buffer or refused. -/
  | driveDmaRequest (drive id off len : Nat) (write : Bool) (data : List Byte)
  /-- DRIVE_ASYNC_EVENT (R422): A SMART warning or asynchronous event from a drive is passed on, rate-limited. -/
  | driveAsyncEvent (drive bits : Nat)
  /-- VOLUME_SCRUB_DONE (R405): A volume's scrub completes and it becomes READY. -/
  | volumeScrubDone (n : Nat)
  /-- TCP_SEGMENT (R417): An NVMe/TCP segment is received and processed. -/
  | tcpSegment (part lport : Nat) (d : List Byte) (pdus : List NvmePdu)
  /-- TCP_RTO (R417): A TCP retransmission timeout expires. -/
  | tcpRto (n : Nat)
  /-- NVMEI_RECONNECT_TIMER (R419): Every 2 s a lost initiator connection tries to reconnect. -/
  | nvmeiReconnectTimer (c : Nat)
  /-- CTRL_LOSS_TMO_EXPIRE (R419): Reconnection attempts stop after CTRL_LOSS_TMO. -/
  | ctrlLossTmoExpire (c : Nat)
  /-- MCTP_MESSAGE (R554): An MCTP control message is received and answered. -/
  | mctpMessage (m : MctpReq)
  /-- PLDM_SENSOR_READ (R556): A PLDM request reads a sensor. -/
  | pldmSensorRead (sensor : Nat) (reading : Option Nat)
  /-- PLDM_FW_UPDATE (R557): A PLDM firmware update transfer writes the inactive slot or copy. -/
  | pldmFwUpdate (u : FwUpdate)
  /-- ACTIVATE_FIRMWARE (R557): ActivateFirmware marks the new image TRIAL for the next boot. -/
  | activateFirmware
  /-- SPI_WRITE_FRAME (R561): A management SPI WRITE frame is applied whole or rejected when select rises. -/
  | spiWriteFrame (d : List Byte) (clocks x : Nat)
  /-- SPI_READ_FRAME (R562): A management SPI READ frame returns words and a trailer, clearing RC fields only on clean ends. -/
  | spiReadFrame (d : List Byte) (clocks : Nat)
  /-- RTC_SET (R569): A write of AO_RTC_SET_HI sets the RTC and clears TIME_INVALID. -/
  | rtcSet (v : Nat)
  /-- ALARM_T_HI_WRITE (R571): A write of AO_ALARMn_T_HI sets the alarm time and clears its status. -/
  | alarmTHiWrite (n v : Nat)
  /-- ALARM_CTRL_WRITE (R571): A write of AO_ALARMn_CTRL or PERIOD sets the alarm and clears its status. -/
  | alarmCtrlWrite (n : Nat) (period : Bool) (v : Nat)
  /-- ALARM_STATUS_READ (R571): A read of AO_ALARMn_STATUS clears the returned bits. -/
  | alarmStatusRead (n : Nat)
  /-- RTC_LO_READ (R569): A read of AO_RTC_LO latches AO_RTC_HI. -/
  | rtcLoRead
  /-- DEVT_LO_READ (R568): A read of AO_DEVT_LO latches AO_DEVT_HI. -/
  | devtLoRead
  /-- RIND_COUNTER_READ (R615): A read of a Rind counter low word latches its high word. -/
  | rindCounterRead (id : Nat)
  /-- RIND_LOG_DATA0_READ (R615): A read of AO_RIND_LOG_DATA0 copies the selected log entry into a buffer. -/
  | rindLogData0Read
  /-- MS_STATUS_READ (R563): A read of MS_STATUS clears its RC bits. -/
  | msStatusRead
  /-- MW_FIRST_FAULT_READ (R88): A read of MW_FIRST_FAULT clears its latched fault. -/
  | mwFirstFaultRead (target : Nat) (high : Bool)
  /-- MS_CONTROL_RESET (R592): A write of MS_CONTROL RESET with KEY 0x5253 triggers a warm reset. -/
  | msControlReset (v : Nat)
  /-- ATB_ADC_START (R618): A START write begins a single conversion or a capture. -/
  | atbAdcStart (v x : Nat)
  /-- ATB_CAPTURE_SAMPLE (R618): Each DIV µs of a capture stores one sample, ending after COUNT. -/
  | atbCaptureSample (x : Nat)
  /-- REGISTER_WRITE (R13): A write to a register without a row of its own updates its fields by access code. -/
  | registerWrite (r : RegTarget) (v x : Nat)
  /-- ALARM_FIRE (R571): An enabled alarm's time is reached and it fires, recorded by supply. -/
  | alarmFire (n : Nat)
  /-- RTC_WRITEBACK (R569): Every 10 minutes after a TIME_SET the RTC is written from Device Time. -/
  | rtcWriteback
  /-- PLAYBILL_PHASE_END (R577): The panel releases busy and the update moves to its next phase or ends. -/
  | playbillPhaseEnd
  /-- PLAYBILL_PANEL_TIMEOUT (R577): The panel holds busy over 10 s and the update ends PARTNER_TIMEOUT. -/
  | playbillPanelTimeout
  /-- PLAYBILL_INTERVAL_END (R580): The 10-minute interval ends and a pending alert is drawn. -/
  | playbillIntervalEnd
  /-- RIND_COMMIT_TIMER (R611): 10 minutes after the previous commit a DELTA is written. -/
  | rindCommitTimer
  /-- RIND_RECORD_DONE (R612): A Rind record is written and read back, or fails and is rewritten. -/
  | rindRecordDone (ok : Bool)
  /-- RIND_SECOND_TICK (R607): Each second the per-second histograms and counters are sampled. -/
  | rindSecondTick (x : SecondSample)
  /-- RIND_MINUTE_TICK (R607): Each powered minute the per-minute histograms are sampled. -/
  | rindMinuteTick (vbat20 : Nat)
  /-- VMAIN_GOOD (R584): VMAIN is good for 1 ms and a power-on reset starts the boot ROM. -/
  | vmainGood
  /-- BROWNOUT (R584): VMAIN below 10.8 V for 2 µs removes power from every VMAIN domain. -/
  | brownout
  /-- VSTBY_LOSS (R583): VSTBY leaves tolerance; VMAIN domains reset and the always-on island runs on VBAT. -/
  | vstbyLoss
  /-- VSTBY_RETURN (R583): VSTBY returns to tolerance and start-up and Playbill redraw may follow. -/
  | vstbyReturn
  /-- VBAT_LOW (R570): VBAT falls below 2.2 V without VSTBY; the RTC stops and TIME_INVALID is set. -/
  | vbatLow
  /-- ALWAYS_ON_POWER_ON (R592): The always-on island starts alone after losing both VSTBY and VBAT. -/
  | alwaysOnPowerOn (onVstby : Bool)
  /-- PERST_N_ASSERT (R595): PERST_N is asserted and the orderly shutdown of a warm reset begins. -/
  | perstNAssert
  /-- PERST_N_DEASSERT (R595): PERST_N is deasserted and the boot flow starts once QUIESCED. -/
  | perstNDeassert
  /-- HOT_RESET (R592): Host link down or a received hot reset triggers a warm reset. -/
  | hotReset
  /-- QUIESCED (R595): The orderly shutdown ends and MS_CONTROL.QUIESCED is set. -/
  | quiesced
  /-- ISLAND_BRING_UP (R604): An island is powered, zero-filled and self-tested in the bring-up order. -/
  | islandBringUp (passes : Bool) (kat : Nat)
  /-- TRIAL_TIMEOUT (R600): A trial boot fails to reach RUN within 10 s and causes a warm reset. -/
  | trialTimeout
  /-- THERMAL_SAMPLE (R587): Island diodes are read and frequencies throttled or restored. -/
  | thermalSample (hot : Int)
  /-- THERMAL_TRIP (R588): A diode at 112 °C for 10 µs switches off every VMAIN domain. -/
  | thermalTrip (island temp : Nat)
  /-- CURRENT_SENSOR_SAMPLE (R585): Every 20 ns the domain current sensors feed ring feedforward and the power limit. -/
  | currentSensorSample (second milli : Nat)
  /-- DOMAIN_GATE (R586): A domain that holds no work or needed state is switched off. -/
  | domainGate (d : Nat)
  /-- EREF_LOSS (R645): The Ethernet reference is lost for 1 µs; network links go down and time runs on an internal oscillator. -/
  | erefLoss
  /-- HREF_LOSS (R645): The host reference is lost; the host link goes down and drive clocks stop. -/
  | hrefLoss
  /-- XTAL32_LOSS (R645): No 32.768 kHz edge for 10 ms stops the RTC. -/
  | xtal32Loss
  /-- IDCODE (R620): JTAG instruction selecting the IDCODE register. -/
  | idcode
  /-- SAMPLE_PRELOAD (R620): JTAG instruction sampling or preloading boundary cells. -/
  | samplePreload
  /-- EXTEST (R621): Restricted JTAG instruction driving boundary cells while PERST_N is asserted. -/
  | extest
  /-- HIGHZ (R621): Restricted JTAG instruction placing outputs in high impedance. -/
  | highz
  /-- CLAMP (R621): Restricted JTAG instruction clamping outputs. -/
  | clamp
  /-- EXTEST_PULSE (R621): Restricted 1149.6 pulse test of AC-coupled lanes. -/
  | extestPulse
  /-- EXTEST_TRAIN (R621): Restricted 1149.6 train test of AC-coupled lanes. -/
  | extestTrain
  /-- HBM_1500 (R622): Restricted JTAG instruction connecting an HBM stack's IEEE 1500 wrapper. -/
  | hbm1500 (stack : Nat)
  /-- ATB_JTAG (R619): JTAG instruction whose data register is ATB_CTRL. -/
  | atbJtag (v : Nat)
  /-- BYPASS (R620): JTAG bypass instruction. -/
  | bypass
  /-- TAP_RESET (R621): The TAP enters Test-Logic-Reset, selecting IDCODE and releasing a waiting boot flow. -/
  | tapReset
  /-- KEY_SLOT_SCRUB_COMPLETE (R200): A zeroising key slot finishes its scrub, typically 0.3 µs after it began, and becomes free. -/
  | keySlotScrubComplete (slot : Nat)
  /-- FREE_LIST_TAKES_CELL (R46): A stage-memory cell counted in release is taken by the free list, typically 0.2 µs after a consumer freed it. -/
  | freeListTakesCell (c : Nat)
  /-- TRAPEZE_SUM_TIMEOUT (R527): A TRAPEZE_SUM whose count does not reach N within its timeout ends with PARTNER_TIMEOUT. -/
  | trapezeSumTimeout
  /-- EREF_RETURN (R645): The 156.25 MHz Ethernet reference returns, and Device Time and the cadence clock stop running from the internal oscillator. -/
  | erefReturn
  /-- SHARE_STATUS_UPDATE (R477): When a usage count has changed and 100 µs have passed since the last update, the share-status block is rewritten. -/
  | shareStatusUpdate (vf : Nat)
  /-- GDP_PACED_SEND (R627): A connection held back only by the 25,000,000 packets/s cap hands its next DATA packet to the transmit queue when the pacing interval passes. -/
  | gdpPacedSend (n : Nat)
  deriving DecidableEq, Repr

end Sys2Proof
end

