-- ==== Sys2Proof/WellFormed.lean ====
section
/-! DEFINITION. WellFormed.lean: a command is well formed when each of its fields fits the width the manual gives it, and
each list has a length the manual allows. A number that an event carries for its object is held to the count of such
objects, or to the width of the field that holds it. -/

namespace Sys2Proof

/-- A value and the first value that is too large for its field. -/
abbrev Lim := Nat × Nat

/-- A value in a field of `w` bits. -/
def u (w v : Nat) : Lim := (v, 2 ^ w)

/-- A list of octets or entries has exactly `n` of them. -/
def exactly {α : Type} (l : List α) (n : Nat) : List Lim := [(l.length, n + 1), (n, l.length + 1)]

/-- Every number of a list is below a bound. -/
def each (l : List Nat) (b : Nat) : List Lim := l.map (fun v => (v, b))

/-- Pairs of a number of at most sixteen bits and a value of at most thirty-two. -/
def pairs (l : List (Nat × Nat)) : List Lim := l.flatMap (fun e => [(e.1, 2 ^ 16), (e.2, 2 ^ 32)])

/-- The limits of something that may be absent. -/
def optionLimits {α : Type} (f : α → List Lim) : Option α → List Lim
  | none => []
  | some a => f a

/-- The fields of `PressRegion` (20 R547). -/
def pressRegionLimits (r : PressRegion) : List Lim :=
  [u 32 r.region, u 8 r.kind, u 8 r.member, u 64 r.source, u 64 r.length, u 64 r.crc, u 64 r.wheelOffset]

/-- The fields of `PressShard` (20 R547). -/
def pressShardLimits (h : PressShard) : List Lim :=
  [u 64 h.object, u 64 h.objectOffset, u 32 h.region, u 64 h.regionOffset, u 64 h.length]

/-- The fields of `PressTarget` (20 R548). -/
def pressTargetLimits (t : PressTarget) : List Lim :=
  [u 64 t.object, u 64 t.objectOffset, u 64 t.length, u 8 t.kind, u 8 t.member, u 64 t.target]

/-- The fields of `NamespaceInfo` (15 R403). -/
def namespaceInfoLimits (i : NamespaceInfo) : List Lim :=
  [u 32 i.nsid, u 64 i.blocks, u 32 i.blockSize, u 128 i.ident]

/-- The fields of `Hdr` (18 R489). -/
def hdrLimits (h : Hdr) : List Lim :=
  [(h.fn, 1009), u 16 h.id, u 4 h.part, u 6 h.tenant, u 64 h.context]

/-- The fields of `OutBlk` (19 R503). -/
def outBlkLimits (b : OutBlk) : List Lim :=
  [u 64 b.addr, u 32 b.len]

/-- The fields of `HostWindow` (16 R444). -/
def hostWindowLimits (w : HostWindow) : List Lim :=
  [u 64 w.hostBase, u 31 w.offset, u 6 w.sizeLog2, u 4 w.part, u 6 w.tenant, u 11 w.fn, u 20 w.pasid]

/-- The fields of `TpWindow` (11 R311). -/
def tpWindowLimits (e : TpWindow) : List Lim :=
  [u 48 e.accBase, u 28 e.offset, u 6 e.sizeLog2, u 4 e.part, u 6 e.tenant]

/-- The fields of `SessionBlock` (19 R514). -/
def sessionBlockLimits (b : SessionBlock) : List Lim :=
  [u 8 b.profile, u 8 b.ipVersion, u 16 b.localPort, u 16 b.remotePort, u 8 b.lport, u 128 b.localAddr, u 128 b.remoteAddr, u
    16 b.tci, u 8 b.period, u 8 b.depth, u 8 b.delay, u 8 b.slotCode, u 16 b.spf, u 32 b.ssrcIn, u 32 b.ssrcOut, u 8 b.ptOut,
    u 32 b.rocInInit, u 32 b.rocOutInit, u 16 b.keyRx, u 16 b.keyTx, u 16 b.meter, u 16 b.txq, u 8 b.binding, u 16
    b.rtcpRing, u 64 b.seed] ++ exactly b.ptSet 4 ++ each b.ptSet (2 ^ 8)

/-- The fields of `RingBind` (19 R513). -/
def ringBindLimits (r : RingBind) : List Lim :=
  [u 16 r.ring, u 8 r.log2, u 64 r.entryArray, u 64 r.dataArea, u 32 r.dataLen, u 64 r.control]

/-- The fields of `KeyBlock` (07 R196). -/
def keyBlockLimits (b : KeyBlock) : List Lim :=
  [u 8 b.alg, u 4 b.use, u 2 b.dir, u 6 b.tenant] ++ exactly b.material 64

/-- The fields of `ActBinding` (19 R516). -/
def actBindingLimits (b : ActBinding) : List Lim :=
  [u 8 b.binding, u 8 b.act, u 8 b.entry, u 8 b.priority, u 32 b.allowance, u 20 b.inputBase, u 16 b.inputWords, u 8
    b.hbmBase, u 32 b.dumpOffset, u 36 b.arg] ++ each b.tumblers 128

/-- The fields of `RxRule` (19 R518). -/
def rxRuleLimits (r : RxRule) : List Lim :=
  [u 16 r.priority, u 16 r.ring, u 16 r.meter, u 16 r.etherType, u 8 r.ipVersion, u 8 r.protocol, u 8 r.dscp, u 8
    r.matchBits, u 16 r.srcPort, u 16 r.dstPort, u 128 r.srcAddr, u 128 r.dstAddr, u 8 r.srcPrefix, u 8 r.dstPrefix, u 8
    r.lport]

/-- The fields of `PortConfig` (19 R517). -/
def portConfigLimits (p : PortConfig) : List Lim :=
  [u 8 p.lport, u 16 p.maxFrame, u 16 p.defaultVid, u 8 p.lossless, u 32 p.rxHoldMaxUs, u 32 p.pauseWatchdogMs] ++ exactly
    p.xoff 8 ++ each p.xoff (2 ^ 16) ++ exactly p.xon 8 ++ each p.xon (2 ^ 16)

/-- The fields of `RxRingCreate` (19 R517). -/
def rxRingCreateLimits (r : RxRingCreate) : List Lim :=
  [u 64 r.base, u 8 r.log2, u 8 r.bufCode, u 16 r.vector, u 8 r.lport]

/-- The fields of `TxqCreate` (19 R517). -/
def txqCreateLimits (q : TxqCreate) : List Lim :=
  [u 16 q.queue, u 8 q.lport, u 8 q.cls, u 8 q.share, u 16 q.meter, u 64 q.base, u 8 q.log2, u 16 q.vector, u 32
    q.frameLimit, u 32 q.rateKbps, u 24 q.size]

/-- The fields of `MeterSet` (19 R517). -/
def meterSetLimits (m : MeterSet) : List Lim :=
  [u 16 m.meter, u 8 m.algorithm, u 8 m.mode, u 8 m.actGreen, u 8 m.actYellow, u 8 m.actRed, u 32 m.cir, u 32 m.pir, u 24
    m.cbs, u 24 m.ebs, u 8 m.dscp]

/-- The fields of `GclEntry` (05 R139). -/
def gclEntryLimits (e : GclEntry) : List Lim :=
  [u 8 e.gates, u 24 e.interval]

/-- The fields of `SampleSet` (19 R517). -/
def sampleSetLimits (x : SampleSet) : List Lim :=
  [u 16 x.queue, u 32 x.periodUs, u 64 x.base, u 8 x.log2, u 16 x.vector]

/-- The fields of `RegionSet` (19 R520). -/
def regionSetLimits (r : RegionSet) : List Lim :=
  [u 16 r.region, u 32 r.key, u 64 r.base, u 64 r.length]

/-- The fields of `ConnectBlock` (19 R521). -/
def connectBlockLimits (b : ConnectBlock) : List Lim :=
  [u 16 b.localConn, u 16 b.peerConn, u 16 b.incarnation, u 8 b.ipVersion, u 8 b.paths, u 128 b.localAddr, u 128
    b.remoteAddr, u 16 b.remotePort, u 16 b.sportBase, u 8 b.log2Payload, u 8 b.alg, u 8 b.dscp, u 16 b.keyTx, u 16 b.keyRx,
    u 16 b.txq, u 8 b.lport, u 8 b.retryLimit, u 16 b.tci, u 32 b.targetUs, u 32 b.winMin, u 32 b.winMax, u 32 b.initWindow,
    u 32 b.progressMs, u 64 b.opBase, u 64 b.recvBase, u 64 b.compBase, u 8 b.opLog2, u 8 b.recvLog2, u 8 b.compLog2, u 16
    b.vector]

/-- The fields of `GdpModify` (19 R520). -/
def gdpModifyLimits (m : GdpModify) : List Lim :=
  [u 16 m.conn, u 16 m.txq, u 8 m.paths, u 8 m.retryLimit, u 8 m.mask, u 32 m.targetUs, u 32 m.winMin, u 32 m.winMax, u 32
    m.progressMs]

/-- The fields of `QueueCreate` (19 R522, R525). -/
def queueCreateLimits (q : QueueCreate) : List Lim :=
  [u 16 q.queue, u 8 q.log2, u 16 q.vector, u 64 q.descBase, u 64 q.compBase, u 20 q.pasid, u 16 q.bounceCells]

/-- The fields of `CodecOpen` (19 R524). -/
def codecOpenLimits (b : CodecOpen) : List Lim :=
  [u 8 b.unit, u 8 b.dir, u 8 b.standard, u 8 b.profile, u 8 b.levelMax, u 8 b.bitDepth, u 8 b.priority, u 8 b.sliceRows, u
    16 b.maxWidth, u 16 b.maxHeight, u 8 b.descLog2, u 8 b.compLog2, u 16 b.vector, u 64 b.descBase, u 64 b.compBase, u 64
    b.workBase, u 64 b.workLen, u 8 b.rcMode, u 8 b.quantiser, u 8 b.gop, u 32 b.rate, u 32 b.maxRate, u 16 b.keyInterval]

/-- The fields of `CodecModify` (19 R523). -/
def codecModifyLimits (m : CodecModify) : List Lim :=
  [u 16 m.stream, u 8 m.mask, u 8 m.priority, u 8 m.rcMode, u 8 m.quantiser, u 32 m.rate, u 32 m.maxRate]

/-- The fields of `CodecBuffer` (19 R523). -/
def codecBufferLimits (x : CodecBuffer) : List Lim :=
  [u 16 x.stream, u 8 x.index, u 32 x.pitch, u 64 x.luma, u 64 x.chroma]

/-- The fields of `VolumeCreate` (19 R525). -/
def volumeCreateLimits (v : VolumeCreate) : List Lim :=
  [u 16 v.volume, u 8 v.backing, u 8 v.source, u 32 v.nsid, u 64 v.startLba, u 64 v.blocks, u 16 v.keySlot]

/-- The fields of `SubsystemBlock` (19 R525). -/
def subsystemBlockLimits (b : SubsystemBlock) : List Lim :=
  exactly b.nqn 256 ++ exactly b.hosts 64 ++ b.hosts.flatMap (fun d => exactly d 256) ++ exactly b.namespaces 64 ++ each
    b.namespaces (2 ^ 16)

/-- The fields of `ListenerSet` (19 R525). -/
def listenerSetLimits (l : ListenerSet) : List Lim :=
  [u 8 l.listener, u 8 l.subsystem, u 8 l.ipVersion, u 8 l.lport, u 16 l.tcpPort, u 16 l.meter, u 16 l.txq, u 128 l.addr]

/-- The fields of `InitiatorBlock` (19 R525). -/
def initiatorBlockLimits (b : InitiatorBlock) : List Lim :=
  [u 128 b.addr, u 16 b.tcpPort, u 8 b.ipVersion, u 8 b.lport, u 16 b.txq, u 8 b.ioQueues, u 8 b.digests, u 32 b.ctrlLossTmo]
    ++ exactly b.subNqn 256 ++ exactly b.hostNqn 256

/-- The fields of `SumCmd` (19 R527). -/
def sumCmdLimits (c : SumCmd) : List Lim :=
  [u 8 c.members, u 8 c.value, u 64 c.stepNo, u 32 c.timeoutUs]

/-- The fields of `GdpHdr` (12 R331, R334). -/
def gdpHdrLimits (h : GdpHdr) : List Lim :=
  [u 4 h.part, u 16 h.dstConn, u 16 h.incarnation, u 6 h.path, u 32 h.psn, u 64 h.ts, u 24 h.msn, u 8 h.pidx, u 16 h.chunk, u
    16 h.len, u 16 h.region, u 32 h.rkey, u 32 h.msgLen, u 64 h.offset, u 64 h.ctr, (h.tag.length, 17)]

/-- The fields of `GdpAckBody` (12 R333). -/
def gdpAckBodyLimits (b : GdpAckBody) : List Lim :=
  [u 32 b.cumPsn, u 32 b.sackBase, u 64 b.echoTs, u 8 b.echoPath, u 16 b.ceCount, (b.comps.length, 9)] ++ each b.sacked (2 ^
    32)

/-- The fields of `CdResult` (14 R389 to R395). -/
def cdResultLimits (r : CdResult) : List Lim :=
  [(r.status, 4), u 32 r.bytes, u 32 r.concealed, (r.ptype, 3), u 8 r.readFail, u 8 r.writeFail] ++ each r.refs (2 ^ 5) ++ each r.outs (2 ^ 5)
    ++ each r.frees (2 ^ 5)

/-- The fields of `Manifest` (20 R547). -/
def manifestLimits (m : Manifest) : List Lim :=
  [u 32 m.magic, u 16 m.version, u 64 m.step, u 64 m.generation, u 8 m.verified, u 64 m.wheelBytes, (m.regions.length, 4097),
    (m.shards.length, 65537)] ++
    m.regions.flatMap pressRegionLimits ++ m.shards.flatMap pressShardLimits

/-- The fields of `ArmBlock` (20 R534). -/
def armBlockLimits (b : ArmBlock) : List Lim :=
  [u 8 b.mode, u 8 b.partition, u 8 b.members, (b.peers.length, 256), u 32 b.setTimeoutMs, u 20 b.pasid, u 64 b.staging, u 64
    b.stagingLen, u 64 b.generation, u 8 b.flushKind, u 16 b.flushTarget, u 32 b.flushKey, u 16 b.flushRegion, u 64
    b.flushOffset] ++ each b.peers (2 ^ 16) ++ each b.held (2 ^ 16) ++
    b.regions.flatMap pressRegionLimits ++ b.shards.flatMap pressShardLimits ++ b.targets.flatMap pressTargetLimits

/-- The fields of `PressMsg` (20 R537). -/
def pressMsgLimits (m : PressMsg) : List Lim :=
  [u 16 m.conn, u 16 m.job, u 64 m.step, u 64 m.generation, u 16 m.status]

/-- The fields of `ConfigBlock` (21 R559). -/
def configBlockLimits (b : ConfigBlock) : List Lim :=
  [u 8 b.shareMode, u 8 b.smbusAddr, u 8 b.playbill, u 32 b.featureDisable, (b.nodeName.length, 65)]

/-- The fields of `ContentBlock` (21 R576). -/
def contentBlockLimits (b : ContentBlock) : List Lim :=
  [(b.nodeName.length, 65), (b.serviceCode.length, 65), (b.text.length, 1025)]

/-- The fields of `Image` (22 R597). -/
def imageLimits (i : Image) : List Lim :=
  [u 8 i.steppings, u 8 i.keyIndex, u 32 i.svn, u 32 i.imageId, u 16 i.major, u 16 i.minor]

/-- The fields of `DriveInfo` (15 R401, R403). -/
def driveInfoLimits (i : DriveInfo) : List Lim :=
  [u 160 i.serial, u 64 i.mdts] ++
    i.spaces.flatMap namespaceInfoLimits

/-- The fields of `TpAccess` (11 R297, R314). -/
def tpAccessLimits (x : TpAccess) : List Lim :=
  [(x.port, 4), u 16 x.tag, u 48 x.addr]

/-- The fields of `Flit` (11 R296). -/
def flitLimits (f : Flit) : List Lim :=
  [u 12 f.fseq, u 12 f.ackSeq, u 12 f.crReq, u 12 f.crRsp, u 12 f.crCtl, (f.slotsReq, 16), (f.slotsRsp, 16), (f.slotsCtl,
    16), (f.badMsgs, 16)]

/-- The fields of `MctpReq` (21 R554). -/
def mctpReqLimits (m : MctpReq) : List Lim :=
  [(m.binding, 3), u 8 m.command, u 8 m.eid]

/-- The fields of `SecondSample` (23 R607). -/
def secondSampleLimits (x : SecondSample) : List Lim :=
  [u 16 x.vmain, u 16 x.vstby, u 32 x.power, u 16 x.droop, u 16 x.freq, u 32 x.tumblerCurrent, u 32 x.otherCurrent] ++ each
    x.heaters (2 ^ 32)

/-- The fields of `MwReq` (03 R84, R89). -/
def mwReqLimits (r : MwReq) : List Lim :=
  [(r.master, 28), u 4 r.part, u 6 r.tenant, u 16 r.epoch, u 48 r.addr]

/-- The fields of a drive's answer to an admin command (19 R526). -/
def driveAnswerLimits : DriveAnswer → List Lim
  | .entry cqe data => exactly cqe 16 ++ [(data.length, 2 ^ 32)]
  | .lost => []

/-- The length of a completion of a host read (16 R451). -/
def hostRdLimits : HostRdAns → List Lim
  | .data d => [(d.length, 4097)]
  | .abort => []
  | .poisoned => []

/-- The fields of a write that reaches MSI-X (16 R438). -/
def msixLimits : MsixWrite → List Lim
  | .table off data => [(off, 2 ^ 17), (data.length, 9)]
  | .control _ _ => []

/-- The fields of a translation (16 R448). -/
def transLimits : TransAns → List Lim
  | .page base size _ _ => [(base, 2 ^ 64), (size, 2 ^ 64)]
  | .error => []

/-- The length of an access to a BAR (16 R434). -/
def barLimits : BarAccess → List Lim
  | .read len => [(len, 4097)]
  | .write data _ => [(data.length, 4097)]

/-- The fields of a firmware update transfer (21 R557). -/
def fwLimits : FwUpdate → List Lim
  | .image i _ => imageLimits i
  | .config c _ => configBlockLimits c

/-- The register a write names (00 R13). -/
def regLimits : RegTarget → List Lim
  | .control off => [(off, 2 ^ 24)]
  | .booth fn off => [(fn, 1009), (off, 4096)]
  | .config fn => [(fn, 1009)]

/-- The fields of an NVMe/TCP exchange (15 R416 to R419). -/
def pduLimits : NvmePdu → List Lim
  | .connect cid qid entries subNqn hostNqn =>
    [(cid, 2 ^ 16), (qid, 2 ^ 16), (entries, 2 ^ 17), (subNqn.length, 257), (hostNqn.length, 257)]
  | .wants cid len => [(cid, 2 ^ 16), (len, 2 ^ 32)]
  | .io cid op nsid lba blocks _ data =>
    [(cid, 2 ^ 16), (op, 2 ^ 8), (nsid, 2 ^ 32), (lba, 2 ^ 64), (blocks, 2 ^ 17), (data.length, 2 ^ 32)]
  | .admin cid status data => [(cid, 2 ^ 16), (status, 2 ^ 16), (data.length, 2 ^ 32)]
  | .ready spaces => spaces.flatMap namespaceInfoLimits
  | .answer cid status data => [(cid, 2 ^ 16), (status, 2 ^ 16), (data.length, 2 ^ 32)]
  | .broken => []

/-- The fields of a command or event, each with its limit. -/
def limits : Instr → List Lim
  | .nop h => hdrLimits h
  | .cancel h target => hdrLimits h ++ [u 16 target]
  | .boothInfo h => hdrLimits h
  | .msixHoldoffSet h v us => hdrLimits h ++ [u 16 v, u 32 us]
  | .partitionSharesSet h blk => hdrLimits h ++ optionLimits (fun l => each l 256) blk
  | .partitionInfo h blk => hdrLimits h ++ outBlkLimits blk
  | .midwayPrioritySet h blk => hdrLimits h ++ optionLimits (fun l => each l 256) blk
  | .hostWindowSet h n w _ => hdrLimits h ++ [u 16 n] ++ hostWindowLimits w
  | .apertureSet h vf entry mapped base => hdrLimits h ++ [u 16 vf, u 8 entry, u 8 mapped, u 64 base]
  | .hostTimeoutSet h us => hdrLimits h ++ [u 32 us]
  | .islandRelease h island _ => hdrLimits h ++ [(island, 256)]
  | .tenantAttach h vf addr pasid _ caps _ =>
    hdrLimits h ++ [u 16 vf, u 64 addr, u 20 pasid] ++ optionLimits (optionLimits (fun l => each l (2 ^ 32))) caps
  | .tenantDetach h vf => hdrLimits h ++ [u 16 vf]
  | .tenantLimitsSet h vf code cap => hdrLimits h ++ [u 16 vf, u 8 code, u 32 cap]
  | .tenantMemorySet h code first count tenant => hdrLimits h ++ [u 8 code, u 16 first, u 16 count, u 8 tenant]
  | .epochInfo h => hdrLimits h
  | .epochWait h e => hdrLimits h ++ [u 16 e]
  | .ledgerAudit h blk kind index => hdrLimits h ++ [u 8 kind, u 16 index] ++ outBlkLimits blk
  | .sessionOpen h n blk => hdrLimits h ++ [u 16 n] ++ optionLimits sessionBlockLimits blk
  | .sessionModify h n blk => hdrLimits h ++ [u 16 n] ++ optionLimits sessionBlockLimits blk
  | .sessionClose h n => hdrLimits h ++ [u 16 n]
  | .sessionStats h n blk => hdrLimits h ++ [u 16 n] ++ outBlkLimits blk
  | .feedRingBind h r => hdrLimits h ++ ringBindLimits r
  | .returnRingBind h r binding => hdrLimits h ++ [u 8 binding] ++ ringBindLimits r
  | .feedRingReset h n => hdrLimits h ++ [u 16 n]
  | .returnRingReset h n => hdrLimits h ++ [u 16 n]
  | .feedRingUnbind h n => hdrLimits h ++ [u 16 n]
  | .returnRingUnbind h n => hdrLimits h ++ [u 16 n]
  | .feedSeed h seed => hdrLimits h ++ [u 64 seed]
  | .keyLoad h slot blk => hdrLimits h ++ [u 16 slot] ++ optionLimits keyBlockLimits blk
  | .keyInfo h slot => hdrLimits h ++ [u 16 slot]
  | .keyDestroy h slot => hdrLimits h ++ [u 16 slot]
  | .cipherSelftest h failing => hdrLimits h ++ [u 8 failing]
  | .actLoad h act image => hdrLimits h ++ [u 8 act] ++ optionLimits (fun d => [(d.length, 2 ^ 32)]) image
  | .actUnload h act => hdrLimits h ++ [u 8 act]
  | .actBind h b => hdrLimits h ++ actBindingLimits b
  | .actRebind h b => hdrLimits h ++ actBindingLimits b
  | .actUnbind h n => hdrLimits h ++ [u 8 n]
  | .actTimerSet h timer binding period first => hdrLimits h ++ [u 8 timer, u 8 binding, u 32 period, u 64 first]
  | .actDoorbellSet h doorbell binding => hdrLimits h ++ [u 8 doorbell, u 8 binding]
  | .actStats h n clear blk => hdrLimits h ++ [u 8 n, u 8 clear] ++ outBlkLimits blk
  | .portModeSet h port mode => hdrLimits h ++ [u 8 port, u 8 mode]
  | .portConfigSet h p => hdrLimits h ++ portConfigLimits p
  | .vlanMapSet h lport vid part => hdrLimits h ++ [u 8 lport, u 16 vid, u 8 part]
  | .macFilterSet h lport list_ index _ mac => hdrLimits h ++ [u 8 lport, u 8 list_, u 16 index, u 48 mac]
  | .rxringCreate h r => hdrLimits h ++ rxRingCreateLimits r
  | .rxringDestroy h ring => hdrLimits h ++ [u 16 ring]
  | .rxruleSet h rule _ blk => hdrLimits h ++ [u 16 rule] ++ optionLimits rxRuleLimits blk
  | .txqCreate h q => hdrLimits h ++ txqCreateLimits q
  | .txqDestroy h q => hdrLimits h ++ [u 16 q]
  | .txCancel h q count => hdrLimits h ++ [u 16 q, u 32 count]
  | .queueFlush h q => hdrLimits h ++ [u 16 q]
  | .meterSet h m => hdrLimits h ++ meterSetLimits m
  | .shaperSet h shaper mode rate size => hdrLimits h ++ [u 16 shaper, u 8 mode, u 32 rate, u 24 size]
  | .classSet h lport ws => hdrLimits h ++ [u 8 lport] ++ each ws 256
  | .gclSet h port n cycle base blk =>
    hdrLimits h ++ [u 8 port, u 16 n, u 32 cycle, u 64 base] ++ optionLimits (fun l => l.flatMap gclEntryLimits) blk
  | .queueSampleSet h x => hdrLimits h ++ sampleSetLimits x
  | .queueStats h q _ blk => hdrLimits h ++ [u 16 q] ++ outBlkLimits blk
  | .portStats h n _ blk => hdrLimits h ++ [u 8 n] ++ outBlkLimits blk
  | .gdpPortSet h port meter => hdrLimits h ++ [u 16 port, u 16 meter]
  | .gdpRegionSet h r => hdrLimits h ++ regionSetLimits r
  | .gdpConnect h blk => hdrLimits h ++ optionLimits connectBlockLimits blk
  | .gdpModify h m => hdrLimits h ++ gdpModifyLimits m
  | .gdpClose h n => hdrLimits h ++ [u 16 n]
  | .gdpStats h n blk => hdrLimits h ++ [u 16 n] ++ outBlkLimits blk
  | .moverQueueCreate h q => hdrLimits h ++ queueCreateLimits q
  | .moverQueueFlush h q => hdrLimits h ++ [u 16 q]
  | .moverQueueDestroy h q => hdrLimits h ++ [u 16 q]
  | .moverStats h q blk => hdrLimits h ++ [u 16 q] ++ outBlkLimits blk
  | .codecModeSet h i mode age idle watchdog => hdrLimits h ++ [u 8 i, u 8 mode, u 32 age, u 32 idle, u 32 watchdog]
  | .codecStreamOpen h n blk => hdrLimits h ++ [u 16 n] ++ optionLimits codecOpenLimits blk
  | .codecStreamModify h m => hdrLimits h ++ codecModifyLimits m
  | .codecStreamFlush h n => hdrLimits h ++ [u 16 n]
  | .codecStreamClose h n => hdrLimits h ++ [u 16 n]
  | .codecBufferRegister h x => hdrLimits h ++ codecBufferLimits x
  | .codecStats h n blk => hdrLimits h ++ [u 16 n] ++ outBlkLimits blk
  | .storagePortSet h port mode => hdrLimits h ++ [u 8 port, u 8 mode]
  | .driveAdmin h drive blk buf len answer =>
    hdrLimits h ++ [u 8 drive, u 64 buf, u 32 len] ++ optionLimits (fun d => [(d.length, 2 ^ 32)]) blk ++ driveAnswerLimits
      answer
  | .volumeCreate h v => hdrLimits h ++ volumeCreateLimits v
  | .volumeDestroy h n => hdrLimits h ++ [u 16 n]
  | .storQueueCreate h q => hdrLimits h ++ queueCreateLimits q
  | .storQueueFlush h q => hdrLimits h ++ [u 16 q]
  | .storQueueDestroy h q => hdrLimits h ++ [u 16 q]
  | .nvmetSubsystemSet h sub valid blk => hdrLimits h ++ [u 8 sub, u 8 valid] ++ optionLimits subsystemBlockLimits blk
  | .nvmetListenerSet h l => hdrLimits h ++ listenerSetLimits l
  | .nvmeiConnect h blk => hdrLimits h ++ optionLimits initiatorBlockLimits blk
  | .nvmeiDisconnect h c => hdrLimits h ++ [u 8 c]
  | .storageTimeoutSet h seconds => hdrLimits h ++ [u 32 seconds]
  | .storageStats h kind n blk => hdrLimits h ++ [u 8 kind, u 16 n] ++ outBlkLimits blk
  | .trapezeEnable h p => hdrLimits h ++ [u 8 p]
  | .trapezeDisable h p => hdrLimits h ++ [u 8 p]
  | .trapezeWindowSet h p k e _ => hdrLimits h ++ [u 8 p, u 16 k] ++ tpWindowLimits e
  | .trapezeInwindowSet h p k e _ => hdrLimits h ++ [u 8 p, u 16 k] ++ tpWindowLimits e
  | .trapezeTelemSet h p base log2 vector => hdrLimits h ++ [u 8 p, u 64 base, u 8 log2, u 16 vector]
  | .trapezeSum h c => hdrLimits h ++ sumCmdLimits c
  | .trapezeWatchdogSet h p creditUs readUs => hdrLimits h ++ [u 8 p, u 32 creditUs, u 32 readUs]
  | .trapezeStats h p blk => hdrLimits h ++ [u 8 p] ++ outBlkLimits blk
  | .pressArm h jn blk => hdrLimits h ++ [u 16 jn] ++ optionLimits armBlockLimits blk
  | .pressCheckpoint h jn _ step => hdrLimits h ++ [u 16 jn, u 64 step]
  | .pressRestore h jn blk => hdrLimits h ++ [u 16 jn] ++ optionLimits manifestLimits blk
  | .pressDisarm h jn => hdrLimits h ++ [u 16 jn]
  | .pressStatus h jn => hdrLimits h ++ [u 16 jn]
  | .deviceInfo h => hdrLimits h
  | .deviceConfigSet h blk len => hdrLimits h ++ [u 32 len] ++ optionLimits configBlockLimits blk
  | .timeSet h time => hdrLimits h ++ [u 64 time]
  | .timeAdjust h ppb => hdrLimits h ++ [u 32 ppb]
  | .alarmSet h n flags time period => hdrLimits h ++ [u 8 n, u 8 flags, u 64 time, u 32 period]
  | .playbillUpdate h blk => hdrLimits h ++ optionLimits contentBlockLimits blk
  | .rindRead h section_ blk => hdrLimits h ++ [u 8 section_] ++ outBlkLimits blk
  | .rindCommit h => hdrLimits h
  | .boothEnable fn _ => [(fn, 1009)]
  | .boothDisable fn => [(fn, 1009)]
  | .boothStopComplete fn => [(fn, 1009)]
  | .boothFetchVisit => []
  | .submissionReadDone fn x => [(fn, 1009)] ++ hostRdLimits x
  | .commandHandoff fn id => [(fn, 1009), u 16 id]
  | .componentFault c => [(c, 16)]
  | .supervisorTimeout c => [(c, 16)]
  | .componentResume c => [(c, 16)]
  | .boothSubmissionDoorbell fn size v => [(fn, 1009), (size, 9), u 64 v]
  | .boothCompletionDoorbell fn size v => [(fn, 1009), (size, 9), u 64 v]
  | .boothEventDoorbell fn size v => [(fn, 1009), (size, 9), u 64 v]
  | .ringProducerDoorbell fn off size v => [(fn, 1009), u 32 off, (size, 9), u 64 v]
  | .ringConsumerDoorbell fn off size v => [(fn, 1009), u 32 off, (size, 9), u 64 v]
  | .actDoorbellWrite fn k size v => [(fn, 1009), u 16 k, (size, 9), u 64 v]
  | .parleyDoorbell fn off size v => [(fn, 1009), u 32 off, (size, 9), u 64 v]
  | .parleyIntervalEnd vf _ => [(vf, 1009)]
  | .hostBar0Access fn off x => [(fn, 1009), u 64 off] ++ barLimits x
  | .hostBar2Access fn off x => [(fn, 1009), u 64 off] ++ barLimits x
  | .msixTableWrite fn w => [(fn, 1009)] ++ msixLimits w
  | .msixHoldoffEnd fn v => [(fn, 1009), u 16 v]
  | .vfEnableChange _ n => [u 16 n]
  | .functionLevelReset vf => [(vf, 1009)]
  | .flrReady vf => [(vf, 1009)]
  | .managerFlr => []
  | .dStateChange fn _ => [(fn, 1009)]
  | .hostReadCompletion fn tag x => [(fn, 1009), u 16 tag] ++ hostRdLimits x
  | .hostDmaTimeout tag => [u 16 tag]
  | .translationCompletion fn pasid addr x =>
    [(fn, 1009), u 64 addr] ++ optionLimits (fun v => [(v, 2 ^ 32)]) pasid ++ transLimits x
  | .invalidateRequest fn pasid base size tag =>
    [(fn, 1009), u 64 base, u 64 size, (tag, 32)] ++ optionLimits (fun v => [(v, 2 ^ 32)]) pasid
  | .hostLinkUp rate width => [u 8 rate, u 8 width]
  | .hostLinkFatal _ => []
  | .midwayGrant t rs => [(t, 28)] ++ (rs.flatMap mwReqLimits)
  | .lockWatchdog t => [(t, 28)]
  | .patrolScrub a _ _ => [u 48 a]
  | .handshakeTransfer receiver sender traffic i freed returned =>
    [(receiver, 256), (sender, 256), (traffic, 4), (i, 64), u 16 freed, u 16 returned]
  | .ledgerAuditSample kind island index held inUse => [u 8 kind, (island, 256), u 16 index, u 32 held, u 32 inUse]
  | .epochAdopt p i => [u 4 p, (i, 256)]
  | .epochRetire p => [u 4 p]
  | .resizeScrubDone => []
  | .rxFrame lport d _ _ corrected => [u 8 lport, (d.length, 2 ^ 32), u 32 corrected]
  | .rxPfcFrame lport quanta => [u 8 lport] ++ pairs quanta
  | .pfcPauseExpire lport prio => [u 8 lport, (prio, 8)]
  | .pfcRefresh lport prio => [u 8 lport, (prio, 8)]
  | .pauseWatchdog lport prio => [u 8 lport, (prio, 8)]
  | .pauseQuietExpire lport prio => [u 8 lport, (prio, 8)]
  | .rxHoldRelease lport prio => [u 8 lport, (prio, 8)]
  | .rxHoldMaxExpire lport prio => [u 8 lport, (prio, 8)]
  | .carouselSelect lport => [u 8 lport]
  | .txFrameEnd lport time => [u 8 lport, u 64 time]
  | .linkDown lport => [u 8 lport]
  | .linkUp lport => [u 8 lport]
  | .gclCycleStart port => [u 8 port]
  | .bucketTick => []
  | .queueSampleTick q => [u 16 q]
  | .cipherIntake p => [u 4 p]
  | .tagVerify k => [u 32 k]
  | .releaseComplete k => [u 32 k]
  | .granuleScrubDone k => [u 32 k]
  | .frameTick n => [u 16 n]
  | .sendRequest => []
  | .shiftRequest => []
  | .feedRequest => []
  | .feedEntryWrite ring => [u 16 ring]
  | .returnReadRequest entry data _ => [(entry.length, 2 ^ 32), (data.length, 2 ^ 32)]
  | .returnReleaseRequest => []
  | .noteRequest => []
  | .returnProdPoll ring sessions => [u 16 ring] ++ each sessions (2 ^ 16)
  | .tumblerDispatch n => [(n, 128)]
  | .actTimerExpire p k => [u 4 p, (k, 64)]
  | .allowanceOverrun n => [(n, 128)]
  | .portReply n port stall => [u 8 n, (port, 64), u 32 stall]
  | .loadReturn n stall => [(n, 128), u 32 stall]
  | .storeFailure n => [(n, 128)]
  | .add n => [(n, 128)]
  | .adc n => [(n, 128)]
  | .sub n => [(n, 128)]
  | .sbc n => [(n, 128)]
  | .cmp n => [(n, 128)]
  | .neg n => [(n, 128)]
  | .adds n => [(n, 128)]
  | .subs n => [(n, 128)]
  | .and n => [(n, 128)]
  | .or n => [(n, 128)]
  | .xor n => [(n, 128)]
  | .andn n => [(n, 128)]
  | .shl n => [(n, 128)]
  | .shr n => [(n, 128)]
  | .sar n => [(n, 128)]
  | .ror n => [(n, 128)]
  | .bfx n => [(n, 128)]
  | .bfxs n => [(n, 128)]
  | .bfi n => [(n, 128)]
  | .cnt n => [(n, 128)]
  | .nperm n => [(n, 128)]
  | .addp n => [(n, 128)]
  | .subp n => [(n, 128)]
  | .addps n => [(n, 128)]
  | .subps n => [(n, 128)]
  | .mul n => [(n, 128)]
  | .mulhs n => [(n, 128)]
  | .mulhu n => [(n, 128)]
  | .mac n => [(n, 128)]
  | .macs n => [(n, 128)]
  | .macp n => [(n, 128)]
  | .sat n => [(n, 128)]
  | .addi n => [(n, 128)]
  | .cmpi n => [(n, 128)]
  | .andi n => [(n, 128)]
  | .ori n => [(n, 128)]
  | .xori n => [(n, 128)]
  | .seth n => [(n, 128)]
  | .setl n => [(n, 128)]
  | .ldw n => [(n, 128)]
  | .stw n => [(n, 128)]
  | .ldh n => [(n, 128)]
  | .ldhs n => [(n, 128)]
  | .sth n => [(n, 128)]
  | .ldn n => [(n, 128)]
  | .stn n => [(n, 128)]
  | .aadd n => [(n, 128)]
  | .acas n => [(n, 128)]
  | .b n => [(n, 128)]
  | .br n => [(n, 128)]
  | .call n => [(n, 128)]
  | .callr n => [(n, 128)]
  | .ret n => [(n, 128)]
  | .loopi n => [(n, 128)]
  | .loopr n => [(n, 128)]
  | .lexit n => [(n, 128)]
  | .post n => [(n, 128)]
  | .take n => [(n, 128)]
  | .poll n => [(n, 128)]
  | .mfs n => [(n, 128)]
  | .mts n => [(n, 128)]
  | .endact n => [(n, 128)]
  | .brk n => [(n, 128)]
  | .flitRx p f => [u 4 p] ++ flitLimits f
  | .ackTimer p => [u 4 p]
  | .tpWrite x data => [(data.length, 2 ^ 32)] ++ tpAccessLimits x
  | .tpRead x len => [u 32 len] ++ tpAccessLimits x
  | .tpFadd x addend => [u 64 addend] ++ tpAccessLimits x
  | .tpCas x compare swap => [u 64 compare, u 64 swap] ++ tpAccessLimits x
  | .rdcomp p tag data => [u 4 p, u 16 tag, (data.length, 2 ^ 32)]
  | .wcomp p tag => [u 4 p, u 16 tag]
  | .atcomp p tag old => [u 4 p, u 16 tag, u 64 old]
  | .tpErr p tag code => [u 4 p, u 16 tag, u 8 code]
  | .param p d => [u 4 p, (d.length, 2 ^ 32)]
  | .ringSignal p ring prod sessions => [u 4 p, u 16 ring, u 32 prod] ++ each sessions (2 ^ 16)
  | .boundary p job stepNo => [u 4 p, u 16 job, u 64 stepNo]
  | .spareReq p fibre lane => [u 4 p, (fibre, 4), (lane, 16)]
  | .spareAck p fibre lane fs => [u 4 p, (fibre, 4), (lane, 16), u 12 fs]
  | .telemetry p seq data => [u 4 p, u 32 seq, (data.length, 2 ^ 32)]
  | .laneSwap p => [u 4 p]
  | .ringLockLoss p fibre lane => [u 4 p, (fibre, 4), (lane, 16)]
  | .laneBerFault p fibre lane => [u 4 p, (fibre, 4), (lane, 16)]
  | .spareAckTimeout p fibre lane => [u 4 p, (fibre, 4), (lane, 16)]
  | .combLoss p => [u 4 p]
  | .trainingStep p _ delay => [u 4 p, u 64 delay]
  | .trainingRetry p => [u 4 p]
  | .creditWatchdog p => [u 4 p]
  | .trapezeReadTimeout p tag => [u 4 p, u 16 tag]
  | .sumWindow light => [u 32 light]
  | .sumConfirmTimeout => []
  | .sumCalibration delays => pairs delays
  | .gdpOpStart n ext => [u 16 n, (ext.length, 2 ^ 32)]
  | .gdpWrite h pay => [(pay.length, 2 ^ 32)] ++ gdpHdrLimits h
  | .readReq h pay ext _ => [(pay.length, 2 ^ 32), (ext.length, 2 ^ 32)] ++ gdpHdrLimits h
  | .readResp h pay => [(pay.length, 2 ^ 32)] ++ gdpHdrLimits h
  | .gdpFadd h pay => [(pay.length, 2 ^ 32)] ++ gdpHdrLimits h
  | .gdpCas h pay => [(pay.length, 2 ^ 32)] ++ gdpHdrLimits h
  | .atomicResp h pay => [(pay.length, 2 ^ 32)] ++ gdpHdrLimits h
  | .gdpSend h pay => [(pay.length, 2 ^ 32)] ++ gdpHdrLimits h
  | .gdpAck h b => gdpHdrLimits h ++ gdpAckBodyLimits b
  | .hello h localConn log2Payload alg _ => [u 16 localConn, u 8 log2Payload, u 8 alg] ++ gdpHdrLimits h
  | .gdpClosePacket h => gdpHdrLimits h
  | .helloTimer n => [u 16 n]
  | .closeResendTimer n => [u 16 n]
  | .ackDelayTimer n => [u 16 n]
  | .gdpRto n psn => [u 16 n, u 32 psn]
  | .gdpProgressTimeout n => [u 16 n]
  | .gdpMessageComplete n msn => [u 16 n, u 24 msn]
  | .pressReady m => pressMsgLimits m
  | .pressDrained m => pressMsgLimits m
  | .pressCopied m => pressMsgLimits m
  | .pressAbandon m => pressMsgLimits m
  | .pressDrainDone jn => [u 16 jn]
  | .pressCopyDone jn data _ => [u 16 jn, (data.length, 4097)]
  | .pressVerifyDone jn crcs _ _ => [u 16 jn] ++ each crcs (2 ^ 64)
  | .pressFlushDone jn _ => [u 16 jn]
  | .pressSetTimeout jn => [u 16 jn]
  | .pressReleaseTimeout jn => [u 16 jn]
  | .moverStart engine => [u 8 engine]
  | .moverComplete engine i ext _ => [u 8 engine, u 8 i, (ext.length, 2 ^ 32)]
  | .codecDescriptorTake n => [u 16 n]
  | .codecPictureGrant i => [u 8 i]
  | .codecTakeoverPoint i => [u 8 i]
  | .codecPictureEnd i r => [u 8 i] ++ cdResultLimits r
  | .streamWatchdog i => [u 8 i]
  | .codecSlotEnd i => [u 8 i]
  | .exclIdleExpire i => [u 8 i]
  | .storStart q ext fail => [u 16 q, (ext.length, 2 ^ 32), u 8 fail]
  | .driveCompletion drive id nvme ext fail => [u 8 drive, u 16 id, u 128 nvme, (ext.length, 2 ^ 32), u 8 fail]
  | .storageTimeout drive id => [u 8 drive, u 16 id]
  | .abortConfirmTimeout drive id => [u 8 drive, u 16 id]
  | .driveReinitDone drive => [u 8 drive]
  | .driveLoss drive => [u 8 drive]
  | .driveLinkUp drive i => [u 8 drive] ++ driveInfoLimits i
  | .driveDmaRequest drive id off len _ data => [u 8 drive, u 16 id, u 64 off, u 32 len, (data.length, 2 ^ 32)]
  | .driveAsyncEvent drive bits => [u 8 drive, u 8 bits]
  | .volumeScrubDone n => [u 16 n]
  | .tcpSegment part lport d pdus => [u 8 part, u 8 lport, (d.length, 2 ^ 32)] ++ (pdus.flatMap pduLimits)
  | .tcpRto n => [u 16 n]
  | .nvmeiReconnectTimer c => [(c, 16)]
  | .ctrlLossTmoExpire c => [(c, 16)]
  | .mctpMessage m => mctpReqLimits m
  | .pldmSensorRead sensor reading => [u 8 sensor] ++ optionLimits (fun v => [(v, 2 ^ 32)]) reading
  | .pldmFwUpdate u => fwLimits u
  | .activateFirmware => []
  | .spiWriteFrame d clocks x => [(d.length, 2 ^ 32), u 32 clocks, u 16 x]
  | .spiReadFrame d clocks => [(d.length, 2 ^ 32), u 32 clocks]
  | .rtcSet v => [u 32 v]
  | .alarmTHiWrite n v => [(n, 4), u 32 v]
  | .alarmCtrlWrite n _ v => [(n, 4), u 32 v]
  | .alarmStatusRead n => [(n, 4)]
  | .rtcLoRead => []
  | .devtLoRead => []
  | .rindCounterRead id => [u 16 id]
  | .rindLogData0Read => []
  | .msStatusRead => []
  | .mwFirstFaultRead target _ => [(target, 28)]
  | .msControlReset v => [u 32 v]
  | .atbAdcStart v x => [u 32 v, u 16 x]
  | .atbCaptureSample x => [u 16 x]
  | .registerWrite r v x => [u 64 v, u 16 x] ++ regLimits r
  | .alarmFire n => [(n, 4)]
  | .rtcWriteback => []
  | .playbillPhaseEnd => []
  | .playbillPanelTimeout => []
  | .playbillIntervalEnd => []
  | .rindCommitTimer => []
  | .rindRecordDone _ => []
  | .rindSecondTick x => secondSampleLimits x
  | .rindMinuteTick vbat20 => [u 32 vbat20]
  | .vmainGood => []
  | .brownout => []
  | .vstbyLoss => []
  | .vstbyReturn => []
  | .vbatLow => []
  | .alwaysOnPowerOn _ => []
  | .perstNAssert => []
  | .perstNDeassert => []
  | .hotReset => []
  | .quiesced => []
  | .islandBringUp _ kat => [u 8 kat]
  | .trialTimeout => []
  | .thermalSample _ => []
  | .thermalTrip island temp => [(island, 256), u 16 temp]
  | .currentSensorSample second milli => [u 8 second, u 32 milli]
  | .domainGate d => [u 8 d]
  | .erefLoss => []
  | .hrefLoss => []
  | .xtal32Loss => []
  | .idcode => []
  | .samplePreload => []
  | .extest => []
  | .highz => []
  | .clamp => []
  | .extestPulse => []
  | .extestTrain => []
  | .hbm1500 stack => [(stack, 4)]
  | .atbJtag v => [u 32 v]
  | .bypass => []
  | .tapReset => []
  | .keySlotScrubComplete slot => [u 16 slot]
  | .freeListTakesCell c => [u 32 c]
  | .trapezeSumTimeout => []
  | .erefReturn => []
  | .shareStatusUpdate vf => [(vf, 1009)]
  | .gdpPacedSend n => [u 16 n]

/-- Is a command well formed: does every field fit? -/
def wellFormed (i : Instr) : Bool := (limits i).all (fun l => decide (l.1 < l.2))

end Sys2Proof
end

