-- ==== Sys2Proof/Decode.lean ====
section
/-! DEFINITION. Decode.lean: the words that the table's bits spell. The GN-4016 is a block: its commands come as booth
entries, messages and events, and no row of the table gives bits, so that no word spells a command. -/

namespace Sys2Proof

/-- The command a word of `nbits` bits spells: none, since no row of the table has an encoding. -/
def decodeTableWord (_nbits _w : Nat) : Option Instr := none

end Sys2Proof
end

