-- ==== Sys2Proof/Machine/Crc.lean ====
section
/-! DEFINITION. Machine/Crc.lean: cyclic redundancy checks over octet strings. -/

namespace Sys2Proof.Machine

/-- One bit of a reflected check with a reflected polynomial. -/
def crcBit (poly c : Nat) : Nat := if c % 2 == 1 then (c / 2) ^^^ poly else c / 2

/-- One octet of a reflected check. -/
def crcByte (poly c : Nat) (b : Byte) : Nat :=
  let x := c ^^^ b.toNat
  crcBit poly (crcBit poly (crcBit poly (crcBit poly (crcBit poly (crcBit poly (crcBit poly (crcBit poly x)))))))

/-- A check over octets from a start value. -/
def crcRun (poly : Nat) : Nat → List Byte → Nat
  | c, [] => c
  | c, b :: bs => crcRun poly (crcByte poly c b) bs

/-- CRC-32 of IEEE 802.3. -/
def crc32 (d : List Byte) : Nat := crcRun 0xEDB88320 0xFFFFFFFF d ^^^ 0xFFFFFFFF

/-- One bit of a check taken most significant bit first, in 64 bits. -/
def crc64Bit (c : Nat) : Nat :=
  if c / 2 ^ 63 == 1 then (c * 2 % 2 ^ 64) ^^^ 0x42F0E1EBA9EA3693 else c * 2 % 2 ^ 64

/-- One octet of the CRC-64 of 11 R296 and 20 R543. -/
def crc64Byte (c : Nat) (b : Byte) : Nat :=
  let x := c ^^^ (b.toNat * 2 ^ 56)
  crc64Bit (crc64Bit (crc64Bit (crc64Bit (crc64Bit (crc64Bit (crc64Bit (crc64Bit x)))))))

/-- CRC-64 with the ECMA-182 polynomial, initial value 0, no reflection and no final exclusive or (20 R543). -/
def crc64From : Nat → List Byte → Nat
  | c, [] => c
  | c, b :: bs => crc64From (crc64Byte c b) bs

/-- CRC-64 of an octet string. -/
def crc64 (d : List Byte) : Nat := crc64From 0 d

/-- One bit of the CRC-16 of the management SPI (21 R560), most significant bit first. -/
def crc16Bit (c : Nat) : Nat := if c / 2 ^ 15 == 1 then (c * 2 % 2 ^ 16) ^^^ 0x1021 else c * 2 % 2 ^ 16

/-- One octet of the CRC-16. -/
def crc16Byte (c : Nat) (b : Byte) : Nat :=
  let x := c ^^^ (b.toNat * 2 ^ 8)
  crc16Bit (crc16Bit (crc16Bit (crc16Bit (crc16Bit (crc16Bit (crc16Bit (crc16Bit x)))))))

/-- CRC-16 over octets from a start value. -/
def crc16From : Nat → List Byte → Nat
  | c, [] => c
  | c, b :: bs => crc16From (crc16Byte c b) bs

/-- CRC-16 of an octet string: polynomial 0x1021, initial value 0xFFFF. -/
def crc16 (d : List Byte) : Nat := crc16From 0xFFFF d

end Sys2Proof.Machine
end

