-- ==== Sys2Proof/Machine/Table.lean ====
section
/-! DEFINITION. Machine/Table.lean: the sparse tables, byte memories and word memories that State is made of.

A table (`Tbl`) lists its entries in ascending order of their number. A memory lists (address, octet) pairs, addresses
strictly rising, and holds no pair whose octet is the one an unlisted address reads as, which is 0: every memory is
zero-filled before software reaches it (22 R604). The 36-bit memories have the same form. -/

namespace Sys2Proof.Machine

/-- The entry of a number, if the table has one. -/
def tget {α : Type} : Tbl α → Nat → Option α
  | [], _ => none
  | (k, v) :: t, n => if k == n then some v else tget t n

/-- The entry of a number, or a default. -/
def tgetD {α : Type} (t : Tbl α) (n : Nat) (d : α) : α := (tget t n).getD d

/-- Put an entry in its place in the order of numbers, replacing the one that was there. -/
def tset {α : Type} : Tbl α → Nat → α → Tbl α
  | [], n, v => [(n, v)]
  | (k, w) :: t, n, v =>
    if n < k then (n, v) :: (k, w) :: t
    else if n == k then (n, v) :: t
    else (k, w) :: tset t n v

/-- Take a number's entry out. -/
def tdel {α : Type} (t : Tbl α) (n : Nat) : Tbl α := t.filter (fun e => e.1 != n)

/-- Change an entry that is there. -/
def tmod {α : Type} (t : Tbl α) (n : Nat) (f : α → α) : Tbl α :=
  t.map (fun e => if e.1 == n then (e.1, f e.2) else e)

/-- Change an entry, starting from a default where there is none. -/
def tupd {α : Type} (t : Tbl α) (n : Nat) (d : α) (f : α → α) : Tbl α := tset t n (f (tgetD t n d))

/-- Does the table have an entry for the number? -/
def thas {α : Type} (t : Tbl α) (n : Nat) : Bool := (tget t n).isSome

/-- How many entries satisfy a condition. -/
def tcount {α : Type} (t : Tbl α) (p : Nat → α → Bool) : Nat := t.countP (fun e => p e.1 e.2)

/-- Does some entry satisfy a condition? -/
def tany {α : Type} (t : Tbl α) (p : Nat → α → Bool) : Bool := t.any (fun e => p e.1 e.2)

/-- Change every entry. -/
def tmap {α : Type} (t : Tbl α) (f : Nat → α → α) : Tbl α := t.map (fun e => (e.1, f e.1 e.2))

/-- Keep the entries that satisfy a condition. -/
def tfilter {α : Type} (t : Tbl α) (p : Nat → α → Bool) : Tbl α := t.filter (fun e => p e.1 e.2)

/-- The first entry that satisfies a condition. -/
def tfind {α : Type} (t : Tbl α) (p : Nat → α → Bool) : Option (Nat × α) := t.find? (fun e => p e.1 e.2)

/-- The numbers that satisfy a condition, ascending. -/
def tkeys {α : Type} (t : Tbl α) (p : Nat → α → Bool) : List Nat := (tfilter t p).map (·.1)

/-- The lowest number from `lo` on that the table has no entry for. -/
def tfree {α : Type} : Tbl α → Nat → Nat
  | [], lo => lo
  | (k, _) :: t, lo => if k < lo then tfree t lo else if k == lo then tfree t (lo + 1) else lo

/-- The lowest free number of a range, if it has one (19 R502). -/
def tfreeIn {α : Type} (t : Tbl α) (lo hi : Nat) : Option Nat :=
  let n := tfree t lo
  if n < hi then some n else none

/-- Read one octet. -/
def memGet : List Host.Cell → Nat → Byte
  | [], _ => 0
  | (k, v) :: m, a => if k == a then v else memGet m a

/-- Write one octet, keeping the canonical form. -/
def memSet : List Host.Cell → Nat → Byte → List Host.Cell
  | [], a, b => if b == 0 then [] else [(a, b)]
  | (k, v) :: m, a, b =>
    if a < k then (if b == 0 then (k, v) :: m else (a, b) :: (k, v) :: m)
    else if a == k then (if b == 0 then m else (a, b) :: m)
    else (k, v) :: memSet m a b

/-- The canonical form of a byte memory. -/
def memWf : List Host.Cell → Bool
  | [] => true
  | [(_, v)] => v != 0
  | (k, v) :: (k', v') :: m => v != 0 && decide (k < k') && memWf ((k', v') :: m)

/-- Read `n` octets from an address up. -/
def memRead (m : List Host.Cell) : Nat → Nat → List Byte
  | _, 0 => []
  | a, n + 1 => memGet m a :: memRead m (a + 1) n

/-- Write octets from an address up. -/
def memWrite : List Host.Cell → Nat → List Byte → List Host.Cell
  | m, _, [] => m
  | m, a, b :: bs => memWrite (memSet m a b) (a + 1) bs

/-- Zero a range: drop every octet listed in it. -/
def memZero (m : List Host.Cell) (a n : Nat) : List Host.Cell := m.filter (fun c => c.1 < a || a + n ≤ c.1)

/-- Read one 36-bit word. -/
def wordGet : Tbl Word → Nat → Word
  | [], _ => 0
  | (k, v) :: m, a => if k == a then v else wordGet m a

/-- Write one 36-bit word, keeping the canonical form. -/
def wordSet : Tbl Word → Nat → Word → Tbl Word
  | [], a, b => if b == 0 then [] else [(a, b)]
  | (k, v) :: m, a, b =>
    if a < k then (if b == 0 then (k, v) :: m else (a, b) :: (k, v) :: m)
    else if a == k then (if b == 0 then m else (a, b) :: m)
    else (k, v) :: wordSet m a b

/-- The canonical form of a memory of words. -/
def wordWf : Tbl Word → Bool
  | [] => true
  | [(_, v)] => v != 0
  | (k, v) :: (k', v') :: m => v != 0 && decide (k < k') && wordWf ((k', v') :: m)

/-- Write words from an address up. -/
def wordsWrite : Tbl Word → Nat → List Word → Tbl Word
  | m, _, [] => m
  | m, a, w :: ws => wordsWrite (wordSet m a w) (a + 1) ws

/-- Read `n` words from an address up. -/
def wordsRead (m : Tbl Word) : Nat → Nat → List Word
  | _, 0 => []
  | a, n + 1 => wordGet m a :: wordsRead m (a + 1) n

/-- Zero a range of words. -/
def wordsZero (m : Tbl Word) (a n : Nat) : Tbl Word := m.filter (fun c => c.1 < a || a + n ≤ c.1)


/-- One element of a list, or a default beyond its end. -/
def listGet {α : Type} (l : List α) (i : Nat) (d : α) : α := (l[i]?).getD d

end Sys2Proof.Machine
end

