-- ==== Sys2Proof/Machine/HostState.lean ====
section
/-! DEFINITION. Machine/HostState.lean: what the host port (16), the booths (18), the partitions and tenants (17) and
the epoch mechanism (02) hold. -/

namespace Sys2Proof.Machine

/-- A host ring of one object: its base, the binary logarithm of its entries, the host's count and the device's count,
both free-running 32-bit (16 R437). For a producer ring `prod` is the host's and `cons` the device's; for a
completion ring `prod` is the device's and `cons` the host's. -/
structure HRing where
  base : Nat := 0
  log2 : Nat := 0
  prod : Nat := 0
  cons : Nat := 0
  deriving DecidableEq, Repr, Inhabited

/-- Where a booth command stands in its life (18 R492 to R497). -/
inductive CmdState where
  | waiting
  | handed
  | applied
  deriving DecidableEq, Repr, Inhabited

/-- A fetched command whose completion record is not written yet (18 R495). -/
structure OutCmd where
  id : Nat
  group : Nat
  code : Nat
  part : Nat
  tenant : Nat
  fence : Bool
  signal : Bool
  context : Nat
  state : CmdState
  /-- the CANCELs that name it and wait for its end (18 R498) -/
  cancellers : List Nat
  /-- PARAMS 0+8, the argument that EPOCH_WAIT and the long commands need while they wait -/
  arg : Nat
  deriving DecidableEq, Repr, Inhabited

/-- One booth (18 R483 to R495). -/
structure Booth where
  enable : Bool := false
  negotiating : Bool := false
  ready : Bool := false
  stopping : Bool := false
  /-- BOOTH_STATUS.ERROR: 0 none, 1 BAD_RING, 2 VERSION_MISMATCH, 3 FEATURE_MISSING -/
  error : Nat := 0
  subBase : Nat := 0
  cmpBase : Nat := 0
  evtBase : Nat := 0
  subLog2 : Nat := 0
  cmpLog2 : Nat := 0
  evtLog2 : Nat := 0
  cmpVector : Nat := 0
  evtVector : Nat := 0
  pasidEn : Bool := false
  pasid : Nat := 0
  reqMajor : Nat := 0
  reqMinor : Nat := 0
  featReq : Nat := 0
  featEn : Nat := 0
  /-- the minor version the booth behaves as (18 R486) -/
  minor : Nat := 0
  subProd : Nat := 0
  subCons : Nat := 0
  cmpProd : Nat := 0
  cmpCons : Nat := 0
  evtProd : Nat := 0
  evtCons : Nat := 0
  /-- event records lost and not yet reported by EVENTS_LOST (04 R101) -/
  lost : Nat := 0
  /-- lost events since enable (19 R508) -/
  lostTotal : Nat := 0
  /-- entries of the submission read that is outstanding (18 R492); 0 when none is -/
  reading : Nat := 0
  /-- the last read failed; the next accepted doorbell reads again (18 R492) -/
  readFailed : Bool := false
  outst : List OutCmd := []
  /-- identifiers of completion records the host has not consumed, oldest first; a record of ID_IN_USE holds none, and
  stands here as 65,536 (02 R46) -/
  done : List Nat := []
  /-- completion records that wait for the return to D0 (22 R591): record without its PHASE, and SIGNAL -/
  held : List (List Byte × Bool) := []
  deriving DecidableEq, Repr, Inhabited

/-- What a ring doorbell of a function drives (16 R435). -/
inductive DbTarget where
  | rxBuf (ring : Nat)
  | rxComp (ring : Nat)
  | txProd (queue : Nat)
  | txComp (queue : Nat)
  | sample (queue : Nat)
  | gdpOp (conn : Nat)
  | gdpRecv (conn : Nat)
  | gdpComp (conn : Nat)
  | moverProd (queue : Nat)
  | moverComp (queue : Nat)
  | codecDesc (stream : Nat)
  | codecComp (stream : Nat)
  | storProd (queue : Nat)
  | storComp (queue : Nat)
  | telem (port : Nat)
  | parleyOfTenant
  | parleyOfManager (vf : Nat)
  deriving DecidableEq, Repr, Inhabited

/-- An assigned ring doorbell and the last value it accepted (16 R436). -/
structure Doorbell where
  target : DbTarget
  last : Nat := 0
  deriving DecidableEq, Repr, Inhabited

/-- One MSI-X vector (16 R438 to R440). -/
structure Msix where
  addr : Nat := 0
  data : Nat := 0
  masked : Bool := true
  pending : Bool := false
  holdoffUs : Nat := 0
  /-- a holdoff is running -/
  held : Bool := false
  /-- the vector was raised during the running holdoff -/
  raised : Bool := false
  deriving DecidableEq, Repr, Inhabited

/-- One direction of a tenant's parley (17 R475). -/
structure Parley where
  /-- a 10 µs interval is running -/
  running : Bool := false
  pending : Option Nat := none
  deriving DecidableEq, Repr, Inhabited

/-- A booth capability register access or AER entry kept per function (16 R451). -/
inductive AerKind where
  | correctable
  | completionTimeout
  | completerAbortReceived
  | unexpectedCompletion
  | poisonedCompletion
  | poisonedWrite
  | accessRefused
  | fatal
  deriving DecidableEq, Repr, Inhabited

/-- One function: the manager (0) or a tenant function (16, 17). -/
structure Fn where
  booth : Booth := {}
  doorbells : Tbl Doorbell := []
  /-- values last accepted by act doorbells (16 R436, R437) -/
  actLast : Tbl Nat := []
  msix : Tbl Msix := []
  msixEnable : Bool := false
  fnMask : Bool := false
  roEnable : Bool := false
  idoReq : Bool := false
  idoComp : Bool := false
  ats : Bool := false
  pasidCap : Bool := false
  d3 : Bool := false
  accessDenied : Nat := 0
  dbDiscards : Nat := 0
  /-- refused doorbell values since the last DOORBELL_ERROR, and when it was placed (16 R437) -/
  dbErrors : Nat := 0
  dbErrorAt : Option Nat := none
  aer : List AerKind := []
  attached : Bool := false
  /-- TENANT_DETACH at or past stage 1 (17 R472) -/
  detaching : Bool := false
  parleyAddr : Nat := 0
  parleyPasid : Option Nat := none
  parleyDbTenant : Nat := 0
  parleyDbManager : Nat := 0
  toManager : Parley := {}
  toTenant : Parley := {}
  /-- SEQ of the share-status block (17 R477) -/
  ssSeq : Nat := 0
  ssUpdatedAt : Nat := 0
  /-- limits and usage as last written to the block (17 R477) -/
  ssLast : List Byte := []
  caps : Tbl Nat := []
  /-- a function-level reset is in progress (16 R454) -/
  flr : Bool := false
  /-- registers of POWER_STATE: No_Soft_Reset (22 R591) -/
  noSoftReset : Bool := true
  deriving DecidableEq, Repr, Inhabited

/-- What an outstanding read of host memory is for (16 R453). -/
inductive ReadFor where
  | submission (fn : Nat)
  | txDesc (queue count : Nat)
  | txBuf (queue count : Nat)
  | rxBuffers (ring count : Nat)
  | moverDesc (queue count : Nat)
  | codecDesc (stream count : Nat)
  | storDesc (queue count : Nat)
  | gdpOps (conn count : Nat)
  | gdpRecvs (conn count : Nat)
  /-- a read granted to a Midway master at the host windows -/
  | window (master : Nat)
  deriving DecidableEq, Repr, Inhabited

/-- An outstanding read of host memory. -/
structure HostRd where
  tag : Nat
  fn : Nat
  pasid : Option Nat
  addr : Nat
  len : Nat
  use : ReadFor
  at_ : Nat
  deriving DecidableEq, Repr, Inhabited

/-- A posted write or message that waits in order for its translation (16 R448). -/
structure HeldPost where
  fn : Nat
  pasid : Option Nat
  addr : Nat
  data : List Byte
  ro : Bool
  /-- an MSI-X message with its vector in place of a write -/
  msix : Option Nat
  /-- an event record, whose loss is counted (16 R660) -/
  isEvent : Bool
  deriving DecidableEq, Repr, Inhabited

/-- One entry of the address translation cache (16 R448). -/
structure AtcEntry where
  fn : Nat
  pasid : Option Nat
  base : Nat
  size : Nat
  read : Bool
  write : Bool
  deriving DecidableEq, Repr, Inhabited

/-- An accepted Invalidate Request (16 R449). -/
structure Inval where
  tag : Nat
  /-- tags of the reads that used a removed entry and are still outstanding -/
  waits : List Nat
  deriving DecidableEq, Repr, Inhabited

/-- The host port (16). -/
structure HostPort where
  linkUp : Bool := false
  linkRate : Nat := 0
  linkWidth : Nat := 0
  vfEnable : Bool := false
  numVfs : Nat := 0
  dmaTimeoutUs : Nat := 50000
  reads : List HostRd := []
  /-- tags of timed-out reads whose late completion has not arrived (16 R453) -/
  deadTags : List Nat := []
  heldPosts : List HeldPost := []
  heldReads : List HostRd := []
  atc : List AtcEntry := []
  invals : List Inval := []
  /-- booth service's round-robin pointer (18 R492) -/
  boothNext : Nat := 0
  deriving DecidableEq, Repr, Inhabited

/-- A firmware component (18 R478 to R481). -/
inductive CompState where
  | running
  | restarting
  | stopped
  deriving DecidableEq, Repr, Inhabited

/-- One firmware component: its state and the times of its faults in the last 10 minutes. -/
structure Comp where
  state : CompState := .running
  faults : List Nat := []
  deriving DecidableEq, Repr, Inhabited

/-- A completion that waits for epochs to be adopted (02 R59 step 4). -/
structure Deferred where
  fn : Nat
  id : Nat
  parts : List Nat
  status : Status
  result : List Byte
  /-- the partition whose epoch the record reports, or none for sixteen epochs -/
  epochOf : Option Nat
  deriving DecidableEq, Repr, Inhabited

/-- The stages of a resize (17 R467). -/
inductive ResizeStage where
  | shrink
  | scrub
  | grow
  deriving DecidableEq, Repr, Inhabited

/-- A resize in progress (17 R465 to R469). -/
structure Resize where
  fn : Nat
  id : Nat
  stage : ResizeStage
  /-- the new owner of each moving unit: (unit, old owner, new owner); 255 is unassigned -/
  moves : List (Nat × Nat × Nat)
  cancelled : Bool
  /-- what the command ends with after the grow commit; FW_RESTARTED where its component restarted meanwhile -/
  status : Status := .ok
  deriving DecidableEq, Repr, Inhabited

/-- How far the closing of a tenant has come (16 R454, 17 R472). -/
inductive CloseStage where
  /-- a detach: commands fetched earlier run to completion -/
  | commands
  /-- the closing commit waits for a single live epoch and for the end of a resize -/
  | commit
  /-- the closing epoch is live beside the older one -/
  | retire
  /-- a function-level reset: everything but step 8 is done -/
  | ready
  deriving DecidableEq, Repr, Inhabited

/-- A detach or a function-level reset in progress: the function, whether it is the reset, whether the function ceases to
exist after it, and the command that asked for a detach. -/
structure Detach where
  vf : Nat
  flr : Bool
  removed : Bool
  cmd : Option (Nat × Nat)
  stage : CloseStage
  /-- the epoch of its closing commit -/
  epoch : Nat := 0
  deriving DecidableEq, Repr, Inhabited

end Sys2Proof.Machine
end

