-- ==== Sys2Proof/Machine/ActState.lean ====
section
/-! DEFINITION. Machine/ActState.lean: the tumblers, their acts, bindings and events (08, 09). -/

namespace Sys2Proof.Machine

/-- A loaded act (08 R218 to R220). -/
structure Act where
  imBase : Nat
  /-- the code words, which a tumbler that joins the partition receives a copy of (08 R221) -/
  code : List Nat
  entries : List Nat
  segments : List (Nat × Nat)
  deriving DecidableEq, Repr, Inhabited

/-- The length of an act's code. -/
def Act.codeWords (a : Act) : Nat := a.code.length

/-- A binding with its owner (08 R222). -/
structure BindCfg where
  part : Nat
  tenant : Nat
  fn : Nat
  b : ActBinding
  deriving DecidableEq, Repr

/-- An act timer (08 R225): its binding, its period and when it is first due. -/
structure TimerCfg where
  binding : Nat
  tenant : Nat
  periodUs : Nat
  /-- cadence time at which it is first due; none for one period from adoption -/
  first : Option Nat
  /-- the epoch under which it was set -/
  epoch : Nat
  deriving DecidableEq, Repr, Inhabited

/-- Configuration of acts; bindings, timers and act doorbells of partition `p` are numbered `64 p + n`. -/
structure ActCfg where
  bindings : Tbl BindCfg := []
  timers : Tbl TimerCfg := []
  doorbells : Tbl Nat := []
  deriving DecidableEq, Repr, Inhabited

/-- An event in a partition's queue (08 R225 to R228). -/
structure Event where
  kind : Nat
  binding : Nat
  session : Nat
  epoch : Nat
  words : List Word
  /-- the payload of a frame due, copied to the input area of the tumbler that takes the event (06 R170) -/
  payload : List Byte
  /-- the timer or act doorbell of kinds 004 and 005 -/
  source : Nat
  deriving DecidableEq, Repr, Inhabited

/-- A binding's counters (08 R234, R237, R227). -/
structure BindStat where
  invocations : Nat := 0
  cycles : Nat := 0
  hwCycles : Nat := 0
  overruns : Nat := 0
  faults : Nat := 0
  eventsDropped : Nat := 0
  doorbellDenied : Nat := 0
  repliesDiscarded : Nat := 0
  starved : Bool := false
  failSince : Nat := 0
  failAt : Option Nat := none
  deriving DecidableEq, Repr, Inhabited

/-- A running timer: its due time on the cadence clock and the setting it runs under. -/
structure TimerDyn where
  due : Nat
  cfg : TimerCfg
  deriving DecidableEq, Repr, Inhabited

/-- Why a tumbler does not go on to its next instruction. -/
inductive Stall where
  | none
  /-- a Midway load waits for its data: its instruction word and its device address (08 R216) -/
  | load (w : Word) (addr : Nat)
  /-- TAKE waits for a reply: its instruction word (08 R235) -/
  | take (w : Word)
  deriving DecidableEq, Repr, Inhabited

/-- An invocation that a tumbler runs (08 R229 to R232). -/
structure Invocation where
  part : Nat
  binding : Nat
  tenant : Nat
  epoch : Nat
  session : Nat
  kind : Nat
  words : List Word
  allowance : Nat
  deriving DecidableEq, Repr, Inhabited

/-- One tumbler (09 R242 to R246). `w` holds W0 to W31; W0 reads as zero. -/
structure Tumbler where
  w : Tbl Word := []
  bk : List Nat := [0, 1, 2, 3]
  ls : List Nat := [0, 0, 0, 0]
  le : List Nat := [0, 0, 0, 0]
  lc : List Nat := [0, 0, 0, 0]
  fl : Nat := 0
  pc : Nat := 0
  cyc : Nat := 0
  run : Option Invocation := none
  stall : Stall := .none
  /-- replies that have arrived and wait for TAKE, oldest first: port and two words -/
  arrived : List (Nat × Word × Word) := []
  /-- the exception code of the failed stores whose completion has come back (09 R259) -/
  storeFailed : Option Nat := none
  /-- failed stores whose completion has not come back yet: the exception code of each, oldest first -/
  stores : List Nat := []
  deriving DecidableEq, Repr, Inhabited

/-- Everything of the tumbler array that is not configuration. -/
structure Acts where
  tumblers : Tbl Tumbler := []
  /-- acts of partition `p` are numbered `64 p + n` -/
  acts : Tbl Act := []
  stats : Tbl BindStat := []
  timers : Tbl TimerDyn := []
  queues : Tbl (List Event) := []
  deriving DecidableEq, Repr, Inhabited

end Sys2Proof.Machine
end

