-- ==== Sys2Proof/Machine/Operands.lean ====
section
/-! DEFINITION. Machine/Operands.lean: the Belpor-36 instruction word: its fields (09 R248), which words are reserved
encodings (09 R248, 10 R262 to R285), and every operand form an instruction of 10 uses. -/

namespace Sys2Proof.Machine

/-- The instructions of the opcode map (10 R285), one for each row. -/
inductive Op where
  | add | adc | sub | sbc | cmp | neg | adds | subs | and_ | or_ | xor_ | andn
  | shl | shr | sar | ror | bfx | bfxs | bfi | cnt | nperm | addp | subp | addps | subps
  | mul | mulhs | mulhu | mac | macs | macp | sat
  | addi | cmpi | andi | ori | xori | seth | setl
  | ldw | stw | ldh | ldhs | sth | ldn | stn | aadd | acas
  | b | br | call | callr | ret
  | loopi | loopr | lexit
  | post | take | poll | mfs | mts | endact | brk
  deriving DecidableEq, Repr

/-- The instruction an opcode names; none where the opcode is reserved (10 R285). Octal opcodes are written in decimal
with their octal in the table of the manual: 0o020 is 16, 0o200 is 128, 0o400 is 256, 0o700 is 448. -/
def opOf (op : Nat) : Option Op :=
  match op with
  | 1 => some .add | 2 => some .adc | 3 => some .sub | 4 => some .sbc
  | 5 => some .cmp | 6 => some .neg | 7 => some .adds | 8 => some .subs
  | 16 => some .and_ | 17 => some .or_ | 18 => some .xor_ | 19 => some .andn
  | 24 => some .shl | 25 => some .shr | 26 => some .sar | 27 => some .ror
  | 32 => some .bfx | 33 => some .bfxs | 34 => some .bfi
  | 40 => some .cnt | 41 => some .nperm
  | 48 => some .addp | 49 => some .subp | 50 => some .addps | 51 => some .subps
  | 56 => some .mul | 57 => some .mulhs | 58 => some .mulhu | 59 => some .mac | 60 => some .macs | 61 => some .macp
  | 64 => some .sat
  | 128 => some .addi | 129 => some .cmpi | 130 => some .andi | 131 => some .ori | 132 => some .xori
  | 136 => some .seth | 137 => some .setl
  | 256 => some .ldw | 257 => some .stw | 258 => some .ldh | 259 => some .ldh
  | 260 => some .ldhs | 261 => some .ldhs | 262 => some .sth | 263 => some .sth
  | 264 => some .ldn | 265 => some .ldn | 266 => some .ldn | 267 => some .ldn
  | 268 => some .stn | 269 => some .stn | 270 => some .stn | 271 => some .stn
  | 272 => some .aadd | 273 => some .acas
  | 320 => some .b | 321 => some .br | 322 => some .call | 323 => some .callr | 324 => some .ret
  | 384 => some .loopi | 385 => some .loopr | 386 => some .lexit
  | 448 => some .post | 449 => some .take | 450 => some .poll
  | 456 => some .mfs | 457 => some .mts | 504 => some .endact | 511 => some .brk
  | _ => none

/-- Bits `i` to `i + w - 1` of an instruction word. -/
def wf (w : Word) (i n : Nat) : Nat := field w.toNat i n

/-- Nonet 3, the opcode. -/
def fOp (w : Word) : Nat := wf w 27 9
/-- The RD field of formats R, I, M and P. -/
def fRd (w : Word) : Nat := wf w 22 5
/-- The RA field of formats R, I and P. -/
def fRa (w : Word) : Nat := wf w 17 5
/-- The RB field of format R. -/
def fRb (w : Word) : Nat := wf w 12 5
/-- The FN field of format R. -/
def fFn (w : Word) : Nat := wf w 0 12
/-- The IMM field of format I. -/
def fImm (w : Word) : Nat := wf w 0 17
/-- The 18-bit immediate of SETH and SETL (10 R273). -/
def fImm18 (w : Word) : Nat := wf w 0 18
/-- The BS field of format M. -/
def fBs (w : Word) : Nat := wf w 20 2
/-- The RA field of formats M and B. -/
def fRaM (w : Word) : Nat := wf w 15 5
/-- The DISP field of format M, signed. -/
def fDisp (w : Word) : Int := signed 15 (wf w 0 15)
/-- The COND field of format B. -/
def fCond (w : Word) : Nat := wf w 23 4
/-- The TARGET or END field of formats B and L. -/
def fTarget (w : Word) : Nat := wf w 0 20
/-- The COUNT field of LOOPI. -/
def fCount (w : Word) : Nat := wf w 20 7
/-- The PORT field of format P. -/
def fPort (w : Word) : Nat := wf w 14 3
/-- The half or nonet number of a memory instruction, taken from its opcode (10 R274). -/
def fPart (w : Word) : Nat :=
  let op := fOp w
  if op < 264 then op % 2 else op % 4

/-- Is a shift's amount form legal (10 R265)? -/
def shiftLegal (w : Word) : Bool :=
  if bit (fFn w) 11 then fFn w % 64 ≤ 35 && field (fFn w) 6 5 == 0 && fRb w == 0
  else field (fFn w) 0 11 == 0

/-- Is a field descriptor legal (10 R266)? -/
def descLegal (w : Word) : Bool :=
  let pos := fFn w / 64
  let wid := fFn w % 64
  wid != 0 && wid ≤ 36 && pos ≤ 35 && pos + wid ≤ 36 && fRb w == 0

/-- Is a word with a defined opcode free of reserved encodings (09 R248, R249, 10 R262 to R282)? -/
def opLegal (o : Op) (w : Word) : Bool :=
  match o with
  | .add | .adc | .sub | .sbc | .adds | .subs | .and_ | .or_ | .xor_ | .andn
  | .addp | .subp | .addps | .subps | .mul | .mulhs | .mulhu | .mac | .macs | .macp => fFn w == 0
  | .cmp => fRd w == 0 && fFn w == 0
  | .neg => fRb w == 0 && fFn w == 0
  | .shl | .shr | .sar | .ror => shiftLegal w
  | .bfx | .bfxs | .bfi => descLegal w
  | .cnt => fRb w == 0 && fFn w ≤ 3
  | .nperm => true
  | .sat => fRb w == 0 && 1 ≤ fFn w && fFn w ≤ 36
  | .addi | .andi | .ori | .xori => true
  | .cmpi => fRd w == 0
  | .seth | .setl => wf w 18 4 == 0
  | .ldw | .stw | .ldh | .ldhs | .sth | .ldn | .stn | .aadd => true
  | .acas => fRd w != 31
  | .b | .call => fCond w != 15 && wf w 20 3 == 0
  | .br | .callr => fCond w != 15 && wf w 20 3 == 0 && wf w 0 15 == 0
  | .ret => fCond w != 15 && wf w 20 3 == 0 && wf w 0 20 == 0
  | .loopi => true
  | .loopr => wf w 20 2 == 0
  | .lexit => wf w 20 7 == 0
  | .post => fRd w == 0 && wf w 0 14 == 0
  | .take => wf w 0 14 == 0 && (fRd w != fRa w || fRd w == 0)
  | .poll => fRa w == 0 && wf w 0 14 == 0
  | .mfs | .mts => wf w 0 17 == 0
  | .endact | .brk => wf w 0 27 == 0

/-- The instruction of a word that is not a reserved encoding. -/
def belporDecode (w : Word) : Option Op :=
  match opOf (fOp w) with
  | none => none
  | some o => if opLegal o w then some o else none

/-- A word register; W0 reads as zero (09 R242). -/
def Tumbler.get (t : Tumbler) (r : Nat) : Word := if r == 0 then 0 else wordGet t.w r

/-- Write a word register; a write to W0 is discarded (09 R242). -/
def Tumbler.put (t : Tumbler) (r : Nat) (v : Word) : Tumbler := if r == 0 then t else { t with w := wordSet t.w r v }

/-- The halves and nonets of a word (00 R7). -/
def half (w : Word) (k : Nat) : Nat := field w.toNat (18 * k) 18
/-- Nonet `k` of a word. -/
def nonet (w : Word) (k : Nat) : Nat := field w.toNat (9 * k) 9
/-- A word with half `k` replaced. -/
def setHalf (w : Word) (k v : Nat) : Word :=
  BitVec.ofNat 36 (w.toNat - half w k * 2 ^ (18 * k) + v % 2 ^ 18 * 2 ^ (18 * k))
/-- A word with nonet `k` replaced. -/
def setNonet (w : Word) (k v : Nat) : Word :=
  BitVec.ofNat 36 (w.toNat - nonet w k * 2 ^ (9 * k) + v % 512 * 2 ^ (9 * k))
/-- The word of four nonets, nonet 3 first. -/
def ofNonets (n3 n2 n1 n0 : Nat) : Word := BitVec.ofNat 36 (((n3 % 512 * 512 + n2 % 512) * 512 + n1 % 512) * 512 + n0 % 512)

/-- The effective word address of a memory instruction (09 R245). -/
def effective (t : Tumbler) (w : Word) : Nat :=
  let short := (((t.get (fRaM w)).toNat : Int) + fDisp w) % 262144
  listGet t.bk (fBs w) 0 * 262144 + short.toNat

/-- The amount of a shift: immediate, or a register (10 R265). -/
def shiftAmount (t : Tumbler) (w : Word) : Nat := if bit (fFn w) 11 then fFn w % 64 else (t.get (fRb w)).toNat

/-- Does a condition hold in the flags (09 R249)? -/
def condHolds (fl c : Nat) : Bool :=
  let cF := bit fl 0
  let z := bit fl 1
  let n := bit fl 2
  let v := bit fl 3
  match c with
  | 0 => z | 1 => !z | 2 => cF | 3 => !cF | 4 => n | 5 => !n | 6 => v | 7 => !v
  | 8 => cF && !z | 9 => !cF || z | 10 => n == v | 11 => n != v
  | 12 => !z && n == v | 13 => z || n != v | _ => true

/-- The loop depth: the number of active sets (09 R252). -/
def depth (t : Tumbler) : Nat := t.lc.countP (fun c => c != 0)

/-- Replace one element of a list. -/
def listSet {α : Type} (l : List α) (i : Nat) (v : α) : List α := l.set i v

end Sys2Proof.Machine
end

