-- ==== Sys2Proof/Machine/Flags.lean ====
section
/-! DEFINITION. Machine/Flags.lean: the flags C Z N V Q of Belpor-36 (09 R243, 10 R263) and the result and flags of
every register and immediate instruction (10 R264 to R273). -/

namespace Sys2Proof.Machine

/-- The flags an instruction names: a value, or none where it leaves the flag as it was. Q is sticky. -/
structure Flags where
  c : Option Bool := none
  z : Option Bool := none
  n : Option Bool := none
  v : Option Bool := none
  q : Bool := false
  deriving DecidableEq, Repr

/-- One flag bit: its new value where it is named. -/
def flagBit (fl i : Nat) (b : Option Bool) : Nat := 2 ^ i * (match b with | some x => b2n x | none => b2n (bit fl i))

/-- FL after an instruction (10 R263). -/
def setFlags (fl : Nat) (f : Flags) : Nat :=
  flagBit fl 0 f.c + flagBit fl 1 f.z + flagBit fl 2 f.n + flagBit fl 3 f.v
    + 16 * b2n (bit fl 4 || f.q)

/-- Z and N of a result. -/
def zn (r : Word) : Flags := { z := some (r == 0), n := some (bit r.toNat 35) }

/-- The signed value of a word. -/
def sw (w : Word) : Int := signed 36 w.toNat

/-- Is an exact signed result outside the word's range (10 R263)? -/
def overflows (x : Int) : Bool := x < -(2 ^ 35 : Int) || x ≥ (2 ^ 35 : Int)

/-- The word of an integer's low bits. -/
def ofInt36 (x : Int) : Word := BitVec.ofNat 36 (unsigned 36 x)

/-- Addition with a carry in. -/
def addWord (a b : Word) (cin : Nat) : Word × Flags :=
  let r : Word := BitVec.ofNat 36 (a.toNat + b.toNat + cin)
  (r, { zn r with c := some (decide (2 ^ 36 ≤ a.toNat + b.toNat + cin)), v := some (overflows (sw a + sw b + cin)) })

/-- Subtraction with a borrow in. -/
def subWord (a b : Word) (bin : Nat) : Word × Flags :=
  let r := ofInt36 ((a.toNat : Int) - b.toNat - bin)
  (r, { zn r with c := some (decide (b.toNat + bin ≤ a.toNat)), v := some (overflows (sw a - sw b - bin)) })

/-- Clip an exact integer to `n` signed bits (10, notation). -/
def satInt (n : Nat) (x : Int) : Int := max (-(2 ^ (n - 1) : Nat) : Int) (min (((2 ^ (n - 1) : Nat) : Int) - 1) x)

/-- A saturated word and its flags. -/
def satWord (n : Nat) (x : Int) : Word × Flags :=
  let r := ofInt36 (satInt n x)
  (r, { zn r with q := satInt n x != x })

/-- A result whose entry names Z and N only. -/
def znOnly (r : Word) : Word × Flags := (r, zn r)

/-- Shift left (10 R265). -/
def shlWord (a : Word) (k : Nat) : Word × Flags :=
  if k == 0 then znOnly a
  else
    let r : Word := if k ≥ 36 then 0 else BitVec.ofNat 36 (a.toNat * 2 ^ k)
    (r, { zn r with c := some (k ≤ 36 && bit a.toNat (36 - k)) })

/-- Shift right, zero fill. -/
def shrWord (a : Word) (k : Nat) : Word × Flags :=
  if k == 0 then znOnly a
  else
    let r : Word := BitVec.ofNat 36 (if k ≥ 36 then 0 else a.toNat / 2 ^ k)
    (r, { zn r with c := some (k ≤ 36 && bit a.toNat (k - 1)) })

/-- Shift right, sign fill. -/
def sarWord (a : Word) (k : Nat) : Word × Flags :=
  if k == 0 then znOnly a
  else
    let j := min k 36
    let r := if j == 36 then ofInt36 (if bit a.toNat 35 then -1 else 0) else ofInt36 (sw a / (2 ^ j : Nat))
    (r, { zn r with c := some (bit a.toNat (j - 1)) })

/-- Rotate right. -/
def rorWord (a : Word) (k : Nat) : Word × Flags :=
  let r := k % 36
  if r == 0 then znOnly a
  else
    let x : Word := BitVec.ofNat 36 (a.toNat / 2 ^ r + a.toNat % 2 ^ r * 2 ^ (36 - r))
    (x, { zn x with c := some (bit x.toNat 35) })

/-- BFX and BFXS (10 R266). -/
def bfxWord (a : Word) (fn : Nat) (sign : Bool) : Word × Flags :=
  let wid := fn % 64
  let x := field a.toNat (fn / 64) wid
  znOnly (if sign then ofInt36 (signed wid x) else BitVec.ofNat 36 x)

/-- BFI (10 R266). -/
def bfiWord (d a : Word) (fn : Nat) : Word × Flags :=
  let pos := fn / 64
  let wid := fn % 64
  znOnly (BitVec.ofNat 36 (d.toNat - field d.toNat pos wid * 2 ^ pos + a.toNat % 2 ^ wid * 2 ^ pos))

/-- How many of the highest bits of a number of `n` bits equal a value, counting down from bit `n - 1`. -/
def leading (v : Nat) (b : Bool) : Nat → Nat
  | 0 => 0
  | n + 1 => if bit v n == b then leading v b n + 1 else 0

/-- How many of the lowest bits are zero, up to `n`. -/
def trailing (v : Nat) : Nat → Nat → Nat
  | _, 0 => 0
  | i, n + 1 => if bit v i then 0 else trailing v (i + 1) n + 1

/-- Marked nonets from nonet 3 downward (10 R267, CLM). -/
def leadingMarks (w : Word) : Nat → Nat
  | 0 => 0
  | k + 1 => if bit (nonet w k) 8 then leadingMarks w k + 1 else 0

/-- CNT (10 R267). N is always 0. -/
def cntWord (a : Word) (mode : Nat) : Word × Flags :=
  let k := match mode with
    | 0 => leading a.toNat false 36
    | 1 => leading a.toNat true 36
    | 2 => leadingMarks a 4
    | _ => trailing a.toNat 0 36
  znOnly (BitVec.ofNat 36 k)

/-- NPERM (10 R268). -/
def npermWord (a b : Word) (fn : Nat) : Word × Flags :=
  let pick := fun j => let v := field fn (3 * j) 3; if v < 4 then nonet a v else nonet b (v - 4)
  znOnly (ofNonets (pick 3) (pick 2) (pick 1) (pick 0))

/-- A lane-wise result of two halves (10 R269). -/
def lanes (a b : Word) (f : Nat → Nat → Int) : Word :=
  BitVec.ofNat 36 (unsigned 18 (f (half a 1) (half b 1)) * 2 ^ 18 + unsigned 18 (f (half a 0) (half b 0)))

/-- A saturating lane-wise result (10 R269). -/
def satLanes (a b : Word) (f : Int → Int → Int) : Word × Flags :=
  let g := fun (x y : Nat) => f (signed 18 x) (signed 18 y)
  let r := lanes a b (fun x y => satInt 18 (g x y))
  let clipped := satInt 18 (g (half a 1) (half b 1)) != g (half a 1) (half b 1)
    || satInt 18 (g (half a 0) (half b 0)) != g (half a 0) (half b 0)
  (r, { zn r with q := clipped })

/-- The signed product of two halves. -/
def halfProduct (a b : Word) (k : Nat) : Int := signed 18 (half a k) * signed 18 (half b k)

/-- sext(IMM) and zext(IMM) as words (10 R272). -/
def sextImm (w : Word) : Word := ofInt36 (signed 17 (fImm w))
/-- zext(IMM). -/
def zextImm (w : Word) : Word := BitVec.ofNat 36 (fImm w)

end Sys2Proof.Machine
end

