-- ==== Sys2Proof/Config.lean ====
section
/-! DEFINITION. Config.lean: what one part or one image fixes, and the values the manual leaves open.

A constant here has no body: nothing can be proved of its value, so a statement about it holds for every value.
The free values are applied to a counter of State that every draw advances (log entry 4, DESIGN CHOICE). The cryptographic
functions are those of the standards the manual names; the manual gives no arithmetic for them, so they stand here as
functions of everything they depend on (log entry 5, DESIGN CHOICE). -/

namespace Sys2Proof.Config

/-- The unit identifier of the identity record (23 R623). -/
opaque unitId : Nat
/-- The octets of the identity record that only production knows (23 R623). -/
opaque identityByte : Nat → Byte
/-- IMAGE_ID of the booted slot's header right after reset (22 R597). -/
opaque imageId : Nat
/-- A value the manual leaves open, one for each draw. -/
opaque freeValue : Nat → Nat
/-- An octet the manual leaves open, one for each draw. -/
opaque freeByte : Nat → Byte
/-- What HBM address `a` holds after wrapper test `n` (23 R622; log entry 4, DESIGN CHOICE). -/
opaque spoiledByte : Nat → Nat → Byte
/-- The backoff factor of a GDP retransmission in thousandths, before it is held to 1,000 to 1,250 (12 R348). -/
opaque backoffDraw : Nat → Nat
/-- AEAD of 07 R190: key material, nonce, associated data and plaintext give ciphertext and tag. -/
opaque aeadSeal : Nat → List Byte → List Byte → List Byte → List Byte → List Byte
/-- AEAD of 07 R190: key material, nonce, associated data, ciphertext and tag give the plaintext. -/
opaque aeadOpen : Nat → List Byte → List Byte → List Byte → List Byte → List Byte
/-- Does the tag verify: algorithm, material, nonce, associated data, ciphertext with tag (07 R206). -/
opaque tagOk : Nat → List Byte → List Byte → List Byte → List Byte → Bool
/-- Key check value of a key: algorithm and material give three octets (07 R198). -/
opaque kcv : Nat → List Byte → List Byte
/-- XTS encryption of one block of a volume: material, block number, data (07 R190, 15 R407). -/
opaque xtsEncrypt : List Byte → Nat → List Byte → List Byte
/-- XTS decryption of one block of a volume. -/
opaque xtsDecrypt : List Byte → Nat → List Byte → List Byte

/-- The PDUs of NVMe/TCP that carry an answer: command identifier, status, data (15 R416). -/
opaque nvmeAnswer : Nat → Nat → List Byte → List Byte
/-- The PDUs that carry a command: identifier, opcode, namespace, first block, blocks, FUA, data. -/
opaque nvmeCommand : Nat → Nat → Nat → Nat → Nat → Bool → List Byte → List Byte
/-- The PDU that asks a host for the data of a write: command identifier, length. -/
opaque nvmeReady : Nat → Nat → List Byte
/-- The PDUs with which an initiator connects one queue: subsystem and host NQN, queue, I/O queues, digests. -/
opaque nvmeConnect : List Byte → List Byte → Nat → Nat → Nat → List Byte

/-- The channels the device has, each by its receiver's island times 65,536 plus the INDEX of 02 R661, ascending in INDEX. -/
opaque channels : List Nat
/-- The depth of a channel, as what exceeds 2 modulo 255 (02 R42). -/
opaque channelDepth : Nat → Nat

/-- CRC-16 over the frame buffer rows 0 to 111, as the device's font renders the label's fields (21 R575, R578). -/
opaque labelCrc : List Byte → Nat

end Sys2Proof.Config
end

