-- ==== Sys2Proof/Machine/GdpState.lean ====
section
/-! DEFINITION. Machine/GdpState.lean: Direct Placement (12): regions, connections, the packets and messages of each
direction, acknowledgement, loss recovery and the window. -/

namespace Sys2Proof.Machine

/-- A region entry with its owner (12 R325). -/
structure RegionCfg where
  part : Nat
  tenant : Nat
  fn : Nat
  set : RegionSet
  deriving DecidableEq, Repr

/-- A connection's configuration (12 R327); 0 fields hold their defaults already. -/
structure ConnCfg where
  part : Nat
  tenant : Nat
  fn : Nat
  blk : ConnectBlock
  deriving DecidableEq, Repr

/-- What an epoch commit changes of GDP. -/
structure GdpCfg where
  regions : Tbl RegionCfg := []
  conns : Tbl ConnCfg := []
  deriving DecidableEq, Repr, Inhabited

/-- Connection states with their codes in GDP_STATE (19 R532). A CLOSED connection has no entry. -/
inductive ConnState where
  | connecting
  | open_
  | draining
  | error
  deriving DecidableEq, Repr, Inhabited

/-- A DATA packet handed to the transmit queue and not yet acknowledged (12 R347, R350). -/
structure GdpSent where
  psn : Nat
  op : Nat
  msn : Nat
  chunk : Nat
  pidx : Nat
  region : Nat
  rkey : Nat
  msgLen : Nat
  offset : Nat
  payload : List Byte
  path : Nat
  ts : Nat
  /-- cadence time of its last transmission -/
  at_ : Nat
  /-- place in the order of transmissions of the connection -/
  order : Nat
  /-- packets sent later on the same path and acknowledged since -/
  laterAcked : Nat
  /-- retransmissions so far -/
  retries : Nat
  /-- declared lost, waiting to be retransmitted -/
  lost : Bool
  deriving DecidableEq, Repr, Inhabited

/-- A message this node sends: an operation's packets, or the READ_RESP and ATOMIC_RESP packets of a responder. -/
structure GdpJob where
  op : Nat
  msn : Nat
  /-- the data it carries; none while a link atomic has not been answered -/
  data : Option (List Byte)
  msgLen : Nat
  region : Nat
  rkey : Nat
  offset : Nat
  nextK : Nat
  /-- a READ or atomic in service (12 R338) -/
  service : Bool
  deriving DecidableEq, Repr, Inhabited

/-- An outstanding operation at its initiator (12 R335 to R337). -/
structure GdpOp where
  msn : Nat
  desc : GdpDesc
  /-- sent by the Press, so that no record is written (20 R538) -/
  internal : Bool
  /-- a status set by a failed placement or a COMP entry -/
  status : Nat
  deriving DecidableEq, Repr, Inhabited

/-- A message being received (12 R342, R343). -/
structure GdpMsg where
  msn : Nat
  op : Nat
  msgLen : Nat
  ssn : Nat
  /-- chunk bitmaps: bit `i` of chunk `c` is PIDX `i` -/
  chunks : Tbl Nat
  /-- the device's status of its first failure, `ok` while there is none -/
  status : Status
  /-- placement writes that have not completed -/
  writes : Nat
  deriving DecidableEq, Repr, Inhabited

/-- A completion entry that ACKs repeat (12 R346). -/
structure GdpComp where
  msn : Nat
  status : Nat
  repeats : Nat
  /-- the PSN next expected when it was first sent -/
  sentAt : Option Nat
  deriving DecidableEq, Repr, Inhabited

/-- The counters of 12 R355, by place: TX_PKTS, RX_PKTS, RETX, CE_RX, DROP_STALE, DROP_AUTH, DROP_REPLAY, DROP_AHEAD,
DROP_DUP, DROP_COVERAGE, DROP_RESP_BUSY, DROP_NO_RECV. -/
structure GdpConn where
  state : ConnState := .connecting
  cause : Nat := 0
  /-- time of the last progress (12 R348) and of the last HELLO or CLOSE -/
  progressAt : Nat := 0
  closes : Nat := 0
  opRing : HRing := {}
  recvRing : HRing := {}
  compRing : HRing := {}
  /-- descriptors read and not started, and receive descriptors by count -/
  waiting : List GdpDesc := []
  recvs : Tbl GdpRecv := []
  ops : List GdpOp := []
  jobs : List GdpJob := []
  nextMsn : Nat := 0
  nextSsn : Nat := 0
  nextPsn : Nat := 0
  cumAck : Nat := 0
  sent : List GdpSent := []
  order : Nat := 0
  lastPath : Nat := 0
  /-- benched paths: start and end -/
  benches : Tbl (Nat × Nat) := []
  /-- cadence time before which no new DATA packet starts (24 R627) -/
  paceAt : Nat := 0
  /-- held back by the pace alone -/
  paced : Bool := false
  outstanding : Nat := 0
  hwOutstanding : Nat := 0
  window : Nat := 262144
  slowStart : Bool := true
  /-- α in units of 2^-24 -/
  alpha : Nat := 0
  roundW : Nat := 262144
  roundOctets : Nat := 0
  roundPkts : Nat := 0
  roundCe : Nat := 0
  roundRtt : Option Nat := none
  /-- RTT samples of the last 10 s that can still be its minimum: time and sample -/
  rtts : List (Nat × Nat) := []
  srtt : Option Nat := none
  rttvar : Nat := 0
  draws : Nat := 0
  cumPsn : Nat := 0
  marks : List Nat := []
  msgs : List GdpMsg := []
  comps : List GdpComp := []
  unackedRx : Nat := 0
  /-- the packet that the next delayed ACK echoes: TS, path, CE and PSN -/
  echo : Nat × Nat × Bool × Nat := (0, 0, false, 0)
  ackDueAt : Option Nat := none
  ceSince : Nat := 0
  /-- HC, once a protected packet has been accepted -/
  highCtr : Option Nat := none
  /-- READs and atomics in service for the peer -/
  inService : Nat := 0
  counts : Tbl Nat := []
  deriving DecidableEq, Repr, Inhabited

/-- Direct Placement. -/
structure Gdp where
  conns : Tbl GdpConn := []
  deriving DecidableEq, Repr, Inhabited

end Sys2Proof.Machine
end

