-- ==== Sys2Proof/Machine/MemState.lean ====
section
/-! DEFINITION. Machine/MemState.lean: the memories, Midway and the ownership of memory (03), and the handshake channels
and ledger instances of 02. -/

namespace Sys2Proof.Machine

/-- A head request that waits at a target (03 R86): its arrival order and the grants to other masters meanwhile. -/
structure MwHead where
  req : MwReq
  arrival : Nat
  others : Nat
  deriving DecidableEq, Repr

/-- A lock that is open at a target (03 R89, R90): its transactions so far and the address of the last one. -/
structure MwLock where
  master : Nat
  count : Nat
  addr : Nat
  deriving DecidableEq, Repr

/-- How a transaction completed to its master (03 R84): its status and, for a read or atomic, its data. -/
structure MwDone where
  master : Nat
  status : Status
  data : List Byte
  deriving DecidableEq, Repr

/-- What one target keeps (03 R86 to R90). -/
structure MwTarget where
  heads : List MwHead := []
  arrivals : Nat := 0
  lock : Option MwLock := none
  /-- masters whose broken sequence still runs to its unlock (03 R90) -/
  brokenBy : List Nat := []
  /-- the slot of the 17-slot rotation that was served last (04 R113) -/
  slot : Nat := 16
  unmapped : Nat := 0
  denied : Nat := 0
  lockbrk : Nat := 0
  /-- the transaction that completed last -/
  last : Option MwDone := none
  corr : Nat := 0
  /-- MW_FIRST_FAULT (03 R88): bit 63 valid, 55:53 kind, 52:48 master, 47:0 address -/
  firstFault : Nat := 0
  deriving DecidableEq, Repr, Inhabited

/-- Denied transactions of one issuing partition (03 R92). -/
structure DenyCount where
  since : Nat := 0
  last : Option Nat := none
  deriving DecidableEq, Repr, Inhabited

/-- A stage-memory cell that is not free: allocated to an object of a tenant, or in release (02 R46). -/
structure CellUse where
  part : Nat
  tenant : Nat
  released : Bool
  deriving DecidableEq, Repr, Inhabited

/-- The memories and Midway. -/
structure MemSys where
  /-- HBM and stage memory by device address -/
  bytes : List Host.Cell := []
  /-- troupe memory: word `w` of troupe `t` at `t * 2^20 + w` -/
  troupe : Tbl Word := []
  /-- instruction memory: word `w` of tumbler `n` at `n * 2^15 + w` -/
  im : Tbl Word := []
  /-- first addresses of the units that read as uncorrectable, troupe and instruction words by their raw view -/
  bad : List Nat := []
  targets : Tbl MwTarget := []
  deny : Tbl DenyCount := []
  /-- HBM stacks whose contents are unspecified after a wrapper test, with the draw that stands for them (23 R622) -/
  spoiled : Tbl Nat := []
  cells : Tbl CellUse := []
  deriving DecidableEq, Repr, Inhabited

/-- The four counters of one handshake channel (02 R41): S, A, F and F′. Its number is the receiver's island times 65,536
plus the INDEX of 02 R661. -/
structure Channel where
  launched : Nat := 0
  accepted : Nat := 0
  freed : Nat := 0
  freedSeen : Nat := 0
  deriving DecidableEq, Repr, Inhabited

/-- What the ledger auditor keeps of one audited instance (02 R49, R53): its run of imbalanced samples, or the counts
latched when its keeper was quarantined. -/
structure AuditRun where
  kind : Nat
  island : Nat
  index : Nat
  run : Nat
  held : Nat
  inUse : Nat
  total : Nat
  deriving DecidableEq, Repr, Inhabited

/-- One island (02 R38, R53, R54). -/
structure Island where
  quarantined : Bool := false
  /-- ledger faults of a tumbler since power-on -/
  faults : Nat := 0
  deriving DecidableEq, Repr, Inhabited

end Sys2Proof.Machine
end

