-- ==== Sys2Proof/Machine/MgmtState.lean ====
section
/-! DEFINITION. Machine/MgmtState.lean: management, time and the Playbill (21), power and boot (22), the Rind and test
access (23), the clocks and slow pins (25). -/

namespace Sys2Proof.Machine

/-- One copy of the device configuration block in the boot flash (21 R559). -/
structure CfgCopy where
  valid : Bool := false
  seq : Nat := 0
  block : ConfigBlock := { magicOk := true, shareMode := 0, smbusAddr := 0x6A, playbill := 1, featureDisable := 0, nodeName := [], rsvZero := true }
  deriving DecidableEq, Repr, Inhabited

/-- Slot states (22 R599). -/
inductive ImgState where
  | empty
  | valid
  | active
  | trial
  | bad
  deriving DecidableEq, Repr, Inhabited

/-- One record of the flash header (22 R599): slot A is 0 and slot B is 1. -/
structure HdrRecord where
  valid : Bool := false
  seq : Nat := 0
  stA : ImgState := .empty
  triesA : Nat := 0
  stB : ImgState := .empty
  triesB : Nat := 0
  deriving DecidableEq, Repr, Inhabited

/-- The boot flash (21 R558). -/
structure Flash where
  hdr0 : HdrRecord := {}
  hdr1 : HdrRecord := {}
  imgA : Image := default
  imgB : Image := default
  cfg0 : CfgCopy := {}
  cfg1 : CfgCopy := {}
  content : Option ContentBlock := none
  /-- the slot an update has written and verified, which ActivateFirmware marks TRIAL -/
  written : Option Nat := none
  deriving DecidableEq, Repr, Inhabited

/-- The fuses that software meets (22 R598, R601). -/
structure Fuses where
  svnMin : Nat := 0
  revoked : Nat := 0
  deriving DecidableEq, Repr, Inhabited

/-- The clocks (21 R565 to R569). `frac` is the part of a nanosecond that the rate of TIME_ADJUST has run up, in units
of 10^-9 ns. -/
structure Clock where
  now : Nat := 0
  cadence : Nat := 0
  ppb : Int := 0
  frac : Int := 0
  /-- EREF is present, HREF is present, the crystal runs -/
  eref : Bool := true
  href : Bool := true
  xtal : Bool := true
  /-- the error of the internal oscillator while EREF is lost, in parts per billion (25 R645; log entry 57, DESIGN CHOICE) -/
  oscPpb : Int := 0
  /-- cadence time at which the RTC is next written from Device Time (21 R569) -/
  rtcWrite : Option Nat := none
  /-- Device Time instants at which TIME_SET last stepped: cadence time (24 R629) -/
  steppedAt : Option Nat := none
  rtc : Nat := 0
  /-- what the RTC has run up towards its next subsecond, in units of 1/32,768 ns -/
  rtcFrac : Nat := 0
  timeInvalid : Bool := true
  deriving DecidableEq, Repr, Inhabited

/-- One alarm (21 R571 to R573). -/
structure Alarm where
  t : Nat := 0
  period : Nat := 0
  enable : Bool := false
  periodic : Bool := false
  wake : Bool := false
  /-- T_LO as written, until T_HI makes both take effect -/
  tLo : Nat := 0
  fired : Bool := false
  count : Nat := 0
  first : Option Nat := none
  onBackup : Bool := false
  /-- this alarm asserts WAKE_N -/
  waking : Bool := false
  deriving DecidableEq, Repr, Inhabited

/-- What the frame buffer shows: the sources of the seven content lines (21 R575). -/
structure Label where
  name : List Byte := []
  slot : Nat := 0
  image : Nat := 0
  version : Nat := 0
  alert : Nat := 0
  alertTime : Nat := 0
  cal : Bool := false
  service : List Byte := []
  text : List Byte := []
  deriving DecidableEq, Repr, Inhabited

/-- The Playbill (21 R575 to R580). -/
structure Playbill where
  uip : Bool := false
  phase : Nat := 0
  updates : Nat := 0
  fbValid : Bool := false
  /-- the frame buffer -/
  label : Label := {}
  check : Nat := 0
  outcome : Nat := 0
  /-- Device Time at which an update last started -/
  startedAt : Option Nat := none
  /-- a 10-minute interval runs -/
  interval : Bool := false
  /-- an alert waits for the interval to end -/
  alertPending : Bool := false
  /-- the update that PLAYBILL_UPDATE waits for -/
  cmd : Option (Nat × Nat) := none
  deriving DecidableEq, Repr, Inhabited

/-- A request that the management component serves over MCTP (21 R554 to R557): a control message, a read of a PLDM sensor
with what it measures, a transfer of a firmware update, or ActivateFirmware. -/
inductive MgmtReq where
  | control (m : MctpReq)
  | sensor (n : Nat) (reading : Option Nat)
  | update (u : FwUpdate)
  | activate
  deriving DecidableEq, Repr

/-- Management: the always-on registers and the management SPI. -/
structure Mgmt where
  alarms : Tbl Alarm := []
  rtcHi : Nat := 0
  rtcSetLo : Nat := 0
  devtHi : Nat := 0
  alert : Nat := 0
  alertTime : Nat := 0
  msLast : Nat := 0
  msExtra : Nat := 0
  msExtraSeen : Bool := false
  msFailed : Bool := false
  cntShort : Nat := 0
  cntLong : Nat := 0
  cntCrc : Nat := 0
  quiesced : Bool := false
  refused : Bool := false
  playbill : Playbill := {}
  /-- high words of Rind counters latched by reads of their low words (23 R615) -/
  cntHi : Tbl Nat := []
  logSel : Nat := 0
  logBuf : List Byte := []
  /-- MCTP endpoint ID given by the bus owner, by binding -/
  eids : Tbl Nat := []
  /-- MCTP requests that wait for the management component's restart (21 R555) -/
  mctpWait : List MgmtReq := []
  alertN : Bool := false
  /-- a manager booth has been READY since power-on (21 R573) -/
  bootReady : Bool := false
  /-- the configuration block chosen at the last boot flow (21 R559) -/
  config : ConfigBlock := ({} : CfgCopy).block
  deriving DecidableEq, Repr, Inhabited

/-- The power states (22 R590). -/
inductive PowerSt where
  | off
  | backup
  | standby
  | boot
  | run
  | faulted
  | tripped
  | refused
  deriving DecidableEq, Repr, Inhabited

/-- The reset that is in progress, from its trigger to RUN (22 R592, R595). -/
inductive ResetKind where
  | warm
  | powerOn
  deriving DecidableEq, Repr, Inhabited

/-- Power, reset and start-up. -/
structure Power where
  st : PowerSt := .run
  vmain : Bool := true
  vstby : Bool := true
  vbat : Bool := true
  perst : Bool := false
  /-- an orderly shutdown runs -/
  shutdown : Bool := false
  /-- the Rind record that the shutdown waits for (22 R595, 23 R611) -/
  commitGoal : Nat := 0
  resetKind : Option ResetKind := none
  /-- the boot flow waits for diodes below 95 °C after a trip -/
  tripWait : Bool := false
  /-- islands brought up by the boot flow, in its order (22 R604) -/
  order : Nat := 148
  /-- the slot that booted, or is booting; 1 is B -/
  bootSlot : Nat := 0
  trial : Bool := false
  /-- cadence time of VMAIN good, or of the deassertion of PERST_N for a warm reset; 0 until then (22 R600) -/
  bootAt : Nat := 0
  /-- frequency of the tumbler islands and of the codec islands in percent of nominal -/
  tumblerFreq : Nat := 100
  codecFreq : Nat := 100
  throttling : Bool := false
  /-- cadence time of the last frequency step (22 R587) -/
  stepAt : Option Nat := none
  /-- domains that are switched off, numbered in the order of the groups of 01 R20 (log entry 39, DEDUCED) -/
  gated : List Nat := []
  /-- RTC time at which VMAIN was lost -/
  vmainOffAt : Option Nat := none
  /-- VBAT as last sampled, in units of 20 mV (21, AO_PWR) -/
  vbat20 : Nat := 150
  deriving DecidableEq, Repr, Inhabited

/-- An entry of the event log (23 R608). -/
structure RindEntry where
  time : Nat
  seq : Nat
  typ : Nat
  island : Nat
  flags : Nat
  detail : List Byte
  deriving DecidableEq, Repr, Inhabited

/-- What the Rind flash in force holds (23 R610). -/
structure RindFlash where
  valid : Bool := false
  counters : Tbl Nat := []
  hists : Tbl Nat := []
  log : List RindEntry := []
  nextSeq : Nat := 0
  rtc : Nat := 0
  recordSeq : Nat := 0
  /-- octets of DELTAs since the last BASE -/
  deltas : Nat := 0
  deriving DecidableEq, Repr, Inhabited

/-- The Rind shadow and the commit engine (23 R606 to R615). Bin `b` of histogram `h` is `32 h + b`. -/
structure Rind where
  counters : Tbl Nat := []
  hists : Tbl Nat := []
  log : List RindEntry := []
  nextSeq : Nat := 0
  dirty : Bool := false
  empty : Bool := false
  restored : Bool := false
  /-- a boot flow has run since the always-on island started, so AO_ID shows the identity record (23 R615) -/
  idShown : Bool := true
  flashFail : Bool := false
  committing : Bool := false
  /-- what the record being written will leave in force -/
  writing : Option RindFlash := none
  again : Bool := false
  fails : Nat := 0
  lastBlock : Nat := 0xFF
  nextBlock : Nat := 0
  commitTime : Nat := 0
  flash : RindFlash := {}
  /-- RIND_COMMIT commands that wait for the record being written, and for the next one -/
  waiters : List (Nat × Nat) := []
  nextWaiters : List (Nat × Nat) := []
  /-- last and previous extreme of the hottest junction, and whether it rises from the last -/
  extreme : Option (Int × Int × Bool) := none
  /-- samples taken toward the per-minute histograms, by histogram -/
  minute : Tbl Nat := []
  deriving DecidableEq, Repr, Inhabited

/-- The test registers (23 R616 to R622). -/
structure Test where
  atbCtrl : Nat := 0
  mode : Nat := 0
  count : Nat := 0
  div : Nat := 0
  busy : Bool := false
  /-- samples the running capture takes -/
  goal : Nat := 0
  result : Nat := 0
  capture : Tbl Nat := []
  taken : Nat := 0
  /-- JTAG instruction register; 0x01 is IDCODE -/
  ir : Nat := 1
  /-- a restricted instruction is in effect -/
  restricted : Bool := false
  /-- the boot flow waits for an unrestricted instruction (23 R621) -/
  bootWaits : Bool := false
  hbmStack : Nat := 0
  deriving DecidableEq, Repr, Inhabited

end Sys2Proof.Machine
end

