-- ==== Sys2Proof/Machine/MoverState.lean ====
section
/-! DEFINITION. Machine/MoverState.lean: the data mover (13) and the visual codec (14). -/

namespace Sys2Proof.Machine

/-- A mover or storage queue's configuration with its owner (13 R356, 15 R408). -/
structure QueueCfg where
  part : Nat
  tenant : Nat
  fn : Nat
  q : QueueCreate
  deriving DecidableEq, Repr

/-- A descriptor an engine has started (13 R357, R364). -/
structure MvRun where
  queue : Nat
  desc : MvDesc
  staged : Bool
  epoch : Nat
  /-- names the run to the Trapeze requests it waits for -/
  serial : Nat
  /-- reads of accelerator memory that are unanswered, and the answered ones: device address and data -/
  reads : Nat := 0
  got : List (Nat × List Byte) := []
  /-- every write has been issued; those the accelerator has still to answer -/
  moved : Bool := false
  writes : Nat := 0
  /-- the first failure: status, address, and whether it is on the destination side -/
  fail : Option (Status × Nat × Bool) := none
  deriving DecidableEq, Repr

/-- A mover queue: its rings, the descriptors read and not started, and its counters: DESCRIPTORS, BYTES_WRITTEN,
STAGED, then one for each status (13 R373). -/
structure MvQueue where
  own : QueueCfg
  desc : HRing := {}
  comp : HRing := {}
  waiting : List MvDesc := []
  /-- ring counts below this one, not yet read, complete FLUSHED when they are read (13 R370) -/
  flushTo : Nat := 0
  closing : Bool := false
  counts : Tbl Nat := []
  deriving DecidableEq, Repr

/-- One engine: its running descriptors and the round-robin places it chooses from (13 R357). -/
structure MvEngine where
  runs : List MvRun := []
  lastPart : Nat := 15
  deriving DecidableEq, Repr, Inhabited

/-- The data mover. -/
structure Mover where
  nextSerial : Nat := 0
  queues : Tbl MvQueue := []
  engines : Tbl MvEngine := []
  /-- queue served last in each partition -/
  lastQueue : Tbl Nat := []
  deriving DecidableEq, Repr, Inhabited

/-- A stream's configuration (14 R378). -/
structure StreamCfg where
  part : Nat
  tenant : Nat
  fn : Nat
  blk : CodecOpen
  deriving DecidableEq, Repr

/-- An instance's mode and times (14 R376, R384, R388, R393). -/
structure InstCfg where
  exclusive : Bool := false
  ageStepUs : Nat := 20000
  idleUs : Nat := 10000
  watchdogUs : Nat := 100000
  deriving DecidableEq, Repr, Inhabited

/-- What an epoch commit changes of the codec. -/
structure CodecCfg where
  insts : Tbl InstCfg := []
  streams : Tbl StreamCfg := []
  deriving DecidableEq, Repr, Inhabited

/-- A decoded picture that awaits its OUTPUT record: what its AU's descriptor and its DECODE record said. -/
structure OutPic where
  pts : Nat
  tag : Nat
  signal : Bool
  picture : Nat
  status : Nat
  deriving DecidableEq, Repr, Inhabited

/-- A registered picture buffer (14 R379). -/
structure PicBuf where
  luma : Nat
  chroma : Nat
  pitch : Nat
  /-- the device holds it -/
  held : Bool
  /-- it holds a picture, or is the target or source of one -/
  busy : Bool
  output : Option OutPic
  /-- may not be used as a reference (14 R392, R393) -/
  noRef : Bool
  deriving DecidableEq, Repr, Inhabited

/-- A picture, or an EOS: taken from its descriptor and not yet recorded. -/
structure Picture where
  stream : Nat
  desc : CdDesc
  epoch : Nat
  buf : Option Nat
  chunk : Option CdDesc
  ready : Bool
  /-- the status it ends with, where that is settled and only its turn in ring order is awaited (14 R382) -/
  settled : Option Nat := none
  /-- its place in the order of readiness, and the time its current wait began -/
  order : Nat
  waitFrom : Nat
  deriving DecidableEq, Repr, Inhabited

/-- A stream's changing state (14 R381 to R398). Its counters: pictures, octets, concealed units, clamped writes, then
one for each status. -/
structure Stream where
  own : StreamCfg
  desc : HRing := {}
  comp : HRing := {}
  waiting : List CdDesc := []
  bufs : Tbl PicBuf := []
  chunks : List CdDesc := []
  /-- taken and not recorded, in ring order -/
  pics : List Picture := []
  pictures : Nat := 0
  /-- the next picture is coded as a key picture (14 R395), and pictures coded since the last one -/
  forceKey : Bool := true
  sinceKey : Nat := 0
  closing : Bool := false
  errSince : Nat := 0
  errAt : Option Nat := none
  /-- descriptors below this ring count that are still to be read complete FLUSHED (14 R396) -/
  flushTo : Nat := 0
  counts : Tbl Nat := []
  deriving DecidableEq, Repr

/-- One codec instance. The running picture is the first of its stream. -/
structure Inst where
  running : Option Nat := none
  grantedAt : Nat := 0
  slot : Nat := 0
  orders : Nat := 0
  /-- EXCLUSIVE mode: open streams in the order they are served (14 R388) -/
  order : List Nat := []
  deriving DecidableEq, Repr, Inhabited

/-- The visual codec. -/
structure Codec where
  streams : Tbl Stream := []
  insts : Tbl Inst := []
  deriving DecidableEq, Repr, Inhabited

end Sys2Proof.Machine
end

