-- ==== Sys2Proof/Machine/NetState.lean ====
section
/-! DEFINITION. Machine/NetState.lean: the network ports, the Turnstile and the Carousel (05). The structures whose
names end in Cfg are configuration, which an epoch commit replaces; the others change with the traffic. -/

namespace Sys2Proof.Machine

/-- A token bucket's rate in kb/s and its size in octets (05 R128). -/
structure Shaper where
  rate : Nat := 0xFFFFFFFF
  size : Nat := 0xFFFFFF
  deriving DecidableEq, Repr, Inhabited

/-- A bucket: the parameters in force, its tokens in units of 0.001 bit, parameters with a change mode that wait for
adoption (0 FULL, 1 ZERO, 2 NEXT_REFILL), and parameters that wait for the next refill (05 R128, R131). -/
structure Bucket where
  cur : Shaper := {}
  tokens : Int := 134217720000
  adopt : Option (Shaper × Nat) := none
  next : Option Shaper := none
  deriving DecidableEq, Repr, Inhabited

/-- A logical port's configuration (05 R121, R124, R132, R133, R138). -/
structure LPortCfg where
  maxFrame : Nat := 1522
  defaultVid : Nat := 0
  promiscuous : Bool := false
  strip : Bool := false
  lossless : Nat := 0
  xoff : List Nat := [0, 0, 0, 0, 0, 0, 0, 0]
  xon : List Nat := [0, 0, 0, 0, 0, 0, 0, 0]
  rxHoldMaxUs : Nat := 1000
  pauseWatchdogMs : Nat := 200
  unicast : Tbl Nat := []
  multicast : Tbl Nat := []
  vlan : Tbl Nat := []
  /-- one number for each class: 0 STRICT, else the weight of a WEIGHTED class -/
  classes : List Nat := [1, 1, 1, 1, 1, 1, 1, 1]
  deriving DecidableEq, Repr, Inhabited

/-- A gate control list (05 R139, R140). -/
structure Gcl where
  entries : List GclEntry
  cycle : Nat
  base : Nat
  deriving DecidableEq, Repr, Inhabited

/-- A transmit queue's configuration (05 R135). -/
structure TxqCfg where
  part : Nat
  tenant : Nat
  fn : Nat
  lport : Nat
  cls : Nat
  share : Nat
  internal : Bool
  meter : Nat
  base : Nat
  log2 : Nat
  vector : Nat
  frameLimit : Nat
  shaper : Shaper
  deriving DecidableEq, Repr, Inhabited

/-- A receive ring's configuration (05 R152). -/
structure RxRingCfg where
  part : Nat
  tenant : Nat
  fn : Nat
  base : Nat
  log2 : Nat
  bufCode : Nat
  vector : Nat
  isDefault : Bool
  lport : Nat
  deriving DecidableEq, Repr, Inhabited

/-- A receive rule with its owner (05 R126). -/
structure RuleCfg where
  part : Nat
  tenant : Nat
  fn : Nat
  rule : RxRule
  deriving DecidableEq, Repr

/-- A Turnstile meter's configuration (05 R127 to R130). -/
structure MeterCfg where
  part : Nat
  tenant : Nat
  fn : Nat
  algorithm : Nat
  colourAware : Bool
  actGreen : Nat
  actYellow : Nat
  actRed : Nat
  cir : Nat
  pir : Nat
  cbs : Nat
  ebs : Nat
  dscp : Nat
  deriving DecidableEq, Repr, Inhabited

/-- Everything of the network blocks that an epoch commit changes. -/
structure NetCfg where
  portMode : Tbl Nat := []
  lports : Tbl LPortCfg := []
  classShapers : Tbl Shaper := []
  gcls : Tbl Gcl := []
  txqs : Tbl TxqCfg := []
  rings : Tbl RxRingCfg := []
  rules : Tbl RuleCfg := []
  meters : Tbl MeterCfg := []
  /-- the GDP port and GDP meter of each partition (19 R517); 17411 and none at reset -/
  gdpPort : Tbl Nat := []
  gdpMeter : Tbl Nat := []
  deriving DecidableEq, Repr, Inhabited

/-- What a transmit frame is for, so that its end can be reported where it came from. -/
inductive TxUse where
  | ring (count tag : Nat) (tsReq : Bool)
  | session (session : Nat)
  | gdp (conn psn : Nat)
  /-- a frame whose loss nothing waits for: an ACK, HELLO or CLOSE of GDP, a TCP segment -/
  | plain
  deriving DecidableEq, Repr, Inhabited

/-- A frame in a transmit queue. -/
structure TxFrame where
  use : TxUse
  data : List Byte
  enqueued : Nat
  deriving DecidableEq, Repr, Inhabited

/-- A transmit descriptor that has been read, and its frame once the buffer has been read (05 R135, R136). -/
structure TxWait where
  count : Nat
  tag : Nat
  tsReq : Bool
  vlan : Option Nat
  len : Nat
  /-- the frame, or the reason it is flushed with -/
  ready : Option (Sum (List Byte) Nat)
  deriving DecidableEq, Repr, Inhabited

/-- A transmit queue's changing state. -/
structure Txq where
  frames : List TxFrame := []
  waits : List TxWait := []
  descProd : Nat := 0
  descCons : Nat := 0
  compProd : Nat := 0
  compCons : Nat := 0
  bucket : Bucket := {}
  deficit : Nat := 0
  sent : Nat := 0
  /-- FLUSHED counts by reason -/
  flushed : Tbl Nat := []
  hwDepth : Nat := 0
  hwSojourn : Nat := 0
  deriving DecidableEq, Repr, Inhabited

/-- A receive ring's changing state. -/
structure RxRing where
  bufProd : Nat := 0
  bufCons : Nat := 0
  /-- addresses of posted buffers that have been read and not yet used -/
  buffers : List Nat := []
  compProd : Nat := 0
  compCons : Nat := 0
  deriving DecidableEq, Repr, Inhabited

/-- A meter: the parameters in force, its buckets in units of 0.001 bit, and parameters that wait for adoption or for
the next refill (05 R131). -/
structure Meter where
  cur : MeterCfg
  c : Int := 0
  e : Int := 0
  p : Int := 0
  adopt : Option (MeterCfg × Nat) := none
  next : Option MeterCfg := none
  deriving DecidableEq, Repr, Inhabited

/-- PFC state of one priority of a logical port (05 R132, R134, 04 R102). -/
structure Pfc where
  /-- received pause: it runs, and since when without a break -/
  paused : Bool := false
  since : Nat := 0
  lastRx : Nat := 0
  /-- the pause watchdog has made the port ignore pause on this priority -/
  ignored : Bool := false
  /-- the port has sent a pause and not yet ended it -/
  sent : Bool := false
  deriving DecidableEq, Repr, Inhabited

/-- Where a classified frame goes (05 R124). -/
inductive RxDest where
  | ring (ring : Nat) (rule : Option Nat)
  | session (session : Nat)
  | gdp
  | nvme
  deriving DecidableEq, Repr, Inhabited

/-- A lossless frame that waits in the ingress buffer (05 R133). -/
structure Held where
  lport : Nat
  prio : Nat
  part : Nat
  /-- the epoch it was classified under -/
  epoch : Nat
  dest : RxDest
  colour : Nat
  data : List Byte
  time : Nat
  since : Nat
  deriving DecidableEq, Repr, Inhabited

/-- A frame on the wire of a logical port, and the queue it left. -/
structure OnWire where
  queue : Nat
  frame : TxFrame
  grantedAt : Nat
  deriving DecidableEq, Repr, Inhabited

/-- A logical port's changing state and its counters (05 R149). -/
structure LPort where
  up : Bool := false
  wire : Option OnWire := none
  pfc : Tbl Pfc := []
  classDeficit : Tbl Nat := []
  /-- queue served last in each class -/
  drrNext : Tbl Nat := []
  classNext : Nat := 0
  rxFrames : Nat := 0
  rxOctets : Nat := 0
  txFrames : Nat := 0
  txOctets : Nat := 0
  rxPfc : Tbl Nat := []
  txPfc : Tbl Nat := []
  rxPauseIgnored : Nat := 0
  /-- DROP counters, in the order of 05: FCS, RUNT, OVERSIZE, FEC, MAC_FILTER, NOVLAN, NOMATCH, METER, RING_FULL,
  DEST_BUSY, HOLD, GATE -/
  drops : Tbl Nat := []
  deriving DecidableEq, Repr, Inhabited

/-- A queue sampler (05 R147). -/
structure Sampler where
  periodUs : Nat
  base : Nat
  log2 : Nat
  vector : Nat
  fn : Nat
  prod : Nat
  cons : Nat
  seq : Nat
  deriving DecidableEq, Repr, Inhabited

/-- The network blocks. -/
structure Net where
  lports : Tbl LPort := []
  txqs : Tbl Txq := []
  rings : Tbl RxRing := []
  meters : Tbl Meter := []
  /-- class shaper `8 n + c` -/
  classBuckets : Tbl Bucket := []
  gclActive : Tbl Gcl := []
  /-- lists that wait for their first cycle start; none stands for the removal of the list -/
  gclPending : Tbl (Option Gcl) := []
  carTurn : Tbl Nat := []
  held : List Held := []
  hwIngress : Tbl Nat := []
  samplers : Tbl Sampler := []
  /-- TX_CANCELs that wait for their descriptor's completion: function, identifier, queue, ring count -/
  cancels : List (Nat × Nat × Nat × Nat) := []
  deriving DecidableEq, Repr, Inhabited

end Sys2Proof.Machine
end

