-- ==== Sys2Proof/Machine/Out.lean ====
section
/-! DEFINITION. Machine/Out.lean: what the device sends to its partners (01 R22): the host, the network, the
accelerators, the drives, the BMC, the panel. State keeps everything sent, oldest first, in one list (log entry 7, DESIGN CHOICE). -/

namespace Sys2Proof.Machine

/-- How the device answers a host access (16 R434, R452). -/
inductive HostAnswer where
  | data (d : List Byte)
  | poisoned
  | completerAbort
  | accepted
  | retryStatus
  | none_
  deriving DecidableEq, Repr, Inhabited

/-- One thing sent. -/
inductive Out where
  /-- a posted write to host memory -/
  | hostWrite (fn : Nat) (pasid : Option Nat) (addr : Nat) (ro : Bool) (data : List Byte)
  | hostRead (tag fn : Nat) (pasid : Option Nat) (addr len : Nat)
  | hostAnswer (fn : Nat) (a : HostAnswer)
  | translationRequest (fn : Nat) (pasid : Option Nat) (addr : Nat)
  | invalidateCompletion (tag : Nat)
  | msix (fn vector addr data : Nat)
  /-- a frame given to the MAC of a logical port -/
  | frame (lport queue : Nat) (data : List Byte)
  | pfc (lport prio : Nat) (pause : Bool)
  | linkTraining (lport : Nat)
  /-- a Trapeze message, in the order of its channel -/
  | tpMsg (port : Nat) (m : TpMsg)
  /-- a null flit that acknowledges, or asks for a resend -/
  | tpAck (port seq : Nat) (nak : Bool)
  | tpTrain (port step : Nat)
  | tpReplay (port from_ : Nat)
  | sumUnit (on : Bool)
  /-- an NVMe command to a drive: opcode, namespace, first block, blocks, and whether a write is
  forced to the medium -/
  | driveCmd (drive id opcode nsid slba blocks : Nat) (fua : Bool)
  | driveAdmin (drive : Nat) (cmd : List Byte)
  | driveAbort (drive id : Nat)
  | driveReset (drive : Nat)
  | driveAnswer (drive : Nat) (data : List Byte)
  | driveRefused (drive : Nat)
  | drivePerst (drive : Nat) (low : Bool)
  | mctp (binding : Nat) (data : List Byte)
  | pldm (data : List Nat)
  | spi (words : List Nat) (trailer : Nat)
  | spiOnes
  | jtag (w : Nat)
  /-- what a read of a register word returned to its reader: offset in control space and value -/
  | register (off value : Nat)
  | panel (phase : Nat)
  deriving DecidableEq, Repr

/-- Does a thing sent come from an island that stops when the device is FAULTED? The management component, the
management SPI, the JTAG port and the panel go on (22 R590). -/
def Out.dataPath : Out → Bool
  | .mctp .. => false
  | .pldm .. => false
  | .spi .. => false
  | .spiOnes => false
  | .jtag .. => false
  | .panel .. => false
  | .drivePerst .. => false
  | .register .. => false
  | _ => true

end Sys2Proof.Machine
end

