-- ==== Sys2Proof/Machine/PressState.lean ====
section
/-! DEFINITION. Machine/PressState.lean: the Press (20). -/

namespace Sys2Proof.Machine

/-- The stages of an operation, with their numbers in PRESS_STAGE (19 R528). -/
inductive PressStage where
  | set
  | drain
  | copy
  | verify
  | release
  | flush
  deriving DecidableEq, Repr, Inhabited

/-- The four Press messages (20 R537). -/
inductive PressType where
  | ready
  | drained
  | copied
  | abandon
  deriving DecidableEq, Repr, Inhabited

/-- A checkpoint or restore that runs (20 R540 to R552). -/
structure PressOp where
  restore : Bool
  /-- the command to complete, until Press control restarts (R552) -/
  cmd : Option (Nat × Nat)
  step : Nat
  generation : Nat
  flush : Bool
  stage : PressStage
  startedAt : Nat
  /-- HOLD and SUM_ARM have been sent, and the members have not been released: the held connections start nothing -/
  begun : Bool
  /-- the device's unit is on -/
  unitOn : Bool
  /-- peers whose READY, DRAINED and COPIED have arrived -/
  ready : List Nat
  drained : List Nat
  copied : List Nat
  sentReady : Bool
  sentDrained : Bool
  setTime : Nat
  /-- CRC of each region as read at Copy, by its place -/
  crcs : List Nat
  /-- a cancel waits for the next named point -/
  cancel : Bool
  /-- the manifest of a restore -/
  manifest : Manifest
  /-- every write of a restore's Copy has been issued; those an accelerator has still to answer -/
  copying : Bool
  writes : Nat
  deriving DecidableEq, Repr, Inhabited

/-- A kept message (20 R538). -/
structure PressKept where
  typ : PressType
  msg : PressMsg
  deriving DecidableEq, Repr, Inhabited

/-- An armed job. -/
structure PressJob where
  arm : ArmBlock
  generation : Nat
  op : Option PressOp := none
  kept : List PressKept := []
  deriving DecidableEq, Repr, Inhabited

/-- The Press. -/
structure Press where
  jobs : Tbl PressJob := []
  deriving DecidableEq, Repr, Inhabited

end Sys2Proof.Machine
end

