-- ==== Sys2Proof/Machine/SessState.lean ====
section
/-! DEFINITION. Machine/SessState.lean: the session engine, the format stage and their rings (06), the key store, the
cipher engine and the verify-hold (07). -/

namespace Sys2Proof.Machine

/-- A session's configuration (06 R154): its block and its owner. -/
structure SessCfg where
  part : Nat
  tenant : Nat
  fn : Nat
  blk : SessionBlock
  deriving DecidableEq, Repr

/-- A feed or return ring's configuration (06 R174). `binding` is used by return rings only. -/
structure FeedCfg where
  part : Nat
  tenant : Nat
  fn : Nat
  bind : RingBind
  binding : Nat
  deriving DecidableEq, Repr

/-- Everything of the session engine and format stage that an epoch commit changes. -/
structure SessionCfg where
  sessions : Tbl SessCfg := []
  feeds : Tbl FeedCfg := []
  returns : Tbl FeedCfg := []
  deriving DecidableEq, Repr, Inhabited

/-- A frame in a jitter buffer slot (06 R162, R164). Its payload is in the slot's cells. -/
structure JbFrame where
  frame : Nat
  marker : Bool
  pt : Nat
  index : Nat
  len : Nat
  deriving DecidableEq, Repr, Inhabited

/-- What the 16-bit and 32-bit extension rules keep (06 R160, R163). -/
structure Ext where
  low : Nat
  high : Nat
  deriving DecidableEq, Repr, Inhabited

/-- A session's changing state. -/
structure Sess where
  part : Nat
  /-- the tenant whose cap it counts against (17 R462) -/
  charge : Nat := 0
  closing : Bool := false
  /-- the epoch under which it was closed, whose predecessor must retire (02 R46) -/
  closedIn : Nat := 0
  /-- the seventeen counters of 06 R157, by their place in that list -/
  counts : Tbl Nat := []
  /-- s_l and ROC, once a packet has been accepted -/
  seq : Option Ext := none
  /-- highest accepted index -/
  high : Nat := 0
  /-- bit `i` marks index `high - i` -/
  window : Nat := 0
  ssrc : Option Nat := none
  ts : Option Ext := none
  /-- cadence time and extended timestamp of the anchor -/
  anchor : Option (Nat × Nat) := none
  /-- the next frame number due, e of 06 R164 -/
  due : Nat := 0
  slots : Tbl JbFrame := []
  /-- consecutive DROP_LATE and DROP_EARLY without a placement -/
  badRun : Nat := 0
  /-- a SHIFT that the next tick applies; true is -1 (06 R167) -/
  shift : Option Bool := none
  /-- delay in force in frames, and the shifts made, in periods -/
  delay : Nat := 0
  shifted : Int := 0
  missing : Nat := 0
  outIndex : Nat := 0
  outTs : Nat := 0
  gen : Nat := 0
  /-- a SEED that waits for adoption (06 R188) -/
  seedNext : Option Nat := none
  cells : List Nat := []
  /-- DROP_AUTH since the last AUTH_FAIL record, and when it was placed (07 R207) -/
  authSince : Nat := 0
  authAt : Option Nat := none
  deriving DecidableEq, Repr, Inhabited

/-- A feed entry that has been reserved and not yet written (06 R178). -/
structure FeedRes where
  count : Nat
  reply : Nat
  dataOff : Nat
  used : Nat
  bytes : Nat
  entry : List Byte
  tumbler : Nat
  tag : Nat
  beyond : Nat
  nans : Nat
  epoch : Nat
  part : Nat
  deriving DecidableEq, Repr, Inhabited

/-- A feed ring's changing state. -/
structure Feed where
  prod : Nat := 0
  /-- next entry to reserve; `prod` is the next to write -/
  res : Nat := 0
  inflight : List FeedRes := []
  /-- space used by each entry not yet freed by CONS: (count, offset, length, including an unused tail) -/
  spans : List (Nat × Nat × Nat) := []
  ptr : Nat := 0
  error : Bool := false
  deriving DecidableEq, Repr, Inhabited

/-- A return ring's changing state. -/
structure Ret where
  cons : Nat := 0
  /-- entries for which a return-ready event has been raised -/
  raised : Nat := 0
  released : List Nat := []
  error : Bool := false
  deriving DecidableEq, Repr, Inhabited

/-- An act's request at a message port (08 R235), waiting to be handled. -/
structure PortReq where
  tumbler : Nat
  port : Nat
  words : List Word
  part : Nat
  tenant : Nat
  binding : Nat
  epoch : Nat
  /-- index of the frame the invocation runs for, or 0 -/
  index : Nat
  /-- the place of its reply -/
  reply : Nat
  deriving DecidableEq, Repr, Inhabited

/-- The reply of a request, in the order of the requests (08 R236): it has its words once the request has ended.
Tumbler 128 stands for an invocation that has ended, whose reply is discarded. -/
structure PortRep where
  id : Nat
  tumbler : Nat
  port : Nat
  words : Option (Word × Word)
  deriving DecidableEq, Repr, Inhabited

/-- The session engine and the format stage. -/
structure Sessions where
  sess : Tbl Sess := []
  feeds : Tbl Feed := []
  returns : Tbl Ret := []
  /-- partition generators (06 R188) -/
  gens : Tbl Nat := []
  /-- partition seeds that wait for adoption -/
  gensNext : Tbl Nat := []
  requests : List PortReq := []
  replies : List PortRep := []
  nextReply : Nat := 0
  deriving DecidableEq, Repr, Inhabited

/-- The life of a key slot (07 R200). -/
inductive SlotState where
  | loaded
  | zeroising
  deriving DecidableEq, Repr, Inhabited

/-- A key slot that is not free (07 R195 to R203). -/
structure KeySlot where
  state : SlotState
  part : Nat
  tenant : Nat
  charge : Nat
  alg : Nat
  use : Nat
  dir : Nat
  material : List Byte
  spent : Bool
  counter : Nat
  deriving DecidableEq, Repr, Inhabited

/-- Where a packet is in the verify-hold (07 R204 to R207). -/
inductive VhState where
  | intake
  | decrypting
  | releasing
  | scrubbing
  deriving DecidableEq, Repr, Inhabited

/-- An SRTP packet at the cipher engine: its session, its extended index, its authenticated header and its protected
payload with the tag. The packets of a protected GDP connection pass the hold within their own row. -/
structure VhPkt where
  part : Nat
  session : Nat
  index : Nat
  aad : List Byte
  body : List Byte
  epoch : Nat
  granules : Nat
  state : VhState
  deriving DecidableEq, Repr, Inhabited

/-- The key store, the cipher engine and the verify-hold. A slot without an entry is free. -/
structure Cipher where
  slots : Tbl KeySlot := []
  pkts : Tbl VhPkt := []
  nextPkt : Nat := 0
  deriving DecidableEq, Repr, Inhabited

end Sys2Proof.Machine
end

