-- ==== Sys2Proof/Machine/StorState.lean ====
section
/-! DEFINITION. Machine/StorState.lean: storage (15): drives, volumes, storage queues and NVMe/TCP. -/

namespace Sys2Proof.Machine

/-- A volume's configuration (15 R404). -/
structure VolumeCfg where
  part : Nat
  tenant : Nat
  fn : Nat
  v : VolumeCreate
  /-- block size of its namespace in octets, and the namespace identifier a returning backing must report (R419) -/
  blockSize : Nat
  deriving DecidableEq, Repr

/-- A target listener (15 R418). Listener `l` of partition `p` is `4 p + l`. -/
structure ListenerCfg where
  part : Nat
  l : ListenerSet
  deriving DecidableEq, Repr

/-- An initiator controller (15 R419). -/
structure InitCfg where
  part : Nat
  tenant : Nat
  blk : InitiatorBlock
  deriving DecidableEq, Repr

/-- What an epoch commit changes of storage. -/
structure StorCfg where
  /-- ports in mode X4X4 -/
  x4 : List Nat := []
  volumes : Tbl VolumeCfg := []
  queues : Tbl QueueCfg := []
  /-- subsystem `s` of partition `p` is `4 p + s` -/
  subsystems : Tbl SubsystemBlock := []
  listeners : Tbl ListenerCfg := []
  initiators : Tbl InitCfg := []
  deriving DecidableEq, Repr, Inhabited

/-- How a drive stands. -/
inductive DriveSt where
  | absent
  | up
  | unsupported
  | resetting
  | lost
  deriving DecidableEq, Repr, Inhabited

/-- What a command handed to a backing is for. -/
inductive DriveUse where
  /-- a part of a started descriptor of a storage queue, by the descriptor's count -/
  | queue (queue count : Nat)
  /-- a command of an NVMe/TCP host -/
  | tcp (conn cid : Nat)
  deriving DecidableEq, Repr, Inhabited

/-- A command outstanding at a backing. -/
structure DriveCmd where
  id : Nat
  use : DriveUse
  volume : Nat
  /-- the partition and tenant tags of its data, its function and the epoch it runs under (15 R402) -/
  part : Nat
  tenant : Nat
  fn : Nat
  epoch : Nat
  opcode : Nat
  fua : Bool
  slba : Nat
  blocks : Nat
  /-- its first block within the descriptor -/
  off : Nat
  /-- where the backing finds and puts its data: addresses and lengths, in host space or in the device -/
  bufs : List (Nat × Nat)
  host : Bool
  ro : Bool
  /-- bounce cells it uses, and the data of a command that has no buffer of a function -/
  cells : List Nat
  data : List Byte
  /-- the storage status of an access that failed, 0 for none -/
  fail : Nat
  sentAt : Nat
  /-- an Abort has been sent -/
  aborted : Bool
  deriving DecidableEq, Repr, Inhabited

/-- One drive (15 R399 to R402, R420 to R424). -/
structure Drive where
  st : DriveSt := .absent
  serial : Nat := 0
  mdts : Nat := 2097152
  spaces : List NamespaceInfo := []
  cmds : List DriveCmd := []
  nextId : Nat := 0
  dmaDenied : Nat := 0
  resets : Nat := 0
  timeouts : Nat := 0
  warnSince : Nat := 0
  warnAt : Option Nat := none
  deriving DecidableEq, Repr, Inhabited

/-- Volume states with their codes in VOLUME_STATE. -/
inductive VolSt where
  | creating
  | ready
  | offline
  deriving DecidableEq, Repr, Inhabited

/-- A volume: its state and its counters READS, WRITES, BLOCKS_READ, BLOCKS_WRITTEN, then one for each status. -/
structure Volume where
  st : VolSt := .creating
  counts : Tbl Nat := []
  /-- the backing that came back differs, so it stays offline (15 R421) -/
  dead : Bool := false
  deriving DecidableEq, Repr, Inhabited

/-- A started storage descriptor (15 R409 to R412): its volume as its epoch has it, the parts that are outstanding, the
next block to hand to the backing, how many there are, and the first failure. -/
structure StRun where
  count : Nat
  desc : StDesc
  vol : VolumeCfg
  epoch : Nat
  parts : Nat
  next : Nat
  total : Nat
  status : Nat
  nvme : Nat
  /-- writes into an accelerator's memory that are unanswered -/
  writes : Nat := 0
  deriving DecidableEq, Repr

/-- A storage queue. -/
structure StQueue where
  own : QueueCfg
  desc : HRing := {}
  comp : HRing := {}
  waiting : List StDesc := []
  runs : List StRun := []
  nextCount : Nat := 0
  cells : List Nat := []
  freeCells : List Nat := []
  flushTo : Nat := 0
  closing : Bool := false
  deriving DecidableEq, Repr

/-- A segment sent and not acknowledged. -/
structure TcpSeg where
  seq : Nat
  data : List Byte
  syn : Bool
  fin : Bool
  sentAt : Nat
  /-- it has been sent again -/
  again : Bool
  /-- the peer has acknowledged it selectively -/
  sacked : Bool
  deriving DecidableEq, Repr, Inhabited

/-- TCP connection states (RFC 9293, as 15 R417 names it), those the service holds. -/
inductive TcpSt where
  | synSent
  | synReceived
  | established
  | closing
  deriving DecidableEq, Repr, Inhabited

/-- A command of an NVMe/TCP host (15 R418): its identifier, volume, storage OP and length, the parts that are
outstanding and those still to be handed over, the first failure, and the data a read gathers. -/
structure TcpRun where
  cid : Nat
  volume : Nat
  op : Nat
  blocks : Nat
  parts : Nat
  todo : List DriveCmd
  status : Nat
  nvme : Nat
  data : List Byte
  deriving DecidableEq, Repr, Inhabited

/-- One NVMe/TCP connection (15 R416 to R419). -/
structure Tcp where
  part : Nat
  /-- the listener that accepted it, or the initiator controller it belongs to -/
  listener : Option Nat
  initiator : Option Nat
  /-- its NVMe queue: 0 the admin queue -/
  qid : Nat := 0
  ip : Nat
  localAddr : Nat
  remoteAddr : Nat
  localPort : Nat
  remotePort : Nat
  lport : Nat
  txq : Nat
  st : TcpSt
  sndUna : Nat
  sndNxt : Nat
  rcvNxt : Nat
  tsRecent : Nat := 0
  /-- the binary logarithm of the peer's window scale -/
  scale : Nat := 0
  /-- the largest segment the peer takes -/
  peerMss : Nat := 65535
  /-- received out of order: sequence number and data -/
  ooo : List (Nat × List Byte) := []
  unsent : List Byte := []
  segs : List TcpSeg := []
  cwnd : Nat
  /-- octets acknowledged toward the next growth of the window -/
  acked : Nat := 0
  /-- the window is not halved again for what was sent before this number -/
  recover : Nat
  dups : Nat := 0
  peerWindow : Nat := 0
  rtoNs : Nat := 1000000000
  srtt : Option Nat := none
  rttvar : Nat := 0
  /-- the host has connected to the subsystem -/
  connected : Bool := false
  /-- the peers agreed on ECN; a congestion mark is being echoed; a reduction is to be announced (RFC 3168) -/
  ecn : Bool := false
  ece : Bool := false
  cwr : Bool := false
  runs : List TcpRun := []
  deriving DecidableEq, Repr, Inhabited

/-- An initiator controller's state (15 R419). -/
structure Initiator where
  own : Option InitCfg := none
  up : Bool := false
  /-- its connection is lost and it tries again until CTRL_LOSS_TMO -/
  lost : Bool := false
  spaces : List NamespaceInfo := []
  cmds : List DriveCmd := []
  nextId : Nat := 0
  /-- the NVMEI_CONNECT that waits for the first connection -/
  waiter : Option (Nat × Nat) := none
  deriving DecidableEq, Repr, Inhabited

/-- Storage. -/
structure Stor where
  drives : Tbl Drive := []
  volumes : Tbl Volume := []
  queues : Tbl StQueue := []
  tcps : Tbl Tcp := []
  inits : Tbl Initiator := []
  timeoutS : Nat := 30
  deriving DecidableEq, Repr, Inhabited

end Sys2Proof.Machine
end

