-- ==== Sys2Proof/Machine/TpState.lean ====
section
/-! DEFINITION. Machine/TpState.lean: the Trapeze ports and the sum lane (11). -/

namespace Sys2Proof.Machine

/-- Window tables: outbound entry `e` of port `p` is `1024 p + e`, inbound entry `e` is `256 p + e`. -/
structure TpCfg where
  outWin : Tbl TpWindow := []
  inWin : Tbl TpWindow := []
  /-- the function that wrote each outbound entry -/
  outBy : Tbl Nat := []
  deriving DecidableEq, Repr, Inhabited

/-- Port states, with their codes in TP_STATE (11 R308). -/
inductive TpSt where
  | down
  | training
  | active
  | degraded
  | stalled
  deriving DecidableEq, Repr, Inhabited

/-- What an outbound request belongs to, so that its end reaches the operation that issued it. -/
inductive TpUse where
  | feedData (ring count : Nat)
  | feedEntry (ring count : Nat)
  /-- a read or atomic granted at a target to a master -/
  | midway (target master : Nat)
  /-- a placement write of a message received (0), of a READ's sink (1), or an atomic served (2), by MSN -/
  | gdp (conn kind msn : Nat)
  /-- a read or write of a mover run: its engine, its serial number and the device address -/
  | mover (engine serial addr : Nat)
  | press (job : Nat)
  /-- a write of the data of a started storage descriptor: its queue and its count -/
  | stor (queue count : Nat)
  | other
  deriving DecidableEq, Repr, Inhabited

/-- A request in a port's outbound queue, or one that has been sent and waits for its answer. -/
structure TpReq where
  msg : TpMsg
  use : TpUse
  /-- cadence times at which it was put into the queue and sent -/
  issuedAt : Nat
  sentAt : Nat
  deriving DecidableEq, Repr

/-- A lane's pending move to its spare (11 R293): fibre, lane and, once SPARE_ACK has come, FS. -/
structure TpSwap where
  fibre : Nat
  lane : Nat
  fs : Option Nat
  dropFibre : Bool
  deriving DecidableEq, Repr, Inhabited

/-- One Trapeze port. -/
structure Tp where
  st : TpSt := .down
  spareUsed : Nat := 0
  fibreDropped : Nat := 0
  /-- training attempts since TRAPEZE_ENABLE, and those that have failed in a row (11 R309) -/
  tries : Nat := 0
  fails : Nat := 0
  /-- the training step under way -/
  step : Nat := 0
  /-- 100 ms after a failed training it is tried again -/
  retryWait : Bool := false
  combOk : Bool := false
  lastFail : Nat := 0
  /-- channel of each logical lane: lane `i` of fibre `f` is `16 f + i`; unlisted lanes use channel `i` -/
  laneMap : Tbl Nat := []
  swaps : List TpSwap := []
  /-- flits kept for replay: sequence number and the message they carry -/
  replay : List (Nat × TpMsg) := []
  nextSeq : Nat := 0
  expected : Nat := 0
  ackedSeq : Nat := 4095
  discarding : Bool := false
  naks : Nat := 0
  /-- accepted flits that no ACKSEQ has covered yet -/
  unacked : Nat := 0
  /-- credits: slots the partner advertised, slots sent and not reported free, and its cumulative counters as last seen -/
  crAdvReq : Nat := 0
  crAdvRsp : Nat := 0
  crAdvCtl : Nat := 0
  crUsedReq : Nat := 0
  crUsedRsp : Nat := 0
  crUsedCtl : Nat := 0
  crSeenReq : Nat := 0
  crSeenRsp : Nat := 0
  crSeenCtl : Nat := 0
  /-- cumulative slots the device has freed -/
  freedReq : Nat := 0
  freedRsp : Nat := 0
  freedCtl : Nat := 0
  queue : List TpReq := []
  responses : List TpMsg := []
  controls : List TpMsg := []
  /-- sent and unanswered -/
  writes : List TpReq := []
  reads : List TpReq := []
  nextTag : Nat := 0
  nextRdTag : Nat := 0
  withheld : List Nat := []
  creditUs : Nat := 1000
  readUs : Nat := 500
  counts : Tbl Nat := []
  telem : List Byte := []
  telemTime : Nat := 0
  telemAt : Option Nat := none
  telemRing : Option (HRing × Nat) := none
  /-- deskew delay of the sum lane [ps] -/
  sumDelay : Nat := 0
  /-- the place of the request channel's 17-slot rotation served last (11 R302) -/
  slot : Nat := 16
  deriving DecidableEq, Repr, Inhabited

/-- Who asked for a sum lane operation. -/
inductive SumUse where
  | command (fn id : Nat)
  | press (job : Nat)
  deriving DecidableEq, Repr, Inhabited

/-- A sum lane operation (11 R317 to R319). -/
structure SumOp where
  use : SumUse
  scalar : Bool
  op : Nat
  members : Nat
  value : Nat
  stepNo : Nat
  job : Nat
  /-- members whose BOUNDARY for the step has arrived -/
  boundaries : List Nat
  /-- the count has read N before every BOUNDARY had arrived -/
  reached : Bool
  /-- it has succeeded, and its members keep their emitters on until SUM_CLEAR -/
  won : Bool
  deriving DecidableEq, Repr, Inhabited

/-- The Trapeze ports and the sum lane. -/
structure Trapeze where
  ports : Tbl Tp := []
  sumOpen : Option SumOp := none
  sumWaiting : List SumOp := []
  nextOp : Nat := 0
  /-- a calibration deferred by the open operation, with the delays it will measure (11 R321) -/
  calDue : Option (List (Nat × Nat)) := none
  deriving DecidableEq, Repr, Inhabited

end Sys2Proof.Machine
end

