-- ==== Sys2Proof/Machine/State.lean ====
section
/-! DEFINITION. Machine/State.lean: the whole state of the GN-4016, as plain data, and the state after reset.

`Cfg` gathers everything that an epoch commit replaces (02 R59). The rest of State changes with the traffic. -/

namespace Sys2Proof.Machine

/-- The host port's and the partitions' configuration. -/
structure OwnCfg where
  /-- owner of each share unit in dynamic mode; an unlisted unit is unassigned (17 R457) -/
  units : Tbl Nat := []
  /-- owner tenants of HBM and troupe granules; unlisted is 0 (17 R464) -/
  hbmTenant : Tbl Nat := []
  troupeTenant : Tbl Nat := []
  /-- Midway priority of master `m` at target `t`, at `28 t + m`; unlisted is the default (03 R83, R88) -/
  priority : Tbl Nat := []
  windows : Tbl HostWindow := []
  /-- the function that wrote each host window entry -/
  windowBy : Tbl Nat := []
  /-- aperture entry `k` of function `f`, at `4 f + k`: its device base (16 R433) -/
  apertures : Tbl Nat := []
  deriving DecidableEq, Repr, Inhabited

/-- Everything an epoch commit replaces. -/
structure Cfg where
  own : OwnCfg := {}
  net : NetCfg := {}
  sess : SessionCfg := {}
  acts : ActCfg := {}
  tp : TpCfg := {}
  gdp : GdpCfg := {}
  movers : Tbl QueueCfg := []
  codec : CodecCfg := {}
  stor : StorCfg := {}
  deriving DecidableEq, Repr, Inhabited

/-- One partition's epochs (02 R57 to R61). -/
structure Part where
  epoch : Nat := 1
  /-- the epoch that is retiring, with the configuration it stands for -/
  old : Option (Nat × Cfg) := none
  /-- islands that have not adopted the current epoch -/
  remaining : List Nat := []
  deriving DecidableEq, Repr, Inhabited

/-- Why the machine would stop with a fault. -/
inductive Fault where
  /-- Raised by no meaning of this model: the manual gives every command and event an effect, a status or a refusal
  record, and none of them stops the device's model. Safe. -/
  | unreachable
  deriving DecidableEq, Repr

/-- Why the model would refuse a command. -/
inductive Refusal where
  /-- Raised by an arm of `exec` whose row has no meaning yet. Safe: it stops. -/
  | notModelled (mnemonic : String)
  deriving DecidableEq, Repr

/-- The machine. -/
structure State where
  fixedMode : Bool
  host : HostPort
  fns : Tbl Fn
  parts : Tbl Part
  comps : Tbl Comp
  deferred : List Deferred
  resize : Option Resize
  detaches : List Detach
  mem : MemSys
  chans : Tbl Channel
  audits : List AuditRun
  islands : Tbl Island
  net : Net
  sess : Sessions
  cipher : Cipher
  acts : Acts
  tp : Trapeze
  gdp : Gdp
  mover : Mover
  codec : Codec
  stor : Stor
  press : Press
  mgmt : Mgmt
  power : Power
  rind : Rind
  test : Test
  flash : Flash
  fuses : Fuses
  clock : Clock
  cfg : Cfg
  /-- how many free values have been drawn -/
  draws : Nat
  /-- everything sent to the partners, oldest first -/
  out : List Out
  /-- the commands that wait, first in first out -/
  pending : List Instr
  deriving DecidableEq, Repr

/-- The device right after the boot flow of a power-on reset, with no host link and no partner yet (log entry 2, DESIGN CHOICE). -/
def State.reset : State where
  fixedMode := true
  host := {}
  fns := []
  parts := []
  comps := []
  deferred := []
  resize := none
  detaches := []
  mem := {}
  chans := []
  audits := []
  islands := []
  net := {}
  sess := {}
  cipher := {}
  acts := {}
  tp := {}
  gdp := {}
  mover := {}
  codec := {}
  stor := {}
  press := {}
  mgmt := {}
  power := {}
  rind := {}
  test := {}
  flash := {
    hdr0 := { valid := true, seq := 1, stA := .active }
    imgA := { readable := true, headerOk := true, steppings := 2, keyIndex := 0, keyMatches := true, hashOk := true, ecdsaOk := true,
              mldsaOk := true, svn := 0, imageId := Config.imageId, major := 1, minor := 2 } }
  fuses := {}
  clock := {}
  cfg := {}
  draws := 0
  out := []
  pending := []

/-- The host port. -/
def State.onHost (s : State) (f : HostPort → HostPort) : State := { s with host := f s.host }
/-- One function; one that is not listed is as at reset. -/
def State.onFn (s : State) (n : Nat) (f : Fn → Fn) : State := { s with fns := tupd s.fns n {} f }
/-- One function's booth. -/
def State.onBooth (s : State) (n : Nat) (f : Booth → Booth) : State := s.onFn n (fun x => { x with booth := f x.booth })
/-- One partition. -/
def State.onPart (s : State) (n : Nat) (f : Part → Part) : State := { s with parts := tupd s.parts n {} f }
/-- One firmware component. -/
def State.onComp (s : State) (n : Nat) (f : Comp → Comp) : State := { s with comps := tupd s.comps n {} f }
/-- The memories. -/
def State.onMem (s : State) (f : MemSys → MemSys) : State := { s with mem := f s.mem }
/-- One target of Midway. -/
def State.onTarget (s : State) (n : Nat) (f : MwTarget → MwTarget) : State :=
  s.onMem (fun m => { m with targets := tupd m.targets n {} f })
/-- One island. -/
def State.onIsland (s : State) (n : Nat) (f : Island → Island) : State := { s with islands := tupd s.islands n {} f }
/-- The network blocks. -/
def State.onNet (s : State) (f : Net → Net) : State := { s with net := f s.net }
/-- One logical port. -/
def State.onLPort (s : State) (n : Nat) (f : LPort → LPort) : State :=
  s.onNet (fun x => { x with lports := tupd x.lports n {} f })
/-- One transmit queue. -/
def State.onTxq (s : State) (n : Nat) (f : Txq → Txq) : State := s.onNet (fun x => { x with txqs := tmod x.txqs n f })
/-- One receive ring. -/
def State.onRing (s : State) (n : Nat) (f : RxRing → RxRing) : State :=
  s.onNet (fun x => { x with rings := tmod x.rings n f })
/-- The sessions and rings of accelerators. -/
def State.onSess (s : State) (f : Sessions → Sessions) : State := { s with sess := f s.sess }
/-- One session. -/
def State.onSession (s : State) (n : Nat) (f : Sess → Sess) : State :=
  s.onSess (fun x => { x with sess := tmod x.sess n f })
/-- The cipher engine. -/
def State.onCipher (s : State) (f : Cipher → Cipher) : State := { s with cipher := f s.cipher }
/-- One key slot. -/
def State.onSlot (s : State) (n : Nat) (f : KeySlot → KeySlot) : State :=
  s.onCipher (fun x => { x with slots := tmod x.slots n f })
/-- The tumbler array. -/
def State.onActs (s : State) (f : Acts → Acts) : State := { s with acts := f s.acts }
/-- One tumbler. -/
def State.onTumbler (s : State) (n : Nat) (f : Tumbler → Tumbler) : State :=
  s.onActs (fun x => { x with tumblers := tupd x.tumblers n {} f })
/-- The statistics of a binding. -/
def State.onStat (s : State) (n : Nat) (f : BindStat → BindStat) : State :=
  s.onActs (fun x => { x with stats := tupd x.stats n {} f })
/-- The Trapeze ports. -/
def State.onTrapeze (s : State) (f : Trapeze → Trapeze) : State := { s with tp := f s.tp }
/-- One Trapeze port. -/
def State.onTp (s : State) (n : Nat) (f : Tp → Tp) : State :=
  s.onTrapeze (fun x => { x with ports := tupd x.ports n {} f })
/-- One GDP connection. -/
def State.onConn (s : State) (n : Nat) (f : GdpConn → GdpConn) : State :=
  { s with gdp := { s.gdp with conns := tmod s.gdp.conns n f } }
/-- The data mover. -/
def State.onMover (s : State) (f : Mover → Mover) : State := { s with mover := f s.mover }
/-- One mover queue. -/
def State.onMvq (s : State) (n : Nat) (f : MvQueue → MvQueue) : State :=
  s.onMover (fun x => { x with queues := tmod x.queues n f })
/-- The visual codec. -/
def State.onCodec (s : State) (f : Codec → Codec) : State := { s with codec := f s.codec }
/-- One codec stream. -/
def State.onStream (s : State) (n : Nat) (f : Stream → Stream) : State :=
  s.onCodec (fun x => { x with streams := tmod x.streams n f })
/-- One codec instance. -/
def State.onInst (s : State) (n : Nat) (f : Inst → Inst) : State :=
  s.onCodec (fun x => { x with insts := tupd x.insts n {} f })
/-- Storage. -/
def State.onStor (s : State) (f : Stor → Stor) : State := { s with stor := f s.stor }
/-- One drive. -/
def State.onDrive (s : State) (n : Nat) (f : Drive → Drive) : State :=
  s.onStor (fun x => { x with drives := tupd x.drives n {} f })
/-- One volume. -/
def State.onVol (s : State) (n : Nat) (f : Volume → Volume) : State :=
  s.onStor (fun x => { x with volumes := tmod x.volumes n f })
/-- One storage queue. -/
def State.onStq (s : State) (n : Nat) (f : StQueue → StQueue) : State :=
  s.onStor (fun x => { x with queues := tmod x.queues n f })
/-- One NVMe/TCP connection. -/
def State.onTcp (s : State) (n : Nat) (f : Tcp → Tcp) : State :=
  s.onStor (fun x => { x with tcps := tmod x.tcps n f })
/-- One Press job. -/
def State.onJob (s : State) (n : Nat) (f : PressJob → PressJob) : State :=
  { s with press := { s.press with jobs := tmod s.press.jobs n f } }
/-- Management. -/
def State.onMgmt (s : State) (f : Mgmt → Mgmt) : State := { s with mgmt := f s.mgmt }
/-- The Playbill. -/
def State.onPlaybill (s : State) (f : Playbill → Playbill) : State :=
  s.onMgmt (fun x => { x with playbill := f x.playbill })
/-- Power. -/
def State.onPower (s : State) (f : Power → Power) : State := { s with power := f s.power }
/-- The Rind. -/
def State.onRind (s : State) (f : Rind → Rind) : State := { s with rind := f s.rind }
/-- The test registers. -/
def State.onTest (s : State) (f : Test → Test) : State := { s with test := f s.test }
/-- The boot flash. -/
def State.onFlash (s : State) (f : Flash → Flash) : State := { s with flash := f s.flash }
/-- The clocks. -/
def State.onClock (s : State) (f : Clock → Clock) : State := { s with clock := f s.clock }
/-- The configuration. -/
def State.onCfg (s : State) (f : Cfg → Cfg) : State := { s with cfg := f s.cfg }
/-- Send something. A FAULTED device writes nothing further to any destination of its data path (02 R53). -/
def State.send (s : State) (o : Out) : State :=
  if s.power.st == .faulted && o.dataPath then s else { s with out := s.out ++ [o] }

/-- One function as it stands. -/
def State.fn (s : State) (n : Nat) : Fn := tgetD s.fns n {}
/-- One partition as it stands. -/
def State.part (s : State) (n : Nat) : Part := tgetD s.parts n {}
/-- One Trapeze port as it stands. -/
def State.tport (s : State) (n : Nat) : Tp := tgetD s.tp.ports n {}

end Sys2Proof.Machine
end

