-- ==== Sys2Proof/Machine/Ops.lean ====
section
/-! DEFINITION. Machine/Ops.lean: the operations every block shares: free values, the Rind's counts and log, writes to
host memory, MSI-X messages, event records and completion records. -/

namespace Sys2Proof.Machine

/-- A value the manual leaves open (log entry 4, DESIGN CHOICE). -/
def draw (s : State) : Nat × State := (Config.freeValue s.draws, { s with draws := s.draws + 1 })

/-- `n` octets the manual leaves open. -/
def drawBytes (s : State) (n : Nat) : List Byte × State :=
  ((List.range n).map (fun i => Config.freeByte (s.draws + i)), { s with draws := s.draws + n })

/-- Add to a 64-bit statistics counter, which wraps (24 R625). -/
def bump (t : Tbl Nat) (i : Nat) (n : Nat := 1) : Tbl Nat := tupd t i 0 (fun c => modAdd 64 c n)

/-! Functions, partitions and tenants (16 R427). -/

/-- The partition of a function; the manager belongs to none and reads as 0. -/
def partOf (fn : Nat) : Nat := (fn - 1) / 63
/-- The tenant tag of a function; 0 for the manager. -/
def tenantOf (fn : Nat) : Nat := if fn == 0 then 0 else (fn - 1) % 63 + 1
/-- The virtual function of a partition and tenant. -/
def vfOf (p t : Nat) : Nat := p * 63 + t
/-- Does a virtual function exist (16 R429)? -/
def vfExists (s : State) (vf : Nat) : Bool := s.host.vfEnable && 1 ≤ vf && vf ≤ s.host.numVfs
/-- The tenant functions of a partition that exist. -/
def vfsOf (s : State) (p : Nat) : List Nat := (List.range 63).map (fun t => vfOf p (t + 1)) |>.filter (vfExists s)
/-- May a function issue a request to the host (16 R454, 22 R591)? -/
def issuable (s : State) (fn : Nat) : Bool := !(s.fn fn).flr && !(s.fn fn).d3

/-- Does the device take anything in: it runs, and no orderly shutdown is under way (02 R53, 22 R590, R595)? -/
def ingress (s : State) : Bool := s.power.st == .run && !s.power.shutdown

/-! The Rind (23 R606 to R612). -/

/-- Is a counter critical (23 R606)? -/
def rindCritical (id : Nat) : Bool :=
  [0x06, 0x07, 0x09, 0x0B, 0x0D, 0x0E, 0x10, 0x12, 0x1F].contains id || (0x28 ≤ id && id ≤ 0x30)

/-- Start writing a record of the shadow as it stands (23 R610 to R612). -/
def rindStartRecord (s : State) : State :=
  let r := s.rind
  let f := r.flash
  s.onRind (fun r => { r with
    committing := true, again := false, waiters := r.nextWaiters, nextWaiters := []
    writing := some { valid := true, counters := r.counters, hists := r.hists, log := r.log, nextSeq := r.nextSeq,
                      rtc := s.clock.rtc, recordSeq := modAdd 32 f.recordSeq 1, deltas := f.deltas } })

/-- A commit trigger (23 R611): the record starts, or one further record follows the one being written. -/
def rindTrigger (s : State) : State :=
  if s.rind.flashFail || !s.power.vstby then s
  else if s.rind.committing then s.onRind (fun r => { r with again := true })
  else rindStartRecord s

/-- Add to a Rind counter (23 R606); a critical one starts a commit. -/
def rindCount (s : State) (id : Nat) (n : Nat := 1) : State :=
  let s := s.onRind (fun r => { r with counters := tupd r.counters id 0 (fun c => satAdd 64 c n), dirty := true })
  if rindCritical id then rindTrigger s else s

/-- One sample of a log2 or linear histogram, in the bin given (23 R607). -/
def rindBin (s : State) (h b : Nat) : State :=
  s.onRind (fun r => { r with hists := tupd r.hists (32 * h + b) 0 (fun c => satAdd 32 c 1), dirty := true })

/-- The bin of a log2 rule. -/
def log2Bin (v : Nat) : Nat := if v == 0 then 0 else min (Nat.log2 v + 1) 31

/-- The bin of a linear rule, with the value, `Low` and `W` in one unit. -/
def linearBin (v low w : Int) : Nat := if v < low then 0 else min ((v - low) / w + 1).toNat 31

/-- One more occurrence toward a per-minute histogram. -/
def rindMinute (s : State) (h : Nat) (n : Nat := 1) : State :=
  s.onRind (fun r => { r with minute := tupd r.minute h 0 (· + n) })

/-- An entry of the event log (23 R608, R662). -/
def rindLog (s : State) (typ island : Nat) (detail : List Byte) : State :=
  let full := decide (8192 ≤ s.rind.log.length)
  let e : RindEntry := {
    time := if s.power.vmain then s.clock.now else s.clock.rtc
    seq := s.rind.nextSeq
    typ := typ
    island := island
    flags := b2n (!s.power.vmain) + 2 * b2n s.clock.timeInvalid
    detail := fit 16 detail }
  let s := s.onRind (fun r => { r with
    log := (if full then r.log.drop 1 else r.log) ++ [e], nextSeq := modAdd 32 r.nextSeq 1, dirty := true })
  if full then rindCount s 0x22 else s

/-! Writes to host memory (16 R441 to R450, R660). -/

/-- Does the translation cache cover a request (16 R448)? -/
def atcCovers (e : AtcEntry) (fn : Nat) (pasid : Option Nat) (addr : Nat) (write : Bool) : Bool :=
  e.fn == fn && e.pasid == pasid && e.base ≤ addr && addr < e.base + e.size && (if write then e.write else e.read)

/-- May a request be issued without a Translation Request? -/
def translated (s : State) (fn : Nat) (pasid : Option Nat) (addr : Nat) (write : Bool) : Bool :=
  !(s.fn fn).ats || s.host.atc.any (fun e => atcCovers e fn pasid addr write)

/-- Does no posted request wait that a new one may not pass? Those of a function that may issue none wait for it alone. -/
def noHeld (s : State) : Bool := s.host.heldPosts.all (fun p => !issuable s p.fn)

/-- Hold a posted request in the order of the others, and ask for its translation where that is what it lacks. -/
def holdPost (s : State) (p : HeldPost) (ask : Bool) : State :=
  let s := s.onHost (fun h => { h with heldPosts := h.heldPosts ++ [p] })
  if ask then s.send (.translationRequest p.fn p.pasid p.addr) else s

/-- A device write to host memory. A function that may issue no request writes nothing. -/
def hostPost (s : State) (fn : Nat) (pasid : Option Nat) (addr : Nat) (data : List Byte) (ro : Bool := false)
    (isEvent : Bool := false) : State :=
  if !issuable s fn then s
  else
    let known := translated s fn pasid addr true
    if known && noHeld s then s.send (.hostWrite fn pasid addr ro data)
    else holdPost s { fn := fn, pasid := pasid, addr := addr, data := data, ro := ro, msix := none, isEvent := isEvent } (!known)

/-- The relaxed-ordering attribute of a request whose descriptor carries a hint (16 R441). -/
def roOf (s : State) (fn : Nat) (hint : Bool) : Bool := hint && (s.fn fn).roEnable

/-- Issue a read of host memory: its tag, and the state after; a read whose translation misses is held. -/
def hostRead (s : State) (fn : Nat) (pasid : Option Nat) (addr len : Nat) (use : ReadFor) : State :=
  if !issuable s fn then s
  else
    let used := s.host.reads.map (·.tag) ++ s.host.deadTags ++ s.host.heldReads.map (·.tag)
    let tag := ((List.range 16384).find? (fun t => !used.contains t)).getD 16384
    let r : HostRd := { tag := tag, fn := fn, pasid := pasid, addr := addr, len := len, use := use, at_ := s.clock.cadence }
    if translated s fn pasid addr false then
      (s.onHost (fun h => { h with reads := h.reads ++ [r] })).send (.hostRead tag fn pasid addr len)
    else (s.onHost (fun h => { h with heldReads := h.heldReads ++ [r] })).send (.translationRequest fn pasid addr)

/-- An error logged in a function's AER capability (16 R451). -/
def aerLog (s : State) (fn : Nat) (k : AerKind) : State := s.onFn fn (fun f => { f with aer := f.aer ++ [k] })

/-- A device request to the host that ends in HOST_ABORT (16 R451). -/
def hostAbortCount (s : State) : State := rindMinute (rindCount s 0x16) 24

/-! MSI-X (16 R438 to R440). -/

/-- Send a vector's message, in posted order, and start its holdoff. -/
def msixSend (s : State) (fn v : Nat) : State :=
  let e := tgetD (s.fn fn).msix v {}
  let s :=
    if noHeld s then s.send (.msix fn v e.addr e.data)
    else holdPost s { fn := fn, pasid := none, addr := e.addr, data := le 4 e.data, ro := false, msix := some v, isEvent := false } false
  s.onFn fn (fun f => { f with msix := tupd f.msix v {} (fun e =>
    { e with pending := false, raised := false, held := decide (0 < e.holdoffUs) }) })

/-- Raise a vector. A function that may issue no request raises none. -/
def msixRaise (s : State) (fn v : Nat) : State :=
  let f := s.fn fn
  let e := tgetD f.msix v {}
  if !issuable s fn then s
  else if !f.msixEnable || f.fnMask || e.masked then
    s.onFn fn (fun f => { f with msix := tupd f.msix v {} (fun e => { e with pending := true }) })
  else if e.held then s.onFn fn (fun f => { f with msix := tupd f.msix v {} (fun e => { e with raised := true }) })
  else msixSend s fn v

/-- How many MSI-X vectors a function has (16 R426). -/
def vectorsOf (fn : Nat) : Nat := if fn == 0 then 2048 else 32

/-! Event records (18 R491, 04 R101, 19 R532, R533). -/

/-- Write one event record; the caller has found room. -/
def putEvent (s : State) (fn kind part tenant : Nat) (payload : List Byte) : State :=
  let b := (s.fn fn).booth
  let entries := 2 ^ b.evtLog2
  let phase := 1 - b.evtProd / entries % 2
  let rcd := le 4 phase ++ le 2 (tenant * 64 + part * 4096) ++ le 2 kind ++ le 8 s.clock.now ++ fit 48 payload
  let s := hostPost s fn (if b.pasidEn then some b.pasid else none) (b.evtBase + 64 * (b.evtProd % entries)) rcd false true
  let s := s.onBooth fn (fun b => { b with evtProd := modAdd 32 b.evtProd 1 })
  msixRaise s fn b.evtVector

/-- Count an event record as lost (04 R101). -/
def loseEvent (s : State) (fn : Nat) : State :=
  s.onBooth fn (fun b => { b with lost := b.lost + 1, lostTotal := b.lostTotal + 1 })

/-- The interface minor an event kind came with (19 R531). -/
def eventSince (kind : Nat) : Nat := if kind == 0x17 then 1 else if kind == 0x14 then 2 else 0

/-- Raise an event on a booth; stopped booth service writes none (18 R481). -/
def raiseEvent (s : State) (fn kind part tenant : Nat) (payload : List Byte) : State :=
  let f := s.fn fn
  let b := f.booth
  if !b.ready || b.stopping || b.minor < eventSince kind || (tgetD s.comps 1 {}).state == .stopped then s
  else if fn != 0 && !f.attached then s
  else if !issuable s fn then loseEvent s fn
  else if 0 < b.lost || 2 ^ b.evtLog2 ≤ modSub 32 b.evtProd b.evtCons + 1 then loseEvent s fn
  else putEvent s fn kind part tenant payload

/-- The function an object's events go to (19 R532, column To, O; log entry 8, DEDUCED). -/
def ownerFn (p t created : Nat) : Nat := if t == 0 then created else vfOf p t

/-- An event on the booth of every tenant function of a partition. -/
def raiseTenants (s : State) (p kind : Nat) (payload : List Byte) : State :=
  (vfsOf s p).foldl (fun s vf => raiseEvent s vf kind p (tenantOf vf) payload) s

/-- Is epoch or sequence `a` newer than `b`, in `w` bits (02 R57)? -/
def newer (w a b : Nat) : Bool := 0 < modSub w a b && modSub w a b < 2 ^ (w - 1)

/-- The configuration block in force: the valid copy with the greater sequence, or the defaults (21 R559). -/
def activeConfig (f : Flash) : ConfigBlock :=
  if f.cfg0.valid && (!f.cfg1.valid || !newer 32 f.cfg1.seq f.cfg0.seq) then f.cfg0.block
  else if f.cfg1.valid then f.cfg1.block
  else ({} : CfgCopy).block

/-- The image of the booted slot. -/
def bootImage (s : State) : Image := if s.power.bootSlot == 0 then s.flash.imgA else s.flash.imgB

/-- Render the frame buffer from the content record, the configuration block and what the device knows of itself (21
R575). -/
def renderLabel (s : State) : Label :=
  let img := bootImage s
  let c := s.flash.content.getD { nodeName := [], serviceCode := [], cal := false, cfgName := true, text := [], rsvZero := true }
  { name := if c.cfgName then s.mgmt.config.nodeName else c.nodeName
    slot := s.power.bootSlot
    image := img.imageId
    version := img.major * 65536 + img.minor
    alert := s.mgmt.alert
    alertTime := s.mgmt.alertTime
    cal := c.cal
    service := c.serviceCode
    text := c.text }

/-- The three phases of an update begin from the frame buffer as it stands (21 R577, R579). -/
def playbillDraw (s : State) : State :=
  (s.onPlaybill (fun p => { p with uip := true, phase := 1, startedAt := some s.clock.cadence, interval := true })).send (.panel 1)

/-- Start a Playbill update: the frame buffer is rendered and phase 1 begins (21 R577). -/
def playbillStart (s : State) : State :=
  playbillDraw (s.onPlaybill (fun p => { p with label := renderLabel s, fbValid := true, alertPending := false }))

/-- May an update start now: the panel is fitted, VSTBY is there, the management component runs and no update does (21
R576, R579)? -/
def playbillReady (s : State) : Bool :=
  s.power.vstby && s.mgmt.config.playbill == 1 && s.mgmt.playbill.phase == 0 && (tgetD s.comps 8 {}).state == .running

/-- Set the last alert code and its time, and draw it or hold it for the end of the interval (21 R580). -/
def setAlert (s : State) (code : Nat) : State :=
  let s := s.onMgmt (fun m => { m with alert := code, alertTime := s.clock.rtc })
  if playbillReady s && !s.mgmt.playbill.interval && s.power.vmain then playbillStart s
  else s.onPlaybill (fun p => { p with alertPending := true })

/-- Assert ALERT_N (25 R635). -/
def assertAlert (s : State) : State := s.onMgmt (fun m => { m with alertN := true })

/-! Completion records (18 R490, R495 to R498). -/

/-- The component that owns a group (18 R478). -/
def componentOf (group : Nat) : Nat :=
  match group with
  | 0x01 => 1 | 0x02 => 2 | 0x03 => 2 | 0x04 => 2 | 0x05 => 3 | 0x06 => 3 | 0x07 => 3 | 0x0B => 3
  | 0x08 => 4 | 0x09 => 4 | 0x0D => 5 | 0x0A => 6 | 0x0C => 6 | 0x0E => 7 | 0x0F => 8 | _ => 1

/-- The status a booth of an earlier minor receives in place of a newer one (18 R486, 19 R531). -/
def fallback (minor : Nat) (st : Status) : Status :=
  match st with
  | .gateWindowShort => if minor < 1 then .badRequest else st
  | .sumMemberLost => if minor < 1 then .partnerStalled else st
  | .tenantLimit => if minor < 2 then .noResource else st
  | _ => st

/-- What a completion record reports beside its status. -/
structure Report where
  result : List Byte := []
  stage : Nat := 0
  epoch : Option Nat := none
  all : Bool := false
  component : Option Nat := none
  deriving DecidableEq, Repr, Inhabited

/-- The sixteen epochs, partition 0 first (18 R490). -/
def allEpochs (s : State) : List Byte := (List.range 16).flatMap (fun p => le 2 (s.part p).epoch)

/-- Write a completion record whose first octet lacks its PHASE, and raise the vector if SIGNAL is set. -/
def writeRecord (s : State) (fn : Nat) (rcd : List Byte) (signal : Bool) : State :=
  let b := (s.fn fn).booth
  let entries := 2 ^ b.cmpLog2
  let phase := 1 - b.cmpProd / entries % 2
  let rcd := match rcd with | [] => [] | x :: xs => byteOf (x.toNat + phase) :: xs
  let s := hostPost s fn (if b.pasidEn then some b.pasid else none) (b.cmpBase + 64 * (b.cmpProd % entries)) rcd
  let s := s.onBooth fn (fun b => { b with cmpProd := modAdd 32 b.cmpProd 1 })
  if signal then msixRaise s fn b.cmpVector else s

/-- A completion record without its PHASE (18 R490). -/
def recordOf (s : State) (b : Booth) (c : OutCmd) (st : Status) (r : Report) : List Byte :=
  le 4 (2 * b2n r.epoch.isSome + 4 * b2n r.all) ++ le 1 (r.component.getD (componentOf c.group)) ++ le 1 r.stage
    ++ le 2 (r.epoch.getD 0) ++ le 2 (fallback b.minor st).code ++ le 2 c.id ++ le 4 b.subCons ++ le 8 s.clock.now
    ++ le 8 c.context ++ fit 32 (if r.all then allEpochs s else r.result)

/-- End one fetched command: its record, unless the booth is stopping, and its identifier counted as completed. The record
waits while booth service restarts and in D3hot (18 R479, 22 R591); stopped booth service completes nothing (18 R481). -/
def endOne (s : State) (fn : Nat) (c : OutCmd) (st : Status) (r : Report) : State :=
  let b := (s.fn fn).booth
  let service := (tgetD s.comps 1 {}).state
  if service == .stopped then s
  else
  let s := s.onBooth fn (fun b => { b with outst := b.outst.filter (fun x => x.id != c.id) })
  if b.stopping || (s.fn fn).flr then s
  else
    let rcd := recordOf s b c st r
    let s := s.onBooth fn (fun b => { b with done := b.done ++ [c.id] })
    if (s.fn fn).d3 || service == .restarting then s.onBooth fn (fun b => { b with held := b.held ++ [(rcd, c.signal)] })
    else writeRecord s fn rcd c.signal

/-- The outstanding command of an identifier. -/
def outCmd (s : State) (fn id : Nat) : Option OutCmd := ((s.fn fn).booth.outst).find? (fun c => c.id == id)

/-- End a command, and after it the CANCELs that named it (18 R497, R498). -/
def finish (s : State) (fn id : Nat) (st : Status) (r : Report := {}) : State :=
  match outCmd s fn id with
  | none => s
  | some c =>
    (c.cancellers.filterMap (outCmd s fn)).foldl
      (fun s k => endOne s fn k (if st == .cancelled || st == .cancelledAtStage then .ok else .tooLate) {})
      (endOne s fn c st r)

/-- Write the completion records that waited. -/
def writeHeld (s : State) (fn : Nat) : State :=
  let b := (s.fn fn).booth
  if (s.fn fn).d3 || (tgetD s.comps 1 {}).state != .running then s
  else b.held.foldl (fun s e => writeRecord s fn e.1 e.2) (s.onBooth fn (fun b => { b with held := [] }))

end Sys2Proof.Machine
end

