-- ==== Sys2Proof/Machine/Space.lean ====
section
/-! DEFINITION. Machine/Space.lean: the device address map (03 R66, R67), ownership (03 R92 to R94, 17 R458) and the
accesses of every block to HBM, stage memory, the troupe views and the windows. -/

namespace Sys2Proof.Machine

/-- Where an address lies. -/
inductive Region where
  | hbm (off : Nat)
  | stage (off : Nat)
  | control (off : Nat)
  | octet (troupe off : Nat)
  | raw (troupe off : Nat)
  | instr (tumbler off : Nat)
  | trapeze (port off : Nat)
  | hostWin (off : Nat)
  | hole
  deriving DecidableEq, Repr

/-- Does an offset of control space lie in a register block (03 R70, R659)? -/
def controlBlock (o : Nat) : Bool :=
  o / 0x10000 == 1 || (0x100000 ≤ o && o < 0x140000) || o / 0x10000 == 0x20 || (0x300000 ≤ o && o < 0x340000)
    || (0x400000 ≤ o && o < 0x440000)

/-- The address map. -/
def region (a : Nat) : Region :=
  if a < 0x800000000 then .hbm a
  else if 0x010000000000 ≤ a && a < 0x010010000000 then .stage (a - 0x010000000000)
  else if 0x020000000000 ≤ a && a < 0x020100000000 then
    (if controlBlock (a - 0x020000000000) then .control (a - 0x020000000000) else .hole)
  else if 0x030000000000 ≤ a && a < 0x030004000000 then
    .octet ((a - 0x030000000000) / 0x400000) ((a - 0x030000000000) % 0x400000)
  else if 0x030100000000 ≤ a && a < 0x030108000000 then
    .raw ((a - 0x030100000000) / 0x800000) ((a - 0x030100000000) % 0x800000)
  else if 0x030200000000 ≤ a && a < 0x030202000000 then
    .instr ((a - 0x030200000000) / 0x40000) ((a - 0x030200000000) % 0x40000)
  else if 0x400000000000 ≤ a && a < 0x800000000000 then
    .trapeze ((a - 0x400000000000) / 0x100000000000) ((a - 0x400000000000) % 0x100000000000)
  else if 0x800000000000 ≤ a && a < 0x1000000000000 then .hostWin (a - 0x800000000000)
  else .hole

/-- The target that serves an address (03 R69, R71, R74, and the table of target ports). -/
def targetOf (a : Nat) : Nat :=
  match region a with
  | .hbm _ => field a 8 3 ^^^ field a 20 3
  | .stage o => 8 + o / 2048 % 4
  | .octet t _ => 13 + t / 4
  | .raw t _ => 13 + t / 4
  | .instr n _ => 13 + n / 32
  | .trapeze p _ => 17 + p
  | .hostWin _ => 21
  | .control _ => 12
  | .hole => 12

/-- The owner of a share unit under a configuration; 255 where it is unassigned (17 R457). -/
def unitOwner (s : State) (c : Cfg) (j : Nat) : Nat := if s.fixedMode then j / 16 else tgetD c.own.units j 255

/-- How many units a partition owns. -/
def unitsOf (s : State) (c : Cfg) (p : Nat) : Nat := (List.range 256).countP (fun j => unitOwner s c j == p)

/-- The partition of a tumbler: the one that owns both its units; none otherwise (17 R458). -/
def tumblerOwner (s : State) (c : Cfg) (n : Nat) : Option Nat :=
  let a := unitOwner s c (2 * n)
  if a < 16 && unitOwner s c (2 * n + 1) == a then some a else none

/-- The tumblers of a partition. -/
def tumblersOf (s : State) (c : Cfg) (p : Nat) : List Nat :=
  (List.range 128).filter (fun n => tumblerOwner s c n == some p)

/-- The tenant a stage-memory cell belongs to: that of the object it is allocated to, or 0 (17 R464). -/
def cellTenant (s : State) (c : Nat) : Nat := match tget s.mem.cells c with | some u => u.tenant | none => 0

/-- The window that covers an offset of a port's region (11 R311). -/
def windowAt (ws : Tbl TpWindow) (base lo n off : Nat) : Option TpWindow :=
  (ws.find? (fun e => lo ≤ e.1 - base && base ≤ e.1 && e.1 < base + n && e.2.valid && e.2.offset * 65536 ≤ off
    && off < e.2.offset * 65536 + 2 ^ e.2.sizeLog2)).map (·.2)

/-- The outbound window of a port at an offset. -/
def outWindow (c : Cfg) (p off : Nat) : Option TpWindow := windowAt c.tp.outWin (1024 * p) 0 1024 off

/-- The host window at an offset (16 R444). -/
def hostWindowAt (c : Cfg) (off : Nat) : Option HostWindow :=
  (c.own.windows.find? (fun e => e.2.valid && e.2.offset * 65536 ≤ off && off < e.2.offset * 65536 + 2 ^ e.2.sizeLog2)).map (·.2)

/-- The ownership entry of an address: partition and tenant; none where the entry is not valid (03 R92). -/
def ownerOf (s : State) (c : Cfg) (a : Nat) : Option (Nat × Nat) :=
  let ofUnit := fun (j t : Nat) => let p := unitOwner s c j; if p < 16 then some (p, t) else none
  match region a with
  | .hbm o => ofUnit (o / 0x8000000) (tgetD c.own.hbmTenant (o / 0x1000000) 0)
  | .stage o => ofUnit (o / 0x100000) (cellTenant s (o / 2048))
  | .octet t o => let g := 16 * t + o / 4 / 65536; ofUnit g (tgetD c.own.troupeTenant g 0)
  | .raw t o => let g := 16 * t + o / 8 / 65536; ofUnit g (tgetD c.own.troupeTenant g 0)
  | .trapeze p o => (outWindow c p o).map (fun w => (w.part, w.tenant))
  | .hostWin o => (hostWindowAt c o).map (fun w => (w.part, w.tenant))
  | _ => none

/-- Does a transaction's tag pass an ownership entry (03 R92)? -/
def tagPasses (owner : Option (Nat × Nat)) (p t : Nat) : Bool :=
  match owner with
  | some (op, ot) => op == p && (ot == 0 || t == 0 || ot == t)
  | none => false

/-- Who issues a transaction: its tags and the configuration of its epoch (03 R91, R94). -/
structure Actor where
  part : Nat
  tenant : Nat
  priv : Bool
  cfg : Cfg
  deriving DecidableEq, Repr, Inhabited

/-- What a transaction is, as far as the checks of its target need it. -/
inductive Access where
  | read
  | write
  | atomic
  deriving DecidableEq, Repr

/-- The checks of a target in their order: mapping, alignment, tag (03 R92; 11 R313 and 16 R445 for the windows). -/
def accessCheck (s : State) (w : Actor) (a n : Nat) (k : Access) : Status :=
  let tagged := fun (st : Status) => if w.priv || tagPasses (ownerOf s w.cfg a) w.part w.tenant then st else .tagDenied
  let atomicBad := k == .atomic && a % 8 != 0
  match region a with
  | .hole => .unmapped
  | .control _ => if !w.priv then .unmapped else if atomicBad then .align else .ok
  | .instr _ o =>
    if !w.priv then .unmapped
    else if atomicBad || (k == .write && (o % 8 != 0 || n % 8 != 0 || n == 0)) then .align else .ok
  | .hbm _ | .stage _ => if atomicBad then .align else tagged .ok
  | .octet _ _ => if k == .atomic then .align else tagged .ok
  | .raw _ o => if atomicBad || (k == .write && (o % 8 != 0 || n % 8 != 0 || n == 0)) then .align else tagged .ok
  | .trapeze p o =>
    match outWindow w.cfg p o with
    | none => .unmapped
    | some e =>
      if !w.priv && !tagPasses (some (e.part, e.tenant)) w.part w.tenant then .tagDenied
      else if !(match k with | .read => e.read | .write => e.write | .atomic => e.atomic) then .tagDenied
      else match (s.tport p).st with
        | .down => .portDown
        | .stalled => .partnerStalled
        | _ => .ok
  | .hostWin o =>
    if k == .atomic then .unmapped
    else match hostWindowAt w.cfg o with
      | none => .unmapped
      | some e =>
        if !w.priv && !tagPasses (some (e.part, e.tenant)) w.part w.tenant then .tagDenied
        else if !(match k with | .read => e.read | _ => e.write) then .tagDenied
        else .ok

/-- Size of the protected unit at an address: 32 octets of HBM, 8 of stage memory, one word of the others (03 R72 to
R76); the number that names the unit is its first address, troupe and instruction words by their raw view. -/
def unitAt (a : Nat) : Nat × Nat :=
  match region a with
  | .hbm o => (o / 32 * 32, 32)
  | .stage _ => (a / 8 * 8, 8)
  | .octet t o => (0x030100000000 + t * 0x800000 + o / 4 * 8, 4)
  | _ => (a / 8 * 8, 8)

/-- Octets of a raw view. -/
def rawByte (w : Word) (i : Nat) : Byte := byteOf (w.toNat / 2 ^ (8 * i))

/-- Read one octet of device memory (03 R77, R78). -/
def byteAt (m : MemSys) (a : Nat) : Byte :=
  match region a with
  | .hbm _ =>
    match tget m.spoiled (targetOf a / 4) with
    | some k => Config.spoiledByte k a
    | none => memGet m.bytes a
  | .stage _ => memGet m.bytes a
  | .octet t o => let w := wordGet m.troupe (t * 1048576 + o / 4); byteOf (field w.toNat (9 * (3 - o % 4)) 8)
  | .raw t o => rawByte (wordGet m.troupe (t * 1048576 + o / 8)) (o % 8)
  | .instr n o => rawByte (wordGet m.im (n * 32768 + o / 8)) (o % 8)
  | _ => 0

/-- Read octets of device memory. -/
def bytesAt (m : MemSys) (a n : Nat) : List Byte := (List.range n).map (fun i => byteAt m (a + i))

/-- A word with one octet stored with its mark bit (03 R77). -/
def markOctet (w : Word) (i : Nat) (b : Byte) : Word :=
  let k := 9 * (3 - i % 4)
  BitVec.ofNat 36 (w.toNat - field w.toNat k 9 * 2 ^ k + (256 + b.toNat) * 2 ^ k)

/-- A word with one octet of its raw view replaced (03 R78). -/
def rawOctet (w : Word) (i : Nat) (b : Byte) : Word :=
  BitVec.ofNat 36 (w.toNat - field w.toNat (8 * i) 8 * 2 ^ (8 * i) + b.toNat * 2 ^ (8 * i))

/-- Write one octet of device memory. -/
def setByte (m : MemSys) (a : Nat) (b : Byte) : MemSys :=
  match region a with
  | .hbm _ | .stage _ => { m with bytes := memSet m.bytes a b }
  | .octet t o => let k := t * 1048576 + o / 4; { m with troupe := wordSet m.troupe k (markOctet (wordGet m.troupe k) (o % 4) b) }
  | .raw t o => let k := t * 1048576 + o / 8; { m with troupe := wordSet m.troupe k (rawOctet (wordGet m.troupe k) (o % 8) b) }
  | .instr n o => let k := n * 32768 + o / 8; { m with im := wordSet m.im k (rawOctet (wordGet m.im k) (o % 8) b) }
  | _ => m

/-- Write octets of device memory. -/
def setBytes (m : MemSys) (a : Nat) : List Byte → MemSys
  | [] => m
  | b :: bs => setBytes (setByte m a b) (a + 1) bs

/-- The units an access touches, without repeats. -/
def unitsTouched (a n : Nat) : List Nat := ((List.range n).map (fun i => (unitAt (a + i)).1)).eraseDups

/-- The units a write covers whole. -/
def unitsCovered (a n : Nat) : List Nat :=
  (unitsTouched a n).filter (fun u =>
    (List.range n).countP (fun i => (unitAt (a + i)).1 == u) == (unitAt a).2)

/-- Is the patrol and ECC island of an address, for the log (23 R662)? -/
def islandOfMem (a : Nat) : Nat :=
  match region a with
  | .hbm _ => if targetOf a < 4 then 145 else 146
  | .stage _ => 147
  | _ => 255

/-- Latch the first fault of a target, while none is latched (03 R88): kind, master, address. -/
def latchFault (m : MwTarget) (kind master a : Nat) : MwTarget :=
  if bit m.firstFault 63 then m else { m with firstFault := 2 ^ 63 + kind * 2 ^ 53 + master * 2 ^ 48 + a % 2 ^ 48 }

/-- Report an uncorrectable unit that a master's transaction met (03 R81). -/
def memError (s : State) (a : Nat) (master : Nat := 0) : State :=
  let t := targetOf a
  let s := s.onTarget t (fun m => latchFault m 4 master a)
  let pay := le 8 a ++ le 1 t
  let s := raiseEvent s 0 0x0003 0 0 pay
  let s := match ownerOf s s.cfg a with | some (p, _) => raiseTenants s p 0x0003 pay | none => s
  let s := rindCount s (match region a with | .hbm _ => 0x10 | _ => 0x12)
  rindLog s 0x0003 (islandOfMem a) pay

/-- Perform a read of mapped, permitted device memory: data, or the uncorrectable unit it met. -/
def memLoad (s : State) (a n : Nat) (master : Nat := 0) : Status × List Byte × State :=
  match (unitsTouched a n).find? (fun u => s.mem.bad.contains u) with
  | some u => (.memUncorrectable, [], memError s u master)
  | none => (.ok, bytesAt s.mem a n, s)

/-- Perform a write of mapped, permitted device memory, whole or not at all (03 R73). A FAULTED device writes nothing
(02 R53). -/
def memStore (s : State) (a : Nat) (d : List Byte) (master : Nat := 0) : Status × State :=
  let whole := unitsCovered a d.length
  if s.power.st == .faulted then (.ok, s)
  else match (unitsTouched a d.length).find? (fun u => s.mem.bad.contains u && !whole.contains u) with
  | some u => (.memUncorrectable, memError s u master)
  | none => (.ok, s.onMem (fun m => { setBytes m a d with bad := m.bad.filter (fun u => !whole.contains u) }))

/-- A transaction completes to its master at a target (03 R84). -/
def mwAnswer (s : State) (t master : Nat) (st : Status) (data : List Byte) : State :=
  s.onTarget t (fun m => { m with last := some { master := master, status := st, data := data } })

/-- Count a denied transaction at its target and report it (03 R92). -/
def denyCount (s : State) (master p t a : Nat) : State :=
  let tg := targetOf a
  let s := s.onTarget tg (fun m => latchFault { m with denied := modAdd 64 m.denied 1 } 2 master a)
  let d := tgetD s.mem.deny p {}
  let due := match d.last with | none => true | some x => decide (x + 1000000000 ≤ s.clock.cadence)
  if due then
    let s := raiseEvent s 0 0x0004 p t (le 8 a ++ le 1 master ++ le 1 p ++ le 1 t ++ le 1 0 ++ le 4 (d.since + 1))
    s.onMem (fun m => { m with deny := tset m.deny p { since := 0, last := some s.clock.cadence } })
  else s.onMem (fun m => { m with deny := tset m.deny p { d with since := d.since + 1 } })

/-- Count a transaction that is not performed (03 R69, R92); other statuses have no counter. -/
def refuseCount (s : State) (master : Nat) (w : Actor) (a : Nat) (st : Status) : State :=
  match st with
  | .unmapped => s.onTarget (targetOf a) (fun m => latchFault { m with unmapped := modAdd 64 m.unmapped 1 } 1 master a)
  | .tagDenied => denyCount s master w.part w.tenant a
  | _ => s

/-! The sending side of a Trapeze port (11 R297 to R306). -/

/-- The slots a message takes (11 R297). -/
def slotsOf (m : TpMsg) : Nat :=
  match m with
  | .write _ _ _ _ d => 1 + ceilDiv d.length 16
  | .rdcomp _ d => 1 + ceilDiv d.length 16
  | .fadd .. | .cas .. | .atcomp .. | .boundary .. | .sumArm .. | .hold .. => 2
  | .param _ => 3
  | .telemetry .. => 5
  | _ => 1

/-- Flits of 15 slots that a message takes. Each message starts a flit of its own (log entry 29, DEDUCED). -/
def flitsOf (m : TpMsg) : Nat := ceilDiv (slotsOf m) 15

/-- Is a port up? -/
def tpUp (t : Tp) : Bool := t.st == .active || t.st == .degraded

/-- Slots of a READ's or atomic's completion, which the device holds room for (11 R301). -/
def respSlots (m : TpMsg) : Nat := match m with | .read _ _ _ _ n => 1 + ceilDiv n 16 | _ => 2

/-- Is a request a WRITE? -/
def isWrite (m : TpMsg) : Bool := match m with | .write .. => true | _ => false

/-- A request with its tag (11 R304). -/
def withTag (m : TpMsg) (tag : Nat) : TpMsg :=
  match m with
  | .write _ p t a d => .write tag p t a d
  | .read _ p t a n => .read tag p t a n
  | .fadd _ p t a x => .fadd tag p t a x
  | .cas _ p t a x y => .cas tag p t a x y
  | m => m

/-- The tag of a request. -/
def tagOf (m : TpMsg) : Nat :=
  match m with
  | .write g _ _ _ _ => g
  | .read g _ _ _ _ => g
  | .fadd g _ _ _ _ => g
  | .cas g _ _ _ _ _ => g
  | _ => 0

/-- The slot of the request channel's rotation that a request belongs to; the Press has the slot of PRIV traffic. -/
def slotOfReq (r : TpReq) : Nat :=
  match r.use with
  | .press _ => 16
  | _ => match r.msg with
    | .write _ p _ _ _ => p
    | .read _ p _ _ _ => p
    | .fadd _ p _ _ _ => p
    | .cas _ p _ _ _ _ => p
    | _ => 16

/-- Is there room in the replay buffer for a message's flits (11 R306)? -/
def replayRoom (t : Tp) (m : TpMsg) : Bool := t.replay.length + flitsOf m ≤ 512

/-- A message leaves: its flits, kept for replay, carry ACKSEQ as well. -/
def tpLeave (t : Tp) (m : TpMsg) : Tp :=
  { t with
    replay := t.replay ++ (List.range (flitsOf m)).map (fun i => (modAdd 12 t.nextSeq i, m))
    nextSeq := modAdd 12 t.nextSeq (flitsOf m)
    counts := bump t.counts 0 (flitsOf m)
    unacked := 0 }

/-- The request to send next: the oldest, or in fixed-equal-share mode the oldest of the next slot of the rotation that
has one (11 R302, R303). -/
def nextReq (fixed : Bool) (t : Tp) : Option TpReq :=
  if fixed then (List.range 17).findSome? (fun k => t.queue.find? (fun r => slotOfReq r == (t.slot + 1 + k) % 17))
  else t.queue.head?

/-- A free tag of a read or atomic: not outstanding, not withheld (11 R305). -/
def freeTag (t : Tp) : Nat :=
  let used := (t.reads ++ t.writes).map (fun r => tagOf r.msg) ++ t.withheld
  ((List.range 65536).find? (fun g => !used.contains g)).getD 0

/-- May a request be sent: its credits, the outstanding limits and the room for its completion (11 R298, R301)? -/
def mayRequest (t : Tp) (m : TpMsg) : Bool :=
  t.crUsedReq + slotsOf m ≤ t.crAdvReq && replayRoom t m
    && (if isWrite m then decide (t.writes.length < 16384)
        else decide (t.reads.length < 4096) && decide ((t.reads.map (fun r => respSlots r.msg)).sum + respSlots m ≤ 2047))

/-- Send what a port may send: control messages, responses, then requests. -/
def tpSend (fixed : Bool) (p now : Nat) : Nat → Tp → Tp × List Out
  | 0, t => (t, [])
  | fuel + 1, t =>
    let again := fun (t : Tp) (m : TpMsg) => let r := tpSend fixed p now fuel t; (r.1, Out.tpMsg p m :: r.2)
    let ctl := match t.controls with
      | m :: ms => if t.crUsedCtl + slotsOf m ≤ t.crAdvCtl && replayRoom t m then some (m, ms) else none
      | [] => none
    let rsp := match t.responses with
      | m :: ms => if t.crUsedRsp + slotsOf m ≤ t.crAdvRsp && replayRoom t m then some (m, ms) else none
      | [] => none
    match ctl, rsp, nextReq fixed t with
    | some (m, ms), _, _ => again { tpLeave t m with controls := ms, crUsedCtl := t.crUsedCtl + slotsOf m } m
    | none, some (m, ms), _ => again { tpLeave t m with responses := ms, crUsedRsp := t.crUsedRsp + slotsOf m } m
    | none, none, some r =>
      if !mayRequest t r.msg then (t, [])
      else
        let tag := if isWrite r.msg then t.nextTag else freeTag t
        let m := withTag r.msg tag
        let x : TpReq := { r with msg := m, sentAt := now }
        let t1 := tpLeave t m
        again { t1 with
          queue := t.queue.erase r
          slot := slotOfReq r
          crUsedReq := t.crUsedReq + slotsOf m
          nextTag := if isWrite m then modAdd 16 t.nextTag 1 else t.nextTag
          writes := if isWrite m then t.writes ++ [x] else t.writes
          reads := if isWrite m then t.reads else t.reads ++ [x] } m
    | none, none, none => (t, [])

/-- Send what a port that is up may send. -/
def tpPump (s : State) (p : Nat) : State :=
  let t := s.tport p
  if !tpUp t then s
  else
    let r := tpSend s.fixedMode p s.clock.cadence (t.queue.length + t.responses.length + t.controls.length) t
    r.2.foldl State.send (s.onTp p (fun _ => r.1))

/-- Put a request into a Trapeze port's outbound queue (11 R304). -/
def tpEnqueue (s : State) (p : Nat) (m : TpMsg) (use : TpUse) : State :=
  tpPump (s.onTp p (fun t => { t with queue := t.queue ++ [{ msg := m, use := use, issuedAt := s.clock.cadence, sentAt := 0 }] })) p

/-- Send a control message of a port; none leaves while the port is not up. -/
def tpControl (s : State) (p : Nat) (m : TpMsg) : State :=
  if tpUp (s.tport p) then tpPump (s.onTp p (fun t => { t with controls := t.controls ++ [m] })) p else s

/-- The accelerator address of a window offset. -/
def accAddr (w : TpWindow) (off : Nat) : Nat := w.accBase + (off - w.offset * 65536)

/-- One write transaction of a block: checks, then its effect. Into a Trapeze window it is performed when it is in the
outbound queue (03 R84); into a host window when the host port has accepted it. The last result says whether a partner
still has to answer it. -/
def storeOne (s : State) (master : Nat) (w : Actor) (a : Nat) (d : List Byte) (use : TpUse) : Status × State × Bool :=
  match accessCheck s w a d.length .write with
  | .ok =>
    match region a with
    | .trapeze p o =>
      match outWindow w.cfg p o with
      | some e => (.ok, tpEnqueue s p (.write 0 w.part w.tenant (accAddr e o) d) use, true)
      | none => (.ok, s, false)
    | .hostWin o =>
      match hostWindowAt w.cfg o with
      | some e => (.ok, hostPost s e.fn (if e.pasidEn then some e.pasid else none) (e.hostBase + (o - e.offset * 65536)) d, false)
      | none => (.ok, s, false)
    | .control _ => (.ok, s, false)
    | _ => let r := memStore s a d master; (r.1, r.2, false)
  | st => (st, refuseCount s master w a st, false)

/-- The pieces of a transfer under 03 R68: addresses and lengths of at most 256 octets within a 256-octet block. -/
def pieces : Nat → Nat → Nat → List (Nat × Nat)
  | 0, _, _ => []
  | _, _, 0 => []
  | f + 1, a, n =>
    let k := min n (256 - a % 256)
    (a, k) :: pieces f (a + k) (n - k)

/-- Write octets through Midway, piece by piece; the first piece that fails stops the transfer. The results: status, the
failing address, the state, and how many pieces a partner still has to answer. -/
def storeAll (s : State) (master : Nat) (w : Actor) (use : TpUse) (a : Nat) (d : List Byte) :
    Status × Nat × State × Nat :=
  (pieces (d.length + 1) a d.length).foldl
    (fun acc pc =>
      if acc.1 != .ok then acc
      else
        let r := storeOne acc.2.2.1 master w pc.1 ((d.drop (pc.1 - a)).take pc.2) use
        (r.1, if r.1 == .ok then acc.2.1 else pc.1, r.2.1, acc.2.2.2 + b2n r.2.2))
    (.ok, 0, s, 0)

/-- Does an address lie in memory of the host or of an accelerator? -/
def inPartner (a : Nat) : Bool := match region a with | .trapeze _ _ | .hostWin _ => true | _ => false

/-- Read octets through Midway. Data of a partner's memory is what the partner returned, given in `ext` from the first
octet of the transfer. The results: status, the failing address, the data, the state. -/
def loadAll (s : State) (master : Nat) (w : Actor) (a n : Nat) (ext : List Byte) : Status × Nat × List Byte × State :=
  (pieces (n + 1) a n).foldl
    (fun acc pc =>
      if acc.1 != .ok then acc
      else
        let s := acc.2.2.2
        match accessCheck s w pc.1 pc.2 .read with
        | .ok =>
          match region pc.1 with
          | .trapeze _ _ | .hostWin _ => (.ok, 0, acc.2.2.1 ++ fit pc.2 (ext.drop (pc.1 - a)), s)
          | .control _ => (.ok, 0, acc.2.2.1 ++ fit pc.2 (ext.drop (pc.1 - a)), s)
          | _ => let r := memLoad s pc.1 pc.2 master; (r.1, pc.1, acc.2.2.1 ++ r.2.1, r.2.2)
        | st => (st, pc.1, acc.2.2.1, refuseCount s master w pc.1 st))
    (.ok, 0, [], s)

/-- An indivisible 64-bit operation on device memory (03 R85): the old value; what it stores is given from the old. -/
def atomicAt (s : State) (master : Nat) (w : Actor) (a : Nat) (f : Nat → Nat) : Status × Nat × State :=
  match accessCheck s w a 8 .atomic with
  | .ok =>
    let r := memLoad s a 8 master
    match r.1 with
    | .ok => let old := ofLe r.2.1; let st := memStore s a (le 8 (f old)) master; (st.1, old, st.2)
    | st => (st, 0, r.2.2)
  | st => (st, 0, refuseCount s master w a st)

/-- Does a whole range lie in HBM, in stage memory, in one Trapeze window or in one host window, owned by a partition
throughout (12 R325, 14 R379)? -/
def rangeOwned (s : State) (c : Cfg) (p a n : Nat) : Bool :=
  let last := a + n - 1
  let owns := fun (x : Nat) => match ownerOf s c x with | some (q, _) => q == p | none => false
  match region a, region last with
  | .hbm o, .hbm o' => (List.range (o' / 0x1000000 - o / 0x1000000 + 1)).all (fun i => owns ((o / 0x1000000 + i) * 0x1000000))
  | .stage o, .stage o' => (List.range (o' / 2048 - o / 2048 + 1)).all (fun i => owns (0x010000000000 + (o / 2048 + i) * 2048))
  | .trapeze q o, .trapeze q' o' =>
    q == q' && (match outWindow c q o with | some e => e.part == p && o' < e.offset * 65536 + 2 ^ e.sizeLog2 | none => false)
  | .hostWin o, .hostWin o' =>
    (match hostWindowAt c o with | some e => e.part == p && o' < e.offset * 65536 + 2 ^ e.sizeLog2 | none => false)
  | _, _ => false

/-- Is a range wholly in HBM or wholly in stage memory? -/
def inHbmOrStage (a n : Nat) : Bool :=
  match region a, region (a + n - 1) with
  | .hbm _, .hbm _ => true
  | .stage _, .stage _ => true
  | _, _ => false

end Sys2Proof.Machine
end

