-- ==== Sys2Proof/Machine/Epochs.lean ====
section
/-! DEFINITION. Machine/Epochs.lean: epochs (02 R57 to R65), the limits and usage of partitions and tenants (17 R459,
R462), and the share-status block (17 R476, R477). -/

namespace Sys2Proof.Machine

/-- Is an island quarantined? -/
def quarantined (s : State) (i : Nat) : Bool := (tgetD s.islands i {}).quarantined

/-- The tenant whose cap an object counts against (17 R462). -/
def chargeOf (fn tenant : Nat) : Nat := if fn == 0 then tenant else tenantOf fn

/-- The islands that have to adopt an epoch of a partition: its tumblers that run an invocation, and the shared
islands; an idle tumbler adopts at once and a quarantined island is left out (02 R59 to R61). -/
def adoptSet (s : State) (p : Nat) : List Nat :=
  ((tumblersOf s s.cfg p).filter (fun n => (tgetD s.acts.tumblers n {}).run.isSome && !quarantined s n))
    ++ (((List.range 20).map (· + 128)).filter (fun i => !quarantined s i))

/-- Commit one epoch of a partition with the configuration already staged in `c` (02 R59 step 2). -/
def commitPart (s : State) (old : Cfg) (p : Nat) : State :=
  s.onPart p (fun q => { epoch := modAdd 16 q.epoch 1, old := some (q.epoch, old), remaining := adoptSet s p })

/-- Stage and commit a change of one partition's configuration. -/
def commitEpoch (s : State) (p : Nat) (f : Cfg → Cfg) : State := (commitPart s s.cfg p).onCfg f

/-- Stage and commit a device-wide change under a new epoch of every partition (02 R62). -/
def commitAll (s : State) (f : Cfg → Cfg) : State :=
  ((List.range 16).foldl (fun x p => commitPart x s.cfg p) s).onCfg f

/-- Does a partition have two live epochs (02 R58)? -/
def twoEpochs (s : State) (p : Nat) : Bool := (s.part p).old.isSome

/-- Does a resize of a partition run (17 R468)? -/
def resizing (s : State) (p : Nat) : Bool :=
  match s.resize with | some r => r.moves.any (fun m => m.2.1 == p || m.2.2 == p) | none => false

/-- The epoch an island is in for a partition. -/
def epochAt (s : State) (p island : Nat) : Nat :=
  let q := s.part p
  match q.old with
  | some (e, _) => if q.remaining.contains island then e else q.epoch
  | none => q.epoch

/-- The configuration of a partition's epoch: the retiring one's, or the current one. -/
def cfgOf (s : State) (p epoch : Nat) : Cfg :=
  match (s.part p).old with
  | some (e, c) => if e == epoch then c else s.cfg
  | none => s.cfg

/-- The configuration an island applies to new work of a partition. -/
def cfgAt (s : State) (p island : Nat) : Cfg := cfgOf s p (epochAt s p island)

/-- The tags of a block's transaction for a partition and tenant, under its island's epoch. -/
def actor (s : State) (p t island : Nat) : Actor := { part := p, tenant := t, priv := false, cfg := cfgAt s p island }

/-- A transaction of a control core or of the Press (03 R91). -/
def privActor (s : State) (p : Nat) : Actor := { part := p, tenant := 0, priv := true, cfg := s.cfg }

/-! Limits and usage (17 R459 to R463). -/

/-- The figure of each resource code for one share unit; code 3 is one for two units. -/
def perUnit (code : Nat) : Nat :=
  listGet [8, 512, 1, 1, 64, 128, 128, 16, 256, 64, 64, 128, 32, 16, 64, 16, 16, 512, 4, 16, 4, 4, 4, 4, 1] code 0

/-- The units a partition may count on: those it owns and does not lose in a resize, and those it has gained once it has
adopted its grow epoch (17 R468). -/
def unitsFor (s : State) (p : Nat) : Nat :=
  match s.resize with
  | some r => (List.range 256).countP (fun j => unitOwner s s.cfg j == p
      && (!r.moves.any (fun m => m.1 == j) || (r.stage == .grow && (s.part p).remaining.isEmpty)))
  | none => unitsOf s s.cfg p

/-- A partition's limit on a resource code. -/
def limitOf (s : State) (p code : Nat) : Nat :=
  if code == 3 then (tumblersOf s s.cfg p).length else perUnit code * unitsFor s p

/-- How many objects of a table belong to a partition and, where a tenant is given, count against it. -/
def usedIn {α : Type} (t : Tbl α) (key : α → Nat × Nat) (p : Nat) (ten : Option Nat) : Nat :=
  tcount t (fun _ x => (key x).1 == p && (match ten with | some n => (key x).2 == n | none => true))

/-- The greatest of a list of counts. -/
def maxOf (l : List Nat) : Nat := l.foldl max 0

/-- A sum over a table's entries of a partition. -/
def sumIn {α : Type} (t : Tbl α) (f : Nat → α → Nat) : Nat := t.foldl (fun n e => n + f e.1 e.2) 0

/-- The connection's partition and charged tenant. -/
def connKey (s : State) (n : Nat) : Nat × Nat :=
  match tget s.cfg.gdp.conns n with | some c => (c.part, chargeOf c.fn c.tenant) | none => (16, 0)

/-- The tenant an NVMe/TCP connection counts against: the owner of its initiator controller, or none for a connection that a
listener accepted (17 R462). -/
def tcpCharge (s : State) (x : Tcp) : Nat :=
  match x.initiator with
  | some c =>
    match tget s.cfg.stor.initiators c with
    | some i => i.tenant
    | none => match (tgetD s.stor.inits c {}).own with | some i => i.tenant | none => 0
  | none => 0

/-- Use of a resource code by a partition, or by one tenant of it. Codes 18 and 24 report the highest use on one port or
instance (17 R476). -/
def usedOf (s : State) (p : Nat) (ten : Option Nat) (code : Nat) : Nat :=
  let c := s.cfg
  let isMine := fun (k : Nat × Nat) => k.1 == p && (match ten with | some n => k.2 == n | none => true)
  match code with
  | 0 => unitsOf s c p * 8
  | 1 => tcount s.mem.cells (fun _ u => u.part == p)
  | 2 => unitsOf s c p
  | 3 => (tumblersOf s c p).length
  | 4 => usedIn s.sess.sess (fun x => (x.part, x.charge)) p ten
  | 5 => usedIn s.cipher.slots (fun x => (x.part, x.charge)) p ten
  | 6 => sumIn s.cipher.pkts (fun _ x => if x.part == p && x.state != .intake then x.granules else 0)
  | 7 => usedIn c.gdp.conns (fun x => (x.part, chargeOf x.fn x.tenant)) p ten
  | 8 => sumIn s.gdp.conns (fun n x => if isMine (connKey s n) then x.ops.length else 0)
  | 9 => usedIn c.gdp.regions (fun x => (x.part, chargeOf x.fn x.tenant)) p ten
  | 10 => sumIn s.gdp.conns (fun n x => if isMine (connKey s n) then x.inService else 0)
  | 11 => sumIn s.gdp.conns (fun n x => if isMine (connKey s n) then (x.msgs.map (·.chunks.length)).sum else 0)
  | 12 => usedIn c.net.txqs (fun x => (x.part, chargeOf x.fn x.tenant)) p ten
  | 13 => usedIn c.net.rules (fun x => (x.part, chargeOf x.fn x.tenant)) p ten
  | 14 => usedIn c.net.meters (fun x => (x.part, chargeOf x.fn x.tenant)) p ten
  | 15 => usedIn c.sess.feeds (fun x => (x.part, chargeOf x.fn x.tenant)) p ten
  | 16 => usedIn c.sess.returns (fun x => (x.part, chargeOf x.fn x.tenant)) p ten
  | 17 => (tgetD s.acts.queues p []).length
  | 18 => maxOf ((List.range 4).map (fun q => tcount c.tp.outWin (fun k e =>
      k / 1024 == q && e.valid && isMine (e.part, chargeOf (tgetD c.tp.outBy k 0) e.tenant))))
  | 19 => tcount c.own.windows (fun k e => e.valid && isMine (e.part, chargeOf (tgetD c.own.windowBy k 0) e.tenant))
  | 20 => usedIn c.movers (fun x => (x.part, chargeOf x.fn x.tenant)) p ten
  | 21 => usedIn c.stor.queues (fun x => (x.part, chargeOf x.fn x.tenant)) p ten
  | 22 => usedIn c.stor.volumes (fun x => (x.part, chargeOf x.fn x.tenant)) p ten
  | 23 => tcount s.stor.tcps (fun _ x => isMine (x.part, tcpCharge s x))
  | 24 => maxOf ((List.range 2).map (fun i => tcount c.codec.streams (fun k x =>
      k / 256 == i && isMine (x.part, chargeOf x.fn x.tenant))))
  | _ => 0

/-- A tenant's cap on a resource code; none where there is no cap (17 R462). -/
def capOf (s : State) (p t code : Nat) : Option Nat :=
  match tget (s.fn (vfOf p t)).caps code with
  | some n => if n == 0xFFFFFFFF then none else some n
  | none => none

/-- May a tenant have a cap on the code? -/
def capCode (code : Nat) : Bool := [4, 5, 7, 8, 9, 12, 13, 14, 15, 16, 18, 19, 20, 21, 22, 23, 24].contains code

/-- The checks of an allocation of `n` more objects of a code: the partition's limit with the status its home chapter
names, then the creating tenant's cap (17 R462). -/
def roomChecks (s : State) (p charge code n : Nat) (st : Status) : List (Bool × Status) :=
  [(decide (limitOf s p code < usedOf s p none code + n), st),
   (charge != 0 && (match capOf s p charge code with
      | some cap => decide (cap < usedOf s p (some charge) code + n)
      | none => false), .tenantLimit)]

/-! The share-status block (17 R476, R477). -/

/-- The limits and usage of a tenant's share-status block: 25 records of 16 octets. -/
def shareUsage (s : State) (vf : Nat) : List Byte :=
  let p := partOf vf
  let t := tenantOf vf
  (List.range 25).flatMap (fun code =>
    le 4 (limitOf s p code) ++ le 4 (usedOf s p none code) ++ le 4 ((capOf s p t code).getD 0xFFFFFFFF)
      ++ le 4 (if capCode code then usedOf s p (some t) code else 0))

/-- The 1,024 octets of a tenant's share-status block, apart from SEQ. -/
def shareBlock (s : State) (vf : Nat) (attached : Bool) : List Byte :=
  let p := partOf vf
  let t := tenantOf vf
  let flags := b2n attached + 2 * b2n s.fixedMode + 4 * b2n (resizing s p) + 8 * b2n (s.fn vf).detaching
  let hdr := le 2 flags ++ le 2 (s.part p).epoch ++ le 2 (p + 16 * t) ++ le 2 (unitsOf s s.cfg p)
    ++ le 1 0 ++ le 1 (tumblersOf s s.cfg p).length ++ le 2 0 ++ le 8 s.clock.now ++ zeros 40
  hdr ++ fit 960 (shareUsage s vf)

/-- Update a tenant's block: SEQ odd, the fields, SEQ even (17 R477). A function that may issue no request writes
nothing; its next update rewrites the whole block. -/
def shareUpdate (s : State) (vf : Nat) (attached : Bool := true) : State :=
  if !(s.fn vf).attached then s
  else
    let f := s.fn vf
    let a := f.parleyAddr
    let s1 := hostPost s vf f.parleyPasid a (le 4 (modAdd 32 f.ssSeq 1))
    let s2 := hostPost s1 vf f.parleyPasid (a + 4) (shareBlock s vf attached)
    let s3 := hostPost s2 vf f.parleyPasid a (le 4 (modAdd 32 f.ssSeq 2))
    s3.onFn vf (fun f => { f with ssSeq := modAdd 32 f.ssSeq 2, ssUpdatedAt := s.clock.cadence, ssLast := shareUsage s vf })

/-- Update the blocks of every attached tenant of a partition. -/
def shareUpdateAll (s : State) (p : Nat) : State := (vfsOf s p).foldl (fun s vf => shareUpdate s vf) s

/-- Has a usage count of a tenant's block changed since it was written? -/
def shareStale (s : State) (vf : Nat) : Bool := (s.fn vf).attached && shareUsage s vf != (s.fn vf).ssLast

/-! Completions that wait for adoption (02 R59 step 4). -/

/-- Have all partitions of a deferred completion adopted? -/
def adopted (s : State) (ps : List Nat) : Bool := ps.all (fun p => (s.part p).remaining.isEmpty)

/-- A resize has changed a partition: its tenants' blocks are updated and SHARE_CHANGED follows (17 R477). -/
def shareResize (s : State) (p : Nat) : State :=
  raiseTenants (shareUpdateAll s p) p 0x0017 (le 2 (unitsOf s s.cfg p) ++ le 2 (s.part p).epoch)

/-- The partitions a resize affects (17 R465). -/
def resizeParts (r : Resize) : List Nat := (List.range 16).filter (fun p => r.moves.any (fun m => m.2.1 == p || m.2.2 == p))

/-- A resize ends, with the status its command completes with (17 R467, R469). -/
def resizeEnd (s : State) (r : Resize) (st : Status) (stage : Nat) : State :=
  let s := (resizeParts r).foldl shareResize { s with resize := none }
  finish s r.fn r.id st { all := true, stage := stage }

/-- A resize whose grow commits are adopted everywhere is complete. -/
def resizeDone (s : State) : State :=
  match s.resize with
  | some r => if r.stage == .grow && adopted s (resizeParts r) then resizeEnd s r r.status 0 else s
  | none => s

/-- Write the completions whose partitions have adopted. -/
def releaseDeferred (s : State) : State :=
  let s := resizeDone s
  let ready := s.deferred.filter (fun d => adopted s d.parts)
  let s := { s with deferred := s.deferred.filter (fun d => !adopted s d.parts) }
  ready.foldl (fun s d =>
    finish s d.fn d.id d.status
      { result := d.result, epoch := d.epochOf.map (fun p => (s.part p).epoch), all := d.epochOf.isNone }) s

end Sys2Proof.Machine
end

