-- ==== Sys2Proof/Machine/Booths.lean ====
section
/-! DEFINITION. Machine/Booths.lean: how a booth command is fetched, checked, applied and completed (18 R492 to R498,
19 R500 to R506). Every command of the booth reference is one call of `booth` (log entry 3, DESIGN CHOICE). -/

namespace Sys2Proof.Machine

/-- What a command changes: nothing of an epoch, one partition's epoch, or all sixteen (19 R501, column Ep); a resize
changes those of the partitions it affects (17 R465). -/
inductive EpKind where
  | none_
  | part
  | dev
  | resize
  deriving DecidableEq, Repr

/-- A command's row: group, code, whether only the manager may submit it, its epoch column, the feature it needs
(18 R487) and the interface minor it came with (19 R531). -/
structure CmdInfo where
  group : Nat
  code : Nat
  mgr : Bool := false
  ep : EpKind := .none_
  feature : Option Nat := none
  minor : Nat := 0
  deriving DecidableEq, Repr

/-- The commands of a group (19), with the columns By and Ep of their rows. SHAPER_SET is decided by its shaper: `shaperInfo`. -/
def commandsOf01 (code : Nat) : Option CmdInfo :=
  match code with
  | 0x01 => some { group := 0x01, code := 0x01 }
  | 0x02 => some { group := 0x01, code := 0x02 }
  | 0x03 => some { group := 0x01, code := 0x03 }
  | 0x04 => some { group := 0x01, code := 0x04 }
  | _ => none

/-- The commands of a group. -/
def commandsOf02 (code : Nat) : Option CmdInfo :=
  match code with
  | 0x01 => some { group := 0x02, code := 0x01, mgr := true, ep := .resize }
  | 0x02 => some { group := 0x02, code := 0x02 }
  | 0x03 => some { group := 0x02, code := 0x03, mgr := true, ep := .dev }
  | 0x04 => some { group := 0x02, code := 0x04, ep := .part }
  | 0x05 => some { group := 0x02, code := 0x05, ep := .part }
  | 0x06 => some { group := 0x02, code := 0x06, mgr := true }
  | 0x07 => some { group := 0x02, code := 0x07, mgr := true }
  | _ => none

/-- The commands of a group. -/
def commandsOf03 (code : Nat) : Option CmdInfo :=
  match code with
  | 0x01 => some { group := 0x03, code := 0x01, mgr := true }
  | 0x02 => some { group := 0x03, code := 0x02, mgr := true }
  | 0x03 => some { group := 0x03, code := 0x03, mgr := true }
  | 0x04 => some { group := 0x03, code := 0x04, mgr := true, ep := .part }
  | _ => none

/-- The commands of a group. -/
def commandsOf04 (code : Nat) : Option CmdInfo :=
  match code with
  | 0x01 => some { group := 0x04, code := 0x01 }
  | 0x02 => some { group := 0x04, code := 0x02, minor := 1 }
  | 0x03 => some { group := 0x04, code := 0x03 }
  | _ => none

/-- The commands of a group. -/
def commandsOf05 (code : Nat) : Option CmdInfo :=
  match code with
  | 0x01 => some { group := 0x05, code := 0x01, ep := .part }
  | 0x02 => some { group := 0x05, code := 0x02, ep := .part }
  | 0x03 => some { group := 0x05, code := 0x03, ep := .part }
  | 0x04 => some { group := 0x05, code := 0x04 }
  | 0x05 => some { group := 0x05, code := 0x05, ep := .part }
  | 0x06 => some { group := 0x05, code := 0x06, ep := .part }
  | 0x07 => some { group := 0x05, code := 0x07, ep := .part }
  | 0x08 => some { group := 0x05, code := 0x08, ep := .part }
  | 0x09 => some { group := 0x05, code := 0x09, ep := .part }
  | 0x0A => some { group := 0x05, code := 0x0A, ep := .part }
  | 0x0B => some { group := 0x05, code := 0x0B, ep := .part }
  | _ => none

/-- The commands of a group. -/
def commandsOf06 (code : Nat) : Option CmdInfo :=
  match code with
  | 0x01 => some { group := 0x06, code := 0x01 }
  | 0x02 => some { group := 0x06, code := 0x02 }
  | 0x03 => some { group := 0x06, code := 0x03 }
  | 0x04 => some { group := 0x06, code := 0x04, mgr := true }
  | _ => none

/-- The commands of a group. -/
def commandsOf07 (code : Nat) : Option CmdInfo :=
  match code with
  | 0x01 => some { group := 0x07, code := 0x01 }
  | 0x02 => some { group := 0x07, code := 0x02 }
  | 0x03 => some { group := 0x07, code := 0x03, ep := .part }
  | 0x04 => some { group := 0x07, code := 0x04, ep := .part }
  | 0x05 => some { group := 0x07, code := 0x05, ep := .part }
  | 0x06 => some { group := 0x07, code := 0x06, ep := .part }
  | 0x07 => some { group := 0x07, code := 0x07, ep := .part }
  | 0x08 => some { group := 0x07, code := 0x08 }
  | _ => none

/-- The commands of a group. -/
def commandsOf08 (code : Nat) : Option CmdInfo :=
  match code with
  | 0x01 => some { group := 0x08, code := 0x01, mgr := true, ep := .dev }
  | 0x02 => some { group := 0x08, code := 0x02, mgr := true, ep := .dev }
  | 0x03 => some { group := 0x08, code := 0x03, mgr := true, ep := .dev }
  | 0x04 => some { group := 0x08, code := 0x04, mgr := true, ep := .dev }
  | 0x05 => some { group := 0x08, code := 0x05, ep := .part }
  | 0x06 => some { group := 0x08, code := 0x06, ep := .part }
  | 0x07 => some { group := 0x08, code := 0x07, ep := .part }
  | 0x08 => some { group := 0x08, code := 0x08, ep := .part }
  | 0x09 => some { group := 0x08, code := 0x09, ep := .part }
  | 0x0A => some { group := 0x08, code := 0x0A, minor := 1 }
  | 0x0B => some { group := 0x08, code := 0x0B }
  | 0x0C => some { group := 0x08, code := 0x0C, ep := .part }
  | 0x0D => some { group := 0x08, code := 0x0D }
  | 0x0E => some { group := 0x08, code := 0x0E, mgr := true, ep := .dev }
  | 0x0F => some { group := 0x08, code := 0x0F, mgr := true, ep := .dev }
  | 0x10 => some { group := 0x08, code := 0x10 }
  | 0x11 => some { group := 0x08, code := 0x11 }
  | 0x12 => some { group := 0x08, code := 0x12, mgr := true }
  | 0x13 => some { group := 0x08, code := 0x13, mgr := true, ep := .part }
  | _ => none

/-- The commands of a group. -/
def commandsOf09 (code : Nat) : Option CmdInfo :=
  match code with
  | 0x01 => some { group := 0x09, code := 0x01, ep := .part }
  | 0x02 => some { group := 0x09, code := 0x02, ep := .part }
  | 0x03 => some { group := 0x09, code := 0x03, ep := .part }
  | 0x04 => some { group := 0x09, code := 0x04, ep := .part }
  | 0x05 => some { group := 0x09, code := 0x05 }
  | _ => none

/-- The commands of a group. -/
def commandsOf10 (code : Nat) : Option CmdInfo :=
  match code with
  | 0x01 => some { group := 0x0A, code := 0x01, ep := .part }
  | 0x02 => some { group := 0x0A, code := 0x02 }
  | 0x03 => some { group := 0x0A, code := 0x03, ep := .part }
  | 0x04 => some { group := 0x0A, code := 0x04 }
  | _ => none

/-- The commands of a group. -/
def commandsOf11 (code : Nat) : Option CmdInfo :=
  match code with
  | 0x01 => some { group := 0x0B, code := 0x01, mgr := true, ep := .dev, feature := some 3 }
  | 0x02 => some { group := 0x0B, code := 0x02, ep := .part, feature := some 3 }
  | 0x03 => some { group := 0x0B, code := 0x03, ep := .part, feature := some 3 }
  | 0x04 => some { group := 0x0B, code := 0x04, feature := some 3 }
  | 0x05 => some { group := 0x0B, code := 0x05, ep := .part, feature := some 3 }
  | 0x06 => some { group := 0x0B, code := 0x06, feature := some 3 }
  | 0x07 => some { group := 0x0B, code := 0x07, feature := some 3 }
  | _ => none

/-- The commands of a group. -/
def commandsOf12 (code : Nat) : Option CmdInfo :=
  match code with
  | 0x01 => some { group := 0x0C, code := 0x01, mgr := true, ep := .dev }
  | 0x02 => some { group := 0x0C, code := 0x02, mgr := true }
  | 0x03 => some { group := 0x0C, code := 0x03, mgr := true, ep := .part }
  | 0x04 => some { group := 0x0C, code := 0x04, mgr := true, ep := .part }
  | 0x05 => some { group := 0x0C, code := 0x05, ep := .part }
  | 0x06 => some { group := 0x0C, code := 0x06 }
  | 0x07 => some { group := 0x0C, code := 0x07, ep := .part }
  | 0x08 => some { group := 0x0C, code := 0x08, mgr := true, ep := .part, feature := some 1 }
  | 0x09 => some { group := 0x0C, code := 0x09, mgr := true, ep := .part, feature := some 1 }
  | 0x0A => some { group := 0x0C, code := 0x0A, mgr := true, ep := .part, feature := some 2 }
  | 0x0B => some { group := 0x0C, code := 0x0B, mgr := true, ep := .part, feature := some 2 }
  | 0x0C => some { group := 0x0C, code := 0x0C, mgr := true }
  | 0x0D => some { group := 0x0C, code := 0x0D }
  | _ => none

/-- The commands of a group. -/
def commandsOf13 (code : Nat) : Option CmdInfo :=
  match code with
  | 0x01 => some { group := 0x0D, code := 0x01, mgr := true }
  | 0x02 => some { group := 0x0D, code := 0x02, mgr := true }
  | 0x03 => some { group := 0x0D, code := 0x03, ep := .part }
  | 0x04 => some { group := 0x0D, code := 0x04, mgr := true, ep := .part }
  | 0x05 => some { group := 0x0D, code := 0x05, mgr := true }
  | 0x06 => some { group := 0x0D, code := 0x06, mgr := true }
  | 0x07 => some { group := 0x0D, code := 0x07, mgr := true }
  | 0x08 => some { group := 0x0D, code := 0x08, mgr := true }
  | _ => none

/-- The commands of a group. -/
def commandsOf14 (code : Nat) : Option CmdInfo :=
  match code with
  | 0x01 => some { group := 0x0E, code := 0x01, mgr := true, feature := some 0 }
  | 0x02 => some { group := 0x0E, code := 0x02, mgr := true, feature := some 0 }
  | 0x03 => some { group := 0x0E, code := 0x03, mgr := true, feature := some 0 }
  | 0x04 => some { group := 0x0E, code := 0x04, mgr := true, feature := some 0 }
  | 0x05 => some { group := 0x0E, code := 0x05, mgr := true, feature := some 0 }
  | _ => none

/-- The commands of a group. -/
def commandsOf15 (code : Nat) : Option CmdInfo :=
  match code with
  | 0x01 => some { group := 0x0F, code := 0x01 }
  | 0x02 => some { group := 0x0F, code := 0x02, mgr := true }
  | 0x03 => some { group := 0x0F, code := 0x03, mgr := true }
  | 0x04 => some { group := 0x0F, code := 0x04, mgr := true }
  | 0x05 => some { group := 0x0F, code := 0x05, mgr := true }
  | 0x06 => some { group := 0x0F, code := 0x06, mgr := true }
  | 0x07 => some { group := 0x0F, code := 0x07, mgr := true }
  | 0x08 => some { group := 0x0F, code := 0x08, mgr := true }
  | _ => none

/-- The row of a group and code; none where no command has them (18 R478). -/
def commandInfo (group code : Nat) : Option CmdInfo :=
  match group with
  | 0x01 => commandsOf01 code
  | 0x02 => commandsOf02 code
  | 0x03 => commandsOf03 code
  | 0x04 => commandsOf04 code
  | 0x05 => commandsOf05 code
  | 0x06 => commandsOf06 code
  | 0x07 => commandsOf07 code
  | 0x08 => commandsOf08 code
  | 0x09 => commandsOf09 code
  | 0x0A => commandsOf10 code
  | 0x0B => commandsOf11 code
  | 0x0C => commandsOf12 code
  | 0x0D => commandsOf13 code
  | 0x0E => commandsOf14 code
  | 0x0F => commandsOf15 code
  | _ => none

/-- The row of a command that exists. -/
def info (group code : Nat) : CmdInfo := (commandInfo group code).getD { group := group, code := code }

/-- What applying a command came to. -/
inductive Applied where
  /-- it completes now -/
  | done (s : State) (st : Status) (r : List Byte)
  /-- it has committed an epoch of a partition and completes when every island has adopted it -/
  | epoch (s : State) (p : Nat) (r : List Byte)
  /-- it has committed a device-wide change -/
  | device (s : State)
  /-- it stays outstanding -/
  | long (s : State)

/-- The partition a command acts for (18 R489). -/
def hp (h : Hdr) : Nat := if h.fn == 0 then h.part else partOf h.fn

/-- The tenant whose cap a creation counts against. -/
def hcharge (h : Hdr) : Nat := chargeOf h.fn h.tenant

/-- Is the identifier free on the booth (02 R47)? -/
def idFree (b : Booth) (id : Nat) : Bool := !(b.outst.any (fun c => c.id == id)) && !b.done.contains id

/-- The checks at fetch, in order (18 R493). -/
def fetchChecks (s : State) (i : CmdInfo) (h : Hdr) : List (Bool × Status) :=
  let f := s.fn h.fn
  let b := f.booth
  [(!idFree b h.id, .idInUse),
   (b.minor < i.minor || (match i.feature with | some n => !bit b.featEn n | none => false), .unsupported),
   (!h.rsvZero, .badRequest),
   (if h.fn == 0 then (i.ep == .dev || i.ep == .resize) && (h.part != 0 || h.tenant != 0)
    else i.mgr || h.part != 0 || (h.tenant != 0 && h.tenant != tenantOf h.fn), .notPermitted),
   (h.fn != 0 && (!f.attached || f.detaching) && i.group != 1, .notAttached),
   ((tgetD s.comps (componentOf i.group) {}).state == .stopped, .fwUnavailable)]

/-- Does the booth fetch at all, and is there a completion entry to promise (04 R100, 18 R481, R485)? -/
def mayFetch (s : State) (fn : Nat) : Bool :=
  let b := (s.fn fn).booth
  ingress s && b.ready && !b.stopping && issuable s fn && (tgetD s.comps 1 {}).state == .running
    && decide (modSub 32 b.cmpProd b.cmpCons + b.outst.length < 2 ^ b.cmpLog2)

/-- The command as booth service holds it. -/
def heldCmd (i : CmdInfo) (h : Hdr) (st : CmdState) (arg : Nat) : OutCmd :=
  { id := h.id, group := i.group, code := i.code, part := h.part, tenant := h.tenant, fence := h.fence,
    signal := h.signal, context := h.context, state := st, cancellers := [], arg := arg }

/-- Complete a command that failed at fetch: a record, and the identifier held by it. -/
def failFetch (s : State) (i : CmdInfo) (h : Hdr) (st : Status) : State :=
  let rcd := recordOf s (s.fn h.fn).booth (heldCmd i h .waiting 0) st { component := some 1 }
  let s := s.onBooth h.fn (fun b => { b with done := b.done ++ [if st == .idInUse then 65536 else h.id] })
  writeRecord s h.fn rcd h.signal

/-- Must a command wait in booth service: its FENCE, its component's restart, or an earlier one that waits for the same
component (18 R479, R494)? -/
def mustWait (s : State) (i : CmdInfo) (h : Hdr) : Bool :=
  let l := (s.fn h.fn).booth.outst
  (h.fence && !l.isEmpty) || (tgetD s.comps (componentOf i.group) {}).state == .restarting
    || l.any (fun k => k.state == .waiting && componentOf k.group == componentOf i.group)

/-- Is it a handed command's turn: have the earlier ones of its booth for its component been applied (18 R494)? -/
def inTurn (b : Booth) (c : OutCmd) : Bool :=
  c.state == .handed
    && (b.outst.takeWhile (fun k => k.id != c.id)).all (fun k => componentOf k.group != componentOf c.group || k.state == .applied)

/-- Fetch one entry: its checks, and its place among the outstanding commands (18 R492 to R495). -/
def fetchOne (s : State) (i : CmdInfo) (h : Hdr) (arg : Nat := 0) : State :=
  let s := s.onBooth h.fn (fun b => { b with subCons := modAdd 32 b.subCons 1 })
  match firstBad (fetchChecks s i h) with
  | some st => failFetch s i h st
  | none =>
    let st := if mustWait s i h then CmdState.waiting else .handed
    s.onBooth h.fn (fun b => { b with outst := b.outst ++ [heldCmd i h st arg] })

/-- Mark a fetched command. -/
def markCmd (s : State) (fn id : Nat) (st : CmdState) : State :=
  s.onBooth fn (fun b => { b with outst := b.outst.map (fun c => if c.id == id then { c with state := st } else c) })

/-- Does the command's commit have to be refused (02 R58, R62, 17 R468)? -/
def busyEpoch (s : State) (i : CmdInfo) (h : Hdr) : Bool :=
  match i.ep with
  | .none_ => false
  | .part => twoEpochs s (hp h) || resizing s (hp h)
  | .dev => (List.range 16).any (fun p => twoEpochs s p || resizing s p)
  | .resize => false

/-- The partitions whose epochs a command reports. -/
def epochParts (i : CmdInfo) (h : Hdr) : List Nat := if i.ep == .dev then List.range 16 else [(hp h)]

/-- Apply a command that its component has: the reserved PARAMS octets, the checks of its home chapter in order, the
epoch check, then its effect (18 R493, R494, 19 R504). -/
def applyCmd (i : CmdInfo) (h : Hdr) (checks : State → List (Bool × Status)) (eff : State → Applied) (s : State) : State :=
  let bad := firstBad ((!h.paramsClean, .badRequest) :: checks s ++ [(busyEpoch s i h, .busyEpoch)])
  match bad with
  | some st => finish s h.fn h.id st
  | none =>
    match eff (markCmd s h.fn h.id .applied) with
    | .done s st r => finish s h.fn h.id st { result := r }
    | .epoch s p r =>
      releaseDeferred { s with deferred := s.deferred ++
        [{ fn := h.fn, id := h.id, parts := [p], status := .ok, result := r, epochOf := some p }] }
    | .device s =>
      releaseDeferred { s with deferred := s.deferred ++
        [{ fn := h.fn, id := h.id, parts := List.range 16, status := .ok, result := [], epochOf := none }] }
    | .long s => s

/-- A booth command as a whole (log entry 3, DESIGN CHOICE): one already handed to its component is applied; one that booth service
still holds, or that is applied already, is left as it is; one that has not been fetched goes the whole way, when its
booth fetches and nothing stands before it in the ring. -/
def booth (i : CmdInfo) (h : Hdr) (checks : State → List (Bool × Status)) (eff : State → Applied) (s : State) : State :=
  let same := fun (c : OutCmd) => c.group == i.group && c.code == i.code
  let b := (s.fn h.fn).booth
  match outCmd s h.fn h.id with
  | some c =>
    if same c then (if inTurn b c then applyCmd i h checks eff s else s)
    else if mayFetch s h.fn && b.subProd == b.subCons && b.reading == 0 then
      fetchOne (s.onBooth h.fn (fun b => { b with subProd := modAdd 32 b.subProd 1 })) i h
    else s
  | none =>
    if mayFetch s h.fn && b.subProd == b.subCons && b.reading == 0 then
      let s := fetchOne (s.onBooth h.fn (fun b => { b with subProd := modAdd 32 b.subProd 1 })) i h
      match outCmd s h.fn h.id with
      | some c => if same c && inTurn (s.fn h.fn).booth c then applyCmd i h checks eff s else s
      | none => s
    else s

/-- A booth command as an outcome. -/
def boothStep (i : CmdInfo) (h : Hdr) (checks : State → List (Bool × Status)) (eff : State → Applied) (s : State) :
    Host.Outcome State Fault Refusal := .next (booth i h checks eff s)

/-- Does an object with an owner not belong to the command's partition, or not show itself to its tenant (19 R502)? -/
def notMine (h : Hdr) (part tenant : Nat) : Bool :=
  part != (hp h) || (h.fn != 0 && tenant != 0 && tenant != tenantOf h.fn)

/-- Write an output block (19 R503). -/
def writeOut (h : Hdr) (blk : OutBlk) (d : List Byte) (s : State) : Applied :=
  if blk.len < d.length then .done s .bufferSmall (le 4 d.length)
  else
    let b := (s.fn h.fn).booth
    .done (hostPost s h.fn (if b.pasidEn then some b.pasid else none) blk.addr d) .ok (le 4 d.length)

/-- The block of a stats command (19 R505): its header, the counters, the sticky maxima. -/
def statsBlock (s : State) (object : Nat) (counters maxima : List Nat) : List Byte :=
  le 8 s.clock.now ++ le 4 counters.length ++ le 4 object ++ counters.flatMap (le 8) ++ maxima.flatMap (le 8)

/-- The first `n` counters of a table. -/
def counters (t : Tbl Nat) (n : Nat) : List Nat := (List.range n).map (fun i => tgetD t i 0)

/-! Doorbells (16 R435). -/

/-- How many ring doorbells a function has. -/
def doorbellsOf (fn : Nat) : Nat := if fn == 0 then 896 + 15 * 1024 else 896

/-- Assign the lowest free doorbells of a function to targets, in order; none where there are not enough. -/
def assignDoorbells (s : State) (fn : Nat) : List DbTarget → Option (List Nat × State)
  | [] => some ([], s)
  | t :: ts =>
    match tfreeIn (s.fn fn).doorbells 0 (doorbellsOf fn) with
    | none => none
    | some n =>
      match assignDoorbells (s.onFn fn (fun f => { f with doorbells := tset f.doorbells n { target := t } })) fn ts with
      | none => none
      | some (ns, s) => some (n :: ns, s)

/-- Has a function at least `n` free doorbells? -/
def doorbellsFree (s : State) (fn n : Nat) : Bool := (s.fn fn).doorbells.length + n ≤ doorbellsOf fn

/-- Assign doorbells that are known to be free. -/
def giveDoorbells (s : State) (fn : Nat) (ts : List DbTarget) : List Nat × State :=
  (assignDoorbells s fn ts).getD ([], s)

/-- Take away the doorbells of a target. -/
def dropDoorbells (s : State) (fn : Nat) (p : DbTarget → Bool) : State :=
  s.onFn fn (fun f => { f with doorbells := tfilter f.doorbells (fun _ d => !p d.target) })

/-- Is a number the all-ones value of a 16-bit field, which asks the device to choose (19 R502)? -/
def choose16 (n : Nat) : Bool := n == 0xFFFF

/-- The number a creation gets: the one it names, or the lowest free one of the partition's range or of the pool. -/
def pickNumber {α : Type} (t : Tbl α) (fixed : Bool) (p perPart pool n : Nat) : Option Nat :=
  if choose16 n then (if fixed then tfreeIn t (p * perPart) ((p + 1) * perPart) else tfreeIn t 0 pool)
  else some n

/-- Is a range of ring memory aligned for its records? Every ring base is a multiple of its record size (log entry 9, DEDUCED). -/
def baseOk (a size : Nat) : Bool := a % size == 0

end Sys2Proof.Machine
end

