-- ==== Sys2Proof/Machine/Tx.lean ====
section
/-! DEFINITION. Machine/Tx.lean: what every sender of frames shares (05): logical ports, buckets and meters, transmit
queues with their completions, and what a link loss does to queued frames. Also how the device reads a host ring that
a producer doorbell has published (16 R437, R443). -/

namespace Sys2Proof.Machine

/-! Logical ports (05 R118, R141). -/

/-- Lanes of a logical port in a port mode. -/
def modeLanes (mode : Nat) : Nat := listGet [8, 4, 2, 1] mode 1
/-- The logical ports of a port mode, as offsets in their port. -/
def modeOffsets (mode : Nat) : List Nat := (List.range 8).filter (fun i => i % modeLanes mode == 0)
/-- Lanes of a logical port. -/
def lanesOf (c : Cfg) (n : Nat) : Nat := modeLanes (tgetD c.net.portMode (n / 8) 0)
/-- Does a logical port exist in its port's mode? -/
def lportExists (c : Cfg) (n : Nat) : Bool := n < 32 && n % lanesOf c n == 0
/-- Rate of a logical port in Gb/s. -/
def lportRate (c : Cfg) (n : Nat) : Nat := 200 * lanesOf c n
/-- Gate time of a frame of `l` octets on a port of rate `r` Gb/s, in ns (05 R141). -/
def gateTime (l r : Nat) : Nat := ceilDiv (ceilDiv ((l + 20) * 8 * 544) (514 * r)) 8 * 8
/-- A logical port's configuration. -/
def lportCfg (c : Cfg) (n : Nat) : LPortCfg := tgetD c.net.lports n {}
/-- A logical port as it stands. -/
def lportOf (s : State) (n : Nat) : LPort := tgetD s.net.lports n {}
/-- Add to a DROP counter of a logical port. -/
def dropCount (s : State) (n k : Nat) : State := s.onLPort n (fun p => { p with drops := bump p.drops k })

/-! Buckets and meters (05 R128 to R131, R144). -/

/-- The most a bucket holds. -/
def bucketFull (size : Nat) : Int := (size * 8000 : Nat)

/-- Apply a bucket's pending parameters when its island adopts them. -/
def bucketAdopt (b : Bucket) : Bucket :=
  match b.adopt with
  | none => b
  | some (c, m) =>
    if m == 2 then { b with adopt := none, next := some c }
    else { cur := c, tokens := if m == 0 then bucketFull c.size else 0, adopt := none, next := none }

/-- One refill tick of a shaper. -/
def bucketTick (b : Bucket) : Bucket :=
  let c := b.next.getD b.cur
  { b with cur := c, next := none, tokens := min (b.tokens + (c.rate : Int)) (bucketFull c.size) }

/-- May a bucket pass a frame (05 R144)? -/
def bucketOpen (b : Bucket) : Bool := b.cur.rate == 0xFFFFFFFF || (b.cur.rate != 0 && decide (0 ≤ b.tokens))

/-- Charge a frame of `l` octets. -/
def bucketCharge (b : Bucket) (l : Nat) : Bucket :=
  if b.cur.rate == 0xFFFFFFFF then b else { b with tokens := b.tokens - ((l + 20) * 8000 : Nat) }

/-- Apply a meter's pending parameters when its island adopts them; with NEXT_REFILL the rates and sizes wait. -/
def meterAdopt (m : Meter) : Meter :=
  match m.adopt with
  | none => m
  | some (c, k) =>
    if k == 2 then
      { m with adopt := none, next := some c, cur := { c with cir := m.cur.cir, pir := m.cur.pir, cbs := m.cur.cbs, ebs := m.cur.ebs } }
    else
      let f := fun (size : Nat) => if k == 0 then bucketFull size else (0 : Int)
      { cur := c, c := f c.cbs, e := f c.ebs, p := f c.ebs, adopt := none, next := none }

/-- One refill tick of a meter: C first, and E from C's overflow; P at its own rate. -/
def meterTick (m : Meter) : Meter :=
  let g := m.next.getD m.cur
  let full := bucketFull g.cbs
  let c := m.c + (g.cir : Int)
  let beyond := if full < c then c - full else 0
  { m with
    cur := g
    next := none
    c := min c full
    e := if g.algorithm == 1 then min (m.e + beyond) (bucketFull g.ebs) else m.e
    p := if g.algorithm == 2 then min (m.p + (g.pir : Int)) (bucketFull g.ebs) else m.p }

/-- The colour of a frame of `l` octets and the meter after it: 0 green, 1 yellow, 2 red (05 R129, R130). -/
def meterColour (m : Meter) (l : Nat) (yellow : Bool) : Nat × Meter :=
  let b : Int := (l * 8000 : Nat)
  let pre := yellow && m.cur.colourAware
  match m.cur.algorithm with
  | 0 => if !pre && b ≤ m.c then (0, { m with c := m.c - b }) else (2, m)
  | 1 =>
    if !pre && b ≤ m.c then (0, { m with c := m.c - b })
    else if b ≤ m.e then (1, { m with e := m.e - b })
    else (2, m)
  | _ =>
    if m.p < b then (2, m)
    else if pre || m.c < b then (1, { m with p := m.p - b })
    else (0, { m with p := m.p - b, c := m.c - b })

/-- What a meter does with a frame: its colour, its action (0 PASS, 1 REMARK, 2 DROP), and the state. -/
def meterFrame (s : State) (meter l : Nat) (yellow : Bool) : Nat × Nat × Option MeterCfg × State :=
  match tget s.net.meters meter with
  | none => (3, 0, none, s)
  | some m =>
    let r := meterColour m l yellow
    let act := match r.1 with | 0 => m.cur.actGreen | 1 => m.cur.actYellow | _ => m.cur.actRed
    (r.1, act, some m.cur, s.onNet (fun n => { n with meters := tset n.meters meter r.2 }))

/-- One's-complement sum of octets taken as 16-bit words. -/
def sum16 : List Byte → Nat
  | a :: b :: r => (a.toNat * 256 + b.toNat) + sum16 r
  | [a] => a.toNat * 256
  | [] => 0

/-- Fold a sum into 16 bits. -/
def fold16 (n : Nat) : Nat :=
  let a := n % 65536 + n / 65536
  let b := a % 65536 + a / 65536
  b % 65536 + b / 65536

/-- The Internet checksum of octets. -/
def inetSum (bs : List Byte) : Nat := 65535 - fold16 (sum16 bs)

/-- Replace octets of a string. -/
def patch (bs : List Byte) (at_ : Nat) (d : List Byte) : List Byte := bs.take at_ ++ d ++ bs.drop (at_ + d.length)

/-- A 16-bit network-order field of a frame. -/
def w16 (d : List Byte) (i : Nat) : Nat := ofBe ((d.drop i).take 2)
/-- One octet of a frame. -/
def o8 (d : List Byte) (i : Nat) : Nat := (listGet d i 0).toNat

/-- Is a frame tagged? -/
def tagged (d : List Byte) : Bool := w16 d 12 == 0x8100
/-- The tag of a frame; 0 where it has none. -/
def tciOf (d : List Byte) : Nat := if tagged d then w16 d 14 else 0
/-- Where the network header starts. -/
def l3At (d : List Byte) : Nat := if tagged d then 18 else 14
/-- The EtherType after the tag. -/
def etherOf (d : List Byte) : Nat := w16 d (l3At d - 2)

/-- Set DEI and the DSCP of a frame (05 R130); an IPv4 header's checksum follows. -/
def remark (d : List Byte) (dscp : Nat) : List Byte :=
  let d := if tagged d then patch d 14 (be 2 (w16 d 14 - (w16 d 14 / 4096 % 2) * 4096 + 4096)) else d
  let k := l3At d
  if etherOf d == 0x0800 then
    let ihl := o8 d k % 16 * 4
    let h := patch (patch ((d.drop k).take ihl) 1 [byteOf (dscp * 4 + o8 d (k + 1) % 4)]) 10 [0, 0]
    patch d k (patch h 10 (be 2 (inetSum h)))
  else if etherOf d == 0x86DD then
    patch d k (be 2 (w16 d k - (w16 d k / 64 % 64) * 64 + dscp * 64))
  else d

/-! Reading a host ring (16 R437, R443). -/

/-- The ring a read belongs to, whatever its count. -/
def ringOf : ReadFor → ReadFor
  | .txDesc q _ => .txDesc q 0
  | .rxBuffers r _ => .rxBuffers r 0
  | .moverDesc q _ => .moverDesc q 0
  | .codecDesc k _ => .codecDesc k 0
  | .storDesc q _ => .storDesc q 0
  | .gdpOps c _ => .gdpOps c 0
  | .gdpRecvs c _ => .gdpRecvs c 0
  | u => u

/-- Read the next published entries of a host ring, up to the ring's end and at most 64 at once; a ring has one read
outstanding at a time, so its entries come in order (log entry 12, DESIGN CHOICE). -/
def ringFetch (s : State) (fn : Nat) (pasid : Option Nat) (base size log2 prod cons : Nat) (use : ReadFor) : State :=
  let n := 2 ^ log2
  let k := min (min (modSub 32 prod cons) (n - cons % n)) 64
  if k == 0 || (s.host.reads ++ s.host.heldReads).any (fun r => ringOf r.use == ringOf use) then s
  else hostRead s fn pasid (base + size * (cons % n)) (size * k) use

/-! Transmit queues (05 R135, R136). -/

/-- An object's configuration: the current one, or the one under which it is still in use (02 R58). -/
def live {α : Type} (s : State) (f : Cfg → Tbl α) (n : Nat) : Option α :=
  match tget (f s.cfg) n with
  | some x => some x
  | none => s.parts.findSome? (fun e => match e.2.old with | some (_, c) => tget (f c) n | none => none)

/-- The configuration a transmit queue's port applies. -/
def txqCfg (s : State) (q : Nat) : Option TxqCfg := tget s.cfg.net.txqs q

/-- Octets queued. -/
def txDepth (q : Txq) : Nat := (q.frames.map (fun f => f.data.length + 4)).sum

/-- The TX_CANCELs that wait for a descriptor complete after its completion (19 R519). -/
def txCancelEnd (s : State) (q count : Nat) (sent : Bool) : State :=
  let mine := fun (e : Nat × Nat × Nat × Nat) => e.2.2.1 == q && e.2.2.2 == count
  let ws := s.net.cancels.filter mine
  let s := s.onNet (fun n => { n with cancels := n.cancels.filter (fun e => !mine e) })
  ws.foldl (fun s e => finish s e.1 e.2.1 .ok { result := [byteOf (b2n (!sent))] }) s

/-- Write a transmit completion of a queue in host memory; the completions of other queues are counted only. -/
def txComplete (s : State) (q : Nat) (use : TxUse) (sent : Bool) (reason time : Nat) : State :=
  let s := s.onTxq q (fun x => if sent then { x with sent := modAdd 64 x.sent 1 } else { x with flushed := bump x.flushed reason })
  match use, txqCfg s q, tget s.net.txqs q with
  | .ring count tag tsReq, some c, some x =>
    if c.internal then s
    else
      let n := 2 ^ c.log2
      let rcd := le 4 (1 - x.compProd / n % 2) ++ [byteOf (if sent then 0 else 1), byteOf reason] ++ le 2 tag
        ++ le 8 (if sent && tsReq then time else 0)
      let s := hostPost s c.fn none (c.base + 16 * n + 16 * (x.compProd % n)) rcd
      txCancelEnd (msixRaise (s.onTxq q (fun x => { x with compProd := modAdd 32 x.compProd 1 })) c.fn c.vector) q count sent
  | _, _, _ => s

/-- A GDP DATA packet is declared lost: it leaves outstanding, its path is benched, and it waits to be sent again
(12 R341, R347, R350). -/
def gdpMarkLost (s : State) (conn psn : Nat) : State :=
  s.onConn conn (fun g =>
    match g.sent.find? (fun x => x.psn == psn && !x.lost) with
    | none => g
    | some x => { g with
        sent := g.sent.map (fun y => if y.psn == psn then { y with lost := true } else y)
        outstanding := g.outstanding - max 64 x.payload.length
        benches := tset g.benches x.path (s.clock.now, s.clock.now + 2 * g.srtt.getD 0) })

/-- A frame of a transmit queue is flushed: its completion, or for a GDP packet its loss. -/
def txFlushOne (s : State) (q : Nat) (f : TxFrame) (reason : Nat) : State :=
  let s := txComplete s q f.use false reason 0
  match f.use with
  | .gdp conn psn => gdpMarkLost s conn psn
  | _ => s

/-- A queue's limit of frames; 0 in its configuration stands for no limit. -/
def txFull (s : State) (q : Nat) : Bool :=
  match txqCfg s q, tget s.net.txqs q with
  | some c, some x => c.frameLimit != 0 && c.frameLimit ≤ x.frames.length
  | _, _ => false

/-- Put a frame into a transmit queue: its meter, a link that is down, and its place (05 R130, R135, R146, R148). -/
def txEnqueue (s : State) (q : Nat) (use : TxUse) (d : List Byte) : State :=
  match txqCfg s q with
  | none => txFlushOne s q { use := use, data := d, enqueued := s.clock.now } 1
  | some c =>
    let f : TxFrame := { use := use, data := d, enqueued := s.clock.now }
    let m := meterFrame s c.meter (d.length + 4) (tagged d && bit (tciOf d) 12)
    let s := m.2.2.2
    if m.2.1 == 2 then txFlushOne (dropCount s c.lport 7) q f 4
    else
      let f := if m.2.1 == 1 then (match m.2.2.1 with | some g => { f with data := remark d g.dscp } | none => f) else f
      if quarantined s (130 + c.lport / 8) then txFlushOne s q f 6
      else if !(lportOf s c.lport).up then txFlushOne s q f 2
      else s.onTxq q (fun x =>
        let x := { x with frames := x.frames ++ [f] }
        { x with hwDepth := max x.hwDepth (txDepth x) })

/-- Is a transmit frame within what a logical port may send: 60 to the maximum frame size less 4 (05 R136)? -/
def txLenOk (c : Cfg) (lport len : Nat) : Bool := 60 ≤ len && len + 4 ≤ (lportCfg c lport).maxFrame

/-- Insert a tag after the addresses of a frame. -/
def insertTag (d : List Byte) (tci : Nat) : List Byte := d.take 12 ++ be 2 0x8100 ++ be 2 tci ++ d.drop 12

/-- Move the descriptors of a queue whose buffers have been read into the queue, in ring order. -/
def txDrain (s : State) (q : Nat) : Nat → State
  | 0 => s
  | n + 1 =>
    match tget s.net.txqs q with
    | none => s
    | some x =>
      match x.waits with
      | [] => s
      | w :: ws =>
        match w.ready with
        | none => s
        | some r =>
          if txFull s q then s
          else
          let s := s.onTxq q (fun x => { x with waits := ws })
          let use := TxUse.ring w.count w.tag w.tsReq
          let s := match r with
            | .inl d => txEnqueue s q use (match w.vlan with | some t => insertTag d t | none => d)
            | .inr reason => txFlushOne s q { use := use, data := [], enqueued := s.clock.now } reason
          txDrain s q n

/-- Read the next descriptors of a transmit ring. -/
def txFetch (s : State) (q : Nat) : State :=
  match txqCfg s q, tget s.net.txqs q with
  | some c, some x => ringFetch s c.fn none c.base 16 c.log2 x.descProd x.descCons (.txDesc q x.descCons)
  | _, _ => s

/-- One transmit descriptor as it has been read (05 R136): its checks, and the read of its buffer. -/
def txTake (s : State) (q : Nat) (d : List Byte) : State :=
  match txqCfg s q, tget s.net.txqs q with
  | some c, some x =>
    let flags := ofLe (d.take 2)
    let tag := ofLe ((d.drop 2).take 2)
    let tci := ofLe ((d.drop 4).take 2)
    let len := ofLe ((d.drop 6).take 2)
    let addr := ofLe ((d.drop 8).take 8)
    let cancelled := s.net.cancels.any (fun e => e.2.2.1 == q && e.2.2.2 == x.descCons)
    let ok := txLenOk s.cfg c.lport len && !cancelled
    let w : TxWait := { count := x.descCons, tag := tag, tsReq := bit flags 1, vlan := if bit flags 0 then some tci else none,
                        len := len, ready := if ok then none else some (.inr (if cancelled then 1 else 5)) }
    let s := s.onTxq q (fun x => { x with descCons := modAdd 32 x.descCons 1, waits := x.waits ++ [w] })
    if ok then hostRead s c.fn none addr len (.txBuf q w.count) else s
  | _, _ => s

/-- The entries of a ring read, each of `n` octets. -/
def chunksOf (n : Nat) : Nat → List Byte → List (List Byte)
  | 0, _ => []
  | k + 1, d => if d.length < n || n == 0 then [] else d.take n :: chunksOf n k (d.drop n)

/-- A read of transmit descriptors has been answered. -/
def txDescs (s : State) (q : Nat) (d : List Byte) : State :=
  let s := (chunksOf 16 64 d).foldl (fun s e => txTake s q e) s
  txFetch (txDrain s q 64) q

/-- A read of a transmit buffer has been answered, or has failed with HOST_ABORT. -/
def txBuffer (s : State) (q count : Nat) (d : Option (List Byte)) : State :=
  let r : Sum (List Byte) Nat := match d with | some x => .inl x | none => .inr 7
  let s := s.onTxq q (fun x => { x with waits := x.waits.map (fun w => if w.count == count && w.ready.isNone then { w with ready := some r } else w) })
  txDrain s q 8192

/-- Flush every frame of a queue. -/
def txFlushAll (s : State) (q reason : Nat) : State × Nat :=
  match tget s.net.txqs q with
  | none => (s, 0)
  | some x => (x.frames.foldl (fun s f => txFlushOne s q f reason) (s.onTxq q (fun x => { x with frames := [] })), x.frames.length)

/-- Flush the descriptors of a queue that have been read and not queued. -/
def txFlushWaits (s : State) (q reason : Nat) : State × Nat :=
  match tget s.net.txqs q with
  | none => (s, 0)
  | some x =>
    (x.waits.foldl (fun s w => txFlushOne s q { use := .ring w.count w.tag w.tsReq, data := [], enqueued := 0 } reason)
      (s.onTxq q (fun x => { x with waits := [] })), x.waits.length)

/-- The queues of a logical port. -/
def txqsOf (s : State) (lport : Nat) : List Nat := tkeys s.cfg.net.txqs (fun _ c => c.lport == lport)

/-- The functions that own a queue on a logical port. -/
def ownersOn (s : State) (lport : Nat) : List Nat :=
  ((s.cfg.net.txqs.filter (fun e => e.2.lport == lport)).map (fun e => ownerFn e.2.part e.2.tenant e.2.fn)).eraseDups

/-- A logical port's link goes down (05 R146). -/
def linkDown (s : State) (n : Nat) : State :=
  if !(lportOf s n).up then s
  else
    let w := (lportOf s n).wire
    let s := s.onLPort n (fun p => { p with up := false, wire := none })
    let s := match w with | some x => txFlushOne s x.queue x.frame 2 | none => s
    let s := (txqsOf s n).foldl (fun s q => (txFlushAll s q 2).1) s
    let s := raiseEvent s 0 0x0009 0 0 [byteOf n, 0]
    ((ownersOn s n).filter (· != 0)).foldl (fun s f => raiseEvent s f 0x0009 (partOf f) (tenantOf f) [byteOf n, 0]) s

/-- A logical port's link comes up. -/
def linkUp (s : State) (n : Nat) : State :=
  if (lportOf s n).up then s
  else
    let s := s.onLPort n (fun p => { p with up := true })
    let s := raiseEvent s 0 0x0009 0 0 [byteOf n, 1]
    ((ownersOn s n).filter (· != 0)).foldl (fun s f => raiseEvent s f 0x0009 (partOf f) (tenantOf f) [byteOf n, 1]) s

/-- Meter and shaper changes whose island has adopted their epoch take effect (05 R131). A queue shaper and a class
shaper belong to the island of their port, a meter to island 130 (log entry 20, DEDUCED). -/
def netAdopt (s : State) : State :=
  let inOld := fun (p i : Nat) => (s.part p).remaining.contains i
  s.onNet (fun n => { n with
    meters := tmap n.meters (fun _ m =>
      match m.adopt with
      | some (c, _) => if inOld c.part 130 then m else meterAdopt m
      | none => m)
    txqs := tmap n.txqs (fun k q =>
      match q.bucket.adopt, txqCfg s k with
      | some _, some c => if inOld c.part (130 + c.lport / 8) then q else { q with bucket := bucketAdopt q.bucket }
      | _, _ => q)
    classBuckets := tmap n.classBuckets (fun k b =>
      if b.adopt.isSome && !(List.range 16).any (fun p => inOld p (130 + k / 64)) then bucketAdopt b else b) })

end Sys2Proof.Machine
end

