-- ==== Sys2Proof/Machine/Keys.lean ====
section
/-! DEFINITION. Machine/Keys.lean: the key store (07): slots, bindings, spending and destroying keys, and the nonces and
protection of packets. -/

namespace Sys2Proof.Machine

/-- The bindings that name a slot under a configuration: sessions, connections and volumes, by kind and place. -/
def bindingsIn (c : Cfg) (slot : Nat) : List (Nat × Nat) :=
  (c.sess.sessions.flatMap (fun e =>
      (if e.2.blk.profile != 0 && e.2.blk.keyRx == slot then [(0, e.1)] else [])
        ++ (if e.2.blk.profile != 0 && e.2.blk.keyTx == slot then [(1, e.1)] else [])))
    ++ (c.gdp.conns.flatMap (fun e =>
      (if e.2.blk.prot && e.2.blk.keyRx == slot then [(2, e.1)] else [])
        ++ (if e.2.blk.prot && e.2.blk.keyTx == slot then [(3, e.1)] else [])))
    ++ (c.stor.volumes.flatMap (fun e => if e.2.v.keySlot == slot then [(4, e.1)] else []))

/-- The bindings of a slot under every live epoch of its partition (07 R199, R203). -/
def bindingsOf (s : State) (p slot : Nat) : List (Nat × Nat) :=
  (bindingsIn s.cfg slot ++ (match (s.part p).old with | some (_, c) => bindingsIn c slot | none => [])).eraseDups

/-- The checks of a binding (07 R201): partition, tenant, slot, USE, DIR and the algorithms allowed. -/
def keyChecks (s : State) (p tenant slot use dir : Nat) (algs : List Nat) : List (Bool × Status) :=
  match tget s.cipher.slots slot with
  | none => [(true, .keyDenied)]
  | some k =>
    [(k.state != .loaded || k.part != p || (k.tenant != 0 && k.tenant != tenant), .keyDenied),
     (k.use != use || k.dir != dir || !algs.contains k.alg, .keyBadType),
     ((dir == 2 || use == 3) && !(bindingsIn s.cfg slot).isEmpty, .keyShared),
     (dir == 2 && k.spent, .keySpent)]

/-- A binding of an encrypt slot ends (07 R202). -/
def keySpend (s : State) (slot : Nat) : State := s.onSlot slot (fun k => if k.dir == 2 then { k with spent := true } else k)

/-- Zeroise a loaded slot (07 R200, R203). -/
def keyZeroise (s : State) (slot : Nat) : State :=
  s.onSlot slot (fun k => if k.state == .loaded then { k with state := .zeroising, material := [] } else k)

/-- Must the octets of the material that its algorithm does not list be zero, and are they? -/
def materialOk (alg : Nat) (m : List Byte) : Bool :=
  let zero := fun (a b : Nat) => (m.drop a).take (b - a) |>.all (· == 0)
  m.length == 64 && match alg with
  | 1 | 3 => zero 0x10 0x20 && zero 0x2C 0x40
  | 2 | 4 | 6 => zero 0x2C 0x40
  | 5 => zero 0x1E 0x20 && zero 0x34 0x40
  | _ => (m.take 32 != m.drop 32)

/-- Do ALG, USE and DIR form one of the combinations of 07 R197? -/
def keyTypeOk (alg use dir : Nat) : Bool :=
  (use == 1 && [1, 2, 5].contains alg && (dir == 1 || dir == 2))
    || (use == 2 && [1, 2, 3, 4, 6].contains alg && (dir == 1 || dir == 2))
    || (use == 3 && alg == 7 && dir == 3)

/-- May the command's function touch a slot (07 R195)? In fixed mode a partition has slots of its own. -/
def slotDenied (s : State) (h : Hdr) (slot : Nat) : Bool :=
  32768 ≤ slot || (s.fixedMode && slot / 2048 != hp h)
    || (match tget s.cipher.slots slot with
        | some k => k.part != hp h || (h.fn != 0 && k.tenant != 0 && k.tenant != tenantOf h.fn)
        | none => false)

/-- KEY_LOAD (07 R196 to R198). The slot's owner tenant is the TENANT of the submission entry. -/
def execKeyLoad (h : Hdr) (slot : Nat) (blk : HostBlk KeyBlock) (s : State) : Host.Outcome State Fault Refusal :=
  let b := blk.getD { alg := 0, use := 0, dir := 0, tenant := 0, material := [], rsvZero := true }
  let pick := fun (s : State) => pickNumber s.cipher.slots s.fixedMode (hp h) 2048 32768 slot
  boothStep (info 0x06 0x01) h
    (fun s =>
      [(!choose16 slot && 32768 ≤ slot, .badRequest),
       (blk.isNone, .hostAbort), (!b.rsvZero, .badRequest), (b.tenant != h.tenant, .keyDenied),
       (!choose16 slot && slotDenied s h slot, .keyDenied),
       (!keyTypeOk b.alg b.use b.dir, .keyBadType), (!materialOk b.alg b.material, .keyBadMaterial),
       ((match pick s with | some n => thas s.cipher.slots n | none => false), .slotOccupied),
       ((pick s).isNone, .noResource)]
      ++ roomChecks s (hp h) (hcharge h) 5 1 .noResource)
    (fun s =>
      let n := (pick s).getD 0
      let k : KeySlot := { state := .loaded, part := hp h, tenant := h.tenant, charge := hcharge h, alg := b.alg,
                           use := b.use, dir := b.dir, material := b.material, spent := false, counter := 0 }
      .done (s.onCipher (fun c => { c with slots := tset c.slots n k })) .ok
        (le 2 n ++ Config.kcv b.alg b.material)) s

/-- KEY_INFO (07 R199). -/
def execKeyInfo (h : Hdr) (slot : Nat) (s : State) : Host.Outcome State Fault Refusal :=
  boothStep (info 0x06 0x02) h (fun s => [(32768 ≤ slot, .badRequest), (slotDenied s h slot, .keyDenied)])
    (fun s => .done s .ok (match tget s.cipher.slots slot with
      | none => [0]
      | some k => match k.state with
        | .zeroising => [2]
        | .loaded => [1, byteOf k.alg, byteOf k.use, byteOf k.dir, byteOf k.tenant, byteOf (b2n k.spent)]
            ++ le 2 (bindingsOf s k.part slot).length ++ Config.kcv k.alg k.material)) s

/-- KEY_DESTROY (07 R200, R203). -/
def execKeyDestroy (h : Hdr) (slot : Nat) (s : State) : Host.Outcome State Fault Refusal :=
  boothStep (info 0x06 0x03) h
    (fun s =>
      [(32768 ≤ slot, .badRequest), (slotDenied s h slot, .keyDenied),
       ((match tget s.cipher.slots slot with | some k => k.state != .loaded | none => true), .slotEmpty),
       (!(bindingsOf s (hp h) slot).isEmpty, .keyInUse)])
    (fun s => .done (keyZeroise s slot) .ok []) s

/-- KEY_SLOT_SCRUB_COMPLETE: a zeroising slot becomes free (07 R200). -/
def execKeySlotScrubComplete (slot : Nat) (s : State) : Host.Outcome State Fault Refusal :=
  match tget s.cipher.slots slot with
  | some k =>
    if k.state == .zeroising then
      .next (s.onCipher (fun c => { c with slots := tdel c.slots slot }))
    else .next s
  | none => .next s

/-! Protection of packets (07 R192, R193). -/

/-- Exclusive or of octet strings of one length. -/
def xorBytes : List Byte → List Byte → List Byte
  | a :: as, b :: bs => (a ^^^ b) :: xorBytes as bs
  | _, _ => []

/-- The salt of a GCM, GMAC or ChaCha20 key. -/
def saltOf (k : KeySlot) : List Byte := (k.material.drop 0x20).take 12

/-- The SRTP nonce of an index: the IV of RFC 7714 for GCM; SSRC and index for the counter mode of RFC 3711. -/
def srtpNonce (k : KeySlot) (ssrc index : Nat) : List Byte :=
  if k.alg == 5 then be 4 ssrc ++ be 6 index
  else xorBytes ([0, 0] ++ be 4 ssrc ++ be 6 index) (saltOf k)

/-- The GDP nonce of a counter. -/
def gdpNonce (k : KeySlot) (ctr : Nat) : List Byte := xorBytes (be 4 0 ++ be 8 ctr) (saltOf k)

/-- Octets of the tag of an algorithm. -/
def tagLen (alg : Nat) : Nat := if alg == 5 then 10 else 16

/-- The tag length of a session profile (06 R154). -/
def profileTag (profile : Nat) : Nat := match profile with | 0 => 0 | 3 => 10 | _ => 16

/-- The algorithm a session profile needs. -/
def profileAlg (profile : Nat) : Nat := match profile with | 1 => 1 | 2 => 2 | _ => 5

end Sys2Proof.Machine
end

