-- ==== Sys2Proof/Machine/ActEvents.lean ====
section
/-! DEFINITION. Machine/ActEvents.lean: the event dispatcher's queues (08 R225 to R227) and the requests and replies of
the act ports (08 R235, R236). A binding, timer or act doorbell `n` of partition `p` has the number `64 p + n`. -/

namespace Sys2Proof.Machine

/-- A 36-bit word of a number. -/
def word (v : Nat) : Word := BitVec.ofNat 36 v

/-- The tag of an event kind in word 0. -/
def kindWord (kind : Nat) : Nat := kind * 2 ^ 27

/-- Is a timer's or doorbell's event already in the queue? -/
def pendingEvent (q : List Event) (e : Event) : Bool :=
  (e.kind == 4 || e.kind == 5) && q.any (fun x => x.kind == e.kind && x.source == e.source)

/-- A coalesced event: one more missed period or ring; a doorbell's value is replaced (08 R227). -/
def coalesce (old new : Event) : Event :=
  let n := min ((listGet old.words 4 0).toNat + 1) 262143
  if old.kind == 5 then { old with words := (old.words.set 4 (word n)).set 3 (listGet new.words 3 0) }
  else { old with words := old.words.set 4 (word n) }

/-- Put an event into its partition's queue (08 R227): whether it is queued or coalesced, and the state. -/
def putAct (s : State) (p : Nat) (e : Event) : Bool × State :=
  let q := tgetD s.acts.queues p []
  if pendingEvent q e then
    let q := q.map (fun x => if x.kind == e.kind && x.source == e.source then coalesce x e else x)
    (true, s.onActs (fun a => { a with queues := tset a.queues p q }))
  else if limitOf s p 17 ≤ q.length then
    (false, if e.kind == 2 then s else s.onStat e.binding (fun b => { b with eventsDropped := modAdd 64 b.eventsDropped 1 }))
  else (true, s.onActs (fun a => { a with queues := tset a.queues p (q ++ [e]) }))

/-- The replies of invocations that have ended are discarded once their requests have ended (08 R232). -/
def dropReplies (s : State) : State :=
  s.onSess (fun x => { x with replies := x.replies.filter (fun r => !(r.tumbler == 128 && r.words.isSome)) })

/-- End a request: its reply has its words (08 R236). -/
def replyTo (s : State) (id : Nat) (w0 w1 : Word) : State :=
  dropReplies (s.onSess (fun x => { x with
    replies := x.replies.map (fun r => if r.id == id then { r with words := some (w0, w1) } else r) }))

/-- A reply with a status, a tag and two counts (06 R189). -/
def reply (s : State) (id status tag beyond nans : Nat) : State :=
  replyTo s id (word (status * 2 ^ 27 + tag % 262144)) (word (min beyond 262143 * 262144 + min nans 262143))

/-- Take the oldest request of a port out of its queue. -/
def takeReq (s : State) (r : PortReq) : State :=
  s.onSess (fun x => { x with requests := x.requests.filter (fun y => y.reply != r.reply) })

/-- The oldest request of a port. -/
def headReq (s : State) (port : Nat) : Option PortReq := s.sess.requests.find? (fun r => r.port == port)

/-- Word `i` of a request. -/
def reqWord (r : PortReq) (i : Nat) : Nat := (listGet r.words i 0).toNat

/-- The OP of a request. -/
def reqOp (r : PortReq) : Nat := reqWord r 0 / 2 ^ 27

/-- May a binding's tenant name an object of a tenant (08 R238)? -/
def seesTenant (r : PortReq) (part tenant : Nat) : Bool := r.part == part && (r.tenant == 0 || tenant == 0 || tenant == r.tenant)

/-- The status an act request ends with for a device status (06 R189, R304). -/
def portStatus (st : Status) : Nat :=
  match st with
  | .ok => 0 | .tagDenied => 8 | .unmapped => 9 | .portDown => 9 | .partnerStalled => 9 | .partnerTimeout => 10
  | .memUncorrectable => 11 | .islandQuarantined => 15 | _ => 8

end Sys2Proof.Machine
end

