-- ==== Sys2Proof/Machine/Formats.lean ====
section
/-! DEFINITION. Machine/Formats.lean: the eight number formats, their decoding to exact values, scaling, rounding,
overflow and special values, MXFP4 blocks and the generators of stochastic rounding (06 R183 to R188). -/

namespace Sys2Proof.Machine

/-- An exact value: a signed integer multiple of a power of two, an infinity or NaN. -/
inductive FV where
  | nan
  | inf (neg : Bool)
  | num (neg : Bool) (m : Nat) (e : Int)
  deriving DecidableEq, Repr, Inhabited

/-- A float format: exponent bits, mantissa bits, bias, and whether its top exponent holds infinities and NaNs, one NaN
(E4M3) or only numbers (E2M1). -/
structure FloatFmt where
  eb : Nat
  mb : Nat
  bias : Nat
  top : Nat
  deriving DecidableEq, Repr

/-- The float formats by their codes (06 R184); 7 is the element of MXFP4. -/
def floatFmt (code : Nat) : FloatFmt :=
  match code with
  | 2 => { eb := 8, mb := 23, bias := 127, top := 0 }
  | 3 => { eb := 5, mb := 10, bias := 15, top := 0 }
  | 4 => { eb := 8, mb := 7, bias := 127, top := 0 }
  | 5 => { eb := 4, mb := 3, bias := 7, top := 1 }
  | 6 => { eb := 5, mb := 2, bias := 15, top := 0 }
  | _ => { eb := 2, mb := 1, bias := 1, top := 2 }

/-- Octets of an element; MXFP4 elements are counted in their blocks. -/
def elemBytes (code : Nat) : Nat := match code with | 0 | 5 | 6 => 1 | 2 => 4 | _ => 2

/-- Decode a float pattern. -/
def decodeFloat (f : FloatFmt) (v : Nat) : FV :=
  let m := v % 2 ^ f.mb
  let e := v / 2 ^ f.mb % 2 ^ f.eb
  let neg := bit v (f.mb + f.eb)
  let full := 2 ^ f.eb - 1
  if f.top == 0 && e == full then (if m == 0 then .inf neg else .nan)
  else if f.top == 1 && e == full && m == 2 ^ f.mb - 1 then .nan
  else if e == 0 then .num neg m (1 - (f.bias : Int) - f.mb)
  else .num neg (2 ^ f.mb + m) ((e : Int) - f.bias - f.mb)

/-- Decode an element of formats 0 to 6. -/
def decodeElem (code v : Nat) : FV :=
  match code with
  | 0 => let x := signed 8 (v % 256); .num (decide (x < 0)) x.natAbs 0
  | 1 => let x := signed 16 (v % 65536); .num (decide (x < 0)) x.natAbs 0
  | _ => decodeFloat (floatFmt code) v

/-- Multiply by a power of two. -/
def scaleFV (v : FV) (k : Int) : FV := match v with | .num n m e => .num n m (e + k) | x => x

/-- Exponent of the leading bit of a non-zero number. -/
def leadExp (m : Nat) (e : Int) : Int := (Nat.log2 m : Int) + e

/-- The magnitude in units of `2^q`, rounded: to nearest with ties to even, or with a random number to the upper of the
number's two neighbours when the random number is below its fraction (06 R188). The neighbours are those of the signed
number: the upper one of a negative number is the one of smaller magnitude. -/
def roundTo (neg : Bool) (m : Nat) (e q : Int) (r : Option Nat) : Nat :=
  if q ≤ e then m * 2 ^ (e - q).toNat
  else
    let d := 2 ^ (q - e).toNat
    let lo := m / d
    let rem := m % d
    if rem == 0 then lo
    else match r with
      | some r =>
        if neg then (if r < (d - rem) * 65536 / d then lo else lo + 1)
        else if r < rem * 65536 / d then lo + 1 else lo
      | none => if d < 2 * rem || (2 * rem == d && lo % 2 == 1) then lo + 1 else lo

/-- An element written, whether it overflowed or came from an infinity, and whether it is NaN in or out. -/
structure Conv where
  bits : Nat
  beyond : Bool
  isNan : Bool
  deriving DecidableEq, Repr, Inhabited

/-- The NaN a float format writes. -/
def nanBits (f : FloatFmt) : Nat :=
  if f.top == 1 then 2 ^ (f.eb + f.mb) - 1 else (2 ^ f.eb - 1) * 2 ^ f.mb + 2 ^ (f.mb - 1)

/-- The greatest finite pattern of a float format. -/
def maxBits (f : FloatFmt) : Nat :=
  match f.top with
  | 0 => (2 ^ f.eb - 1) * 2 ^ f.mb - 1
  | 1 => 2 ^ (f.eb + f.mb) - 2
  | _ => 2 ^ (f.eb + f.mb) - 1

/-- What an overflow or an infinite input writes (06 R186). -/
def overBits (f : FloatFmt) (neg sat : Bool) : Conv :=
  let sg := b2n neg * 2 ^ (f.eb + f.mb)
  if sat || f.top == 2 then { bits := sg + maxBits f, beyond := true, isNan := false }
  else if f.top == 1 then { bits := nanBits f, beyond := true, isNan := true }
  else { bits := sg + (2 ^ f.eb - 1) * 2 ^ f.mb, beyond := true, isNan := false }

/-- Convert a scaled value to a float format (06 R185, R186). -/
def toFloat (f : FloatFmt) (w : FV) (sat : Bool) (r : Option Nat) : Conv :=
  match w with
  | .nan => { bits := nanBits f, beyond := false, isNan := true }
  | .inf neg => overBits f neg sat
  | .num neg m e =>
    let sg := b2n neg * 2 ^ (f.eb + f.mb)
    if m == 0 then { bits := sg, beyond := false, isNan := false }
    else
      let emin : Int := 1 - (f.bias : Int)
      let q := max (leadExp m e) emin - f.mb
      let n := roundTo neg m e q r
      let up := decide (2 ^ (f.mb + 1) ≤ n)
      let n := if up then n / 2 else n
      let q := if up then q + 1 else q
      let bits := if n < 2 ^ f.mb then n else ((q + f.mb + f.bias).toNat) * 2 ^ f.mb + (n - 2 ^ f.mb)
      if maxBits f < bits then overBits f neg sat
      else { bits := sg + bits, beyond := false, isNan := false }

/-- Convert a scaled value to an integer of `k` bits. -/
def toInteger (k : Nat) (w : FV) (r : Option Nat) : Conv :=
  let top : Nat := 2 ^ (k - 1)
  match w with
  | .nan => { bits := 0, beyond := false, isNan := true }
  | .inf neg => { bits := if neg then top else top - 1, beyond := true, isNan := false }
  | .num neg m e =>
    let n := roundTo neg m e 0 r
    if neg then (if top < n then { bits := top, beyond := true, isNan := false }
                 else { bits := (2 * top - n) % (2 * top), beyond := false, isNan := false })
    else if top ≤ n then { bits := top - 1, beyond := true, isNan := false }
    else { bits := n, beyond := false, isNan := false }

/-- Convert to formats 0 to 6. -/
def toElem (code : Nat) (w : FV) (sat : Bool) (r : Option Nat) : Conv :=
  match code with
  | 0 => toInteger 8 w r
  | 1 => toInteger 16 w r
  | c => toFloat (floatFmt c) w sat r

/-- One step of a generator and its random number (06 R188). -/
def genStep (g : Nat) : Nat := (g * 0x5851F42D4C957F2D + 0x14057B7EF767814F) % 2 ^ 64
/-- The random number of a state. -/
def genDraw (g : Nat) : Nat := g / 2 ^ 48

/-- What a conversion produces: the elements' patterns, the two counts, and the generator. -/
structure ConvAll where
  elems : List Nat := []
  beyond : Nat := 0
  nans : Nat := 0
  gen : Nat := 0
  deriving DecidableEq, Repr, Inhabited

/-- Convert elements to formats 0 to 6, in order; `nanIn` marks the elements that count as NaN already (06 R189). -/
def convElems (code : Nat) (sat stoch : Bool) (ws : List (FV × Bool)) (gen : Nat) : ConvAll :=
  ws.foldl (fun a x =>
    let g := if stoch then genStep a.gen else a.gen
    let c := toElem code x.1 sat (if stoch then some (genDraw g) else none)
    { elems := a.elems ++ [c.bits], beyond := a.beyond + b2n c.beyond, nans := a.nans + b2n (c.isNan || x.2), gen := g })
    { gen := gen }

/-- Is one magnitude below another? -/
def magLt (m : Nat) (e : Int) (m' : Nat) (e' : Int) : Bool :=
  let k := min e e'
  m * 2 ^ (e - k).toNat < m' * 2 ^ (e' - k).toNat

/-- The block exponent X of MXFP4: from the largest magnitude (06 R187). -/
def blockExp (ws : List FV) : Int :=
  let a := ws.foldl (fun a w => match w with
    | .num _ m e => if magLt a.1 a.2 m e then (m, e) else a
    | _ => a) ((0, 0) : Nat × Int)
  if a.1 == 0 then -127 else max (-127) (min 127 (leadExp a.1 a.2 - 2))

/-- One MXFP4 block of at most 32 elements: its 32 element codes, its scale, and the counts. -/
def convBlock (stoch : Bool) (ws : List (FV × Bool)) (gen : Nat) : List Nat × Nat × ConvAll :=
  let special := ws.any (fun w => match w.1 with | .num .. => false | _ => true)
  let gens := ws.foldl (fun (l : List Nat × Nat) _ => let g := if stoch then genStep l.2 else l.2; (l.1 ++ [g], g)) ([], gen)
  if special then
    (List.replicate 32 0, 255,
      { beyond := ws.countP (fun w => match w.1 with | .inf _ => true | _ => false), nans := ws.length, gen := gens.2 })
  else
    let x := blockExp (ws.map (·.1))
    let es := (ws.zip gens.1).map (fun p => (toFloat (floatFmt 7) (scaleFV p.1.1 (-x)) true (if stoch then some (genDraw p.2) else none)).bits)
    (es ++ List.replicate (32 - es.length) 0, (x + 127).toNat, { nans := ws.countP (·.2), gen := gens.2 })

/-- Blocks of 32. -/
def blocks32 {α : Type} : Nat → List α → List (List α)
  | 0, _ => []
  | n + 1, l => if l.isEmpty then [] else l.take 32 :: blocks32 n (l.drop 32)

/-- Pairs of element codes as octets. -/
def packNibbles : List Nat → List Byte
  | a :: b :: r => byteOf (a + 16 * b) :: packNibbles r
  | [a] => [byteOf a]
  | [] => []

/-- Octets of `n` elements of a format in a ring (06 R183, R187). -/
def tensorBytes (code n : Nat) : Nat :=
  if code == 7 then let k := ceilDiv n 32; ceilDiv (16 * k) 64 * 64 + k else n * elemBytes code

/-- Convert to ring octets of any format. -/
def convTensor (code : Nat) (sat stoch : Bool) (ws : List (FV × Bool)) (gen : Nat) : List Byte × ConvAll :=
  if code == 7 then
    let r := (blocks32 ws.length ws).foldl (fun (a : List Byte × List Byte × ConvAll) b =>
      let x := convBlock stoch b a.2.2.gen
      (a.1 ++ packNibbles x.1, a.2.1 ++ [byteOf x.2.1],
        { beyond := a.2.2.beyond + x.2.2.beyond, nans := a.2.2.nans + x.2.2.nans, gen := x.2.2.gen }))
      ([], [], { gen := gen })
    (r.1 ++ zeros (ceilDiv r.1.length 64 * 64 - r.1.length) ++ r.2.1, r.2.2)
  else
    let c := convElems code sat stoch ws gen
    (c.elems.flatMap (le (elemBytes code)), c)

/-- Read `n` byte-packed elements of a format: their values, and whether each lies in a block of scale 0xFF. -/
def readTensor (code n : Nat) (d : List Byte) : List (FV × Bool) :=
  if code == 7 then
    let k := ceilDiv n 32
    let area := ceilDiv (16 * k) 64 * 64
    (List.range n).map (fun i =>
      let sc := (listGet d (area + i / 32) 0).toNat
      let o := (listGet d (i / 32 * 16 + i % 32 / 2) 0).toNat
      if sc == 255 then (.nan, true)
      else (scaleFV (decodeFloat (floatFmt 7) (if i % 2 == 0 then o % 16 else o / 16)) ((sc : Int) - 127), false))
  else
    let b := elemBytes code
    (List.range n).map (fun i => (decodeElem code (ofLe ((d.drop (i * b)).take b)), false))

/-- Words of troupe memory that `n` elements take (06 R183). -/
def troupeWords (code n : Nat) : Nat := match elemBytes code with | 1 => ceilDiv n 4 | 2 => ceilDiv n 2 | _ => n

/-- Read `n` word-packed elements from words. -/
def readPacked (code n : Nat) (ws : List Word) : List (FV × Bool) :=
  (List.range n).map (fun i =>
    let v := match elemBytes code with
      | 1 => field (listGet ws (i / 4) 0).toNat (9 * (3 - i % 4)) 8
      | 2 => field (listGet ws (i / 2) 0).toNat (18 * (1 - i % 2)) 16
      | _ => field (listGet ws i 0).toNat 0 32
    (decodeElem code v, false))

/-- Pack elements into words with their marks: 8-bit elements carry mark 1, and INT16 is sign-extended to 18 bits. -/
def packWords (code : Nat) (es : List Nat) : List Word :=
  let n := es.length
  (List.range (troupeWords code n)).map (fun j =>
    match elemBytes code with
    | 1 => BitVec.ofNat 36 (((List.range 4).map (fun k =>
        if 4 * j + k < n then (256 + listGet es (4 * j + k) 0) * 2 ^ (9 * (3 - k)) else 0)).sum)
    | 2 => BitVec.ofNat 36 (((List.range 2).map (fun k =>
        let v := if 2 * j + k < n then listGet es (2 * j + k) 0 else 0
        let v := if code == 1 && bit v 15 then v + 3 * 65536 else v
        v * 2 ^ (18 * (1 - k)))).sum)
    | _ => BitVec.ofNat 36 (listGet es j 0))

end Sys2Proof.Machine
end

