-- ==== Sys2Proof/Machine/Session.lean ====
section
/-! DEFINITION. Machine/Session.lean: the session engine (06): inbound checks, index extension, the replay window, the
jitter buffer and its ticks, the outbound packet, and the receive rings it shares with the classifier (05 R152). -/

namespace Sys2Proof.Machine

/-! Received frames (05 R123 to R126). -/

/-- What the classifier reads of a frame. -/
structure Pkt where
  ip : Nat := 0
  proto : Nat := 0
  dscp : Nat := 0
  ecn : Nat := 0
  fragment : Bool := false
  src : Nat := 0
  dst : Nat := 0
  sport : Nat := 0
  dport : Nat := 0
  /-- where the transport header starts -/
  l4 : Nat := 0
  l3 : Nat := 0
  deriving DecidableEq, Repr, Inhabited

/-- Parse a frame without its FCS. -/
def parseFrame (d : List Byte) : Pkt :=
  let k := l3At d
  let ports := fun (p : Pkt) =>
    if (p.proto == 6 || p.proto == 17) && !p.fragment then { p with sport := w16 d p.l4, dport := w16 d (p.l4 + 2) } else p
  if etherOf d == 0x0800 then
    ports { ip := 4, proto := o8 d (k + 9), dscp := o8 d (k + 1) / 4, ecn := o8 d (k + 1) % 4
            fragment := w16 d (k + 6) % 16384 != 0, src := ofBe ((d.drop (k + 12)).take 4)
            dst := ofBe ((d.drop (k + 16)).take 4), l4 := k + o8 d k % 16 * 4, l3 := k }
  else if etherOf d == 0x86DD then
    let frag := o8 d (k + 6) == 44
    ports { ip := 6, proto := if frag then o8 d (k + 40) else o8 d (k + 6), dscp := w16 d k / 64 % 64, ecn := w16 d k / 16 % 4
            fragment := frag, src := ofBe ((d.drop (k + 8)).take 16), dst := ofBe ((d.drop (k + 24)).take 16)
            l4 := k + (if frag then 48 else 40), l3 := k }
  else { l3 := k }

/-- The UDP payload of a frame. -/
def udpPayload (d : List Byte) (p : Pkt) : List Byte := (d.drop (p.l4 + 8)).take (w16 d (p.l4 + 4) - 8)

/-- Is the UDP checksum correct; zero counts as correct on IPv4 only (06 R158 check 1)? -/
def udpSumOk (d : List Byte) (p : Pkt) : Bool :=
  let len := w16 d (p.l4 + 4)
  let c := w16 d (p.l4 + 6)
  if c == 0 then p.ip == 4
  else
    let n := if p.ip == 4 then 4 else 16
    let pseudo := be n p.src ++ be n p.dst ++ be 2 17 ++ be 2 len
    fold16 (sum16 (pseudo ++ (d.drop p.l4).take len)) == 65535

/-- Write a frame into a receive ring with its completion, if the ring has a buffer for it (05 R152). -/
def rxDeliver (s : State) (ring lport : Nat) (d : List Byte) (rule colour : Nat) (isDefault : Bool) (time : Nat) : Option State :=
  match live s (·.net.rings) ring, tget s.net.rings ring with
  | some c, some r =>
    if !issuable s c.fn then some (dropCount s lport 8)
    else match r.buffers with
    | [] => none
    | a :: rest =>
      let strip := tagged d && (lportCfg s.cfg lport).strip
      let body := if strip then d.take 12 ++ d.drop 16 else d
      if (if c.bufCode == 0 then 2048 else 10240) < body.length then none
      else
        let n := 2 ^ c.log2
        let rcd := le 2 (1 - r.compProd / n % 2 + 2 * b2n (tagged d) + 2048 * lport) ++ le 2 (tciOf d) ++ le 2 body.length
          ++ le 2 (b2n isDefault + 4 * colour + 16 * rule) ++ le 8 time
        let s := hostPost s c.fn none a body
        let s := hostPost s c.fn none (c.base + 8 * n + 16 * (r.compProd % n)) rcd
        let s := s.onRing ring (fun r => { r with buffers := rest, compProd := modAdd 32 r.compProd 1 })
        some (msixRaise s c.fn c.vector)
  | _, _ => none

/-- Read the next buffer addresses a host has posted. -/
def rxFetch (s : State) (ring : Nat) : State :=
  match tget s.cfg.net.rings ring, tget s.net.rings ring with
  | some c, some r => ringFetch s c.fn none c.base 8 c.log2 r.bufProd r.bufCons (.rxBuffers ring r.bufCons)
  | _, _ => s

/-! Session counters and tables. -/

/-- Add to a session counter, by its place in 06 R157. -/
def sessCount (s : State) (n k : Nat) : State := s.onSession n (fun x => { x with counts := bump x.counts k })

/-- The session engine's configuration of a session under an epoch. -/
def sessCfg (s : State) (n : Nat) : Option SessCfg :=
  match tget s.sess.sess n with
  | some x => tget (cfgAt s x.part 138).sess.sessions n
  | none => none

/-! Index extension and replay (06 R160, R161). -/

/-- Extend a 16-bit sequence number; none when the extension falls below 0. -/
def extendIndex (x : Sess) (rocInit seq : Nat) : Option Nat :=
  match x.seq with
  | none => some (rocInit * 65536 + seq)
  | some e =>
    if e.low < 32768 then
      if e.low + 32768 < seq then (if e.high == 0 then none else some ((e.high - 1) * 65536 + seq))
      else some (e.high * 65536 + seq)
    else if seq + 32768 < e.low then some ((e.high + 1) * 65536 + seq)
    else some (e.high * 65536 + seq)

/-- Does an index fail the replay check? -/
def replayed (x : Sess) (i : Nat) : Bool :=
  x.seq.isSome && (i + 128 ≤ x.high || (i ≤ x.high && bit x.window (x.high - i)))

/-- Mark an index that has passed the final replay check. -/
def markIndex (x : Sess) (i : Nat) : Sess :=
  if x.seq.isNone || x.high < i then
    let w := if x.seq.isNone then 1 else (x.window * 2 ^ min (i - x.high) 128 + 1) % 2 ^ 128
    { x with high := i, window := w, seq := some { low := i % 65536, high := i / 65536 } }
  else if bit x.window (x.high - i) then x
  else { x with window := x.window + 2 ^ (x.high - i) }

/-- Extend a 32-bit RTP timestamp by the rule of R160 with half-range 2^31 (06 R163). -/
def extendTs (x : Sess) (ts : Nat) : Int :=
  match x.ts with
  | none => ts
  | some e =>
    let v : Int :=
      if e.low < 2147483648 then (if e.low + 2147483648 < ts then (e.high : Int) - 1 else e.high)
      else if ts + 2147483648 < e.low then (e.high : Int) + 1 else e.high
    v * 4294967296 + ts

/-- Keep the highest extended timestamp. -/
def markTs (x : Sess) (t : Int) : Sess :=
  let cur : Int := match x.ts with | some e => e.high * 4294967296 + e.low | none => -1
  if cur < t then { x with ts := some { low := (t % 4294967296).toNat, high := (t / 4294967296).toNat } } else x

/-! The jitter buffer (06 R163 to R169). -/

/-- Octets of a slot. -/
def slotBytes (b : SessionBlock) : Nat := 256 * 2 ^ b.slotCode

/-- Address of a slot in the session's cells. -/
def slotAddr (x : Sess) (b : SessionBlock) (k : Nat) : Nat :=
  let off := k * slotBytes b
  0x010000000000 + listGet x.cells (off / 2048) 0 * 2048 + off % 2048

/-- The partition-wide number of a session's binding. -/
def sessBinding (c : SessCfg) : Nat := 64 * c.part + c.blk.binding

/-- Empty the buffer after sixteen drops and raise the resync event (06 R166). -/
def resync (s : State) (n : Nat) (c : SessCfg) : State :=
  let s := s.onSession n (fun x => { x with slots := [], anchor := none, badRun := 0 })
  (putAct s c.part {
    kind := 3, binding := sessBinding c, session := n, epoch := epochAt s c.part 138
    words := [word (kindWord 3 + n), 0, 0, word s.clock.now, 0]
    payload := [], source := 0 }).2

/-- A late or early frame is dropped. -/
def jbBad (s : State) (n k : Nat) (c : SessCfg) : State :=
  let s := (sessCount s n k).onSession n (fun x => { x with badRun := x.badRun + 1 })
  match tget s.sess.sess n with
  | some x => if 16 ≤ x.badRun then resync s n c else s
  | none => s

/-- Place a verified frame (06 R164, R165). The result says whether its plaintext went to the buffer. -/
def jbPlace (s : State) (n : Nat) (c : SessCfg) (index ts pt : Nat) (marker : Bool) (d : List Byte) : Bool × State :=
  match tget s.sess.sess n with
  | none => (false, s)
  | some x =>
    if slotBytes c.blk < d.length then (false, sessCount s n 11)
    else
      let t := extendTs x ts
      let s := s.onSession n (fun x => markTs x t)
      let fresh := x.anchor.isNone
      let ts0 : Int := match x.anchor with | some a => a.2 | none => t
      let e := if fresh then 0 else x.due
      let f : Int := (t - ts0) / (c.blk.spf : Int)
      if f < e then (false, jbBad s n 13 c)
      else if (e + c.blk.depth : Int) ≤ f then (false, jbBad s n 14 c)
      else
        let k := f.toNat % c.blk.depth
        if !fresh && (match tget x.slots k with | some g => g.frame == f.toNat | none => false) then (false, sessCount s n 15)
        else
          let r := if d.isEmpty then (Status.ok, s) else memStore s (slotAddr x c.blk k) d
          if r.1 != .ok then (false, sessCount r.2 n 12)
          else
            let g : JbFrame := { frame := f.toNat, marker := marker, pt := pt, index := index, len := d.length }
            let s := r.2.onSession n (fun x =>
              let x := { x with slots := tset x.slots k g, badRun := 0 }
              if fresh then { x with anchor := some (s.clock.cadence, t.toNat), due := 0, delay := c.blk.delay, shifted := 0 } else x)
            (true, sessCount s n 0)

/-- The plaintext of an RTP packet without its padding; a padding count that does not fit leaves nothing. -/
def unpad (hasPad : Bool) (d : List Byte) : List Byte :=
  if hasPad then let n := (d.getLast?.getD 0).toNat; d.take (d.length - n) else d

/-- Octets of an RTP header with its CSRC list and extension. -/
def rtpHeaderLen (d : List Byte) : Nat :=
  let cc := o8 d 0 % 16
  let n := 12 + 4 * cc
  if bit (o8 d 0) 4 then n + 4 + 4 * w16 d (n + 2) else n

/-- The final replay check and what follows it (06 R158 checks 8 to 10). The result says whether plaintext was placed. -/
def sessFinal (s : State) (n : Nat) (c : SessCfg) (index : Nat) (hdr d : List Byte) : Bool × State :=
  match tget s.sess.sess n with
  | none => (false, s)
  | some x =>
    if replayed x index then (false, sessCount s n 9)
    else
      let s := s.onSession n (fun x =>
        let x := markIndex x index
        if c.blk.learn && x.ssrc.isNone then { x with ssrc := some (ofBe ((hdr.drop 8).take 4)) } else x)
      jbPlace s n c index (ofBe ((hdr.drop 4).take 4)) (o8 hdr 1 % 128) (bit (o8 hdr 1) 7) (unpad (bit (o8 hdr 0) 5) d)

/-- Can the session engine accept a packet: no packet of the partition waits for granules (07 R205)? -/
def intakeFree (s : State) (p : Nat) : Bool := !tany s.cipher.pkts (fun _ x => x.part == p && x.state == .intake)

/-- An RTP or SRTP packet after the classifier and meter (06 R158, R159), under its ingress epoch. -/
def sessInbound (s : State) (n lport : Nat) (c : SessCfg) (epoch : Nat) (colour : Nat) (d : List Byte) (time : Nat) : State :=
  let p := parseFrame d
  let u := udpPayload d p
  match tget s.sess.sess n with
  | none => s
  | some x =>
    let second := o8 u 1
    if !udpSumOk d p then sessCount s n 5
    else if 192 ≤ second && second ≤ 223 then
      if c.blk.rtcpRing == 0xFFFF then sessCount s n 3
      else match rxDeliver s c.blk.rtcpRing lport d 0 colour false time with
        | some s => sessCount s n 2
        | none => sessCount s n 3
    else
      let tagN := profileTag c.blk.profile
      let hl := rtpHeaderLen u
      if o8 u 0 / 64 != 2 || u.length < 12 || u.length < hl + tagN then sessCount s n 6
      else
        let ssrc := ofBe ((u.drop 8).take 4)
        let want := if c.blk.learn then x.ssrc else some c.blk.ssrcIn
        if !(match want with | some v => v == ssrc | none => true) then sessCount s n 7
        else if !c.blk.ptSet.contains (o8 u 1 % 128) then sessCount s n 8
        else match extendIndex x c.blk.rocInInit (w16 u 2) with
          | none => sessCount s n 9
          | some i =>
            if replayed x i then sessCount s n 9
            else if c.blk.profile == 0 then (sessFinal s n c i (u.take hl) (u.drop hl)).2
            else
              let k : VhPkt := { part := c.part, session := n, index := i, aad := u.take hl, body := u.drop hl, epoch := epoch
                                 granules := ceilDiv (u.length - hl - tagN) 256, state := .intake }
              s.onCipher (fun z => { z with pkts := tset z.pkts z.nextPkt k, nextPkt := z.nextPkt + 1 })

/-! Rows of the verify-hold (07 R204 to R208). -/

/-- CIPHER_INTAKE: the first packet of a partition's intake queue leaves it when its granules are free (07 R205). -/
def execCipherIntake (p : Nat) (s : State) : Host.Outcome State Fault Refusal :=
  match tfind s.cipher.pkts (fun _ x => x.part == p && x.state == .intake) with
  | none => .next s
  | some (k, x) =>
    if limitOf s p 6 < usedOf s p none 6 + x.granules || quarantined s 139 then .next s
    else .next (s.onCipher (fun c => { c with pkts := tmod c.pkts k (fun y => { y with state := .decrypting }) }))

/-- An AUTH_FAIL record, at most one per session per second (07 R207). -/
def authFail (s : State) (n : Nat) (c : SessCfg) : State :=
  let s := (sessCount s n 10).onSession n (fun x => { x with authSince := x.authSince + 1 })
  match tget s.sess.sess n with
  | none => s
  | some x =>
    let due := match x.authAt with | none => true | some t => decide (t + 1000000000 ≤ s.clock.cadence)
    if due then
      let s := raiseEvent s (ownerFn c.part c.tenant c.fn) 0x0007 c.part c.tenant (le 2 n ++ zeros 6 ++ le 8 x.authSince)
      s.onSession n (fun x => { x with authSince := 0, authAt := some s.clock.cadence })
    else s

/-- TAG_VERIFY: decryption of a packet ends (06 R158 checks 7 to 10, 07 R206, R207). The packets of a session reach the
final check in intake order. -/
def execTagVerify (k : Nat) (s : State) : Host.Outcome State Fault Refusal :=
  match tget s.cipher.pkts k with
  | none => .next s
  | some x =>
    let earlier := s.cipher.pkts.any (fun e => e.1 < k && e.2.session == x.session && (e.2.state == .intake || e.2.state == .decrypting))
    if x.state != .decrypting || earlier then .next s
    else
      let dest := fun (s : State) (st : VhState) =>
        Host.Outcome.next (s.onCipher (fun c => { c with pkts := tmod c.pkts k (fun y => { y with state := st }) }))
      match tget (cfgOf s x.part x.epoch).sess.sessions x.session with
      | none => dest s .scrubbing
      | some c =>
        match tget s.cipher.slots c.blk.keyRx with
        | none => dest (authFail s x.session c) .scrubbing
        | some key =>
          let nonce := srtpNonce key (ofBe ((x.aad.drop 8).take 4)) x.index
          if !Config.tagOk key.alg key.material nonce x.aad x.body then dest (authFail s x.session c) .scrubbing
          else
            let n := x.body.length - tagLen key.alg
            let plain := fit n (Config.aeadOpen key.alg key.material nonce x.aad x.body)
            let r := sessFinal s x.session c x.index x.aad plain
            dest r.2 (if r.1 then .releasing else .scrubbing)

/-- RELEASE_COMPLETE: every release write of a packet has completed (07 R206). -/
def execReleaseComplete (k : Nat) (s : State) : Host.Outcome State Fault Refusal :=
  match tget s.cipher.pkts k with
  | some x => if x.state == .releasing then .next (s.onCipher (fun c => { c with pkts := tdel c.pkts k })) else .next s
  | none => .next s

/-- GRANULE_SCRUB_DONE: scrubbed granules return to free (07 R207). -/
def execGranuleScrubDone (k : Nat) (s : State) : Host.Outcome State Fault Refusal :=
  match tget s.cipher.pkts k with
  | some x => if x.state == .scrubbing then .next (s.onCipher (fun c => { c with pkts := tdel c.pkts k })) else .next s
  | none => .next s

/-! Ticks (06 R165 to R170). -/

/-- Discard the frames that a shorter delay has made late (06 R169). -/
def dropLate (s : State) (n : Nat) (b : SessionBlock) (e k : Nat) : State :=
  (List.range k).foldl (fun s i =>
    match tget s.sess.sess n with
    | none => s
    | some x =>
      match tget x.slots ((e + i) % b.depth) with
      | some g => if g.frame == e + i then (sessCount s n 13).onSession n (fun x => { x with slots := tdel x.slots ((e + i) % b.depth) }) else s
      | none => s) s

/-- FRAME_TICK: a session's cadence tick (06 R165, R167 to R170). -/
def execFrameTick (n : Nat) (s : State) : Host.Outcome State Fault Refusal :=
  match tget s.sess.sess n, sessCfg s n with
  | some x, some c =>
    if x.anchor.isNone || quarantined s 138 then .next s
    else
      let b := c.blk
      let s := match x.shift with
        | some neg => s.onSession n (fun x => { x with shift := none, shifted := if neg then x.shifted - 1 else x.shifted + 1 })
        | none => s
      if x.delay < b.delay then .next (s.onSession n (fun x => { x with delay := b.delay }))
      else
        let k := x.delay - b.delay
        let s := (dropLate s n b x.due k).onSession n (fun y => { y with due := x.due + k, delay := b.delay })
        let e := x.due + k
        match tget s.sess.sess n with
        | none => .next s
        | some x =>
          let held := match tget x.slots (e % b.depth) with | some g => if g.frame == e then some g else none | none => none
          let ahead := tcount x.slots (fun _ g => e < g.frame)
          let read : Status × List Byte × State := match held with
            | some g => memLoad s (slotAddr x b (e % b.depth)) g.len
            | none => (.ok, [], s)
          let held := if read.1 == .ok then held else none
          let s := read.2.2
          let free := draw s
          let s := if held.isSome then s else free.2
          let g := held.getD { frame := e, marker := bit free.1 60, pt := field free.1 50 7, index := free.1 % 2 ^ 48, len := 0 }
          let words := [word (kindWord 1 + b2n g.marker * 2 ^ 20 + b2n held.isSome * 2 ^ 18 + n), word (g.index / 2 ^ 24),
            word (g.pt * 2 ^ 24 + g.index % 2 ^ 24), word s.clock.now, word (ahead * 2 ^ 18 + g.len)]
          let quiet := held.isNone && b.suppress && 8 ≤ x.missing
          let s := if quiet then s
            else (putAct s c.part { kind := 1, binding := sessBinding c, session := n, epoch := epochAt s c.part 138
                                    words := words, payload := read.2.1, source := 0 }).2
          .next (s.onSession n (fun x => { x with
            slots := tdel x.slots (e % b.depth)
            due := e + 1
            missing := if held.isSome then 0 else x.missing + 1 }))
  | _, _ => .next s

/-! Outbound (06 R171 to R173). -/

/-- The octets of troupe memory from a word address, in the octet order of 06 R170. -/
def troupeOctets (s : State) (troupe addr len : Nat) : List Byte :=
  (List.range len).map (fun i => byteOf (field (wordGet s.mem.troupe (troupe * 1048576 + addr + i / 4)).toNat (9 * (3 - i % 4)) 8))

/-- An IPv4 or IPv6 header over UDP and its checksum, for a payload. -/
def ipUdp (ip src dst sport dport dscp ecn : Nat) (pay : List Byte) : List Byte :=
  let ulen := 8 + pay.length
  let n := if ip == 4 then 4 else 16
  let udp0 := be 2 sport ++ be 2 dport ++ be 2 ulen ++ be 2 0
  let c := inetSum (be n src ++ be n dst ++ be 2 17 ++ be 2 ulen ++ udp0 ++ pay)
  let udp := be 2 sport ++ be 2 dport ++ be 2 ulen ++ be 2 (if c == 0 then 65535 else c) ++ pay
  if ip == 4 then
    let h := [byteOf 0x45, byteOf (dscp * 4 + ecn)] ++ be 2 (20 + ulen) ++ be 4 0 ++ [byteOf 64, byteOf 17] ++ be 2 0 ++ be 4 src ++ be 4 dst
    patch h 10 (be 2 (inetSum h)) ++ udp
  else be 4 (6 * 2 ^ 28 + dscp * 2 ^ 22 + ecn * 2 ^ 20) ++ be 2 ulen ++ [byteOf 17, byteOf 64] ++ be 16 src ++ be 16 dst ++ udp

/-- An Ethernet frame around a network packet: the MAC addresses are not in the manual and stand as free octets
(log entry 21, DESIGN CHOICE); the tag is inserted where its TCI is not 0. -/
def etherFrame (macs : List Byte) (tci ip : Nat) (pkt : List Byte) : List Byte :=
  let d := fit 12 macs ++ (if tci == 0 then [] else be 2 0x8100 ++ be 2 tci) ++ be 2 (if ip == 4 then 0x0800 else 0x86DD) ++ pkt
  fit (max 60 d.length) d

/-- Does a word lie in granules that a partition and tenant own (08 R213)? -/
def troupeOwned (s : State) (c : Cfg) (p t troupe addr : Nat) : Bool :=
  tagPasses (ownerOf s c (0x030000000000 + troupe * 0x400000 + addr * 4)) p t

/-- SEND_REQUEST: the session engine builds, protects and queues an outbound packet (06 R171 to R173). A request of
port 0 with a reserved OP is answered here. -/
def execSendRequest (s : State) : Host.Outcome State Fault Refusal :=
  match headReq s 0 with
  | none => .next s
  | some r =>
    if reqOp r == 2 then .next s
    else
      let n := reqWord r 0 % 65536
      let cfg := cfgOf s r.part r.epoch
      let s0 := takeReq s r
      let no := fun (st : Nat) => Host.Outcome.next (reply s0 r.reply st 0 0 0)
      let troupe := r.tumbler / 8
      let addr := field (reqWord r 1) 0 30
      let len := field (reqWord r 2) 0 16
      if quarantined s 138 then no 15
      else if reqOp r != 1 || field (reqWord r 0) 21 6 != 0 || field (reqWord r 0) 16 3 != 0 || reqWord r 1 / 2 ^ 30 != 0
        || reqWord r 2 / 2 ^ 16 != 0 || reqWord r 3 / 2 ^ 32 != 0 then no 7
      else match tget cfg.sess.sessions n, tget s.sess.sess n with
        | some c, some x =>
          let b := c.blk
          if !seesTenant r c.part c.tenant then no 7
          else if txFull s b.txq then reply (sessCount s0 n 4) r.reply 12 0 0 0 |> .next
          else if 1048576 < addr + ceilDiv len 4 || !(List.range (ceilDiv len 4)).all (fun i => troupeOwned s cfg r.part r.tenant troupe (addr + i)) then no 8
          else
            let idx := x.outIndex
            let extra := 12 + profileTag b.profile + 8 + (if b.ipVersion == 4 then 20 else 40) + (if b.tci == 0 then 14 else 18)
            if (lportCfg cfg b.lport).maxFrame < len + extra + 4 then no 2
            else if 2 ^ 48 - 1 ≤ idx then no 13
            else
              let explicit := bit (reqWord r 0) 19
              let ts := if explicit then reqWord r 3 % 2 ^ 32 else x.outTs
              let hdr := [byteOf 0x80, byteOf (b2n (bit (reqWord r 0) 20) * 128 + b.ptOut % 128)] ++ be 2 (idx % 65536) ++ be 4 ts ++ be 4 b.ssrcOut
              let pay := troupeOctets s troupe addr len
              let body := match b.profile, tget s.cipher.slots b.keyTx with
                | 0, _ => pay
                | _, some key => fit (len + profileTag b.profile) (Config.aeadSeal key.alg key.material (srtpNonce key b.ssrcOut idx) hdr pay)
                | _, none => pay
              let macs := drawBytes s0 12
              let f := etherFrame macs.1 b.tci b.ipVersion (ipUdp b.ipVersion b.localAddr b.remoteAddr b.localPort b.remotePort 0 0 (hdr ++ body))
              let s := txEnqueue macs.2 b.txq (.session n) f
              let s := (sessCount s n 1).onSession n (fun x => { x with outIndex := idx + 1, outTs := (ts + b.spf) % 2 ^ 32 })
              .next (reply s r.reply 0 0 0 0)
        | _, _ => no 7

/-- SHIFT_REQUEST: later ticks of a session move by one period (06 R167). -/
def execShiftRequest (s : State) : Host.Outcome State Fault Refusal :=
  match headReq s 0 with
  | none => .next s
  | some r =>
    if reqOp r != 2 then .next s
    else
      let n := reqWord r 0 % 65536
      let s0 := takeReq s r
      let no := fun (st : Nat) => Host.Outcome.next (reply s0 r.reply st 0 0 0)
      if quarantined s 138 then no 15
      else if field (reqWord r 0) 16 11 != 0 || reqWord r 1 != 0 || reqWord r 2 / 2 != 0 || reqWord r 3 != 0 then no 7
      else match tget (cfgOf s r.part r.epoch).sess.sessions n, tget s.sess.sess n with
        | some c, some x =>
          if !seesTenant r c.part c.tenant then no 7
          else if x.shift.isSome then no 14
          else .next (reply (s0.onSession n (fun x => { x with shift := some (bit (reqWord r 2) 0) })) r.reply 0 0 0 0)
        | _, _ => no 7

/-- NOTE_REQUEST: four words become an ACT_NOTE record on the owning function's booth (08 R235, R236). -/
def execNoteRequest (s : State) : Host.Outcome State Fault Refusal :=
  match headReq s 2 with
  | none => .next s
  | some r =>
    let s := takeReq s r
    let fn := match tget (cfgOf s r.part r.epoch).acts.bindings r.binding with | some b => b.fn | none => 0
    let s := raiseEvent s (ownerFn r.part r.tenant fn) 0x000A r.part r.tenant
      ([byteOf (r.binding % 64), byteOf r.tumbler] ++ zeros 14 ++ (r.words.take 4).flatMap (fun w => le 8 w.toNat))
    .next (reply s r.reply 0 0 0 0)

end Sys2Proof.Machine
end

