-- ==== Sys2Proof/Machine/Rx.lean ====
section
/-! DEFINITION. Machine/Rx.lean: ingress (05 R123 to R134): the MAC's checks, classification, meters, delivery, the
ingress buffer of lossless priorities, and priority flow control in both directions. -/

namespace Sys2Proof.Machine

/-- The configuration a network port applies to what spans partitions: the retiring one until the port's island has
adopted the change for every partition (02 R62). -/
def portCfg (s : State) (port : Nat) : Cfg :=
  match s.parts.findSome? (fun e => match e.2.old with
      | some (_, c) => if e.2.remaining.contains (130 + port) then some c else none
      | none => none) with
  | some c => c
  | none => s.cfg

/-- Is a frame an IEEE 802.3x PAUSE, or a PFC frame (05 R122, R123)? -/
def macControl (d : List Byte) : Option Nat := if w16 d 12 == 0x8808 then some (w16 d 14) else none

/-- The 802.1Q priority of a frame; an untagged frame has priority 0. -/
def prioOf (d : List Byte) : Nat := tciOf d / 8192

/-- Does an address match under a prefix: the address in the top bits of 128? -/
def prefixMatch (rule a pre ip : Nat) : Bool :=
  let x := if ip == 4 then a * 2 ^ 96 else a
  rule / 2 ^ (128 - pre) == x / 2 ^ (128 - pre)

/-- Does a receive rule match a frame (05 R126, 19 R518)? A rule with a port field matches no fragment. -/
def ruleMatches (r : RxRule) (lport : Nat) (d : List Byte) (p : Pkt) : Bool :=
  let b := fun i => bit r.matchBits i
  let l4 := (p.proto == 6 || p.proto == 17) && !p.fragment
  (r.lport == 0xFF || r.lport == lport)
    && (!b 0 || etherOf d == r.etherType)
    && (!b 1 || p.ip == r.ipVersion)
    && (!b 2 || (p.ip != 0 && p.proto == r.protocol))
    && (!b 3 || (p.ip != 0 && p.dscp == r.dscp))
    && (!b 4 || (p.ip != 0 && prefixMatch r.srcAddr p.src r.srcPrefix p.ip))
    && (!b 5 || (p.ip != 0 && prefixMatch r.dstAddr p.dst r.dstPrefix p.ip))
    && (!b 6 || (l4 && p.sport == r.srcPort))
    && (!b 7 || (l4 && p.dport == r.dstPort))

/-- The rule that decides for a frame: the lowest priority, then the lowest index. -/
def ruleFor (c : Cfg) (part lport : Nat) (d : List Byte) (p : Pkt) : Option (Nat × RuleCfg) :=
  (c.net.rules.filter (fun e => e.2.part == part && ruleMatches e.2.rule lport d p)).foldl
    (fun best e => match best with
      | none => some e
      | some x => if e.2.rule.priority < x.2.rule.priority then some e else some x) none

/-- Does a packet match a session's key (05 R124 test 3)? -/
def sessionMatches (part : Nat) (c : SessCfg) (p : Pkt) : Bool :=
  let b := c.blk
  c.part == part && p.ip == b.ipVersion && p.proto == 17 && p.dst == b.localAddr && p.dport == b.localPort
    && (b.remotePort == 0 || p.sport == b.remotePort) && (b.anyRemote || p.src == b.remoteAddr)

/-- Does a packet belong to an NVMe/TCP listener or connection of a partition (05 R124 test 5)? -/
def nvmeMatch (s : State) (c : Cfg) (part lport : Nat) (p : Pkt) : Option (Option Nat) :=
  match c.stor.listeners.find? (fun e => e.2.part == part && e.2.l.lport == lport && e.2.l.tcpPort == p.dport
      && e.2.l.ipVersion == p.ip && e.2.l.addr == p.dst) with
  | some e => some (if e.2.l.meter == 0xFFFF then none else some e.2.l.meter)
  | none =>
    if tany s.stor.tcps (fun _ t => t.part == part && t.localPort == p.dport && t.remotePort == p.sport && t.remoteAddr == p.src)
    then some none else none

/-- The result of classification: a destination with its meter, or the DROP counter. -/
def classify (s : State) (c : Cfg) (part lport : Nat) (d : List Byte) (p : Pkt) : Sum Nat (RxDest × Option Nat) :=
  let meter := fun (m : Nat) => if m == 0xFFFF then none else some m
  let whole := !p.fragment
  match (if whole then c.sess.sessions.find? (fun e => sessionMatches part e.2 p) else none) with
  | some e => .inr (.session e.1, meter e.2.blk.meter)
  | none =>
    if whole && p.proto == 17 && p.dport == tgetD c.net.gdpPort part 17411 then
      .inr (.gdp, meter (tgetD c.net.gdpMeter part 0xFFFF))
    else match (if whole && p.proto == 6 then nvmeMatch s c part lport p else none) with
      | some m => .inr (.nvme, m)
      | none => match ruleFor c part lport d p with
        | some e => .inr (.ring e.2.rule.ring (some e.1), meter e.2.rule.meter)
        | none => match c.net.rings.find? (fun e => e.2.part == part && e.2.isDefault && e.2.lport == lport) with
          | some e => .inr (.ring e.1 none, none)
          | none => .inl 6

/-- Is a frame's destination address one the port accepts (05 R124 test 1)? -/
def macAccepts (l : LPortCfg) (d : List Byte) : Bool :=
  let dst := ofBe (d.take 6)
  l.promiscuous || dst == 0xFFFFFFFFFFFF || tany l.unicast (fun _ a => a == dst) || tany l.multicast (fun _ a => a == dst)

/-- Hand a classified frame to its destination; none where the destination cannot accept it. -/
def rxHand (s : State) (h : Held) : Option State :=
  match h.dest with
  | .ring r rule => rxDeliver s r h.lport h.data (rule.getD 0) h.colour rule.isNone h.time
  | .session n =>
    match tget (cfgOf s h.part h.epoch).sess.sessions n with
    | some c =>
      if (c.blk.profile != 0 && !intakeFree s h.part) || quarantined s 138 then none
      else some (sessInbound s n h.lport c h.epoch h.colour h.data h.time)
    | none => none
  | .gdp => if quarantined s 140 then none else some s
  | .nvme => some s

/-- Octets of a logical port's priority in the ingress buffer. -/
def heldOctets (s : State) (lport prio : Nat) : Nat :=
  ((s.net.held.filter (fun h => h.lport == lport && h.prio == prio)).map (fun h => h.data.length + 4)).sum

/-- Send a PFC frame for one priority and count it. -/
def pfcSend (s : State) (lport prio : Nat) (pause : Bool) : State :=
  (s.onLPort lport (fun l => { l with
    txPfc := bump l.txPfc prio
    pfc := tupd l.pfc prio {} (fun p => { p with sent := pause }) })).send (.pfc lport prio pause)

/-- A lossless priority reaches XOFF (05 R132). -/
def pfcXoff (s : State) (lport prio : Nat) : State :=
  let c := lportCfg (portCfg s (lport / 8)) lport
  let p := tgetD (lportOf s lport).pfc prio {}
  if bit c.lossless prio && !p.sent && listGet c.xoff prio 0 * 256 ≤ heldOctets s lport prio then pfcSend s lport prio true else s

/-- A lossless priority falls to XON. -/
def pfcXon (s : State) (lport prio : Nat) : State :=
  let c := lportCfg (portCfg s (lport / 8)) lport
  let p := tgetD (lportOf s lport).pfc prio {}
  if p.sent && heldOctets s lport prio ≤ listGet c.xon prio 0 * 256 then pfcSend s lport prio false else s

/-- Record the ingress buffer's high-water mark with a frame of `n` octets in it (05 R148). -/
def ingressMark (s : State) (port n : Nat) : State :=
  let used := ((s.net.held.filter (fun h => h.lport / 8 == port)).map (fun h => h.data.length + 4)).sum + n
  s.onNet (fun x => { x with hwIngress := tupd x.hwIngress port 0 (fun m => max m used) })

/-- A classified frame goes to its destination, waits, or is dropped (05 R133). -/
def rxSteer (s : State) (h : Held) : State :=
  let c := lportCfg (portCfg s (h.lport / 8)) h.lport
  let lossless := bit c.lossless h.prio
  let behind := lossless && s.net.held.any (fun x => x.lport == h.lport && x.prio == h.prio)
  match (if behind then none else rxHand s h) with
  | some s => s
  | none =>
    if lossless then pfcXoff (s.onNet (fun n => { n with held := n.held ++ [h] })) h.lport h.prio
    else dropCount s h.lport (match h.dest with | .ring _ _ => 8 | _ => 9)

/-- RX_FRAME: a frame arrives at a MAC: its octets without FCS, whether FCS and FEC are good, and how many FEC codewords
were corrected in it (05 R123 to R133). -/
def execRxFrame (lport : Nat) (d : List Byte) (fcsOk fecOk : Bool) (corrected : Nat) (s : State) :
    Host.Outcome State Fault Refusal :=
  let c := portCfg s (lport / 8)
  let l := lportCfg c lport
  if !ingress s || !lportExists c lport || !(lportOf s lport).up || quarantined s (130 + lport / 8) then .next s
  else
    let s := if corrected == 0 then s else rindMinute s (14 + lport / 8) corrected
    let len := d.length + 4
    if !fcsOk then .next (dropCount s lport 0)
    else if len < 64 then .next (dropCount s lport 1)
    else if l.maxFrame < len then .next (dropCount s lport 2)
    else if !fecOk then .next (dropCount s lport 3)
    else match macControl d with
      | some op =>
        .next (if op == 1 then s.onLPort lport (fun x => { x with rxPauseIgnored := modAdd 64 x.rxPauseIgnored 1 }) else s)
      | none =>
        let s := (ingressMark s (lport / 8) len).onLPort lport (fun x => { x with
          rxFrames := modAdd 64 x.rxFrames 1
          rxOctets := modAdd 64 x.rxOctets len })
        if !macAccepts l d then .next (dropCount s lport 4)
        else match tget l.vlan (if tagged d then tciOf d % 4096 else l.defaultVid) with
          | none => .next (dropCount s lport 5)
          | some part =>
            let cp := cfgAt s part (130 + lport / 8)
            match classify s cp part lport d (parseFrame d) with
            | .inl k => .next (dropCount s lport k)
            | .inr (dest, meter) =>
              let m := match meter with
                | some k => meterFrame s k len (tagged d && bit (tciOf d) 12)
                | none => (3, 0, none, s)
              if m.2.1 == 2 then .next (dropCount m.2.2.2 lport 7)
              else
                let data := if m.2.1 == 1 then (match m.2.2.1 with | some g => remark d g.dscp | none => d) else d
                .next (rxSteer m.2.2.2 {
                  lport := lport, prio := prioOf d, part := part, epoch := epochAt s part (130 + lport / 8), dest := dest
                  colour := m.1, data := data, time := s.clock.now, since := s.clock.now })

/-- Received pause on one priority: quanta 0 end it (05 R134); a priority whose pause the watchdog has ended is not
paused again until the watchdog lets it (04 R102). -/
def pauseRx (s : State) (lport prio quanta : Nat) : State :=
  s.onLPort lport (fun l => { l with
    rxPfc := bump l.rxPfc prio
    pfc := tupd l.pfc prio {} (fun p => { p with
      lastRx := s.clock.now
      paused := quanta != 0 && !p.ignored
      since := if p.paused then p.since else s.clock.now }) })

/-- RX_PFC_FRAME: a PFC frame with its enabled priorities and their quanta. -/
def execRxPfcFrame (lport : Nat) (quanta : List (Nat × Nat)) (s : State) : Host.Outcome State Fault Refusal :=
  if !lportExists (portCfg s (lport / 8)) lport || !(lportOf s lport).up then .next s
  else .next (quanta.foldl (fun s q => pauseRx s lport q.1 q.2) s)

/-- PFC_PAUSE_EXPIRE. -/
def execPfcPauseExpire (lport prio : Nat) (s : State) : Host.Outcome State Fault Refusal :=
  .next (s.onLPort lport (fun l => { l with pfc := tmod l.pfc prio (fun p => { p with paused := false }) }))

/-- PFC_REFRESH: a pause the port has sent is sent again before it expires. -/
def execPfcRefresh (lport prio : Nat) (s : State) : Host.Outcome State Fault Refusal :=
  if (tgetD (lportOf s lport).pfc prio {}).sent then .next (pfcSend s lport prio true) else .next s

/-- PAUSE_WATCHDOG (04 R102, D4). -/
def execPauseWatchdog (lport prio : Nat) (s : State) : Host.Outcome State Fault Refusal :=
  if !(tgetD (lportOf s lport).pfc prio {}).paused then .next s
  else
    let s := s.onLPort lport (fun l => { l with pfc := tmod l.pfc prio (fun p => { p with paused := false, ignored := true }) })
    .next (rindCount (raiseEvent s 0 0x0008 0 0 [byteOf lport, byteOf prio]) 0x1B)

/-- PAUSE_QUIET_EXPIRE: 1 ms without a received pause lets the port honour pause again. -/
def execPauseQuietExpire (lport prio : Nat) (s : State) : Host.Outcome State Fault Refusal :=
  .next (s.onLPort lport (fun l => { l with pfc := tmod l.pfc prio (fun p => { p with ignored := false }) }))

/-- The oldest frame a lossless priority of a logical port holds, and the buffer without it. -/
def heldFirst (s : State) (lport prio : Nat) : Option (Held × State) :=
  let mine := fun (h : Held) => h.lport == lport && h.prio == prio
  match s.net.held.find? mine with
  | some h => some (h, s.onNet (fun n => { n with held := n.held.eraseP mine }))
  | none => none

/-- RX_HOLD_RELEASE: the destination of the oldest held frame accepts it (05 R133). -/
def execRxHoldRelease (lport prio : Nat) (s : State) : Host.Outcome State Fault Refusal :=
  match heldFirst s lport prio with
  | none => .next s
  | some (h, t) =>
    match rxHand t h with
    | some t => .next (pfcXon t lport prio)
    | none => .next s

/-- RX_HOLD_MAX_EXPIRE: the oldest held frame has waited RX_HOLD_MAX. -/
def execRxHoldMaxExpire (lport prio : Nat) (s : State) : Host.Outcome State Fault Refusal :=
  match heldFirst s lport prio with
  | none => .next s
  | some (_, t) => .next (pfcXon (dropCount t lport 10) lport prio)

end Sys2Proof.Machine
end

