-- ==== Sys2Proof/Machine/Carousel.lean ====
section
/-! DEFINITION. Machine/Carousel.lean: egress (05 R137 to R147): gates and the fit rule, the fixed-equal-share slots, the
choice of the next frame, links, gate list cycles, the refill tick and the queue samplers. -/

namespace Sys2Proof.Machine

/-- Sum the runs of open entries: the length of the opening that starts a list of (gates, ns). -/
def openRun (cls : Nat) : List (Nat × Nat) → Nat
  | [] => 0
  | (g, n) :: r => if bit g cls then n + openRun cls r else 0

/-- The entries of a list from a time into its cycle on, one whole cycle. -/
def gatesFrom : List (Nat × Nat) → Nat → List (Nat × Nat) → List (Nat × Nat)
  | [], _, seen => seen
  | (g, n) :: r, t, seen => if t < n then (g, n - t) :: r ++ seen ++ [(g, t)] else gatesFrom r (t - n) (seen ++ [(g, n)])

/-- The entries of a list in ns. -/
def gateList (g : Gcl) : List (Nat × Nat) := g.entries.map (fun e => (e.gates, 8 * e.interval))

/-- How long a class stays open from a time on; none where its gate never closes (05 R139, R141). -/
def openFor (g : Option Gcl) (cls now : Nat) : Option Nat :=
  match g with
  | none => none
  | some g =>
    let es := gateList g
    if es.all (fun e => bit e.1 cls) then none
    else some (openRun cls (gatesFrom es ((((now : Int) - g.base) % (max 1 g.cycle : Nat)).toNat) []))

/-- The longest opening of a class in a cycle; none where its gate never closes. -/
def longestOpening (g : Gcl) (cls : Nat) : Option Nat :=
  let es := gateList g
  if es.all (fun e => bit e.1 cls) then none
  else some (maxOf ((List.range es.length).map (fun i => openRun cls (es.drop i ++ es.take i))))

/-- Is a class open now? -/
def gateOpen (s : State) (lport cls : Nat) : Bool :=
  match openFor (tget s.net.gclActive (lport / 8)) cls s.clock.now with | none => true | some n => 0 < n

/-- Does a frame fit its class's opening (05 R141)? -/
def gateFits (s : State) (c : Cfg) (lport cls len : Nat) : Bool :=
  match openFor (tget s.net.gclActive (lport / 8)) cls s.clock.now with
  | none => true
  | some n => gateTime len (lportRate c lport) ≤ n

/-- Can a frame never fit its class's openings (05 R142)? -/
def neverFits (s : State) (c : Cfg) (lport cls len : Nat) : Bool :=
  match tget s.net.gclActive (lport / 8) with
  | none => false
  | some g => match longestOpening g cls with
    | none => false
    | some n => decide (n < gateTime len (lportRate c lport))

/-- The slot of the fixed-equal-share rotation a logical port is in, and the ns that remain of it (05 R143). -/
def slotNow (s : State) (c : Cfg) (lport : Nat) : Nat × Nat :=
  let len := max 1 (gateTime (lportCfg c lport).maxFrame (lportRate c lport))
  (s.clock.cadence / len % 17, len - s.clock.cadence % len)

/-- A class shaper as it stands. -/
def classBucket (s : State) (lport cls : Nat) : Bucket := tgetD s.net.classBuckets (8 * lport + cls) {}

/-- Is the head frame of a queue a candidate (05 R137)? -/
def candidate (s : State) (c : Cfg) (k : TxqCfg) (q : Txq) : Bool :=
  match q.frames with
  | [] => false
  | f :: _ =>
    let len := f.data.length + 4
    let slot := slotNow s c k.lport
    !(tgetD (lportOf s k.lport).pfc k.cls {}).paused && bucketOpen q.bucket
      && (s.fixedMode || bucketOpen (classBucket s k.lport k.cls))
      && gateFits s c k.lport k.cls len
      && (!s.fixedMode || (slot.1 == k.part && gateTime len (lportRate c k.lport) ≤ slot.2))

/-- Deficit round robin over (number, quantum, length), from the one served last on: the choice and the deficits. -/
def drr : Nat → List (Nat × Nat × Nat) → Tbl Nat → Option (Nat × Tbl Nat)
  | 0, _, _ => none
  | _, [], _ => none
  | fuel + 1, x :: rest, d =>
    let have_ := tgetD d x.1 0
    if x.2.2 ≤ have_ then some (x.1, tset d x.1 (have_ - x.2.2))
    else match rest ++ [x] with
      | y :: r => drr fuel (y :: r) (tupd d y.1 0 (· + y.2.1))
      | [] => none

/-- A list turned so that it starts at a number, or at the next greater one with its quantum added. -/
def turnTo (l : List (Nat × Nat × Nat)) (last : Nat) (d : Tbl Nat) : List (Nat × Nat × Nat) × Tbl Nat :=
  let hi := l.filter (fun x => last ≤ x.1)
  let lo := l.filter (fun x => x.1 < last)
  match hi ++ lo with
  | [] => ([], d)
  | x :: r => (x :: r, if x.1 == last then d else tupd d x.1 0 (· + x.2.1))

/-- One deficit-round-robin choice. -/
def drrPick (l : List (Nat × Nat × Nat)) (last : Nat) (d : Tbl Nat) : Option (Nat × Tbl Nat) :=
  let t := turnTo l last d
  drr (160 * l.length + 160) t.1 t.2

/-- The choice within a class: by deficit over queues with a share, else in turn over share-0 queues. The result: the
queue, the deficits of the class's queues after it, and whether it was a share-0 queue. -/
def pickQueue (lp : LPort) (cls : Nat) (qs : List (Nat × TxqCfg × Txq)) : Option (Nat × Tbl Nat × Bool) :=
  let mine := qs.filter (fun x => x.2.1.cls == cls)
  let shared := mine.filter (fun x => x.2.1.share != 0)
  let headLen := fun (q : Txq) => match q.frames with | f :: _ => f.data.length + 4 | [] => 0
  if shared.isEmpty then
    match firstAfterNum (mine.map (·.1)) (tgetD lp.drrNext (cls + 8) 8192) with
    | some q => some (q, [], true)
    | none => none
  else
    match drrPick (shared.map (fun x => (x.1, x.2.1.share * 64, headLen x.2.2))) (tgetD lp.drrNext cls 0)
        (shared.foldl (fun t x => tset t x.1 x.2.2.deficit) []) with
    | some r => some (r.1, r.2, false)
    | none => none
where
  /-- The first number after a place, in turn. -/
  firstAfterNum (l : List Nat) (last : Nat) : Option Nat :=
    match l.find? (fun x => last < x) with | some x => some x | none => l.head?

/-- Flush the head frames of a queue that can never fit (05 R142). -/
def flushNever (s : State) (c : Cfg) (q : Nat) (k : TxqCfg) : Nat → State
  | 0 => s
  | n + 1 =>
    match tget s.net.txqs q with
    | none => s
    | some x =>
      match x.frames with
      | [] => s
      | f :: fs =>
        if neverFits s c k.lport k.cls (f.data.length + 4) then
          let s := s.onTxq q (fun x => { x with frames := fs })
          flushNever (dropCount (txFlushOne s q f 3) k.lport 11) c q k n
        else s

/-- Grant a queue's head frame to the MAC and charge both shapers. -/
def grantFrame (s : State) (q : Nat) (k : TxqCfg) : State :=
  match tget s.net.txqs q with
  | none => s
  | some x =>
    match x.frames with
    | [] => s
    | f :: fs =>
      let len := f.data.length + 4
      let s := s.onTxq q (fun x => { x with
        frames := fs
        bucket := bucketCharge x.bucket len
        deficit := if fs.isEmpty then 0 else x.deficit
        hwSojourn := max x.hwSojourn (min (s.clock.now - f.enqueued) (2 ^ 64 - 1)) })
      let s := if s.fixedMode then s
        else s.onNet (fun n => { n with classBuckets := tupd n.classBuckets (8 * k.lport + k.cls) {} (fun b => bucketCharge b len) })
      let s := s.onLPort k.lport (fun l => { l with wire := some { queue := q, frame := f, grantedAt := s.clock.now } })
      s.send (.frame k.lport q f.data)

/-- The queues of a logical port with their configuration and state. -/
def portQueues (s : State) (lport : Nat) : List (Nat × TxqCfg × Txq) :=
  s.cfg.net.txqs.filterMap (fun e =>
    if e.2.lport == lport then (tget s.net.txqs e.1).map (fun x => (e.1, e.2, x)) else none)

/-- CAROUSEL_SELECT: the MAC of a logical port can take a frame (05 R137). -/
def execCarouselSelect (lport : Nat) (s : State) : Host.Outcome State Fault Refusal :=
  let c := portCfg s (lport / 8)
  let lp := lportOf s lport
  if !lp.up || lp.wire.isSome || !lportExists c lport then .next s
  else
    let s := (portQueues s lport).foldl (fun s e => flushNever s c e.1 e.2.1 e.2.2.frames.length) s
    let qs := (portQueues s lport).filter (fun e => candidate s c e.2.1 e.2.2)
    let picks := (List.range 8).filterMap (fun k => (pickQueue lp k qs).map (fun r => (k, r)))
    let weights := (lportCfg c lport).classes
    let strict := (picks.filter (fun x => listGet weights x.1 1 == 0)).getLast?
    let lenOf := fun (q : Nat) => match qs.find? (fun e => e.1 == q) with
      | some e => (match e.2.2.frames with | f :: _ => f.data.length + 4 | [] => 0)
      | none => 0
    let choice : Option (Nat × Tbl Nat) := match strict with
      | some x => some (x.1, lp.classDeficit)
      | none => drrPick (picks.map (fun x => (x.1, listGet weights x.1 1 * 64, lenOf x.2.1))) lp.classNext lp.classDeficit
    match choice with
    | none => .next s
    | some (cls, deficits) =>
      match picks.find? (fun x => x.1 == cls), strict with
      | some (_, q, qd, spare), st =>
        match txqCfg s q with
        | none => .next s
        | some k =>
          let s := s.onLPort lport (fun l => { l with
            classDeficit := deficits
            classNext := if st.isSome then l.classNext else cls
            drrNext := tset l.drrNext (if spare then cls + 8 else cls) q })
          let s := qd.foldl (fun s e => s.onTxq e.1 (fun x => { x with deficit := e.2 })) s
          .next (txDrain (grantFrame s q k) q 8192)
      | none, _ => .next s

/-- TX_FRAME_END: the frame on the wire of a logical port has left it; `time` is the time-stamp of its start (05 R150). -/
def execTxFrameEnd (lport time : Nat) (s : State) : Host.Outcome State Fault Refusal :=
  match (lportOf s lport).wire with
  | none => .next s
  | some w =>
    let s := s.onLPort lport (fun l => { l with
      wire := none
      txFrames := modAdd 64 l.txFrames 1
      txOctets := modAdd 64 l.txOctets (w.frame.data.length + 4) })
    .next (txComplete s w.queue w.frame.use true 0 time)

/-- LINK_DOWN. -/
def execLinkDown (lport : Nat) (s : State) : Host.Outcome State Fault Refusal := .next (linkDown s lport)

/-- LINK_UP: a link trains, where its port has its reference and is in service (05 R146, 24 R645). -/
def execLinkUp (lport : Nat) (s : State) : Host.Outcome State Fault Refusal :=
  if ingress s && lportExists (portCfg s (lport / 8)) lport && s.clock.eref && !quarantined s (130 + lport / 8) then .next (linkUp s lport)
  else .next s

/-- GCL_CYCLE_START: a cycle of a port's list starts; a list that its island has adopted takes effect (05 R140). -/
def execGclCycleStart (port : Nat) (s : State) : Host.Outcome State Fault Refusal :=
  let adopting := s.parts.any (fun e => e.2.remaining.contains (130 + port))
  let due := tget s.net.gclPending port
  if (tget s.net.gclActive port).isNone && due.isNone then .next s
  else
    let s := s.onNet (fun n => { n with carTurn := tupd n.carTurn port 0 (fun t => modAdd 48 t 1) })
    match due with
    | some g =>
      if adopting then .next s
      else .next (s.onNet (fun n => { n with
        gclPending := tdel n.gclPending port
        gclActive := match g with | some x => tset n.gclActive port x | none => tdel n.gclActive port }))
    | none => .next s

/-- BUCKET_TICK: every meter and shaper gains one microsecond of tokens (05 R128). -/
def execBucketTick (s : State) : Host.Outcome State Fault Refusal :=
  .next (s.onNet (fun n => { n with
    meters := tmap n.meters (fun _ m => meterTick m)
    txqs := tmap n.txqs (fun _ q => { q with bucket := bucketTick q.bucket })
    classBuckets := tmap n.classBuckets (fun _ b => bucketTick b) }))

/-- QUEUE_SAMPLE_TICK: a sampler's period ends (05 R147). -/
def execQueueSampleTick (q : Nat) (s : State) : Host.Outcome State Fault Refusal :=
  match tget s.net.samplers q, txqCfg s q, tget s.net.txqs q with
  | some m, some c, some x =>
    let s1 := s.onNet (fun n => { n with samplers := tmod n.samplers q (fun m => { m with seq := modAdd 32 m.seq 1 }) })
    if 2 ^ m.log2 ≤ modSub 32 m.prod m.cons then .next s1
    else
      let delay := match x.frames with | f :: _ => min (s.clock.now - f.enqueued) 0xFFFFFFFF | [] => 0
      let neg := fun (b : Bucket) => b.cur.rate != 0xFFFFFFFF && decide (b.tokens < 0)
      let flags := b2n (gateOpen s c.lport c.cls) + 2 * b2n (tgetD (lportOf s c.lport).pfc c.cls {}).paused
        + 4 * b2n (neg x.bucket || neg (classBucket s c.lport c.cls)) + 8 * b2n (!(lportOf s c.lport).up)
      let rcd := le 9 q ++ [byteOf flags] ++ le 2 (min x.frames.length 65535) ++ le 4 (txDepth x) ++ le 4 delay
        ++ le 4 m.seq ++ le 8 s.clock.now
      let s2 := hostPost s1 m.fn none (m.base + 32 * (m.prod % 2 ^ m.log2)) rcd
      let s2 := s2.onNet (fun n => { n with samplers := tmod n.samplers q (fun m => { m with prod := modAdd 32 m.prod 1 }) })
      .next (msixRaise s2 m.fn m.vector)
  | _, _, _ => .next s

end Sys2Proof.Machine
end

