-- ==== Sys2Proof/Machine/NetCmds.lean ====
section
/-! DEFINITION. Machine/NetCmds.lean: the commands of the NETWORK group (05, 19 R517 to R519). -/

namespace Sys2Proof.Machine

/-- The logical ports a mode has on a port. -/
def modePorts (port mode : Nat) : List Nat := (modeOffsets mode).map (· + 8 * port)

/-- Does a transmit queue, receive rule, session or class shaper name a logical port (05 R120)? -/
def lportNamed (c : Cfg) (n : Nat) : Bool :=
  tany c.net.txqs (fun _ q => q.lport == n) || tany c.net.rules (fun _ r => r.rule.lport == n)
    || tany c.sess.sessions (fun _ x => x.blk.lport == n) || tany c.net.classShapers (fun k _ => k / 8 == n)

/-- PORT_MODE_SET (05 R120). Links of the old mode go down; those of the new mode train. -/
def execPortModeSet (h : Hdr) (port mode : Nat) (s : State) : Host.Outcome State Fault Refusal :=
  let old := fun (s : State) => modePorts port (tgetD s.cfg.net.portMode port 0)
  boothStep (info 0x08 0x01) h
    (fun s =>
      [(decide (4 ≤ port) || decide (4 ≤ mode), .badRequest),
       ((old s).any (fun n => !(modePorts port mode).contains n && lportNamed s.cfg n), .portInUse)])
    (fun s =>
      let s := (old s).foldl linkDown s
      let s := (modePorts port mode).foldl (fun s n => s.send (.linkTraining n)) s
      .device (commitAll s (fun c => { c with net := { c.net with portMode := tset c.net.portMode port mode } }))) s

/-- Octets of a receive ring's buffers. -/
def bufSize (c : RxRingCfg) : Nat := if c.bufCode == 0 then 2048 else 10240

/-- Would some rule that matches a logical port have a ring with too small a buffer (05 R126)? -/
def rulesTooSmall (c : Cfg) (lport maxFrame : Nat) : Bool :=
  tany c.net.rules (fun _ r => (r.rule.lport == 0xFF || r.rule.lport == lport)
    && (match tget c.net.rings r.rule.ring with | some g => decide (bufSize g < maxFrame) | none => false))

/-- Change one logical port's configuration. -/
def setLport (c : Cfg) (n : Nat) (f : LPortCfg → LPortCfg) : Cfg :=
  { c with net := { c.net with lports := tupd c.net.lports n {} f } }

/-- PORT_CONFIG_SET (19 R517). -/
def execPortConfigSet (h : Hdr) (p : PortConfig) (s : State) : Host.Outcome State Fault Refusal :=
  boothStep (info 0x08 0x02) h
    (fun s =>
      [(!lportExists s.cfg p.lport || p.maxFrame < 64 || 9216 < p.maxFrame || 4095 < p.defaultVid
          || p.rxHoldMaxUs < 100 || 100000 < p.rxHoldMaxUs || p.pauseWatchdogMs < 10 || 2000 < p.pauseWatchdogMs, .badRequest),
       (rulesTooSmall s.cfg p.lport p.maxFrame, .bufferSmall)])
    (fun s => .device (commitAll s (fun c => setLport c p.lport (fun l => { l with
      maxFrame := p.maxFrame
      defaultVid := p.defaultVid
      promiscuous := p.promiscuous
      strip := p.strip
      lossless := p.lossless
      xoff := p.xoff
      xon := p.xon
      rxHoldMaxUs := p.rxHoldMaxUs
      pauseWatchdogMs := p.pauseWatchdogMs })))) s

/-- VLAN_MAP_SET. -/
def execVlanMapSet (h : Hdr) (lport vid part : Nat) (s : State) : Host.Outcome State Fault Refusal :=
  boothStep (info 0x08 0x03) h
    (fun s => [(!lportExists s.cfg lport || 4095 < vid || (15 < part && part != 0xFF), .badRequest)])
    (fun s => .device (commitAll s (fun c => setLport c lport (fun l =>
      { l with vlan := if part == 0xFF then tdel l.vlan vid else tset l.vlan vid part })))) s

/-- MAC_FILTER_SET. -/
def execMacFilterSet (h : Hdr) (lport list_ index : Nat) (valid : Bool) (mac : Nat) (s : State) :
    Host.Outcome State Fault Refusal :=
  let put := fun (t : Tbl Nat) => if valid then tset t index mac else tdel t index
  boothStep (info 0x08 0x04) h
    (fun s => [(!lportExists s.cfg lport || 1 < list_ || 1023 < index, .badRequest)])
    (fun s => .device (commitAll s (fun c => setLport c lport (fun l =>
      if list_ == 0 then { l with unicast := put l.unicast } else { l with multicast := put l.multicast })))) s

/-- RXRING_CREATE. -/
def execRxringCreate (h : Hdr) (r : RxRingCreate) (s : State) : Host.Outcome State Fault Refusal :=
  boothStep (info 0x08 0x05) h
    (fun s =>
      [(r.log2 < 4 || 12 < r.log2 || 1 < r.bufCode || vectorsOf h.fn ≤ r.vector || !lportExists s.cfg r.lport
          || !baseOk r.base 16, .badRequest),
       ((tfreeIn s.net.rings 0 65535).isNone, .noResource),
       (!doorbellsFree s h.fn 2, .noDoorbells)])
    (fun s =>
      let n := (tfreeIn s.net.rings 0 65535).getD 0
      let c : RxRingCfg := { part := hp h, tenant := h.tenant, fn := h.fn, base := r.base, log2 := r.log2, bufCode := r.bufCode,
                             vector := r.vector, isDefault := r.isDefault, lport := r.lport }
      let d := giveDoorbells s h.fn [.rxBuf n, .rxComp n]
      let s := d.2.onNet (fun x => { x with rings := tset x.rings n {} })
      .epoch (commitEpoch s (hp h) (fun g => { g with net := { g.net with rings := tset g.net.rings n c } })) (hp h)
        (le 2 n ++ d.1.flatMap (le 2))) s

/-- Take a receive ring out of the configuration; its frames under the retiring epoch still reach it. -/
def dropRing (c : Cfg) (n : Nat) : Cfg := { c with net := { c.net with rings := tdel c.net.rings n } }

/-- RXRING_DESTROY. -/
def execRxringDestroy (h : Hdr) (ring : Nat) (s : State) : Host.Outcome State Fault Refusal :=
  boothStep (info 0x08 0x06) h
    (fun s => match tget s.cfg.net.rings ring with
      | none => [(true, .badRequest)]
      | some c => [(notMine h c.part c.tenant, .notPermitted)])
    (fun s => .epoch (commitEpoch s (hp h) (fun c => dropRing c ring)) (hp h) []) s

/-- Is a meter one the command may name; 0xFFFF names none? -/
def meterBad (s : State) (h : Hdr) (m : Nat) : Bool :=
  m != 0xFFFF && (match tget s.cfg.net.meters m with | some c => notMine h c.part c.tenant | none => true)

/-- The fields of a rule block outside their ranges. -/
def ruleFieldsBad (s : State) (b : RxRule) : Bool :=
  !b.rsvZero || (bit b.matchBits 1 && b.ipVersion != 4 && b.ipVersion != 6) || 63 < b.dscp || 128 < b.srcPrefix || 128 < b.dstPrefix
    || (b.lport != 0xFF && !lportExists s.cfg b.lport)

/-- RXRULE_SET (05 R126, 19 R518). The ring is one of the partition's or of the manager function (05 R125). -/
def execRxruleSet (h : Hdr) (rule : Nat) (valid : Bool) (blk : HostBlk RxRule) (s : State) : Host.Outcome State Fault Refusal :=
  let b := blk.getD { priority := 0, ring := 0, meter := 0xFFFF, etherType := 0, ipVersion := 4, protocol := 0, dscp := 0,
                      matchBits := 0, srcPort := 0, dstPort := 0, srcAddr := 0, dstAddr := 0, srcPrefix := 0, dstPrefix := 0,
                      lport := 0xFF, rsvZero := true }
  let pick := fun (s : State) => pickNumber s.cfg.net.rules s.fixedMode (hp h) 256 4096 rule
  boothStep (info 0x08 0x07) h
    (fun s =>
      let n := (pick s).getD 4096
      let old := tget s.cfg.net.rules n
      [(!choose16 rule && 4095 < rule, .badRequest), (!valid && choose16 rule, .badRequest),
       ((match old with | some c => notMine h c.part c.tenant | none => false), .notPermitted),
       (valid && blk.isNone, .hostAbort), (valid && ruleFieldsBad s b, .badRequest),
       (valid && (match tget s.cfg.net.rings b.ring with
          | some g => (g.fn != 0 && notMine h g.part g.tenant) | none => true), .badRequest),
       (valid && meterBad s h b.meter, .badRequest),
       (valid && (match tget s.cfg.net.rings b.ring with
          | some g => (List.range 32).any (fun p => (b.lport == 0xFF || b.lport == p) && lportExists s.cfg p
              && decide (bufSize g < (lportCfg s.cfg p).maxFrame))
          | none => false), .bufferSmall),
       (valid && ((pick s).isNone || (s.fixedMode && n / 256 != hp h)), .noResource)]
      ++ (if valid && old.isNone then roomChecks s (hp h) (hcharge h) 13 1 .noResource else []))
    (fun s =>
      let n := (pick s).getD 0
      .epoch (commitEpoch s (hp h) (fun c => { c with net := { c.net with
        rules := if valid then tset c.net.rules n { part := hp h, tenant := h.tenant, fn := h.fn, rule := b }
                 else tdel c.net.rules n } })) (hp h) (le 2 n)) s

/-- TXQ_CREATE (05 R135). -/
def execTxqCreate (h : Hdr) (q : TxqCreate) (s : State) : Host.Outcome State Fault Refusal :=
  let pick := fun (s : State) => pickNumber s.net.txqs s.fixedMode (hp h) 512 8192 q.queue
  boothStep (info 0x08 0x08) h
    (fun s =>
      [((!choose16 q.queue && 8191 < q.queue) || !lportExists s.cfg q.lport || 7 < q.cls || 255 < q.share
          || meterBad s h q.meter || q.size == 0
          || (if q.internal then q.base != 0 else (q.log2 < 4 || 12 < q.log2 || vectorsOf h.fn ≤ q.vector || !baseOk q.base 16)),
          .badRequest),
       ((match pick s with | some n => thas s.net.txqs n || (s.fixedMode && n / 512 != hp h) | none => true), .noResource)]
      ++ roomChecks s (hp h) (hcharge h) 12 1 .noResource
      ++ [(!q.internal && !doorbellsFree s h.fn 2, .noDoorbells)])
    (fun s =>
      let n := (pick s).getD 0
      let sh : Shaper := { rate := q.rateKbps, size := q.size }
      let c : TxqCfg := { part := hp h, tenant := h.tenant, fn := h.fn, lport := q.lport, cls := q.cls, share := q.share,
                          internal := q.internal, meter := q.meter, base := q.base, log2 := q.log2, vector := q.vector,
                          frameLimit := q.frameLimit, shaper := sh }
      let d := if q.internal then ([], s) else giveDoorbells s h.fn [.txProd n, .txComp n]
      let s := d.2.onNet (fun x => { x with
        txqs := tset x.txqs n { bucket := { cur := sh, tokens := bucketFull sh.size } } })
      .epoch (commitEpoch s (hp h) (fun g => { g with net := { g.net with txqs := tset g.net.txqs n c } })) (hp h)
        (le 2 n ++ d.1.flatMap (le 2))) s

/-- The checks of a command that names a transmit queue. -/
def txqNamed (h : Hdr) (q : Nat) (s : State) : List (Bool × Status) :=
  match txqCfg s q with
  | none => [(true, .badRequest)]
  | some c => [(notMine h c.part c.tenant, .notPermitted)]

/-- Take a transmit queue away: its frames complete FLUSHED, and its sampler goes with it (log entry 22, DEDUCED). -/
def txqDestroy (s : State) (q : Nat) : State :=
  let s := (txFlushWaits (txFlushAll s q 1).1 q 1).1
  s.onNet (fun n => { n with txqs := tdel n.txqs q, samplers := tdel n.samplers q })

/-- Take a transmit queue out of the configuration. -/
def dropTxq (c : Cfg) (n : Nat) : Cfg := { c with net := { c.net with txqs := tdel c.net.txqs n } }

/-- TXQ_DESTROY. -/
def execTxqDestroy (h : Hdr) (q : Nat) (s : State) : Host.Outcome State Fault Refusal :=
  boothStep (info 0x08 0x09) h (txqNamed h q)
    (fun s => .epoch (commitEpoch (txqDestroy s q) (hp h) (fun c => dropTxq c q)) (hp h) []) s

/-- Is a descriptor of a queue still to complete: queued, read, posted, or on the wire? -/
def descPlace (s : State) (q count : Nat) : Option (Sum TxFrame Bool) :=
  match tget s.net.txqs q, txqCfg s q with
  | some x, some c =>
    let isIt := fun (u : TxUse) => match u with | .ring n _ _ => n == count | _ => false
    match x.frames.find? (fun f => isIt f.use) with
    | some f => some (.inl f)
    | none =>
      if x.waits.any (fun w => w.count == count) then some (.inr true)
      else if modSub 32 count x.descCons < modSub 32 x.descProd x.descCons then some (.inr false)
      else match (lportOf s c.lport).wire with
        | some w => if w.queue == q && isIt w.frame.use then some (.inr false) else none
        | none => none
  | _, _ => none

/-- TX_CANCEL (05 R145, 19 R519): a queued frame is flushed; one on the wire completes SENT, and one that has not been
read completes when it is read. -/
def execTxCancel (h : Hdr) (q count : Nat) (s : State) : Host.Outcome State Fault Refusal :=
  boothStep (info 0x08 0x0A) h
    (fun s => txqNamed h q s ++ [((descPlace s q count).isNone, .notFound)])
    (fun s =>
      match descPlace s q count with
      | some (.inl f) =>
        let s := s.onTxq q (fun x => { x with frames := x.frames.filter (fun g => g != f) })
        .done (txFlushOne s q f 1) .ok [1]
      | some (.inr true) =>
        let s := s.onNet (fun n => { n with cancels := n.cancels ++ [(h.fn, h.id, q, count)] })
        .long (txDrain (s.onTxq q (fun x => { x with
          waits := x.waits.map (fun w => if w.count == count then { w with ready := some (.inr 1) } else w) })) q 8192)
      | _ => .long (s.onNet (fun n => { n with cancels := n.cancels ++ [(h.fn, h.id, q, count)] }))) s

/-- QUEUE_FLUSH (05 R145). -/
def execQueueFlush (h : Hdr) (q : Nat) (s : State) : Host.Outcome State Fault Refusal :=
  boothStep (info 0x08 0x0B) h (txqNamed h q)
    (fun s =>
      let a := txFlushAll s q 1
      let b := txFlushWaits a.1 q 1
      .done b.1 .ok (le 4 (a.2 + b.2))) s

/-- METER_SET (05 R128 to R131). -/
def execMeterSet (h : Hdr) (m : MeterSet) (s : State) : Host.Outcome State Fault Refusal :=
  let pick := fun (s : State) => pickNumber s.cfg.net.meters s.fixedMode (hp h) 1024 16384 m.meter
  boothStep (info 0x08 0x0C) h
    (fun s =>
      let n := (pick s).getD 16384
      let old := tget s.cfg.net.meters n
      [((!choose16 m.meter && 16383 < m.meter) || 2 < m.algorithm || 2 < m.mode || 2 < m.actGreen || 2 < m.actYellow || 2 < m.actRed
          || m.cbs == 0 || (m.algorithm != 0 && m.ebs == 0) || 63 < m.dscp, .badRequest),
       ((match old with | some c => notMine h c.part c.tenant | none => false), .notPermitted),
       ((pick s).isNone || (s.fixedMode && n / 1024 != hp h), .noResource)]
      ++ (if old.isNone then roomChecks s (hp h) (hcharge h) 14 1 .noResource else []))
    (fun s =>
      let n := (pick s).getD 0
      let c : MeterCfg := { part := hp h, tenant := h.tenant, fn := h.fn, algorithm := m.algorithm, colourAware := m.colourAware,
                            actGreen := m.actGreen, actYellow := m.actYellow, actRed := m.actRed, cir := m.cir, pir := m.pir,
                            cbs := m.cbs, ebs := m.ebs, dscp := m.dscp }
      let s := commitEpoch s (hp h) (fun g => { g with net := { g.net with meters := tset g.net.meters n c } })
      let s := s.onNet (fun x => { x with
        meters := tset x.meters n { (tgetD x.meters n { cur := c }) with adopt := some (c, m.mode) } })
      .epoch (netAdopt s) (hp h) (le 2 n)) s

/-- The row of SHAPER_SET for a shaper: class shapers are device-wide and the manager's (19 R517). -/
def shaperInfo (shaper : Nat) : CmdInfo :=
  if shaper < 8192 then { group := 0x08, code := 0x0D, ep := .part } else { group := 0x08, code := 0x0D, mgr := true, ep := .dev }

/-- SHAPER_SET (05 R131, R143, R144). -/
def execShaperSet (h : Hdr) (shaper mode rate size : Nat) (s : State) : Host.Outcome State Fault Refusal :=
  let sh : Shaper := { rate := rate, size := size }
  boothStep (shaperInfo shaper) h
    (fun s =>
      [(8447 < shaper || 2 < mode || size == 0, .badRequest)]
      ++ (if shaper < 8192 then txqNamed h shaper s
          else [(!lportExists s.cfg ((shaper - 8192) / 8), .badRequest), (s.fixedMode, .fixedMode)]))
    (fun s =>
      if shaper < 8192 then
        let s := commitEpoch s (hp h) (fun g => { g with net := { g.net with txqs := tmod g.net.txqs shaper (fun q => { q with shaper := sh }) } })
        .epoch (netAdopt (s.onTxq shaper (fun x => { x with bucket := { x.bucket with adopt := some (sh, mode) } }))) (hp h) []
      else
        let k := shaper - 8192
        let s := commitAll s (fun g => { g with net := { g.net with classShapers := tset g.net.classShapers k sh } })
        .device (netAdopt (s.onNet (fun n => { n with
          classBuckets := tupd n.classBuckets k {} (fun b => { b with adopt := some (sh, mode) }) })))) s

/-- Are the STRICT classes of a configuration overcommitted (05 R138)? -/
def strictOver (s : State) (lport : Nat) (ws : List Nat) : Bool :=
  let strict := (List.range 8).filter (fun k => listGet ws k 1 == 0)
  let rate := fun (k : Nat) => (tgetD s.cfg.net.classShapers (8 * lport + k) {}).rate
  strict.any (fun k => rate k == 0xFFFFFFFF) || decide (9 * lportRate s.cfg lport * 1000000 < 10 * (strict.map rate).sum)

/-- CLASS_SET (05 R138). -/
def execClassSet (h : Hdr) (lport : Nat) (ws : List Nat) (s : State) : Host.Outcome State Fault Refusal :=
  boothStep (info 0x08 0x0E) h
    (fun s =>
      [(!lportExists s.cfg lport, .badRequest),
       (s.fixedMode && (List.range 8).any (fun k => listGet ws k 1 == 0), .fixedMode),
       (strictOver s lport ws, .strictOvercommit)])
    (fun s => .device (commitAll s (fun c => setLport c lport (fun l => { l with classes := ws })))) s

/-- Is some class with a queue of non-zero share left without a long enough opening (04 R107, 05 R143)? -/
def gateShort (s : State) (port : Nat) (g : Gcl) : Bool :=
  s.cfg.net.txqs.any (fun e =>
    let q := e.2
    q.lport / 8 == port && q.share != 0 && (match longestOpening g q.cls with
      | none => false
      | some n =>
        let t := gateTime (lportCfg s.cfg q.lport).maxFrame (lportRate s.cfg q.lport)
        decide (n < (if s.fixedMode then 18 * t else t))))

/-- GCL_SET (05 R139, R140). No entries remove the list. -/
def execGclSet (h : Hdr) (port n cycle base : Nat) (blk : HostBlk (List GclEntry)) (s : State) : Host.Outcome State Fault Refusal :=
  let es := blk.getD []
  let g : Gcl := { entries := es, cycle := cycle, base := base }
  boothStep (info 0x08 0x0F) h
    (fun s =>
      [(3 < port || 512 < n, .badRequest),
       (n != 0 && (cycle % 8 != 0 || cycle < 1000 || 4294967288 < cycle), .badRequest),
       (n != 0 && blk.isNone, .hostAbort),
       (n != 0 && (es.length != n || es.any (fun e => e.interval == 0 || 536870911 < e.interval)), .badRequest),
       (n != 0 && 8 * (es.map (·.interval)).sum != cycle, .gclCycleMismatch),
       (n != 0 && gateShort s port g, .gateWindowShort)])
    (fun s =>
      let s := commitAll s (fun c => { c with net := { c.net with
        gcls := if n == 0 then tdel c.net.gcls port else tset c.net.gcls port g } })
      .device (s.onNet (fun x => { x with gclPending := tset x.gclPending port (if n == 0 then none else some g) }))) s

/-- Samples a second that the samplers other than one queue's write. -/
def sampleRate (s : State) (q : Nat) : Nat := ((s.net.samplers.filter (fun e => e.1 != q)).map (fun e => ceilDiv 1000000 e.2.periodUs)).sum

/-- QUEUE_SAMPLE_SET (05 R147). -/
def execQueueSampleSet (h : Hdr) (x : SampleSet) (s : State) : Host.Outcome State Fault Refusal :=
  let isIt := fun (d : DbTarget) => d == .sample x.queue
  let unbind := fun (s : State) => match tget s.net.samplers x.queue with
    | some m => (dropDoorbells s m.fn isIt).onNet (fun n => { n with samplers := tdel n.samplers x.queue })
    | none => s
  boothStep (info 0x08 0x10) h
    (fun s => txqNamed h x.queue s ++
      [(1000000 < x.periodUs || (x.periodUs != 0 && (x.log2 < 4 || 12 < x.log2 || vectorsOf h.fn ≤ x.vector || !baseOk x.base 32)), .badRequest),
       (x.periodUs != 0 && 16000000 < sampleRate s x.queue + ceilDiv 1000000 x.periodUs, .sampleRate),
       (x.periodUs != 0 && !doorbellsFree (unbind s) h.fn 1, .noDoorbells)])
    (fun s =>
      let s := unbind s
      if x.periodUs == 0 then .done s .ok []
      else
        let d := giveDoorbells s h.fn [.sample x.queue]
        let m : Sampler := { periodUs := x.periodUs, base := x.base, log2 := x.log2, vector := x.vector, fn := h.fn, prod := 0, cons := 0, seq := 0 }
        .done (d.2.onNet (fun n => { n with samplers := tset n.samplers x.queue m })) .ok (d.1.flatMap (le 2))) s

/-- Finish a stats command, clearing the maxima where it asked for that and its block was written (19 R505). -/
def statsDone (a : Applied) (clear : Bool) (f : State → State) : Applied :=
  match a with
  | .done s .ok r => .done (if clear then f s else s) .ok r
  | x => x

/-- QUEUE_STATS (05 R148, R149). -/
def execQueueStats (h : Hdr) (q : Nat) (clear : Bool) (blk : OutBlk) (s : State) : Host.Outcome State Fault Refusal :=
  boothStep (info 0x08 0x11) h (txqNamed h q)
    (fun s =>
      let x := tgetD s.net.txqs q {}
      statsDone (writeOut h blk (statsBlock s q (x.sent :: (List.range 7).map (fun k => tgetD x.flushed (k + 1) 0)) [x.hwDepth, x.hwSojourn]) s)
        clear (fun s => s.onTxq q (fun x => { x with hwDepth := 0, hwSojourn := 0 }))) s

/-- PORT_STATS (05 R148, R149). -/
def execPortStats (h : Hdr) (n : Nat) (clear : Bool) (blk : OutBlk) (s : State) : Host.Outcome State Fault Refusal :=
  boothStep (info 0x08 0x12) h
    (fun s => [(if n < 0x80 then !lportExists s.cfg n else decide (0x83 < n), .badRequest)])
    (fun s =>
      if n < 0x80 then
        let l := lportOf s n
        writeOut h blk (statsBlock s n ([l.rxFrames, l.rxOctets, l.txFrames, l.txOctets] ++ counters l.rxPfc 8 ++ counters l.txPfc 8
          ++ [l.rxPauseIgnored] ++ counters l.drops 12) []) s
      else
        statsDone (writeOut h blk (statsBlock s n [] [tgetD s.net.hwIngress (n - 0x80) 0]) s) clear
          (fun s => s.onNet (fun x => { x with hwIngress := tdel x.hwIngress (n - 0x80) }))) s

/-- GDP_PORT_SET. -/
def execGdpPortSet (h : Hdr) (port meter : Nat) (s : State) : Host.Outcome State Fault Refusal :=
  boothStep (info 0x08 0x13) h
    (fun s => [(port == 0 || meterBad s h meter, .badRequest)])
    (fun s => .epoch (commitEpoch s (hp h) (fun c => { c with net := { c.net with
      gdpPort := tset c.net.gdpPort (hp h) port
      gdpMeter := tset c.net.gdpMeter (hp h) meter } })) (hp h) []) s

/-- Receive rings and meters that no live configuration names any more are freed (02 R59). -/
def netRetire (s : State) : State :=
  s.onNet (fun n => { n with
    rings := tfilter n.rings (fun k _ => (live s (·.net.rings) k).isSome)
    meters := tfilter n.meters (fun k _ => (live s (·.net.meters) k).isSome) })

end Sys2Proof.Machine
end

