-- ==== Sys2Proof/Machine/Gdp.lean ====
section
/-! DEFINITION. Machine/Gdp.lean: what the rows of Direct Placement share (12): regions, packets, sending, paths, loss,
completion records, acknowledgements and the end of a connection. -/

namespace Sys2Proof.Machine

/-- A connection's configuration: that of the engine's epoch, or the one it still lives under. -/
def connCfg (s : State) (n : Nat) : Option ConnCfg :=
  match live s (·.gdp.conns) n with
  | none => none
  | some c => match tget (cfgAt s c.part 140).gdp.conns n with | some x => some x | none => some c

/-- A connection as it stands. -/
def connOf (s : State) (n : Nat) : GdpConn := tgetD s.gdp.conns n {}

/-- Add to a connection's counter (12 R355). -/
def gdpCount (s : State) (n k : Nat) : State := s.onConn n (fun g => { g with counts := bump g.counts k })

/-- Octets of payload a packet carries. -/
def gdpPayload (c : ConnCfg) : Nat := 2 ^ c.blk.log2Payload

/-- The tags of the connection's transactions (12 R326). -/
def gdpActor (s : State) (c : ConnCfg) : Actor := actor s c.part c.tenant 140

/-- The address of a range of a region, if the connection may use it so (12 R326, R342 step 4). `perm` picks the
permission; the key is not checked for a local use. -/
def regionUse (s : State) (c : ConnCfg) (region off len : Nat) (key : Option Nat) (perm : RegionSet → Bool) : Option Nat :=
  match tget (cfgAt s c.part 140).gdp.regions region with
  | some r =>
    if r.part == c.part && (r.tenant == 0 || r.tenant == c.tenant) && perm r.set && r.set.valid && off + len ≤ r.set.length
      && (match key with | some k => r.set.key == k | none => true) then some (r.set.base + off) else none
  | none => none

/-- The COMP status of a device status (12 R333, R343): 1 ACCESS, 2 MEMORY, 3 PARTNER, 4 LENGTH. -/
def compStatus (st : Status) : Nat :=
  match st with
  | .ok => 0
  | .memUncorrectable => 2
  | .partnerStalled | .partnerTimeout | .portDown => 3
  | .gdpLength => 4
  | _ => 1

/-- The status an operation completes with for a COMP status (12 R354). -/
def compMeaning (k : Nat) : Status :=
  match k with | 0 => .ok | 1 => .gdpRemoteAccess | 2 => .gdpRemoteMemory | 3 => .gdpRemotePartner | _ => .gdpLength

/-- Does the Press own a connection: is it a peer connection of an armed job (20 R536)? -/
def pressOwns (s : State) (n : Nat) : Bool := tany s.press.jobs (fun _ j => j.arm.peers.contains n)

/-- Does the Press hold a connection's operations back (20 R540, R545)? -/
def pressHolds (s : State) (n : Nat) : Bool :=
  tany s.press.jobs (fun _ j => j.arm.held.contains n && (match j.op with | some o => o.begun | none => false))

/-- Write a completion record (12 R340). -/
def gdpRecord (s : State) (n op msn tag status result : Nat) (signal : Bool) : State :=
  match connCfg s n with
  | none => s
  | some c =>
    let g := connOf s n
    let k := 2 ^ c.blk.compLog2
    let rcd := le 5 (1 - g.compRing.prod / k % 2) ++ [byteOf op] ++ le 2 n ++ [byteOf status] ++ le 3 msn ++ le 4 tag
      ++ le 8 s.clock.now ++ le 8 result
    let s := hostPost s c.fn none (c.blk.compBase + 32 * (g.compRing.prod % k)) rcd
    let s := s.onConn n (fun g => { g with compRing := { g.compRing with prod := modAdd 32 g.compRing.prod 1 } })
    if signal then msixRaise s c.fn c.blk.vector else s

/-- An outstanding operation completes (12 R337). -/
def gdpFinish (s : State) (n : Nat) (o : GdpOp) (st : Status) (result : Nat) : State :=
  let s := s.onConn n (fun g => { g with
    ops := g.ops.filter (fun x => x.msn != o.msn)
    jobs := g.jobs.filter (fun j => j.service || j.msn != o.msn)
    progressAt := s.clock.cadence })
  if o.internal then s else gdpRecord s n o.desc.op o.msn o.desc.tag st.code result o.desc.signal

/-- A GDP_STATE record on the owning function's booth (12 R328). -/
def gdpEvent (s : State) (n : Nat) (c : ConnCfg) (st cause : Nat) : State :=
  raiseEvent s (ownerFn c.part c.tenant c.fn) 0x000E c.part c.tenant (le 2 n ++ [byteOf st, 0] ++ le 2 cause)

/-- A connection enters ERROR: every outstanding and queued operation completes with the cause (12 R328). -/
def gdpFail (s : State) (n : Nat) (cause : Status) : State :=
  match connCfg s n, tget s.gdp.conns n with
  | some c, some g =>
    if g.state == .error then s
    else
      let s := g.ops.foldl (fun s o => gdpFinish s n o cause 0) s
      let s := g.waiting.foldl (fun s d => gdpRecord s n d.op 0 d.tag cause.code 0 d.signal) s
      let s := s.onConn n (fun g => { g with
        state := .error
        cause := cause.code
        waiting := []
        jobs := []
        sent := []
        outstanding := 0
        msgs := []
        comps := []
        inService := 0
        ackDueAt := none
        paced := false })
      let s := if cause == .gdpTimeout then rindCount s 0x1D else s
      gdpEvent s n c 3 cause.code
  | _, _ => s

/-! Packets (12 R331 to R334). -/

/-- The 48 octets of a header. -/
def gdpHeader (c : ConnCfg) (typ op path psn ts msn pidx chunk len region rkey msgLen offset : Nat) (ackReq : Bool) : List Byte :=
  [byteOf (16 + typ), byteOf (128 * b2n c.blk.prot + 64 * b2n ackReq)] ++ be 2 c.blk.peerConn ++ be 2 c.blk.incarnation
    ++ [byteOf op, byteOf path] ++ be 4 psn ++ be 8 ts ++ be 3 msn ++ [byteOf pidx] ++ be 2 chunk ++ be 2 len ++ be 2 region ++ be 2 0
    ++ be 4 rkey ++ be 4 msgLen ++ be 6 offset ++ be 2 0

/-- Queue a packet: its protection with the next counter of KEY_TX, and its frame. A counter at 2^48 fails the
connection with KEY_EXHAUSTED (07 R193, 12 R334). For DATA the payload is encrypted; a body is authenticated only. -/
def gdpEmit (s : State) (n : Nat) (c : ConnCfg) (path : Nat) (use : TxUse) (hdr body : List Byte) (isData : Bool) : State :=
  let b := c.blk
  let put := fun (s : State) (pay : List Byte) =>
    let m := drawBytes s 12
    let port := if b.remotePort == 0 then 17411 else b.remotePort
    txEnqueue m.2 b.txq use
      (etherFrame m.1 b.tci b.ipVersion (ipUdp b.ipVersion b.localAddr b.remoteAddr (b.sportBase + path) port b.dscp 2 pay))
  if !b.prot then put s (hdr ++ body)
  else match tget s.cipher.slots b.keyTx with
    | none => s
    | some k =>
      if 2 ^ 48 ≤ k.counter then gdpFail s n .keyExhausted
      else
        let s := s.onSlot b.keyTx (fun k => { k with counter := k.counter + 1 })
        let aad := hdr ++ be 8 k.counter ++ (if isData then [] else body)
        let plain := if isData then body else []
        let sealed := fit (plain.length + 16) (Config.aeadSeal k.alg k.material (gdpNonce k k.counter) aad plain)
        put s (hdr ++ be 8 k.counter ++ (if isData then sealed else body ++ sealed))

/-! Paths (12 R341). -/

/-- The path of the next transmission; `avoid` is the path of the transmission it repeats. -/
def nextPath (s : State) (g : GdpConn) (paths : Nat) (avoid : Option Nat) : Nat :=
  let all := (List.range paths).map (fun i => (g.lastPath + 1 + i) % paths)
  let ok := if paths == 1 then all else all.filter (fun j => avoid != some j)
  let benched := fun (j : Nat) => match tget g.benches j with | some b => decide (s.clock.now < b.2) | none => false
  match ok.find? (fun j => !benched j) with
  | some j => j
  | none =>
    let start := fun (j : Nat) => match tget g.benches j with | some b => b.1 | none => 0
    (ok.foldl (fun best j => match best with
      | none => some j
      | some k => if start j < start k then some j else some k) none).getD 0

/-! Sending (12 R347 to R350). -/

/-- May a packet enter outstanding now? -/
def underWindow (g : GdpConn) : Bool := g.outstanding < g.window

/-- Send a DATA packet, new or again. -/
def gdpTransmit (s : State) (n : Nat) (c : ConnCfg) (x : GdpSent) (ackReq : Bool) : State :=
  let len := max 64 x.payload.length
  let s := s.onConn n (fun g => { g with
    sent := (g.sent.filter (fun y => y.psn != x.psn)) ++ [{ x with ts := s.clock.now, at_ := s.clock.cadence, order := g.order, laterAcked := 0, lost := false }]
    order := g.order + 1
    lastPath := x.path
    outstanding := g.outstanding + len
    hwOutstanding := max g.hwOutstanding (g.outstanding + len)
    counts := bump g.counts 0 })
  gdpEmit s n c x.path (.gdp n x.psn)
    (gdpHeader c 1 x.op x.path x.psn s.clock.now x.msn x.pidx x.chunk x.payload.length x.region x.rkey x.msgLen x.offset ackReq)
    x.payload true

/-- How many packets a message of data has. -/
def packetsOf (len pay : Nat) : Nat := max 1 (ceilDiv len pay)

/-- The first message with a packet that can be sent. -/
def nextJob (g : GdpConn) : Option GdpJob := g.jobs.find? (fun j => j.data.isSome)

/-- May a new DATA packet be sent: the window, the PSN limit and the pace (12 R349, R350, 24 R627)? -/
def mayStart (s : State) (g : GdpConn) : Bool :=
  (g.state == .open_ || g.state == .draining) && underWindow g && modSub 32 g.nextPsn g.cumAck < 16384 && g.paceAt ≤ s.clock.cadence

/-- Send the next new packet of a message. -/
def gdpNew (s : State) (n : Nat) (c : ConnCfg) (g : GdpConn) (j : GdpJob) : State :=
  let pay := gdpPayload c
  let d := j.data.getD []
  let part := (d.drop (j.nextK * pay)).take pay
  let whole := decide (packetsOf d.length pay ≤ j.nextK + 1)
  let x : GdpSent := { psn := g.nextPsn, op := j.op, msn := j.msn, chunk := j.nextK / 256, pidx := j.nextK % 256, region := j.region,
                       rkey := j.rkey, msgLen := j.msgLen, offset := j.offset + j.nextK * pay, payload := part,
                       path := nextPath s g c.blk.paths none, ts := 0, at_ := 0, order := 0, laterAcked := 0, retries := 0, lost := false }
  let others := (g.jobs.filter (fun k => k.msn != j.msn || k.service != j.service)).any (fun k => k.data.isSome)
  let last := (whole && !others) || g.window ≤ g.outstanding + max 64 part.length
  let s := s.onConn n (fun g => { g with
    nextPsn := modAdd 32 g.nextPsn 1
    paceAt := max g.paceAt s.clock.cadence + 40
    jobs := if whole then g.jobs.filter (fun k => k.msn != j.msn || k.service != j.service)
            else g.jobs.map (fun k => if k.msn == j.msn && k.service == j.service then { k with nextK := k.nextK + 1 } else k) })
  gdpTransmit s n c x last

/-- Send lost packets again; one that has no retransmission left fails the connection (12 R348). -/
def gdpResend (s : State) (n : Nat) (c : ConnCfg) : Nat → State
  | 0 => s
  | fuel + 1 =>
    match tget s.gdp.conns n with
    | none => s
    | some g =>
      if g.state == .error then s
      else if g.sent.any (fun x => x.lost && c.blk.retryLimit ≤ x.retries) then gdpFail s n .gdpTimeout
      else if !underWindow g then s
      else match g.sent.find? (fun x => x.lost) with
        | none => s
        | some x =>
          let s := (gdpCount s n 2).onConn n (fun g => { g with draws := g.draws + 1 })
          let y := { x with retries := x.retries + 1, path := nextPath s g c.blk.paths (some x.path) }
          gdpResend (gdpTransmit s n c y true) n c fuel

/-- READs and atomics in service: those whose response is not whole at the peer yet (12 R338). -/
def serviceCount (g : GdpConn) : Nat :=
  (((g.jobs.filter (·.service)).map (·.msn)) ++ ((g.sent.filter (fun x => x.op == 3 || x.op == 6)).map (·.msn))).eraseDups.length

/-- Send CLOSE once, and close the connection after the third (12 R328). -/
def gdpSendClose (s : State) (n : Nat) (c : ConnCfg) : State :=
  let g := connOf s n
  let s := gdpEmit s n c 0 .plain (gdpHeader c 4 0 0 0 s.clock.now 0 0 0 0 0 0 0 0 false) [] false
  if 2 ≤ g.closes then
    let s := gdpEvent s n c 4 0
    let s := dropDoorbells s c.fn (fun d => d == .gdpOp n || d == .gdpRecv n || d == .gdpComp n)
    { s with
      gdp := { s.gdp with conns := tdel s.gdp.conns n }
      cfg := { s.cfg with gdp := { s.cfg.gdp with conns := tdel s.cfg.gdp.conns n } } }
  else s.onConn n (fun g => { g with closes := g.closes + 1 })

/-- What the engine does for a connection after every step that touches it: lost packets again, one new packet, and
CLOSE when a draining connection has nothing left. -/
def gdpDrain (s : State) (n : Nat) : State :=
  match connCfg s n with
  | none => s
  | some c =>
    let s := gdpResend s n c (17 * ((connOf s n).sent.length + 1))
    let g := connOf s n
    let s := match nextJob g with
      | some j => if mayStart s g then gdpNew s n c g j else s
      | none => s
    let s := gdpResend s n c 17
    let s := s.onConn n (fun g => { g with
      inService := serviceCount g
      paced := (nextJob g).isSome && underWindow g && decide (s.clock.cadence < g.paceAt) })
    let g := connOf s n
    if g.state == .draining && g.ops.isEmpty && g.closes == 0 && (tget s.gdp.conns n).isSome then gdpSendClose s n c else s

/-! Acknowledgement (12 R333, R346). -/

/-- Has a PSN been received? -/
def psnSeen (g : GdpConn) (p : Nat) : Bool := 2 ^ 31 ≤ modSub 32 p g.cumPsn || g.marks.contains p

/-- The 32 octets of SACK: bit i from the most significant bit of the first octet. -/
def sackBits (g : GdpConn) (base : Nat) : List Byte :=
  (List.range 32).map (fun o => byteOf ((List.range 8).foldl (fun v i => 2 * v + b2n (psnSeen g (modAdd 32 base (8 * o + i)))) 0))

/-- Send an ACK for a triggering packet: its TS, path, CE and PSN. -/
def gdpAck (s : State) (n : Nat) (echo : Nat × Nat × Bool × Nat) : State :=
  match connCfg s n, tget s.gdp.conns n with
  | some c, some g =>
    let comps := g.comps.take 8
    let body := be 4 g.cumPsn ++ be 4 (echo.2.2.2 / 256 * 256) ++ sackBits g (echo.2.2.2 / 256 * 256) ++ be 8 echo.1
      ++ [byteOf echo.2.1, byteOf (b2n echo.2.2.1)] ++ be 2 (min g.ceSince 65535) ++ [byteOf comps.length] ++ zeros 3
      ++ fit 32 (comps.flatMap (fun k => be 3 k.msn ++ [byteOf k.status]))
    let s := s.onConn n (fun g => { g with
      comps := (g.comps.zipIdx.map (fun e => if e.2 < 8 then
          { e.1 with repeats := e.1.repeats + 1, sentAt := some (e.1.sentAt.getD g.cumPsn) } else e.1)).filter (fun k => k.repeats ≤ 8)
      unackedRx := 0
      ackDueAt := none
      ceSince := 0 })
    gdpEmit s n c echo.2.1 .plain (gdpHeader c 2 0 echo.2.1 0 s.clock.now 0 0 0 0 0 0 0 0 false) body false
  | _, _ => s

/-- Is a packet acknowledged at once: the message it completes or the entry it yields, ACK_REQ, CE, or the fourth
since the last ACK (12 R346)? -/
def ackNow (g : GdpConn) (h : GdpHdr) (now_ : Bool) : Bool := now_ || h.ackReq || h.ce || 3 ≤ g.unackedRx

/-- Record that a DATA packet has been accepted, and acknowledge it now or within 2 µs. The next ACK echoes the packet
that triggers it: the one acknowledged at once, or the first not yet acknowledged. -/
def gdpAccepted (s : State) (n : Nat) (h : GdpHdr) (now_ : Bool) : State :=
  let g := connOf s n
  let now_ := ackNow g h now_
  let s := s.onConn n (fun g => { g with
    unackedRx := g.unackedRx + 1
    ceSince := g.ceSince + b2n h.ce
    echo := if now_ || g.unackedRx == 0 then (h.ts, h.path, h.ce, h.psn) else g.echo
    ackDueAt := some (g.ackDueAt.getD (s.clock.cadence + 2000)) })
  if now_ then gdpAck s n (h.ts, h.path, h.ce, h.psn) else s

/-- A COMP entry for a message waits for the next ACK (12 R343, R346). -/
def compAdd (s : State) (n msn status : Nat) : State :=
  s.onConn n (fun g => { g with comps := g.comps ++ [{ msn := msn, status := status, repeats := 0, sentAt := none }] })

/-- A COMP entry for a message, acknowledged at once (12 R343, R346). -/
def gdpComp (s : State) (n msn status : Nat) : State :=
  let s := compAdd s n msn status
  gdpAck s n (connOf s n).echo

/-- Advance CUM_PSN over marked PSNs. -/
def cumAdvance : Nat → List Nat → Nat → Nat × List Nat
  | 0, m, c => (c, m)
  | f + 1, m, c => if m.contains c then cumAdvance f (m.erase c) (modAdd 32 c 1) else (c, m)

/-- Mark a PSN received (12 R342 step 6). -/
def gdpMark (s : State) (n psn : Nat) : State :=
  s.onConn n (fun g =>
    let r := cumAdvance (g.marks.length + 1) (psn :: g.marks) g.cumPsn
    { g with
      cumPsn := r.1
      marks := r.2
      comps := g.comps.filter (fun k => match k.sentAt with | some p => !(modSub 32 psn p < 2 ^ 31) | none => true) })

/-! What a received packet passes first (12 R342 steps 1 and 2). -/

/-- The plain payload of a packet after the checks of R329 and R334; none where it is dropped, with the state either way. -/
def gdpAdmit (s : State) (h : GdpHdr) (isData : Bool) (pay : List Byte) : Option (ConnCfg × List Byte) × State :=
  let n := h.dstConn
  match connCfg s n, tget s.gdp.conns n with
  | some c, some g =>
    if c.part != h.part || quarantined s 140 then (none, s)
    else if c.blk.incarnation != h.incarnation || g.state == .error then (none, gdpCount s n 4)
    else if c.blk.prot != h.prot then (none, s)
    else
      let rx := fun (s : State) => let s := gdpCount s n 1; if isData && h.ce then gdpCount s n 3 else s
      if !c.blk.prot then (some (c, pay), rx s)
      else if (match g.highCtr with | some k => decide (h.ctr + 2 ^ 24 ≤ k) | none => false) then (none, gdpCount s n 6)
      else match tget s.cipher.slots c.blk.keyRx with
        | none => (none, gdpCount s n 5)
        | some k =>
          let nonce := gdpNonce k h.ctr
          let ct := if isData then pay else []
          if !Config.tagOk k.alg k.material nonce h.aad (ct ++ h.tag) then (none, gdpCount s n 5)
          else
            let s := s.onConn n (fun g => { g with highCtr := some (max (g.highCtr.getD 0) h.ctr) })
            let plain := if isData then fit pay.length (Config.aeadOpen k.alg k.material nonce h.aad (ct ++ h.tag)) else pay
            (some (c, plain), rx s)
  | _, _ => (none, s)

/-- The first DATA or a valid HELLO opens a CONNECTING connection (12 R328). -/
def gdpOpen (s : State) (n : Nat) (c : ConnCfg) : State :=
  if (connOf s n).state == .connecting then
    gdpEvent (s.onConn n (fun g => { g with state := .open_, progressAt := s.clock.cadence })) n c 1 0
  else s

/-- Is the PSN one to handle? A packet too far ahead is dropped; a duplicate is acknowledged and not placed. -/
def gdpTrack (s : State) (h : GdpHdr) : Option State × State :=
  let n := h.dstConn
  let g := connOf s n
  let k := modSub 32 h.psn g.cumPsn
  if 16384 ≤ k && k < 2 ^ 31 then (none, gdpCount s n 7)
  else if psnSeen g h.psn then
    let s := if h.ce then s.onConn n (fun g => { g with ceSince := g.ceSince + 1 }) else s
    (none, gdpAck (gdpCount s n 8) n (h.ts, h.path, h.ce, h.psn))
  else (some s, s)

/-- Is a message one the peer began, or the response to a READ of this end? -/
def sameMsg (op msn : Nat) (m : GdpMsg) : Bool := m.msn == msn && (m.op == 3) == (op == 3)

/-- Is a bitmap free for a packet: its chunk has one, or the partition's pool has (12 R342 step 3)? -/
def bitmapFree (s : State) (c : ConnCfg) (h : GdpHdr) (op : Nat) : Bool :=
  (connOf s h.dstConn).msgs.any (fun m => sameMsg op h.msn m && thas m.chunks h.chunk)
    || usedOf s c.part none 11 < limitOf s c.part 11

/-- Open or extend a message with a packet's bit, a new status and its unanswered writes. -/
def gdpCover (s : State) (h : GdpHdr) (op : Nat) (status : Status) (writes : Nat) : State :=
  s.onConn h.dstConn (fun g =>
    let base : GdpMsg := (g.msgs.find? (sameMsg op h.msn)).getD
      { msn := h.msn, op := op, msgLen := h.msgLen, ssn := h.rkey, chunks := [], status := .ok, writes := 0 }
    let bits := tgetD base.chunks h.chunk 0
    let m := { base with
      chunks := tset base.chunks h.chunk (if bit bits h.pidx then bits else bits + 2 ^ h.pidx)
      status := if base.status == .ok then status else base.status
      writes := base.writes + writes }
    { g with msgs := (g.msgs.filter (fun x => !sameMsg op h.msn x)) ++ [m] })

/-- Has a message every packet (12 R343)? -/
def gdpWhole (c : ConnCfg) (m : GdpMsg) : Bool :=
  (m.chunks.map (fun e => (List.range 256).countP (bit e.2))).sum == packetsOf m.msgLen (gdpPayload c)

/-- Place a packet's payload: the status and the unanswered writes. -/
def gdpPlace (s : State) (n : Nat) (c : ConnCfg) (kind msn a : Nat) (d : List Byte) : Status × Nat × State :=
  if d.isEmpty then (.ok, 0, s)
  else
    let r := storeAll s 13 (gdpActor s c) (.gdp n kind msn) a d
    (r.1, r.2.2.2, r.2.2.1)

/-- The error status a message already carries. -/
def msgStatus (s : State) (n op msn : Nat) : Status :=
  match (connOf s n).msgs.find? (sameMsg op msn) with | some m => m.status | none => .ok

/-- A READ whose sink is whole, or has failed, completes (12 R337). -/
def gdpReadDone (s : State) (n : Nat) (c : ConnCfg) (msn : Nat) : State :=
  let g := connOf s n
  match g.msgs.find? (sameMsg 3 msn), g.ops.find? (fun o => o.msn == msn) with
  | some m, some o =>
    if gdpWhole c m && m.writes == 0 then
      let s := s.onConn n (fun g => { g with msgs := g.msgs.filter (fun x => !sameMsg 3 msn x) })
      gdpFinish s n o m.status 0
    else s
  | _, _ => s

/-- Read a local range through Midway for an operation or a response. -/
def gdpRead (s : State) (c : ConnCfg) (a len : Nat) (ext : List Byte) : Status × List Byte × State :=
  let r := loadAll s 13 (gdpActor s c) a len ext
  (r.1, r.2.2.1, r.2.2.2)

/-- A placement write of a message or a sink has been answered by the accelerator (12 R343). -/
def gdpWriteAnswered (s : State) (n kind msn : Nat) (st : Status) : State :=
  match connCfg s n with
  | none => s
  | some c =>
    let op := if kind == 1 then 3 else 1
    let s := s.onConn n (fun g => { g with msgs := g.msgs.map (fun m =>
      if sameMsg op msn m then { m with writes := m.writes - 1, status := if m.status == .ok then st else m.status } else m) })
    if kind == 1 then gdpDrain (gdpReadDone s n c msn) n else s

/-- A link atomic has been answered: its response is sent, or its error (12 R337, R344). -/
def gdpAtomicAnswered (s : State) (n msn : Nat) (r : Sum Nat Status) : State :=
  match r with
  | .inl old => gdpDrain (s.onConn n (fun g => { g with
      jobs := g.jobs.map (fun j => if j.service && j.msn == msn && j.op == 6 then { j with data := some (le 8 old) } else j) })) n
  | .inr st => gdpDrain (gdpComp (s.onConn n (fun g => { g with
      jobs := g.jobs.filter (fun j => !(j.service && j.msn == msn)) })) n msn (compStatus st)) n

/-! The window (12 R351). -/

/-- W at a round's end. -/
def windowRound (g : GdpConn) (b : ConnectBlock) : GdpConn :=
  let alpha := g.alpha + ((g.roundCe * 2 ^ 24 / max 1 g.roundPkts : Nat) - (g.alpha : Int)) / 16
  let alpha := alpha.toNat
  let target := 1000 * b.targetUs
  let base := (g.rtts.map (·.2)).foldl min (g.roundRtt.getD 0)
  let d := (g.roundRtt.getD 0) - base
  let r : Nat × Bool :=
    if 0 < g.roundCe then (g.window * (2 ^ 25 - alpha) / 2 ^ 25, false)
    else if g.roundRtt.isSome && target < d then (max (g.window / 2) (g.window * (10 * d - 8 * (d - target)) / (10 * d)), false)
    else if g.slowStart then (2 * g.window, true)
    else (g.window + 2 ^ b.log2Payload, false)
  let w := min (max r.1 b.winMin) b.winMax / 64 * 64
  { g with
    window := w
    slowStart := r.2
    alpha := alpha
    roundW := w
    roundOctets := 0
    roundPkts := 0
    roundCe := 0
    roundRtt := none }

/-- An RTT sample (12 R348): the first sets SRTT and half of itself as RTTVAR (log entry 23, PRESUMED). -/
def rttSample (s : State) (g : GdpConn) (x : Nat) : GdpConn :=
  let var := match g.srtt with
    | none => x / 2
    | some m => ((g.rttvar : Int) + (((x : Int) - m).natAbs - (g.rttvar : Int)) / 4).toNat
  let srtt := match g.srtt with | none => x | some m => ((m : Int) + ((x : Int) - m) / 8).toNat
  { g with
    srtt := some srtt
    rttvar := var
    roundRtt := some (min (g.roundRtt.getD x) x)
    rtts := (g.rtts.filter (fun e => s.clock.cadence < e.1 + 10000000000 && e.2 < x)) ++ [(s.clock.cadence, x)] }

/-- RTO of the n-th retransmission in ns: f is a free value of 1.00 to 1.25 (12 R348). -/
def rtoOf (g : GdpConn) (retries : Nat) : Nat :=
  let base := match g.srtt with | none => 1000000 | some m => max 50000 (m + 4 * g.rttvar)
  if retries == 0 then base
  else min 100000000 (base * 2 ^ retries * (min 1250 (max 1000 (Config.backoffDraw g.draws))) / 1000)

end Sys2Proof.Machine
end

