-- ==== Sys2Proof/Machine/GdpRows.lean ====
section
/-! DEFINITION. Machine/GdpRows.lean: the events of Direct Placement (12): operations, received packets, timers. -/

namespace Sys2Proof.Machine

/-- Read the next published descriptors of a connection's OP_RING and RECV_RING, unless the Press owns it (20 R536). -/
def gdpFetch (s : State) (n : Nat) : State :=
  match connCfg s n, tget s.gdp.conns n with
  | some c, some g =>
    if pressOwns s n then s
    else
    let s := ringFetch s c.fn none c.blk.opBase 64 c.blk.opLog2 g.opRing.prod g.opRing.cons (.gdpOps n g.opRing.cons)
    ringFetch s c.fn none c.blk.recvBase 16 c.blk.recvLog2 g.recvRing.prod g.recvRing.cons (.gdpRecvs n g.recvRing.cons)
  | _, _ => s

/-- An operation descriptor of 64 octets (12 R335). -/
def parseGdpDesc (d : List Byte) : GdpDesc :=
  let f := fun (i k : Nat) => ofLe ((d.drop i).take k)
  let flags := f 46 1
  { fence := bit flags 0, signal := bit flags 1, op := f 45 1, tag := f 40 4, operand1 := f 32 8, operand0 := f 24 8, length := f 20 4
    remoteKey := f 16 4, localOffset := f 10 6, localRegion := f 8 2, remoteOffset := f 2 6, remoteRegion := f 0 2
    rsvBad := 4 ≤ flags || f 44 1 != 0 || f 47 1 != 0 || f 48 8 != 0 || f 56 8 != 0 || ! [1, 2, 4, 5, 7].contains (f 45 1) }

/-- A receive descriptor of 16 octets (12 R339). -/
def parseGdpRecv (d : List Byte) : GdpRecv :=
  let f := fun (i k : Nat) => ofLe ((d.drop i).take k)
  { offset := f 10 6, region := f 8 2, length := f 4 4, tag := f 0 4 }

/-- One operation descriptor has been read; a connection that takes none completes it GDP_FLUSHED (12 R328). -/
def gdpOpRead (s : State) (n : Nat) (d : GdpDesc) : State :=
  let s := s.onConn n (fun g => { g with opRing := { g.opRing with cons := modAdd 32 g.opRing.cons 1 } })
  match (connOf s n).state with
  | .draining | .error => gdpRecord s n d.op 0 d.tag Status.gdpFlushed.code 0 d.signal
  | _ => s.onConn n (fun g => { g with waiting := g.waiting ++ [d] })

/-- A read of operation descriptors has been answered. -/
def gdpOpsRead (s : State) (n : Nat) (d : List Byte) : State :=
  gdpFetch ((chunksOf 64 64 d).foldl (fun s e => gdpOpRead s n (parseGdpDesc e)) s) n

/-- A read of receive descriptors has been answered. -/
def gdpRecvsRead (s : State) (n : Nat) (d : List Byte) : State :=
  gdpFetch ((chunksOf 16 64 d).foldl (fun s e => s.onConn n (fun g => { g with
    recvs := tset g.recvs g.recvRing.cons (parseGdpRecv e)
    recvRing := { g.recvRing with cons := modAdd 32 g.recvRing.cons 1 } })) s) n

/-- Start an operation whose data and remote side are known: its MSN, its message and its first packet. -/
def gdpStart (s : State) (n : Nat) (c : ConnCfg) (d : GdpDesc) (internal : Bool) (data : List Byte) (region rkey msgLen offset : Nat) :
    State :=
  let g := connOf s n
  let j : GdpJob := { op := d.op, msn := g.nextMsn, data := some data, msgLen := msgLen, region := region, rkey := rkey, offset := offset,
                      nextK := 0, service := false }
  let s := s.onConn n (fun g => { g with
    nextMsn := (g.nextMsn + 1) % 2 ^ 24
    nextSsn := if d.op == 7 then modAdd 32 g.nextSsn 1 else g.nextSsn
    ops := g.ops ++ [{ msn := g.nextMsn, desc := d, internal := internal, status := 0 }]
    progressAt := if g.ops.isEmpty then s.clock.cadence else g.progressAt
    jobs := g.jobs ++ [j] })
  gdpDrain (gdpNew s n c (connOf s n) j) n

/-- The first check of an operation that fails (12 R336). -/
def gdpOpBad (s : State) (c : ConnCfg) (d : GdpDesc) : Option Status :=
  let atomic := d.op == 4 || d.op == 5
  firstBad [(d.rsvBad || (atomic && d.length != 8), .badRequest),
    (!atomic && (regionUse s c d.localRegion d.localOffset d.length none (·.loc)).isNone, .gdpLocalAccess),
    (atomic && d.remoteOffset % 8 != 0, .align)]

/-- GDP_OP_START: the next descriptor of a connection is checked and its first packet enters the transmit queue. `ext`
is what a partner's memory holds where the source lies with a partner. -/
def execGdpOpStart (n : Nat) (ext : List Byte) (s : State) : Host.Outcome State Fault Refusal :=
  match connCfg s n, tget s.gdp.conns n with
  | some c, some g =>
    match g.waiting with
    | [] => .next s
    | d :: ds =>
      if g.state != .open_ || (d.fence && !g.ops.isEmpty) || pressOwns s n || pressHolds s n then .next s
      else match gdpOpBad s c d with
      | some st => .next (gdpRecord (s.onConn n (fun g => { g with waiting := ds })) n d.op 0 d.tag st.code 0 d.signal)
      | none =>
        if limitOf s c.part 8 < usedOf s c.part none 8 + 1 || !mayStart s g || g.sent.any (·.lost) then .next s
        else
          let s := s.onConn n (fun g => { g with waiting := ds })
          let here := (regionUse s c d.localRegion d.localOffset d.length none (·.loc)).getD 0
          match d.op with
          | 2 =>
            let key := match tget (cfgAt s c.part 140).gdp.regions d.localRegion with | some r => r.set.key | none => 0
            .next (gdpStart s n c d false (be 2 d.localRegion ++ be 2 0 ++ be 4 key ++ be 8 d.localOffset)
              d.remoteRegion d.remoteKey d.length d.remoteOffset)
          | 4 => .next (gdpStart s n c d false (le 8 d.operand0) d.remoteRegion d.remoteKey 8 d.remoteOffset)
          | 5 => .next (gdpStart s n c d false (le 8 d.operand0 ++ le 8 d.operand1) d.remoteRegion d.remoteKey 8 d.remoteOffset)
          | op =>
            let r := if d.length == 0 then (Status.ok, [], s) else gdpRead s c here d.length ext
            if r.1 != .ok then .next (gdpRecord r.2.2 n d.op 0 d.tag r.1.code 0 d.signal)
            else if op == 7 then .next (gdpStart r.2.2 n c d false r.2.1 0 g.nextSsn d.length 0)
            else .next (gdpStart r.2.2 n c d false r.2.1 d.remoteRegion d.remoteKey d.length d.remoteOffset)
  | _, _ => .next s

/-- A packet whose number was tracked: it goes on when its number is new. -/
def gdpFresh (c : ConnCfg) (d : List Byte) (r : Option State × State) : Sum (ConnCfg × List Byte × State) State :=
  match r with
  | (none, s) => .inr s
  | (some s, _) => .inl (c, d, s)

/-- A packet that admission has passed opens its connection, and its number is tracked. -/
def gdpAdmitted (h : GdpHdr) (r : Option (ConnCfg × List Byte) × State) : Sum (ConnCfg × List Byte × State) State :=
  match r with
  | (none, s) => .inr s
  | (some (c, d), s) => gdpFresh c d (gdpTrack (gdpOpen s h.dstConn c) h)

/-- Admit a DATA packet and open a connecting connection: the connection and plain payload, or the state it leaves. -/
def gdpData (s : State) (h : GdpHdr) (pay : List Byte) : Sum (ConnCfg × List Byte × State) State :=
  gdpAdmitted h (gdpAdmit s h true pay)

/-- Mark an accepted packet of a placed message, with its status and unanswered writes. -/
def gdpPlaced (s : State) (h : GdpHdr) (c : ConnCfg) (op : Nat) (status : Status) (writes : Nat) : State :=
  let s := gdpMark (gdpCover s h op status writes) h.dstConn h.psn
  let whole := match (connOf s h.dstConn).msgs.find? (sameMsg op h.msn) with | some m => gdpWhole c m | none => false
  gdpAccepted s h.dstConn h whole

/-- GDP_WRITE: a WRITE packet (12 R342). `pay` is the payload as it stood on the wire. -/
def execGdpWrite (h : GdpHdr) (pay : List Byte) (s : State) : Host.Outcome State Fault Refusal :=
  match gdpData s h pay with
  | .inr s => .next s
  | .inl (c, d, s) =>
    let n := h.dstConn
    if !bitmapFree s c h 1 then .next (gdpDrain (gdpCount s n 9) n)
    else if msgStatus s n 1 h.msn != .ok then .next (gdpDrain (gdpPlaced s h c 1 .ok 0) n)
    else match regionUse s c h.region h.offset h.len (some h.rkey) (·.rWrite) with
      | none => .next (gdpDrain (gdpPlaced s h c 1 .gdpLocalAccess 0) n)
      | some a =>
        let r := gdpPlace s n c 0 h.msn a (fit h.len d)
        .next (gdpDrain (gdpPlaced r.2.2 h c 1 r.1 r.2.1) n)

/-- GDP_SEND: a SEND packet goes to the receive buffer posted for its SSN (12 R339); on a connection of the Press it is a
Press message, which its own event brings (20 R536). -/
def execGdpSend (h : GdpHdr) (pay : List Byte) (s : State) : Host.Outcome State Fault Refusal :=
  match gdpData s h pay with
  | .inr s => .next s
  | .inl (c, d, s) =>
    let n := h.dstConn
    if !bitmapFree s c h 7 then .next (gdpDrain (gdpCount s n 9) n)
    else if pressOwns s n then .next (gdpDrain (gdpPlaced s h c 7 .ok 0) n)
    else match tget (connOf s n).recvs h.rkey with
      | none => .next (gdpDrain (gdpCount s n 11) n)
      | some b =>
        if msgStatus s n 7 h.msn != .ok && msgStatus s n 7 h.msn != .gdpLength then .next (gdpDrain (gdpPlaced s h c 7 .ok 0) n)
        else if b.length < h.offset + h.len then .next (gdpDrain (gdpPlaced s h c 7 .gdpLength 0) n)
        else
          let long := if b.length < h.msgLen then Status.gdpLength else .ok
          match regionUse s c b.region (b.offset + h.offset) h.len none (·.loc) with
          | none => .next (gdpDrain (gdpPlaced s h c 7 .gdpLocalAccess 0) n)
          | some a =>
            let r := gdpPlace s n c 0 h.msn a (fit h.len d)
            .next (gdpDrain (gdpPlaced r.2.2 h c 7 (if r.1 == .ok then long else r.1) r.2.1) n)

/-- A packet that is a message by itself has been dealt with: its PSN is marked. -/
def gdpSingle (s : State) (h : GdpHdr) (now_ : Bool) : State := gdpAccepted (gdpMark s h.dstConn h.psn) h.dstConn h now_

/-- Answer a request with an error COMP entry (12 R344). -/
def gdpRefuse (s : State) (h : GdpHdr) (status : Nat) : State :=
  gdpDrain (gdpAccepted (compAdd (gdpMark s h.dstConn h.psn) h.dstConn h.msn status) h.dstConn h true) h.dstConn

/-- Is the partition at its limit of READs and atomics in service (12 R338)? -/
def serviceFull (s : State) (c : ConnCfg) : Bool := limitOf s c.part 10 < usedOf s c.part none 10 + 1

/-- READ_REQ: the responder reads the source and sends READ_RESP packets (12 R337, R338, R344). `ext` is what a partner
returned for a source that lies with it, and `fail` its failure. -/
def execReadReq (h : GdpHdr) (pay ext : List Byte) (fail : Option Status) (s : State) : Host.Outcome State Fault Refusal :=
  match gdpData s h pay with
  | .inr s => .next s
  | .inl (c, d, s) =>
    let n := h.dstConn
    if !bitmapFree s c h 2 then .next (gdpDrain (gdpCount s n 9) n)
    else if serviceFull s c then .next (gdpDrain (gdpCount s n 10) n)
    else match regionUse s c h.region h.offset h.msgLen (some h.rkey) (·.rRead) with
      | none => .next (gdpRefuse s h 1)
      | some a =>
        let r := match fail with
          | some st => (st, [], s)
          | none => if h.msgLen == 0 then (Status.ok, [], s) else gdpRead s c a h.msgLen ext
        if r.1 != .ok then .next (gdpRefuse r.2.2 h (compStatus r.1))
        else
          let j : GdpJob := { op := 3, msn := h.msn, data := some r.2.1, msgLen := h.msgLen, region := ofBe (d.take 2)
                              rkey := ofBe ((d.drop 4).take 4), offset := ofBe ((d.drop 8).take 8) % 2 ^ 48, nextK := 0, service := true }
          .next (gdpDrain ((gdpSingle r.2.2 h false).onConn n (fun g => { g with jobs := g.jobs ++ [j] })) n)

/-- READ_RESP: a packet of a READ's data is placed into the requester's sink (12 R342). -/
def execReadResp (h : GdpHdr) (pay : List Byte) (s : State) : Host.Outcome State Fault Refusal :=
  match gdpData s h pay with
  | .inr s => .next s
  | .inl (c, d, s) =>
    let n := h.dstConn
    if !bitmapFree s c h 3 then .next (gdpDrain (gdpCount s n 9) n)
    else if !(connOf s n).ops.any (fun o => o.msn == h.msn && o.desc.op == 2) then .next (gdpDrain (gdpSingle s h false) n)
    else
      let fin := fun (s : State) => Host.Outcome.next (gdpDrain (gdpReadDone s n c h.msn) n)
      if msgStatus s n 3 h.msn != .ok then fin (gdpPlaced s h c 3 .ok 0)
      else match regionUse s c h.region h.offset h.len (some h.rkey) (·.loc) with
        | none => fin (gdpPlaced s h c 3 .gdpLocalAccess 0)
        | some a =>
          let r := gdpPlace s n c 1 h.msn a (fit h.len d)
          fin (gdpPlaced r.2.2 h c 3 r.1 r.2.1)

/-- An atomic of a peer (12 R337, R344): performed once on device memory and answered, or passed to an accelerator. -/
def gdpAtomic (h : GdpHdr) (pay : List Byte) (f : List Byte → Nat → Nat) (link : List Byte → Nat → Nat → Nat → Nat → TpMsg) (s : State) :
    Host.Outcome State Fault Refusal :=
  match gdpData s h pay with
  | .inr s => .next s
  | .inl (c, d, s) =>
    let n := h.dstConn
    if !bitmapFree s c h 4 then .next (gdpDrain (gdpCount s n 9) n)
    else if serviceFull s c then .next (gdpDrain (gdpCount s n 10) n)
    else match regionUse s c h.region h.offset 8 (some h.rkey) (·.rAtomic) with
      | none => .next (gdpRefuse s h 1)
      | some a =>
        let w := gdpActor s c
        let j : GdpJob := { op := 6, msn := h.msn, data := none, msgLen := 8, region := 0, rkey := 0, offset := 0, nextK := 0, service := true }
        match region a with
        | .trapeze p o =>
          match accessCheck s w a 8 .atomic, outWindow w.cfg p o with
          | .ok, some e =>
            let s := tpEnqueue s p (link d 0 w.part w.tenant (accAddr e o)) (.gdp n 2 h.msn)
            .next (gdpDrain ((gdpSingle s h false).onConn n (fun g => { g with jobs := g.jobs ++ [j] })) n)
          | st, _ => .next (gdpRefuse (refuseCount s 13 w a st) h (compStatus st))
        | _ =>
          let r := atomicAt s 13 w a (f d)
          if r.1 != .ok then .next (gdpRefuse r.2.2 h (compStatus r.1))
          else .next (gdpDrain ((gdpSingle r.2.2 h false).onConn n (fun g => { g with
            jobs := g.jobs ++ [{ j with data := some (le 8 r.2.1) }] })) n)

/-- GDP_FADD. -/
def execGdpFadd (h : GdpHdr) (pay : List Byte) (s : State) : Host.Outcome State Fault Refusal :=
  gdpAtomic h pay (fun d old => modAdd 64 old (ofLe (d.take 8)))
    (fun d tag p t a => .fadd tag p t a (ofLe (d.take 8))) s

/-- GDP_CAS. -/
def execGdpCas (h : GdpHdr) (pay : List Byte) (s : State) : Host.Outcome State Fault Refusal :=
  gdpAtomic h pay (fun d old => if old == ofLe (d.take 8) then ofLe ((d.drop 8).take 8) else old)
    (fun d tag p t a => .cas tag p t a (ofLe (d.take 8)) (ofLe ((d.drop 8).take 8))) s

/-- ATOMIC_RESP: the initiator's atomic completes with the old value (12 R337). -/
def execAtomicResp (h : GdpHdr) (pay : List Byte) (s : State) : Host.Outcome State Fault Refusal :=
  match gdpData s h pay with
  | .inr s => .next s
  | .inl (c, d, s) =>
    let n := h.dstConn
    if !bitmapFree s c h 6 then .next (gdpDrain (gdpCount s n 9) n)
    else
      let s := gdpSingle s h false
      match (connOf s n).ops.find? (fun o => o.msn == h.msn && (o.desc.op == 4 || o.desc.op == 5)) with
      | some o => .next (gdpDrain (gdpFinish s n o .ok (ofLe (d.take 8))) n)
      | none => .next (gdpDrain s n)

/-- Does an ACK cover a PSN? -/
def ackCovers (b : GdpAckBody) (p : Nat) : Bool := 2 ^ 31 ≤ modSub 32 p b.cumPsn || b.sacked.contains p

/-- The effect of an ACK on the sender's side (12 R341, R347, R350, R351). -/
def ackSender (s : State) (n : Nat) (c : ConnCfg) (b : GdpAckBody) : State :=
  let g := connOf s n
  let acked := g.sent.filter (fun x => ackCovers b x.psn)
  let left := g.sent.filter (fun x => !ackCovers b x.psn)
  let freed := ((acked.filter (fun x => !x.lost)).map (fun x => max 64 x.payload.length)).sum
  let octets := (acked.map (fun x => max 64 x.payload.length)).sum
  let left := left.map (fun x => { x with
    laterAcked := x.laterAcked + acked.countP (fun y => y.path == x.path && x.order < y.order) })
  let advance := 0 < modSub 32 b.cumPsn g.cumAck && modSub 32 b.cumPsn g.cumAck ≤ modSub 32 g.nextPsn g.cumAck
  let s := s.onConn n (fun g => { g with
    sent := left
    outstanding := g.outstanding - freed
    cumAck := if advance then b.cumPsn else g.cumAck
    progressAt := if advance then s.clock.cadence else g.progressAt
    roundOctets := g.roundOctets + octets
    roundPkts := g.roundPkts + acked.length
    roundCe := g.roundCe + b.ceCount })
  let straddles := match s.clock.steppedAt with
    | some t => decide (s.clock.cadence - t < s.clock.now - b.echoTs)
    | none => false
  let s := if b.echoTs ≤ s.clock.now && !straddles then s.onConn n (fun g => rttSample s g (s.clock.now - b.echoTs)) else s
  let s := if b.echoCe then s.onConn n (fun g => { g with
      benches := tset g.benches b.echoPath (s.clock.now, s.clock.now + 2 * g.srtt.getD 0) }) else s
  let s := s.onConn n (fun g => if g.roundW ≤ g.roundOctets then windowRound g c.blk else g)
  ((connOf s n).sent.filter (fun x => 3 ≤ x.laterAcked && !x.lost)).foldl (fun s x => gdpMarkLost s n x.psn) s

/-- Act once on the COMP entries of an ACK (12 R346). -/
def ackComps (s : State) (n : Nat) (b : GdpAckBody) : State :=
  b.comps.foldl (fun s e =>
    match (connOf s n).ops.find? (fun o => o.msn == e.1) with
    | some o =>
      if e.2 == 0 && (o.desc.op == 2 || o.desc.op == 4 || o.desc.op == 5) then s
      else gdpFinish (s.onConn n (fun g => { g with msgs := g.msgs.filter (fun m => !sameMsg 3 e.1 m) })) n o (compMeaning e.2) 0
    | none => s) s

/-- GDP_ACK. -/
def execGdpAck (h : GdpHdr) (b : GdpAckBody) (s : State) : Host.Outcome State Fault Refusal :=
  match gdpAdmit s h false [] with
  | (none, s) => .next s
  | (some (c, _), s) => .next (gdpDrain (ackComps (ackSender s h.dstConn c b) h.dstConn b) h.dstConn)

/-- Is a protected HELLO one for a connection that waits for it and is not protected: its PROT disagrees (12 R328)? -/
def helloUnlike (s : State) (h : GdpHdr) : Bool :=
  match connCfg s h.dstConn with
  | some c => h.prot && !c.blk.prot && c.part == h.part && c.blk.incarnation == h.incarnation && !quarantined s 140
      && (connOf s h.dstConn).state == .connecting
  | none => false

/-- HELLO: a packet with the values the peer was given (12 R328, R333). -/
def execHello (h : GdpHdr) (localConn log2Payload alg : Nat) (prot : Bool) (s : State) : Host.Outcome State Fault Refusal :=
  if helloUnlike s h then .next (gdpFail s h.dstConn .gdpParamMismatch)
  else match gdpAdmit s h false [] with
  | (none, s) => .next s
  | (some (c, _), s) =>
    if (connOf s h.dstConn).state != .connecting then .next s
    else if localConn == c.blk.peerConn && log2Payload == c.blk.log2Payload && alg == c.blk.alg && prot == c.blk.prot then
      .next (gdpDrain (gdpOpen s h.dstConn c) h.dstConn)
    else .next (gdpFail s h.dstConn .gdpParamMismatch)

/-- GDP_CLOSE_PACKET (12 R328). -/
def execGdpClosePacket (h : GdpHdr) (s : State) : Host.Outcome State Fault Refusal :=
  match gdpAdmit s h false [] with
  | (none, s) => .next s
  | (some _, s) =>
    match (connOf s h.dstConn).state with
    | .open_ | .draining => .next (gdpFail s h.dstConn .gdpPeerClosed)
    | _ => .next s

/-- HELLO_TIMER: a CONNECTING connection sends HELLO on path 0. -/
def execHelloTimer (n : Nat) (s : State) : Host.Outcome State Fault Refusal :=
  match connCfg s n, tget s.gdp.conns n with
  | some c, some g =>
    if g.state != .connecting then .next s
    else .next (gdpEmit s n c 0 .plain (gdpHeader c 3 0 0 0 s.clock.now 0 0 0 8 0 0 0 0 false)
      (be 2 n ++ [byteOf c.blk.log2Payload, byteOf (b2n c.blk.prot), byteOf c.blk.alg, byteOf c.blk.paths] ++ zeros 2) false)
  | _, _ => .next s

/-- CLOSE_RESEND_TIMER: a DRAINING connection that has sent CLOSE sends it again. -/
def execCloseResendTimer (n : Nat) (s : State) : Host.Outcome State Fault Refusal :=
  match connCfg s n, tget s.gdp.conns n with
  | some c, some g => if g.state == .draining && 1 ≤ g.closes then .next (gdpSendClose s n c) else .next s
  | _, _ => .next s

/-- ACK_DELAY_TIMER: 2 µs after the first accepted packet that is not acknowledged. -/
def execAckDelayTimer (n : Nat) (s : State) : Host.Outcome State Fault Refusal :=
  match tget s.gdp.conns n with
  | some g => if g.ackDueAt.isSome then .next (gdpAck s n g.echo) else .next s
  | none => .next s

/-- GDP_RTO: the retransmission timeout of a packet has run since its last transmission (12 R347, R348, R351). -/
def execGdpRto (n psn : Nat) (s : State) : Host.Outcome State Fault Refusal :=
  match connCfg s n, tget s.gdp.conns n with
  | some c, some g =>
    match g.sent.find? (fun x => x.psn == psn) with
    | none => .next s
    | some x =>
      if x.lost then .next (gdpDrain s n)
      else if s.clock.cadence < x.at_ + rtoOf g x.retries then .next s
      else
        let s := s.onConn n (fun g => { g with window := max c.blk.winMin (g.window / 2), slowStart := false })
        .next (gdpDrain (gdpMarkLost s n psn) n)
  | _, _ => .next s

/-- GDP_PROGRESS_TIMEOUT (04 R102, D8). -/
def execGdpProgressTimeout (n : Nat) (s : State) : Host.Outcome State Fault Refusal :=
  match tget s.gdp.conns n with
  | some g =>
    if g.state == .error || (g.state == .open_ && g.ops.isEmpty) then .next s else .next (gdpFail s n .gdpTimeout)
  | none => .next s

/-- GDP_MESSAGE_COMPLETE: a message's coverage is full and its placement writes complete: its bitmaps are freed, a COMP
entry is sent, and a received SEND gets its record (12 R340, R343). -/
def execGdpMessageComplete (n msn : Nat) (s : State) : Host.Outcome State Fault Refusal :=
  match connCfg s n with
  | none => .next s
  | some c =>
    match (connOf s n).msgs.find? (sameMsg 1 msn) with
    | none => .next s
    | some m =>
      if !gdpWhole c m || m.writes != 0 then .next s
      else
        let s := s.onConn n (fun g => { g with msgs := g.msgs.filter (fun x => !sameMsg 1 msn x) })
        let s := if m.op != 7 || pressOwns s n then s
          else
            let tag := match tget (connOf s n).recvs m.ssn with | some b => b.tag | none => 0
            gdpRecord (s.onConn n (fun g => { g with recvs := tdel g.recvs m.ssn })) n 8 msn tag m.status.code m.msgLen false
        .next (gdpDrain (gdpComp s n msn (compStatus m.status)) n)

/-- GDP_PACED_SEND: the pacing interval of a connection held back by the pace alone has passed (24 R627). -/
def execGdpPacedSend (n : Nat) (s : State) : Host.Outcome State Fault Refusal :=
  match tget s.gdp.conns n with
  | some g => if g.paced then .next (gdpDrain (s.onConn n (fun g => { g with paceAt := min g.paceAt s.clock.cadence })) n) else .next s
  | none => .next s

end Sys2Proof.Machine
end

