-- ==== Sys2Proof/Machine/GdpCmds.lean ====
section
/-! DEFINITION. Machine/GdpCmds.lean: the commands of the GDP group (12, 19 R520, R521) and what becomes of connections
when an epoch is adopted. -/

namespace Sys2Proof.Machine

/-- Does a region entry break R325? -/
def regionBad (s : State) (p : Nat) (r : RegionSet) : Bool :=
  r.length == 0 || 2 ^ 40 < r.length || !rangeOwned s s.cfg p r.base r.length
    || (r.rAtomic && (r.base % 8 != 0 || (match region r.base with
        | .trapeze q o => (match outWindow s.cfg q o with | some e => !e.atomic | none => true)
        | .hostWin _ => true
        | _ => false)))

/-- GDP_REGION_SET (12 R325). -/
def execGdpRegionSet (h : Hdr) (r : RegionSet) (s : State) : Host.Outcome State Fault Refusal :=
  let pick := fun (s : State) => pickNumber s.cfg.gdp.regions s.fixedMode (hp h) 1024 16384 r.region
  boothStep (info 0x09 0x01) h
    (fun s =>
      let n := (pick s).getD 16384
      let old := tget s.cfg.gdp.regions n
      [((!choose16 r.region && 16383 < r.region) || (!r.valid && choose16 r.region), .badRequest),
       ((match old with | some c => notMine h c.part c.tenant | none => false), .notPermitted),
       (r.valid && regionBad s (hp h) r, .regionBad),
       (r.valid && ((pick s).isNone || (s.fixedMode && n / 1024 != hp h)), .noResource)]
      ++ (if r.valid && old.isNone then roomChecks s (hp h) (hcharge h) 9 1 .noResource else []))
    (fun s =>
      let n := (pick s).getD 0
      let c : RegionCfg := { part := hp h, tenant := h.tenant, fn := h.fn, set := { r with region := n } }
      .epoch (commitEpoch s (hp h) (fun g => { g with gdp := { g.gdp with
        regions := if r.valid then tset g.gdp.regions n c else tdel g.gdp.regions n } })) (hp h) (le 2 n)) s

/-- A field of a connect block where 0 selects its default. -/
def orDefault (v d : Nat) : Nat := if v == 0 then d else v

/-- A connect block with its defaults (12 R327, 19 R521). -/
def connDefaults (b : ConnectBlock) : ConnectBlock :=
  { b with
    retryLimit := orDefault b.retryLimit 7
    targetUs := orDefault b.targetUs 25
    winMin := orDefault b.winMin 4096
    winMax := orDefault b.winMax 67108864
    initWindow := orDefault b.initWindow 262144
    progressMs := orDefault b.progressMs 100 }

/-- Are window limits and timers outside their ranges (12 R327)? -/
def gdpLimitsBad (retry target winMin winMax init progress : Nat) : Bool :=
  retry < 1 || 15 < retry || target < 5 || 500 < target || winMin < 4096 || 67108864 < winMax || winMax < init || init < winMin
    || progress < 1 || 10000 < progress

/-- Is the transmit queue one of the partition? -/
def gdpTxqBad (s : State) (h : Hdr) (q lport : Nat) : Bool :=
  match tget s.cfg.net.txqs q with | some c => notMine h c.part c.tenant || c.lport != lport | none => true

/-- The fields of a connect block outside their ranges. -/
def connFieldsBad (s : State) (h : Hdr) (b : ConnectBlock) : Bool :=
  !b.rsvZero || 4095 < b.peerConn || (b.ipVersion != 4 && b.ipVersion != 6) || b.paths < 1 || 64 < b.paths
    || b.sportBase % 64 != 0 || b.sportBase < 49152 || 65472 < b.sportBase || b.log2Payload < 10 || 13 < b.log2Payload
    || 63 < b.dscp || (!b.prot && (b.keyTx != 0xFFFF || b.keyRx != 0xFFFF)) || gdpTxqBad s h b.txq b.lport
    || gdpLimitsBad b.retryLimit b.targetUs b.winMin b.winMax b.initWindow b.progressMs
    || b.opLog2 < 4 || 12 < b.opLog2 || b.recvLog2 < 4 || 12 < b.recvLog2 || b.compLog2 < 4 || 12 < b.compLog2
    || !baseOk b.opBase 64 || !baseOk b.recvBase 16 || !baseOk b.compBase 32 || vectorsOf h.fn ≤ b.vector

/-- Octets of a full packet of a connection, from the destination address through the FCS. -/
def fullPacket (b : ConnectBlock) : Nat :=
  14 + (if b.tci == 0 then 0 else 4) + (if b.ipVersion == 4 then 20 else 40) + 8 + 48 + (if b.prot then 24 else 0) + 2 ^ b.log2Payload + 4

/-- The addresses that the connections reach from an address, in at most `n` steps. -/
def reachable (edges : List (Nat × Nat)) : Nat → List Nat → List Nat
  | 0, seen => seen
  | n + 1, seen => reachable edges n ((seen ++ ((edges.filter (fun e => seen.contains e.1)).map (·.2))).eraseDups)

/-- Does a connection close a loop with those open on the device (04 R104): its remote address leads back to its local
address through at least two other connections, or both ends are one address (log entry 24, DEDUCED)? -/
def gdpLoop (s : State) (b : ConnectBlock) : Bool :=
  let edges := s.cfg.gdp.conns.map (fun e => (e.2.blk.localAddr, e.2.blk.remoteAddr))
  let others := edges.filter (fun e => !(e.1 == b.remoteAddr && e.2 == b.localAddr))
  b.localAddr == b.remoteAddr || (reachable others edges.length [b.remoteAddr]).contains b.localAddr

/-- The algorithms a GDP connection may use (07 R190). -/
def gdpAlgs : List Nat := [1, 2, 3, 4, 6]

/-- An empty connect block, for a command whose block cannot be read. -/
def noConnect : ConnectBlock :=
  { localConn := 0, peerConn := 0, incarnation := 0, ipVersion := 4, paths := 1, localAddr := 0, remoteAddr := 0, remotePort := 0,
    sportBase := 49152, log2Payload := 10, prot := false, alg := 0, dscp := 0, keyTx := 0xFFFF, keyRx := 0xFFFF, txq := 0, lport := 0,
    retryLimit := 0, tci := 0, targetUs := 0, winMin := 0, winMax := 0, initWindow := 0, progressMs := 0, opBase := 0, recvBase := 0,
    compBase := 0, opLog2 := 4, recvLog2 := 4, compLog2 := 4, vector := 0, rsvZero := true }

/-- GDP_CONNECT (12 R327). -/
def execGdpConnect (h : Hdr) (blk : HostBlk ConnectBlock) (s : State) : Host.Outcome State Fault Refusal :=
  let b := connDefaults (blk.getD noConnect)
  let pick := fun (s : State) => pickNumber s.gdp.conns s.fixedMode (hp h) 256 4096 b.localConn
  boothStep (info 0x09 0x02) h
    (fun s =>
      [(blk.isNone, .hostAbort), ((!choose16 b.localConn && 4095 < b.localConn) || connFieldsBad s h b, .badRequest),
       ((match pick s with | some n => thas s.gdp.conns n || (s.fixedMode && n / 256 != hp h) | none => true), .noConnections)]
      ++ roomChecks s (hp h) (hcharge h) 7 1 .noConnections
      ++ [(gdpLoop s b, .gdpCycle), (decide ((lportCfg s.cfg b.lport).maxFrame < fullPacket b), .tooLarge),
          (!doorbellsFree s h.fn 3, .noDoorbells)]
      ++ (if b.prot then
            keyChecks s (hp h) h.tenant b.keyTx 2 2 [b.alg] ++ keyChecks s (hp h) h.tenant b.keyRx 2 1 [b.alg]
              ++ [(!gdpAlgs.contains b.alg, .keyBadType)]
          else []))
    (fun s =>
      let n := (pick s).getD 0
      let c : ConnCfg := { part := hp h, tenant := h.tenant, fn := h.fn, blk := { b with localConn := n } }
      let d := giveDoorbells s h.fn [.gdpOp n, .gdpRecv n, .gdpComp n]
      let g : GdpConn := { progressAt := s.clock.cadence, window := b.initWindow, roundW := b.initWindow }
      let s := { d.2 with gdp := { d.2.gdp with conns := tset d.2.gdp.conns n g } }
      .epoch (commitEpoch s (hp h) (fun g => { g with gdp := { g.gdp with conns := tset g.gdp.conns n c } })) (hp h)
        (le 2 n ++ d.1.flatMap (le 2))) s

/-- The checks of a command that names a connection. -/
def connNamed (h : Hdr) (n : Nat) (s : State) : List (Bool × Status) :=
  match tget s.cfg.gdp.conns n with
  | none => [(true, .badRequest)]
  | some c => [(notMine h c.part c.tenant, .notPermitted)]

/-- A connect block with the fields that GDP_MODIFY's mask names. -/
def connModified (b : ConnectBlock) (m : GdpModify) : ConnectBlock :=
  let f := fun (i v old d : Nat) => if bit m.mask i then orDefault v d else old
  { b with
    txq := f 0 m.txq b.txq m.txq
    paths := f 1 m.paths b.paths m.paths
    retryLimit := f 2 m.retryLimit b.retryLimit 7
    targetUs := f 3 m.targetUs b.targetUs 25
    winMin := f 4 m.winMin b.winMin 4096
    winMax := f 4 m.winMax b.winMax 67108864
    progressMs := f 5 m.progressMs b.progressMs 100 }

/-- The window limits of the engine's epoch clamp W (12 R351). -/
def gdpAdopt (s : State) : State :=
  { s with gdp := { s.gdp with conns := tmap s.gdp.conns (fun n g =>
      match connCfg s n with
      | some c => { g with window := min (max g.window c.blk.winMin) c.blk.winMax }
      | none => g) } }

/-- GDP_MODIFY (12 R328). -/
def execGdpModify (h : Hdr) (m : GdpModify) (s : State) : Host.Outcome State Fault Refusal :=
  let next := fun (s : State) => connModified (match tget s.cfg.gdp.conns m.conn with | some c => c.blk | none => noConnect) m
  boothStep (info 0x09 0x03) h
    (fun s =>
      let b := next s
      connNamed h m.conn s ++
      [(64 ≤ m.mask || (bit m.mask 0 && gdpTxqBad s h b.txq b.lport) || b.paths < 1 || 64 < b.paths
          || gdpLimitsBad b.retryLimit b.targetUs b.winMin b.winMax (max b.winMin (min b.winMax b.initWindow)) b.progressMs, .badRequest)])
    (fun s => .epoch (gdpAdopt (commitEpoch s (hp h) (fun g => { g with gdp := { g.gdp with
      conns := tmod g.gdp.conns m.conn (fun c => { c with blk := connModified c.blk m }) } }))) (hp h) []) s

/-- Close a connection: an ERROR connection is CLOSED at once, any other drains; its transmit key is spent (07 R202). -/
def gdpCloseConn (s : State) (n : Nat) : State :=
  match tget s.cfg.gdp.conns n, tget s.gdp.conns n with
  | some c, some g =>
    let s := if c.blk.prot then keySpend s c.blk.keyTx else s
    if g.state == .error then
      let s := gdpEvent s n c 4 0
      let s := dropDoorbells s c.fn (fun d => d == .gdpOp n || d == .gdpRecv n || d == .gdpComp n)
      { s with
        gdp := { s.gdp with conns := tdel s.gdp.conns n }
        cfg := { s.cfg with gdp := { s.cfg.gdp with conns := tdel s.cfg.gdp.conns n } } }
    else
      let s := g.waiting.foldl (fun s d => gdpRecord s n d.op 0 d.tag Status.gdpFlushed.code 0 d.signal) s
      s.onConn n (fun g => { g with state := .draining, waiting := [], progressAt := s.clock.cadence })
  | _, _ => s

/-- GDP_CLOSE (12 R328). -/
def execGdpClose (h : Hdr) (n : Nat) (s : State) : Host.Outcome State Fault Refusal :=
  boothStep (info 0x09 0x04) h
    (fun s => connNamed h n s ++ [((connOf s n).state == .draining, .badRequest)])
    (fun s => .epoch (gdpDrain (gdpCloseConn (commitEpoch s (hp h) id) n) n) (hp h) []) s

/-- GDP_STATS (12 R355): the counters, HW_OUTSTANDING, W, SRTT and α. -/
def execGdpStats (h : Hdr) (n : Nat) (blk : OutBlk) (s : State) : Host.Outcome State Fault Refusal :=
  boothStep (info 0x09 0x05) h (connNamed h n)
    (fun s =>
      let g := connOf s n
      writeOut h blk (statsBlock s n (counters g.counts 12 ++ [g.hwOutstanding, g.window, g.srtt.getD 0, g.alpha]) []) s) s

end Sys2Proof.Machine
end

