-- ==== Sys2Proof/Machine/Tumblers.lean ====
section
/-! DEFINITION. Machine/Tumblers.lean: how a tumbler runs: the fetch and the end of each instruction (09 R250 to R259), the
end of an invocation (08 R231 to R234), dispatch, timers and what reaches a running tumbler (08 R225 to R229, R236).

Every row of the Belpor-36 table is one call of `runOp` (log entry 25, DEDUCED). -/

namespace Sys2Proof.Machine

/-! The end of an invocation. -/

/-- The binding of an invocation, under the epoch of its event (08 R222). -/
def bindingAt (s : State) (p epoch n : Nat) : Option BindCfg := tget (cfgOf s p epoch).acts.bindings n

/-- A raw view of words (03 R78). -/
def rawWords (ws : List Nat) : List Byte := ws.flatMap (le 8)

/-- The dump area of a tumbler (08 R224). -/
def dumpAddr (b : ActBinding) (n : Nat) : Nat :=
  0x010000000000 + b.dumpOffset + 512 * (b.tumblers.filter (fun m => decide (m < n))).length

/-- The 64 words of a dump (08 R233). -/
def dumpWords (t : Tumbler) (ev : List Word) (st code : Nat) : List Nat :=
  (List.range 32).map (fun r => (t.get r).toNat) ++ t.bk ++ t.ls ++ t.le ++ t.lc ++ [t.fl, t.pc, t.cyc, st * 2 ^ 27 + code]
    ++ (List.range 5).map (fun i => (listGet ev i 0).toNat) ++ [0, 0, 0, 0, 0, 0, 1]

/-- Write a dump, if the binding asks for one and the area's VALID word is 0 (08 R233). -/
def dumpWrite (s : State) (n : Nat) (t : Tumbler) (b : ActBinding) (ev : List Word) (st : Status) (code : Nat) : State :=
  let a := dumpAddr b n
  if !b.dump || ofLe (bytesAt s.mem (a + 504) 8) % 2 ^ 36 != 0 then s
  else (memStore s a (rawWords (dumpWords t ev st.code code))).2

/-- Place an ACT_FAULT record, at most once per binding per second (08 R234). -/
def faultRecord (s : State) (n : Nat) (t : Tumbler) (inv : Invocation) (fn : Nat) (st : Status) (code : Nat) : State :=
  let x := tgetD s.acts.stats inv.binding {}
  let due := match x.failAt with | none => true | some a => decide (a + 1000000000 ≤ s.clock.cadence)
  if due then
    let pay := [byteOf (inv.binding % 64), byteOf n] ++ le 2 inv.kind ++ le 4 t.pc ++ le 2 st.code ++ le 2 code ++ le 4 (x.failSince + 1)
    (raiseEvent s (ownerFn inv.part inv.tenant fn) 0x000B inv.part inv.tenant pay).onStat inv.binding
      (fun x => { x with failSince := 0, failAt := some s.clock.cadence })
  else s.onStat inv.binding (fun x => { x with failSince := x.failSince + 1 })

/-- How many requests of a tumbler have not been taken (08 R237). -/
def untaken (s : State) (n : Nat) (t : Tumbler) : Nat := t.arrived.length + s.sess.replies.countP (fun r => r.tumbler == n)

/-- How many requests of one port have not been taken. -/
def untakenOf (s : State) (n : Nat) (t : Tumbler) (port : Nat) : Nat :=
  t.arrived.countP (fun r => r.1 == port) + s.sess.replies.countP (fun r => r.tumbler == n && r.port == port)

/-- End an invocation (08 R231, R232): its counts, the replies that nobody will take, the dump and the record; the
tumbler is idle. `counted` says that its fault is in FAULTS already (09 R259). -/
def endInv (s : State) (n : Nat) (t : Tumbler) (inv : Invocation) (st : Status) (code : Nat) (counted : Bool := false) : State :=
  let cfgB := bindingAt s inv.part inv.epoch inv.binding
  let s := s.onStat inv.binding (fun x => { x with
    cycles := modAdd 64 x.cycles t.cyc
    hwCycles := max x.hwCycles t.cyc
    overruns := if st == .allowanceOverrun then modAdd 64 x.overruns 1 else x.overruns
    faults := modAdd 64 x.faults (t.stores.length + b2n (st == .actFault && !counted))
    repliesDiscarded := if st == .ok then modAdd 64 x.repliesDiscarded (untaken s n t) else x.repliesDiscarded })
  let s := match st with
    | .allowanceOverrun => rindMinute (rindCount s 0x14) 22
    | .actFault => rindCount s 0x15
    | _ => s
  let s := dropReplies (s.onSess (fun x => { x with
    replies := x.replies.map (fun r => if r.tumbler == n then { r with tumbler := 128 } else r) }))
  let s := match cfgB with
    | some b =>
      let s := if st == Status.ok then s else dumpWrite s n t b.b inv.words st code
      if st == Status.allowanceOverrun || st == Status.actFault then faultRecord s n t inv b.fn st code else s
    | none => s
  s.onTumbler n (fun _ => {})

/-! One instruction. -/

/-- What an instruction does, before its cycles are held against the allowance. -/
inductive Ran where
  /-- it completes: the state and the tumbler after it, its cycles, and the target of a taken transfer -/
  | done (s : State) (t : Tumbler) (cycles : Nat) (target : Option Nat)
  /-- it raises an exception and has no effect (09 R257): the state with what a memory has reported of the access, the code,
  and whether FAULTS has counted it already -/
  | exc (s : State) (code : Nat) (counted : Bool)
  /-- it is held back by stores that have not completed (08 R217) -/
  | wait
  /-- it stalls until something reaches the tumbler -/
  | stall (x : Stall)
  /-- ENDACT -/
  | ends (cycles : Nat)

/-- The end action (09 R253): the tumbler with its loop sets as they are after the instruction at `a`, and the next PC. -/
def endAction (a : Nat) : Nat → Tumbler → Tumbler × Nat
  | 0, t => (t, a + 1)
  | k + 1, t =>
    let j := depth t - 1
    if depth t == 0 || listGet t.le j 0 != a then (t, a + 1)
    else if 1 < listGet t.lc j 0 then ({ t with lc := listSet t.lc j (listGet t.lc j 0 - 1) }, listGet t.ls j 0)
    else endAction a k { t with lc := listSet t.lc j 0 }

/-- The fetch at a tumbler's PC: the instruction and its word, or the code of the exception it meets (09 R251, R257). An
instruction word that is uncorrectable is the memory exception (log entry 26, DEDUCED). -/
def fetchOp (s : State) (n : Nat) (t : Tumbler) : Sum Nat (Op × Word) :=
  if 32767 < t.pc then .inl 1
  else if s.mem.bad.contains (0x030200000000 + n * 0x40000 + t.pc * 8) then .inl 6
  else
    let w := wordGet s.mem.im (n * 32768 + t.pc)
    match belporDecode w with
    | some o => .inr (o, w)
    | none => .inl 2

/-- End an invocation whose count has reached its allowance (08 R232). -/
def overrun (s : State) (n : Nat) (t : Tumbler) (inv : Invocation) : State :=
  endInv s n { t with cyc := max t.cyc inv.allowance } inv .allowanceOverrun 0

/-- Settle what an instruction at the tumbler's PC has come to: an overrun where its cycles do not fit the allowance, the
end of the invocation on an exception, or the next PC (08 R232, 09 R251, R257, R258). -/
def settle (s : State) (n : Nat) (t : Tumbler) (inv : Invocation) (r : Ran) : State :=
  match r with
  | .done s' t' c target =>
    if inv.allowance < t.cyc + c then overrun s n t inv
    else
      let x := match target with
        | some a => (t', a % 1048576)
        | none => endAction t.pc 4 t'
      s'.onTumbler n (fun _ => { x.1 with pc := x.2, cyc := t.cyc + c, stall := .none })
  | .exc s' code counted =>
    if inv.allowance < t.cyc + 1 then overrun s n t inv
    else endInv s' n { t with cyc := t.cyc + 1 } inv .actFault code counted
  | .wait => s
  | .stall x => s.onTumbler n (fun t => { t with stall := x })
  | .ends c =>
    if inv.allowance < t.cyc + c then overrun s n t inv
    else endInv s n { t with cyc := t.cyc + c } inv .ok 0

/-- One instruction of a tumbler: when it runs an invocation, does not stall, and has this instruction at its PC. A fetch
that meets an exception ends the invocation whichever row the tumbler is given (log entry 25, DEDUCED). -/
def runOp (n : Nat) (o : Op) (f : State → Invocation → Tumbler → Word → Ran) (s : State) : Host.Outcome State Fault Refusal :=
  let t := tgetD s.acts.tumblers n {}
  match t.run with
  | none => .next s
  | some inv =>
    if t.stall != .none then .next s
    else match fetchOp s n t with
      | .inl code => .next (settle s n t inv (.exc s code false))
      | .inr (o', w) => .next (if o' == o then settle s n t inv (f s inv t w) else s)

/-! Dispatch (08 R228, R229). -/

/-- Has the event a session: kinds 001 to 003, but for a return entry that names no session of the partition? -/
def hasSession (e : Event) : Bool := e.kind ≤ 3 && e.session != 0xFFFF

/-- Is an earlier event of the same session running (08 R228)? -/
def sessionRuns (s : State) (p : Nat) (e : Event) : Bool :=
  s.acts.tumblers.any (fun x => match x.2.run with
    | some inv => inv.part == p && inv.kind ≤ 3 && inv.session == e.session
    | none => false)

/-- May tumbler `n` take the event at place `i` of a queue? -/
def eligible (s : State) (p n : Nat) (q : List Event) (i : Nat) (e : Event) : Bool :=
  match bindingAt s p e.epoch e.binding with
  | none => false
  | some b => b.b.tumblers.contains n && (e.epoch != (s.part p).epoch || !(s.part p).remaining.contains n)
      && !(b.b.serial && hasSession e
          && (sessionRuns s p e || (q.take i).any (fun x => hasSession x && x.session == e.session)))

/-- The priority of an event's binding. -/
def priorityOf (s : State) (p : Nat) (e : Event) : Nat := match bindingAt s p e.epoch e.binding with | some b => b.b.priority | none => 0

/-- The event a tumbler takes: of the highest priority, the oldest (08 R228). -/
def chooseEvent (s : State) (p n : Nat) : Option (Nat × Event) :=
  let q := tgetD s.acts.queues p []
  let es := ((List.range q.length).zip q).filter (fun x => eligible s p n q x.1 x.2)
  let top := maxOf (es.map (fun x => priorityOf s p x.2))
  es.find? (fun x => priorityOf s p x.2 == top)

/-- The words of a payload: four marked octets to a word, the rest of the last word 0 (06 R170). -/
def payloadWords : List Byte → List Word
  | a :: b :: c :: d :: r => ofNonets (256 + a.toNat) (256 + b.toNat) (256 + c.toNat) (256 + d.toNat) :: payloadWords r
  | [a, b, c] => [ofNonets (256 + a.toNat) (256 + b.toNat) (256 + c.toNat) 0]
  | [a, b] => [ofNonets (256 + a.toNat) (256 + b.toNat) 0 0]
  | [a] => [ofNonets (256 + a.toNat) 0 0 0]
  | [] => []

/-- The input area of a tumbler (08 R224). -/
def inputArea (b : ActBinding) (n : Nat) : Nat := b.inputBase + n % 8 * b.inputWords

/-- The entry point of a binding's act. -/
def entryOf (s : State) (p : Nat) (b : ActBinding) : Option Nat :=
  match tget s.acts.acts (64 * p + b.act) with | some a => a.entries[b.entry]? | none => none

/-- TUMBLER_DISPATCH (08 R228, R229): an idle tumbler in service takes an event. -/
def execTumblerDispatch (n : Nat) (s : State) : Host.Outcome State Fault Refusal :=
  match tumblerOwner s s.cfg n with
  | none => .next s
  | some p =>
    if (tgetD s.acts.tumblers n {}).run.isSome || quarantined s n || quarantined s 138 then .next s
    else match chooseEvent s p n with
      | none => .next s
      | some (i, e) =>
        match bindingAt s p e.epoch e.binding with
        | none => .next s
        | some b =>
          match entryOf s p b.b with
          | none => .next s
          | some pc =>
            let present := e.kind == 1 && bit (listGet e.words 0 0).toNat 18
            let area := inputArea b.b n
            let ws := [listGet e.words 0 0, listGet e.words 1 0, listGet e.words 2 0, listGet e.words 3 0, listGet e.words 4 0,
              word b.b.arg, if present then word area else 0, word n]
            let inv : Invocation := { part := p, binding := e.binding, tenant := b.tenant, epoch := e.epoch, session := e.session,
                                      kind := e.kind, words := e.words, allowance := b.b.allowance }
            let q := (tgetD s.acts.queues p []).eraseIdx i
            let s := s.onActs (fun a => { a with queues := tset a.queues p q })
            let s := if present then s.onMem (fun m => { m with
                troupe := wordsWrite m.troupe (n / 8 * 1048576 + area) (payloadWords e.payload) }) else s
            let s := s.onStat e.binding (fun x => { x with invocations := modAdd 64 x.invocations 1 })
            let s := s.onPower (fun x => { x with gated := x.gated.filter (fun d => d != n) })
            .next (s.onTumbler n (fun _ => { w := wordsWrite [] 1 ws, pc := pc, run := some inv }))

/-- ALLOWANCE_OVERRUN: the count of a tumbler's cycles, stalls and contention with them, reaches its allowance (08 R232). -/
def execAllowanceOverrun (n : Nat) (s : State) : Host.Outcome State Fault Refusal :=
  let t := tgetD s.acts.tumblers n {}
  match t.run with
  | none => .next s
  | some inv => .next (overrun s n t inv)

/-! Timers (08 R225, R227). -/

/-- The dispatcher's configuration of a partition. -/
def actCfgAt (s : State) (p : Nat) : ActCfg := (cfgAt s p 138).acts

/-- Timers after island 138 has adopted an epoch: those that were set or disabled under it start or stop. -/
def actAdopt (s : State) (p : Nat) : State :=
  let want := tfilter (actCfgAt s p).timers (fun k _ => k / 64 == p)
  let keep := tfilter s.acts.timers (fun k d => k / 64 != p || (match tget want k with | some c => c == d.cfg | none => false))
  let start := fun (c : TimerCfg) => match c.first with
    | some a => max a s.clock.cadence
    | none => s.clock.cadence + c.periodUs * 1000
  s.onActs (fun a => { a with
    timers := want.foldl (fun ts e => if thas keep e.1 then ts else tset ts e.1 { due := start e.2, cfg := e.2 }) keep })

/-- ACT_TIMER_EXPIRE: timer `k` of a partition is due (08 R225, R227). The due time is given in Device Time. -/
def execActTimerExpire (p k : Nat) (s : State) : Host.Outcome State Fault Refusal :=
  match tget s.acts.timers (64 * p + k) with
  | none => .next s
  | some d =>
    if quarantined s 138 || 63 < k then .next s
    else
      let dev := s.clock.now + d.due - s.clock.cadence
      let ev : Event := {
        kind := 4
        binding := 64 * p + d.cfg.binding
        session := 0
        epoch := epochAt s p 138
        words := [word (kindWord 4 + k), 0, 0, word dev, 0]
        payload := []
        source := k }
      let s := s.onActs (fun a => { a with
        timers := tset a.timers (64 * p + k) { d with due := d.due + d.cfg.periodUs * 1000 } })
      .next (putAct s p ev).2

/-! What reaches a running tumbler. -/

/-- The effect of TAKE with a reply there (10 R282). -/
def takeDone (s : State) (t : Tumbler) (w : Word) (stall : Nat) : Ran :=
  match t.arrived.find? (fun r => r.1 == fPort w) with
  | none => .stall (.take w)
  | some (_, w0, w1) =>
    let t1 := { t with arrived := t.arrived.erase (fPort w, w0, w1) }
    let t2 := (t1.put (fRd w) w0).put (fRa w) w1
    let z := field w0.toNat 27 9 == 0
    .done s { t2 with fl := setFlags t.fl { z := some z, n := some false } } (1 + stall) none

/-- PORT_REPLY: the oldest reply of a port, once its request has ended, reaches its tumbler, and ends a TAKE that waits for
it (08 R236, 10 R282). `stall` is how many cycles the TAKE has stalled. -/
def execPortReply (n port stall : Nat) (s : State) : Host.Outcome State Fault Refusal :=
  match s.sess.replies.find? (fun r => r.tumbler == n && r.port == port) with
  | none => .next s
  | some r =>
    match r.words with
    | none => .next s
    | some (w0, w1) =>
      let s := s.onSess (fun x => { x with replies := x.replies.filter (fun y => y.id != r.id) })
      let s := s.onTumbler n (fun t => { t with arrived := t.arrived ++ [(port, w0, w1)] })
      let t := tgetD s.acts.tumblers n {}
      match t.run, t.stall with
      | some inv, .take w => .next (if fPort w == port then settle s n t inv (takeDone s t w stall) else s)
      | _, _ => .next s

/-- The part of a word that a load takes (10 R274). -/
def loadPart (o : Op) (w m : Word) : Word :=
  match o with
  | .ldh => word (half m (fPart w))
  | .ldhs => ofInt36 (signed 18 (half m (fPart w)))
  | .ldn => word (nonet m (fPart w))
  | _ => m

/-- A tumbler's Midway master and tags (03 R83, R91). -/
def tumblerActor (s : State) (inv : Invocation) : Actor := { part := inv.part, tenant := inv.tenant, priv := false, cfg := cfgOf s inv.part inv.epoch }

/-- LOAD_RETURN: the data of a stalled Midway load returns, or its failure (08 R216, 09 R259). -/
def execLoadReturn (n stall : Nat) (s : State) : Host.Outcome State Fault Refusal :=
  let t := tgetD s.acts.tumblers n {}
  match t.run, t.stall with
  | some inv, .load w a =>
    let x := loadAll s (24 + n / 32) (tumblerActor s inv) a 4 []
    let s' := x.2.2.2
    match x.1 with
    | .ok =>
      let b := fun (i : Nat) => 256 + (listGet x.2.2.1 i 0).toNat
      let v := loadPart ((opOf (fOp w)).getD .ldw) w (ofNonets (b 0) (b 1) (b 2) (b 3))
      .next (settle s' n t inv (.done s' (t.put (fRd w) v) (2 + stall) none))
    | .memUncorrectable => .next (settle s' n t inv (.exc s' 6 false))
    | _ => .next (settle s' n t inv (.exc s' 5 false))
  | _, _ => .next s

/-- STORE_FAILURE: the failure of the oldest failed store comes back after its tumbler has moved on (09 R259). -/
def execStoreFailure (n : Nat) (s : State) : Host.Outcome State Fault Refusal :=
  let t := tgetD s.acts.tumblers n {}
  match t.run, t.stores with
  | some inv, c :: cs =>
    let s := s.onStat inv.binding (fun x => { x with faults := modAdd 64 x.faults 1 })
    .next (s.onTumbler n (fun t => { t with
      stores := cs
      storeFailed := some (match t.storeFailed with | some d => min c d | none => c) }))
  | _, _ => .next s

end Sys2Proof.Machine
end

