-- ==== Sys2Proof/Machine/Loads.lean ====
section
/-! DEFINITION. Machine/Loads.lean: the M format of Belpor-36 (10 R274 to R276), with the banks of 08 R215 and R216. -/

namespace Sys2Proof.Machine

/-- Where an effective address lies (08 R215): the tumbler's own troupe, memory behind Midway, or an unopened bank. -/
inductive Bank where
  | troupe (word : Nat)
  | midway (addr : Nat)
  | shut
  deriving DecidableEq, Repr

/-- The bank of an effective address. -/
def bankOf (hbm ea : Nat) : Bank :=
  if ea < 0x100000 then .troupe ea
  else if 0x4000000 ≤ ea && ea < 0x8000000 then .midway (0x010000000000 + (ea - 0x4000000) * 4)
  else if 0x8000000 ≤ ea && ea < 0xC000000 then .midway (hbm + (ea - 0x8000000) * 4)
  else .shut

/-- The HBM base of an invocation's binding (08 R222). -/
def hbmBaseOf (s : State) (inv : Invocation) : Nat :=
  match bindingAt s inv.part inv.epoch inv.binding with | some b => b.b.hbmBase * 268435456 | none => 0

/-- Where an instruction's access goes. -/
def bankFor (s : State) (inv : Invocation) (t : Tumbler) (w : Word) : Bank := bankOf (hbmBaseOf s inv) (effective t w)

/-- May a tumbler reach a word of its troupe (08 R213)? -/
def troupeOk (s : State) (inv : Invocation) (n k : Nat) : Bool := troupeOwned s (cfgOf s inv.part inv.epoch) inv.part inv.tenant (n / 8) k

/-- The unit that protects a word of a troupe. -/
def troupeUnit (n k : Nat) : Nat := 0x030100000000 + n / 8 * 0x800000 + k * 8

/-- Is the word uncorrectable? -/
def troupeBad (s : State) (n k : Nat) : Bool := s.mem.bad.contains (troupeUnit n k)

/-- A word of a tumbler's troupe. -/
def troupeWord (s : State) (n k : Nat) : Word := wordGet s.mem.troupe (n / 8 * 1048576 + k)

/-- Put a word into a tumbler's troupe; a whole word clears an uncorrectable error (03 R76). -/
def troupePut (s : State) (n k : Nat) (v : Word) : State :=
  s.onMem (fun m => { m with
    troupe := wordSet m.troupe (n / 8 * 1048576 + k) v
    bad := m.bad.filter (fun u => u != troupeUnit n k) })

/-- A load of a word, a half or a nonet (10 R274, R276, 08 R213 to R216). -/
def loadOp (n : Nat) (o : Op) (s : State) : Host.Outcome State Fault Refusal :=
  runOp n o (fun s inv t w =>
    match bankFor s inv t w with
    | .shut => .exc s 5 false
    | .midway a => .stall (.load w a)
    | .troupe k =>
      if !troupeOk s inv n k then .exc s 5 false
      else if troupeBad s n k then .exc (memError s (troupeUnit n k)) 6 false
      else .done s (t.put (fRd w) (loadPart o w (troupeWord s n k))) 2 none) s

/-- A store's nonets, nonet 3 first: the new value of each that the instruction names. -/
def storeNonets (o : Op) (w d : Word) : List (Option Nat) :=
  [3, 2, 1, 0].map (fun j => match o with
    | .sth => if j / 2 == fPart w then some (nonet d (j % 2)) else none
    | .stn => if j == fPart w then some (nonet d 0) else none
    | _ => some (nonet d j))

/-- A word with the nonets a store names. -/
def storeWord (m : Word) (ns : List (Option Nat)) : Word :=
  ofNonets ((listGet ns 0 none).getD (nonet m 3)) ((listGet ns 1 none).getD (nonet m 2))
    ((listGet ns 2 none).getD (nonet m 1)) ((listGet ns 3 none).getD (nonet m 0))

/-- The runs of marked octets of a store, with their offsets in the word (08 R216): one transaction for each. -/
def markedRuns : Nat → List (Option Nat) → List (Nat × List Byte)
  | _, [] => []
  | i, x :: xs =>
    match x with
    | none => markedRuns (i + 1) xs
    | some v =>
      if v < 256 then markedRuns (i + 1) xs
      else match markedRuns (i + 1) xs with
        | (j, d) :: rs => if j == i + 1 then (i, byteOf v :: d) :: rs else (i, [byteOf v]) :: (j, d) :: rs
        | [] => [(i, [byteOf v])]

/-- The exception code a failed store is counted with (09 R259). -/
def storeCode (st : Status) : Nat := if st == Status.memUncorrectable then 6 else 5

/-- A tumbler with one more failed store under way. -/
def storeFails (t : Tumbler) (code : Nat) : Tumbler := { t with stores := t.stores ++ [code] }

/-- A store of a word, a half or a nonet (10 R274, 08 R216, 09 R247, R259). The stores of a tumbler are performed in program
order when they are issued; one that fails is not performed, and its failure comes back later (log entry 27, DEDUCED). -/
def storeOp (n : Nat) (o : Op) (s : State) : Host.Outcome State Fault Refusal :=
  runOp n o (fun s inv t w =>
    let ns := storeNonets o w (t.get (fRd w))
    match bankFor s inv t w with
    | .shut => .exc s 5 false
    | .midway a =>
      let r := (markedRuns 0 ns).foldl
        (fun (x : Status × State) run =>
          if x.1 != .ok then x
          else
            let y := storeOne x.2 (24 + n / 32) (tumblerActor s inv) (a + run.1) run.2 .other
            (y.1, y.2.1))
        (.ok, s)
      .done r.2 (if r.1 == .ok then t else storeFails t (storeCode r.1)) 1 none
    | .troupe k =>
      if !troupeOk s inv n k then .exc s 5 false
      else if o != .stw && troupeBad s n k then .done (memError s (troupeUnit n k)) (storeFails t 6) 1 none
      else .done (troupePut s n k (storeWord (troupeWord s n k) ns)) t 1 none) s

/-- An indivisible access to troupe memory (10 R275): the word to store, where one is stored, and the tumbler after. -/
def atomicOp (n : Nat) (o : Op) (f : Tumbler → Word → Word → Option Word × Tumbler) (s : State) : Host.Outcome State Fault Refusal :=
  runOp n o (fun s inv t w =>
    match bankFor s inv t w with
    | .troupe k =>
      if !troupeOk s inv n k then .exc s 5 false
      else if troupeBad s n k then .exc (memError s (troupeUnit n k)) 6 false
      else
        let r := f t w (troupeWord s n k)
        .done (match r.1 with | some v => troupePut s n k v | none => s) r.2 3 none
    | _ => .exc s 5 false) s

/-- LDW (10 R274). -/
def execLdw (n : Nat) (s : State) : Host.Outcome State Fault Refusal := loadOp n .ldw s
/-- LDH (10 R274). -/
def execLdh (n : Nat) (s : State) : Host.Outcome State Fault Refusal := loadOp n .ldh s
/-- LDHS (10 R274). -/
def execLdhs (n : Nat) (s : State) : Host.Outcome State Fault Refusal := loadOp n .ldhs s
/-- LDN (10 R274). -/
def execLdn (n : Nat) (s : State) : Host.Outcome State Fault Refusal := loadOp n .ldn s
/-- STW (10 R274). -/
def execStw (n : Nat) (s : State) : Host.Outcome State Fault Refusal := storeOp n .stw s
/-- STH (10 R274). -/
def execSth (n : Nat) (s : State) : Host.Outcome State Fault Refusal := storeOp n .sth s
/-- STN (10 R274). -/
def execStn (n : Nat) (s : State) : Host.Outcome State Fault Refusal := storeOp n .stn s

/-- AADD (10 R274, R275). -/
def execAadd (n : Nat) (s : State) : Host.Outcome State Fault Refusal :=
  atomicOp n .aadd (fun t w m => (some (m + t.get (fRd w)), t.put (fRd w) m)) s

/-- ACAS (10 R274, R275): Z says whether it stored. -/
def execAcas (n : Nat) (s : State) : Host.Outcome State Fault Refusal :=
  atomicOp n .acas (fun t w m =>
    let hit := m == t.get (fRd w)
    (if hit then some (t.get (fRd w + 1)) else none,
     { t.put (fRd w) m with fl := setFlags t.fl { z := some hit } })) s

end Sys2Proof.Machine
end

