-- ==== Sys2Proof/Machine/Flow.lean ====
section
/-! DEFINITION. Machine/Flow.lean: the B, L and P formats of Belpor-36 (09 R251 to R255, 10 R277 to R283). -/

namespace Sys2Proof.Machine

/-! Control transfers. -/

/-- Is the instruction at the end address of the innermost loop (09 R255)? -/
def atLoopEnd (t : Tumbler) : Bool := 0 < depth t && listGet t.le (depth t - 1) 0 == t.pc

/-- Does an address lie in the body of the innermost loop? -/
def inBody (t : Tumbler) (a : Nat) : Bool :=
  0 < depth t && listGet t.ls (depth t - 1) 0 ≤ a && a ≤ listGet t.le (depth t - 1) 0

/-- A branch or jump: a taken one may neither stand at a loop's end nor leave its body (09 R255, 10 R277). -/
def branchOp (n : Nat) (o : Op) (target : Tumbler → Word → Nat) (s : State) : Host.Outcome State Fault Refusal :=
  runOp n o (fun s _ t w =>
    let a := target t w
    if !condHolds t.fl (fCond w) then .done s t 1 none
    else if atLoopEnd t || (inBody t t.pc && !inBody t a) then .exc s 3 false
    else .done s t 2 (some a)) s

/-- A call or return: none may stand at a loop's end (09 R255, 10 R277). -/
def callOp (n : Nat) (o : Op) (link : Bool) (target : Tumbler → Word → Nat) (s : State) : Host.Outcome State Fault Refusal :=
  runOp n o (fun s _ t w =>
    let a := target t w
    if atLoopEnd t then .exc s 3 false
    else if !condHolds t.fl (fCond w) then .done s t 1 none
    else .done s (if link then t.put 31 (word (t.pc + 1)) else t) 2 (some a)) s

/-- The register target of BR and CALLR. -/
def regTarget (t : Tumbler) (w : Word) : Nat := (t.get (fRaM w)).toNat % 1048576

/-- B (10 R277). -/
def execB (n : Nat) (s : State) : Host.Outcome State Fault Refusal := branchOp n .b (fun _ w => fTarget w) s
/-- BR (10 R277). -/
def execBr (n : Nat) (s : State) : Host.Outcome State Fault Refusal := branchOp n .br regTarget s
/-- CALL (10 R277, 09 R260). -/
def execCall (n : Nat) (s : State) : Host.Outcome State Fault Refusal := callOp n .call true (fun _ w => fTarget w) s
/-- CALLR: the target is read before W31 is written (10 R277, R278). -/
def execCallr (n : Nat) (s : State) : Host.Outcome State Fault Refusal := callOp n .callr true regTarget s
/-- RET (10 R277, 09 R260). -/
def execRet (n : Nat) (s : State) : Host.Outcome State Fault Refusal :=
  callOp n .ret false (fun t _ => (t.get 31).toNat % 1048576) s

/-! Loops. -/

/-- LOOPI and LOOPR (09 R252, R255). -/
def loopOp (n : Nat) (o : Op) (count : Tumbler → Word → Nat) (s : State) : Host.Outcome State Fault Refusal :=
  runOp n o (fun s _ t w =>
    let d := depth t
    let k := count t w
    let e := fTarget w
    if d == 4 || e < t.pc + 1 || 16777215 < k || (0 < d && listGet t.le (d - 1) 0 < e) || atLoopEnd t then .exc s 3 false
    else if k == 0 then .done s t 1 (some (e + 1))
    else .done s { t with ls := listSet t.ls d (t.pc + 1), le := listSet t.le d e, lc := listSet t.lc d k } 1 (some (t.pc + 1))) s

/-- LOOPI (09 R252, 10 R279). -/
def execLoopi (n : Nat) (s : State) : Host.Outcome State Fault Refusal := loopOp n .loopi (fun _ w => fCount w) s
/-- LOOPR (09 R252, 10 R279). -/
def execLoopr (n : Nat) (s : State) : Host.Outcome State Fault Refusal := loopOp n .loopr (fun t w => (t.get (fRd w)).toNat) s

/-- LEXIT (09 R252, R255). -/
def execLexit (n : Nat) (s : State) : Host.Outcome State Fault Refusal :=
  runOp n .lexit (fun s _ t w =>
    if depth t == 0 || atLoopEnd t then .exc s 3 false
    else .done s { t with lc := listSet t.lc (depth t - 1) 0 } 2 (some (fTarget w))) s

/-! Ports (08 R235 to R237). -/

/-- The length of a port's requests. -/
def portLen (p : Nat) : Nat := if p == 1 then 8 else 4

/-- The first of the exceptions an instruction meets, with those that a failed store has left (09 R258, R259). -/
def portExc (s : State) (t : Tumbler) (codes : List Nat) : Option Ran :=
  match t.storeFailed, codes with
  | none, [] => none
  | none, c :: cs => some (.exc s (cs.foldl min c) false)
  | some d, cs => some (.exc s (cs.foldl min d) (!cs.any (fun c => decide (c ≤ d))))

/-- The index of the frame an invocation runs for: that of a frame-due event with its frame present, else 0 (06 R170, R177;
log entry 55, DEDUCED). -/
def frameIndex (inv : Invocation) : Nat :=
  let v := fun (i : Nat) => (listGet inv.words i 0).toNat
  if inv.kind == 1 && bit (v 0) 18 then v 1 % 2 ^ 24 * 2 ^ 24 + v 2 % 2 ^ 24 else 0

/-- The request of a tumbler (08 R235). -/
def portReq (s : State) (n : Nat) (inv : Invocation) (port : Nat) (ws : List Word) : PortReq :=
  { tumbler := n, port := port, words := ws, part := inv.part, tenant := inv.tenant, binding := inv.binding
    epoch := inv.epoch, index := frameIndex inv, reply := s.sess.nextReply }

/-- POST (10 R281): nothing happens while a failed store is still under way; then its checks; then the request is sent. -/
def execPost (n : Nat) (s : State) : Host.Outcome State Fault Refusal :=
  runOp n .post (fun s inv t w =>
    let p := fPort w
    let len := portLen p
    let base := (t.get (fRa w)).toNat % 1048576
    let bad := 2 < p || 8 ≤ untaken s n t
    let out := p ≤ 2 && !(List.range len).all (fun i => base + i < 1048576 && troupeOk s inv n (base + i))
    let unread := if !bad && !out then (List.range len).find? (fun i => troupeBad s n (base + i)) else none
    if !t.stores.isEmpty then .wait
    else
      let s := match unread with | some i => memError s (troupeUnit n (base + i)) | none => s
      match portExc s t ((if bad then [4] else []) ++ (if out then [5] else []) ++ (if unread.isSome then [6] else [])) with
      | some r => r
      | none =>
        let ws := (List.range len).map (fun i => troupeWord s n (base + i))
        let s := s.onSess (fun x => { x with
          requests := x.requests ++ [portReq s n inv p ws]
          replies := x.replies ++ [{ id := x.nextReply, tumbler := n, port := p, words := none }]
          nextReply := x.nextReply + 1 })
        .done s t (1 + len) none) s

/-- TAKE (10 R282). -/
def execTake (n : Nat) (s : State) : Host.Outcome State Fault Refusal :=
  runOp n .take (fun s _ t w =>
    if 2 < fPort w || untakenOf s n t (fPort w) == 0 then .exc s 4 false else takeDone s t w 0) s

/-- POLL (10 R280, R282). -/
def execPoll (n : Nat) (s : State) : Host.Outcome State Fault Refusal :=
  runOp n .poll (fun s _ t w =>
    if 2 < fPort w then .exc s 4 false
    else
      let v : Word := word (t.arrived.countP (fun r => r.1 == fPort w))
      .done s { t.put (fRd w) v with fl := setFlags t.fl (zn v) } 1 none) s

/-! Special registers (09 R244, 10 R283). -/

/-- What MFS reads. -/
def specialGet (s : State) (t : Tumbler) (k : Nat) : Nat :=
  if k < 4 then listGet t.bk k 0
  else if k < 8 then listGet t.ls (k - 4) 0
  else if k < 12 then listGet t.le (k - 8) 0
  else if k < 16 then listGet t.lc (k - 12) 0
  else if k == 16 then t.fl % 32
  else if k == 17 then t.cyc % 16777216
  else if k == 18 then s.clock.now % 68719476736
  else 0

/-- MFS (09 R244). -/
def execMfs (n : Nat) (s : State) : Host.Outcome State Fault Refusal :=
  runOp n .mfs (fun s _ t w => .done s (t.put (fRd w) (word (specialGet s t (fRa w)))) 1 none) s

/-- MTS (09 R244, 10 R283). -/
def execMts (n : Nat) (s : State) : Host.Outcome State Fault Refusal :=
  runOp n .mts (fun s _ t w =>
    let k := fRd w
    let v := (t.get (fRa w)).toNat
    if k < 4 then .done s { t with bk := listSet t.bk k (v % 4096) } 1 none
    else if k == 16 then .done s { t with fl := v % 32 } 1 none
    else if k < 16 then .exc s 3 false
    else .exc s 2 false) s

/-- ENDACT (08 R231, 09 R259, 10 R280). -/
def execEndact (n : Nat) (s : State) : Host.Outcome State Fault Refusal :=
  runOp n .endact (fun s _ t _ =>
    if !t.stores.isEmpty then .wait else match portExc s t [] with | some r => r | none => .ends 1) s

/-- BRK (10 R283). -/
def execBrk (n : Nat) (s : State) : Host.Outcome State Fault Refusal := runOp n .brk (fun s _ _ _ => .exc s 7 false) s

end Sys2Proof.Machine
end

