-- ==== Sys2Proof/Machine/ActCmds.lean ====
section
/-! DEFINITION. Machine/ActCmds.lean: the ACT group (08 R218 to R226, 19 R516). -/

namespace Sys2Proof.Machine

/-! Images (08 R218, R219). -/

/-- The words of an image in the raw layout; bits 63:36 are ignored (03 R78). -/
def imageWords : Nat → List Byte → List Nat
  | 0, _ => []
  | k + 1, d => ofLe (d.take 8) % 68719476736 :: imageWords k (d.drop 8)

/-- A parsed image. -/
structure ActImage where
  imBase : Nat
  code : List Nat
  entries : List Nat
  segments : List (Nat × List Nat)
  deriving DecidableEq, Repr

/-- The direct target or loop end of a code word, where it has one. -/
def codeTarget (w : Word) : Option Nat :=
  match opOf (fOp w) with
  | some .b | some .call | some .loopi | some .loopr | some .lexit => some (fTarget w)
  | _ => none

/-- The failing offsets of the header words 0 to 7, with the length of the image in words. -/
def headerBad (d : List Byte) (w : Nat → Nat) (n : Nat) : List Nat :=
  let base := field (w 2) 18 15
  let cw := field (w 2) 0 16
  let bad := fun (k : Nat) => match k with
    | 0 => w 0 != 0o514123516061
    | 1 => w 1 != 262145
    | 2 => w 2 / 2 ^ 33 != 0 || field (w 2) 16 2 != 0 || cw == 0 || 32767 < base + cw - 1
    | 3 => w 3 == 0 || 16 < w 3
    | 4 => 16 < w 4
    | 5 => w 5 != crc32 (d.drop 64)
    | _ => w k != 0
  (List.range 8).filter (fun k => n ≤ k || bad k)

/-- The failing offsets of the entry and code words. -/
def codeBad (w : Nat → Nat) (n : Nat) : List Nat :=
  let lo := field (w 2) 18 15
  let cw := field (w 2) 0 16
  let out := fun (a : Nat) => a < lo || lo + cw - 1 < a
  let entry := (List.range 16).filter (fun k => n ≤ 8 + k || (if k < w 3 then out (w (8 + k)) else w (8 + k) != 0))
  let code := (List.range cw).filter (fun i =>
    let x := word (w (24 + i))
    n ≤ 24 + i || (belporDecode x).isNone || (match codeTarget x with | some a => out a | none => false))
  entry.map (8 + ·) ++ code.map (24 + ·)

/-- The segments from a word offset on: the parsed ones, or the first failing offset (08 R218, R219). `ok` says whether an
area lies in the partition's granules. -/
def segmentsOf (w : Nat → Nat) (n : Nat) (ok : Nat → Nat → Bool) : Nat → Nat → Sum Nat (Nat × List (Nat × List Nat))
  | 0, pos => .inr (pos, [])
  | k + 1, pos =>
    let a := w pos
    let len := w (pos + 1)
    if n ≤ pos || 1048575 < a then .inl pos
    else if n ≤ pos + 1 || 65535 < len || len == 0 then .inl (pos + 1)
    else if n < pos + 2 + len then .inl n
    else if !ok a len then .inl pos
    else match segmentsOf w n ok k (pos + 2 + len) with
      | .inl e => .inl e
      | .inr (e, ss) => .inr (e, (a, (List.range len).map (fun j => w (pos + 2 + j))) :: ss)

/-- Validate a whole image: its parts, or the word offset of the first failing word (08 R219). -/
def parseImage (d : List Byte) (ok : Nat → Nat → Bool) : Sum Nat ActImage :=
  let n := d.length / 8
  let ws := imageWords n d
  let w := fun (i : Nat) => listGet ws i 0
  match headerBad d w n ++ codeBad w n with
  | k :: _ => .inl k
  | [] =>
    let cw := field (w 2) 0 16
    match segmentsOf w n ok (w 4) (24 + cw) with
    | .inl e => .inl e
    | .inr (pos, ss) =>
      if pos < n || d.length % 8 != 0 then .inl pos
      else .inr { imBase := field (w 2) 18 15, code := (List.range cw).map (fun i => w (24 + i))
                  entries := (List.range (w 3)).map (fun i => w (8 + i)), segments := ss }

/-- Do words of a troupe lie in a partition's granules? -/
def troupeRange (s : State) (p t a n : Nat) : Bool :=
  a + n ≤ 1048576 && (n == 0 || (List.range ((a + n - 1) / 65536 - a / 65536 + 1)).all (fun i =>
    match ownerOf s s.cfg (0x030000000000 + t * 0x400000 + (a / 65536 + i) * 0x40000) with
    | some (q, _) => q == p
    | none => false))

/-- The troupes in which a partition owns a tumbler. -/
def troupesOf (s : State) (p : Nat) : List Nat := ((tumblersOf s s.cfg p).map (· / 8)).eraseDups

/-- Is a number the all-ones value of an 8-bit field? -/
def pick8 {α : Type} (t : Tbl α) (p n : Nat) : Option Nat :=
  if n == 255 then (tfreeIn t (64 * p) (64 * p + 64)).map (· - 64 * p) else if n < 64 then some n else none

/-- Put code into the instruction memory of a tumbler, clearing what was uncorrectable there. -/
def imPut (s : State) (n a : Nat) (ws : List Nat) : State :=
  s.onMem (fun m => { m with
    im := wordsWrite m.im (n * 32768 + a) (ws.map word)
    bad := m.bad.filter (fun u => u < 0x030200000000 + n * 0x40000 + a * 8 || 0x030200000000 + n * 0x40000 + (a + ws.length) * 8 ≤ u) })

/-- Write an image into the partition's instruction memories and its segments into the troupes (08 R220). -/
def imageWrite (s : State) (p : Nat) (g : ActImage) : State :=
  let s := (tumblersOf s s.cfg p).foldl (fun s n => imPut s n g.imBase g.code) s
  (troupesOf s p).foldl (fun s t =>
    g.segments.foldl (fun s e => s.onMem (fun m => { m with
      troupe := wordsWrite m.troupe (t * 1048576 + e.1) (e.2.map word)
      bad := m.bad.filter (fun u => u < 0x030100000000 + t * 0x800000 + e.1 * 8
        || 0x030100000000 + t * 0x800000 + (e.1 + e.2.length) * 8 ≤ u) })) s) s

/-- ACT_LOAD (08 R219, R220). -/
def execActLoad (h : Hdr) (act : Nat) (image : HostBlk (List Byte)) (s : State) : Host.Outcome State Fault Refusal :=
  boothStep (info 0x07 0x01) h
    (fun _ => [(63 < act && act != 255, .badRequest), (image.isNone, .hostAbort)])
    (fun s =>
      let p := hp h
      match parseImage (image.getD []) (fun a n => (troupesOf s p).all (fun t => troupeRange s p t a n)) with
      | .inl off => .done s .actInvalid (le 4 off)
      | .inr g =>
        let mineActs := tfilter s.acts.acts (fun k _ => k / 64 == p)
        let hits := mineActs.any (fun e => e.2.imBase < g.imBase + g.code.length && g.imBase < e.2.imBase + e.2.codeWords)
        match pick8 s.acts.acts p act with
        | none => .done s (if hits then .imBusy else .noActs) []
        | some k =>
          if act != 255 && thas s.acts.acts (64 * p + k) then .done s .actInUse []
          else if hits then .done s .imBusy []
          else
            let a : Act := { imBase := g.imBase, code := g.code, entries := g.entries
                             segments := g.segments.map (fun e => (e.1, e.2.length)) }
            let s := (imageWrite s p g).onActs (fun x => { x with acts := tset x.acts (64 * p + k) a })
            .done s .ok (if act == 255 then [byteOf k] else [])) s

/-- Does a binding name an act, under any live epoch of the partition (08 R221)? -/
def actNamed (s : State) (p a : Nat) : Bool :=
  let names := fun (c : Cfg) => tany c.acts.bindings (fun _ b => b.part == p && b.b.act == a)
  names s.cfg || (match (s.part p).old with | some (_, c) => names c | none => false)

/-- ACT_UNLOAD (08 R221). -/
def execActUnload (h : Hdr) (act : Nat) (s : State) : Host.Outcome State Fault Refusal :=
  boothStep (info 0x07 0x02) h
    (fun s => [(63 < act || !thas s.acts.acts (64 * hp h + act), .badRequest), (actNamed s (hp h) act, .actInUse)])
    (fun s =>
      match tget s.acts.acts (64 * hp h + act) with
      | none => .done s .ok []
      | some a =>
        let s := (tumblersOf s s.cfg (hp h)).foldl (fun s n => s.onMem (fun m => { m with
          im := wordsZero m.im (n * 32768 + a.imBase) a.codeWords })) s
        .done (s.onActs (fun x => { x with acts := tdel x.acts (64 * hp h + act) })) .ok []) s

/-! Bindings (08 R222 to R224). -/

/-- Field ranges of a binding layout (08 R222, 19 R516). -/
def bindRangesOut (b : ActBinding) : Bool :=
  63 < b.act || 15 < b.entry || 3 < b.priority || b.allowance < 1024 || 16777215 < b.allowance || 1048575 < b.inputBase
    || 512 < b.inputWords || 68719476736 ≤ b.arg || b.tumblers.any (fun n => decide (128 ≤ n))

/-- The checks of R223. `sessions` are those that name the binding. -/
def bindBad (s : State) (p : Nat) (b : ActBinding) (sessions : List SessCfg) : Bool :=
  (match entryOf s p b with | some _ => false | none => true)
    || b.tumblers.isEmpty || !b.tumblers.all (fun n => tumblerOwner s s.cfg n == some p)
    || !b.tumblers.all (fun n => troupeRange s p (n / 8) (inputArea b n) b.inputWords)
    || !rangeOwned s s.cfg p (b.hbmBase * 268435456) 268435456 || !inHbmOrStage (b.hbmBase * 268435456) 268435456
    || (b.dump && (268435456 < b.dumpOffset + 512 * b.tumblers.length
        || !rangeOwned s s.cfg p (0x010000000000 + b.dumpOffset) (512 * b.tumblers.length)))
    || sessions.any (fun c => decide (b.inputWords < slotBytes c.blk / 4))

/-- The sessions of a partition that name a binding. -/
def sessionsOf (c : Cfg) (p n : Nat) : List SessCfg := (c.sess.sessions.filter (fun e => e.2.part == p && e.2.blk.binding == n)).map (·.2)

/-- The checks of a command that names a binding. -/
def bindNamed (s : State) (h : Hdr) (n : Nat) : List (Bool × Status) :=
  match tget s.cfg.acts.bindings (64 * hp h + n) with
  | none => [(true, .badRequest)]
  | some b => [(63 < n, .badRequest), (notMine h b.part b.tenant, .notPermitted)]

/-- Change the acts' configuration under a new epoch. -/
def actEpoch (s : State) (p : Nat) (r : List Byte) (f : ActCfg → ActCfg) : Applied :=
  .epoch (commitEpoch s p (fun g => { g with acts := f g.acts })) p r

/-- ACT_BIND (08 R222, R223). -/
def execActBind (h : Hdr) (b : ActBinding) (s : State) : Host.Outcome State Fault Refusal :=
  boothStep (info 0x07 0x03) h
    (fun s =>
      [(bindRangesOut b || (63 < b.binding && b.binding != 255), .badRequest),
       (b.binding != 255 && thas s.cfg.acts.bindings (64 * hp h + b.binding), .badRequest),
       (bindBad s (hp h) b [], .badBinding), ((pick8 s.cfg.acts.bindings (hp h) b.binding).isNone, .noBindings)])
    (fun s =>
      let k := (pick8 s.cfg.acts.bindings (hp h) b.binding).getD 0
      let x : BindCfg := { part := hp h, tenant := h.tenant, fn := h.fn, b := { b with binding := k } }
      let s := s.onActs (fun a => { a with stats := tset a.stats (64 * hp h + k) {} })
      actEpoch s (hp h) [byteOf k] (fun a => { a with bindings := tset a.bindings (64 * hp h + k) x })) s

/-- ACT_REBIND (08 R222, R223). -/
def execActRebind (h : Hdr) (b : ActBinding) (s : State) : Host.Outcome State Fault Refusal :=
  boothStep (info 0x07 0x04) h
    (fun s =>
      [(bindRangesOut b || 63 < b.binding, .badRequest)] ++ bindNamed s h b.binding
      ++ [((match tget s.cfg.acts.bindings (64 * hp h + b.binding) with | some o => o.tenant != h.tenant | none => false), .badRequest),
          (bindBad s (hp h) b (sessionsOf s.cfg (hp h) b.binding), .badBinding)])
    (fun s => actEpoch s (hp h) [] (fun a => { a with
      bindings := tmod a.bindings (64 * hp h + b.binding) (fun o => { o with b := b }) })) s

/-- Does anything name a binding (08 R223)? -/
def bindingNamed (c : Cfg) (p n : Nat) : Bool :=
  !(sessionsOf c p n).isEmpty || tany c.sess.returns (fun _ r => r.part == p && r.binding == n)
    || tany c.acts.timers (fun k t => k / 64 == p && t.binding == n) || tany c.acts.doorbells (fun k d => k / 64 == p && d == n)

/-- ACT_UNBIND (08 R223). -/
def execActUnbind (h : Hdr) (n : Nat) (s : State) : Host.Outcome State Fault Refusal :=
  boothStep (info 0x07 0x05) h (fun s => bindNamed s h n ++ [(bindingNamed s.cfg (hp h) n, .actInUse)])
    (fun s => actEpoch s (hp h) [] (fun a => { a with bindings := tdel a.bindings (64 * hp h + n) })) s

/-- The check of a binding that a timer or doorbell names. -/
def refBad (s : State) (h : Hdr) (n : Nat) : List (Bool × Status) :=
  if n == 255 then []
  else match tget s.cfg.acts.bindings (64 * hp h + n) with
    | none => [(63 < n, .badRequest), (true, .badBinding)]
    | some b => [(63 < n, .badRequest), (notMine h b.part b.tenant, .notPermitted)]

/-- ACT_TIMER_SET (08 R225, 19 R516). A first due time in the past is due at once. -/
def execActTimerSet (h : Hdr) (timer binding period first : Nat) (s : State) : Host.Outcome State Fault Refusal :=
  boothStep (info 0x07 0x06) h
    (fun s =>
      [(63 < timer || (binding != 255 && period < 10), .badRequest)] ++ refBad s h binding
      ++ (match tget s.cfg.acts.timers (64 * hp h + timer) with
          | some t => [(notMine h (hp h) t.tenant, .notPermitted)]
          | none => []))
    (fun s =>
      let k := 64 * hp h + timer
      let ten := match tget s.cfg.acts.bindings (64 * hp h + binding) with | some b => b.tenant | none => 0
      let due := if first == 0 then none else some (s.clock.cadence + (first - s.clock.now))
      let t : TimerCfg := { binding := binding, tenant := ten, periodUs := period, first := due
                            epoch := modAdd 16 (s.part (hp h)).epoch 1 }
      actEpoch s (hp h) [] (fun a => { a with timers := if binding == 255 then tdel a.timers k else tset a.timers k t })) s

/-- ACT_DOORBELL_SET (08 R225, R226, 19 R516). -/
def execActDoorbellSet (h : Hdr) (doorbell binding : Nat) (s : State) : Host.Outcome State Fault Refusal :=
  boothStep (info 0x07 0x07) h
    (fun s =>
      [(decide (63 < doorbell), .badRequest)] ++ refBad s h binding
      ++ (match tget s.cfg.acts.doorbells (64 * hp h + doorbell) with
          | some b => (match tget s.cfg.acts.bindings (64 * hp h + b) with
              | some x => [(notMine h x.part x.tenant, .notPermitted)]
              | none => [])
          | none => []))
    (fun s =>
      let k := 64 * hp h + doorbell
      actEpoch s (hp h) [] (fun a => { a with
        doorbells := if binding == 255 then tdel a.doorbells k else tset a.doorbells k binding })) s

/-- ACT_STATS (08 R234). REPLIES_DISCARDED follows the counters of R234 (log entry 28, DEDUCED). -/
def execActStats (h : Hdr) (n clear : Nat) (blk : OutBlk) (s : State) : Host.Outcome State Fault Refusal :=
  boothStep (info 0x07 0x08) h (fun s => (1 < clear, .badRequest) :: bindNamed s h n)
    (fun s =>
      let k := 64 * hp h + n
      let x := tgetD s.acts.stats k {}
      statsDone (writeOut h blk (statsBlock s n [x.invocations, x.cycles, x.overruns, x.faults, x.eventsDropped, x.doorbellDenied, x.repliesDiscarded]
        [x.hwCycles]) s) (bit clear 0) (fun s => s.onStat k (fun x => { x with hwCycles := 0 }))) s

end Sys2Proof.Machine
end

