-- ==== Sys2Proof/Machine/Alu.lean ====
section
/-! DEFINITION. Machine/Alu.lean: the R and I formats of Belpor-36 (10 R264 to R273). Each row names the tumbler that is to
run its next instruction. -/

namespace Sys2Proof.Machine

/-- A register or immediate instruction that writes `Wd`: its least cycles (10 R284) and its result with flags. -/
def alu (n : Nat) (o : Op) (cycles : Nat) (f : Tumbler → Word → Word × Flags) (s : State) : Host.Outcome State Fault Refusal :=
  runOp n o (fun s _ t w =>
    let r := f t w
    .done s { t.put (fRd w) r.1 with fl := setFlags t.fl r.2 } cycles none) s

/-- Wa, Wb and Wd as they stand before the instruction. -/
def wa (t : Tumbler) (w : Word) : Word := t.get (fRa w)
/-- Wb. -/
def wb (t : Tumbler) (w : Word) : Word := t.get (fRb w)
/-- Wd. -/
def wd (t : Tumbler) (w : Word) : Word := t.get (fRd w)
/-- The carry flag. -/
def carry (t : Tumbler) : Nat := b2n (bit t.fl 0)

/-- A bitwise or lane result, which names Z and N only. -/
def logic (f : Word → Word → Word) (t : Tumbler) (w : Word) : Word × Flags := znOnly (f (wa t w) (wb t w))

/-- ADD (10 R264). -/
def execAdd (n : Nat) (s : State) : Host.Outcome State Fault Refusal :=
  alu n .add 1 (fun t w => addWord (wa t w) (wb t w) 0) s

/-- ADC (10 R264). -/
def execAdc (n : Nat) (s : State) : Host.Outcome State Fault Refusal :=
  alu n .adc 1 (fun t w => addWord (wa t w) (wb t w) (carry t)) s

/-- SUB (10 R264). -/
def execSub (n : Nat) (s : State) : Host.Outcome State Fault Refusal :=
  alu n .sub 1 (fun t w => subWord (wa t w) (wb t w) 0) s

/-- SBC (10 R264). -/
def execSbc (n : Nat) (s : State) : Host.Outcome State Fault Refusal :=
  alu n .sbc 1 (fun t w => subWord (wa t w) (wb t w) (1 - carry t)) s

/-- CMP: flags only, as RD is 0 (10 R264). -/
def execCmp (n : Nat) (s : State) : Host.Outcome State Fault Refusal :=
  alu n .cmp 1 (fun t w => subWord (wa t w) (wb t w) 0) s

/-- NEG (10 R264). -/
def execNeg (n : Nat) (s : State) : Host.Outcome State Fault Refusal :=
  alu n .neg 1 (fun t w => subWord 0 (wa t w) 0) s

/-- ADDS (10 R264). -/
def execAdds (n : Nat) (s : State) : Host.Outcome State Fault Refusal :=
  alu n .adds 1 (fun t w => satWord 36 (sw (wa t w) + sw (wb t w))) s

/-- SUBS (10 R264). -/
def execSubs (n : Nat) (s : State) : Host.Outcome State Fault Refusal :=
  alu n .subs 1 (fun t w => satWord 36 (sw (wa t w) - sw (wb t w))) s

/-- AND (10 R264). -/
def execAnd (n : Nat) (s : State) : Host.Outcome State Fault Refusal :=
  alu n .and_ 1 (fun t w => logic (· &&& ·) t w) s

/-- OR (10 R264). -/
def execOr (n : Nat) (s : State) : Host.Outcome State Fault Refusal :=
  alu n .or_ 1 (fun t w => logic (· ||| ·) t w) s

/-- XOR (10 R264). -/
def execXor (n : Nat) (s : State) : Host.Outcome State Fault Refusal :=
  alu n .xor_ 1 (fun t w => logic (· ^^^ ·) t w) s

/-- ANDN (10 R264). -/
def execAndn (n : Nat) (s : State) : Host.Outcome State Fault Refusal :=
  alu n .andn 1 (fun t w => logic (fun a b => a &&& ~~~b) t w) s

/-- SHL (10 R265). -/
def execShl (n : Nat) (s : State) : Host.Outcome State Fault Refusal :=
  alu n .shl 1 (fun t w => shlWord (wa t w) (shiftAmount t w)) s

/-- SHR (10 R265). -/
def execShr (n : Nat) (s : State) : Host.Outcome State Fault Refusal :=
  alu n .shr 1 (fun t w => shrWord (wa t w) (shiftAmount t w)) s

/-- SAR (10 R265). -/
def execSar (n : Nat) (s : State) : Host.Outcome State Fault Refusal :=
  alu n .sar 1 (fun t w => sarWord (wa t w) (shiftAmount t w)) s

/-- ROR (10 R265). -/
def execRor (n : Nat) (s : State) : Host.Outcome State Fault Refusal :=
  alu n .ror 1 (fun t w => rorWord (wa t w) (shiftAmount t w)) s

/-- BFX (10 R266). -/
def execBfx (n : Nat) (s : State) : Host.Outcome State Fault Refusal :=
  alu n .bfx 1 (fun t w => bfxWord (wa t w) (fFn w) false) s

/-- BFXS (10 R266). -/
def execBfxs (n : Nat) (s : State) : Host.Outcome State Fault Refusal :=
  alu n .bfxs 1 (fun t w => bfxWord (wa t w) (fFn w) true) s

/-- BFI (10 R266). -/
def execBfi (n : Nat) (s : State) : Host.Outcome State Fault Refusal :=
  alu n .bfi 1 (fun t w => bfiWord (wd t w) (wa t w) (fFn w)) s

/-- CNT (10 R267). -/
def execCnt (n : Nat) (s : State) : Host.Outcome State Fault Refusal :=
  alu n .cnt 1 (fun t w => cntWord (wa t w) (fFn w)) s

/-- NPERM (10 R268). -/
def execNperm (n : Nat) (s : State) : Host.Outcome State Fault Refusal :=
  alu n .nperm 1 (fun t w => npermWord (wa t w) (wb t w) (fFn w)) s

/-- ADDP (10 R269). -/
def execAddp (n : Nat) (s : State) : Host.Outcome State Fault Refusal :=
  alu n .addp 1 (fun t w => logic (fun a b => lanes a b (fun x y => (x : Int) + y)) t w) s

/-- SUBP (10 R269). -/
def execSubp (n : Nat) (s : State) : Host.Outcome State Fault Refusal :=
  alu n .subp 1 (fun t w => logic (fun a b => lanes a b (fun x y => (x : Int) - y)) t w) s

/-- ADDPS (10 R269). -/
def execAddps (n : Nat) (s : State) : Host.Outcome State Fault Refusal :=
  alu n .addps 1 (fun t w => satLanes (wa t w) (wb t w) (· + ·)) s

/-- SUBPS (10 R269). -/
def execSubps (n : Nat) (s : State) : Host.Outcome State Fault Refusal :=
  alu n .subps 1 (fun t w => satLanes (wa t w) (wb t w) (· - ·)) s

/-- MUL (10 R270). -/
def execMul (n : Nat) (s : State) : Host.Outcome State Fault Refusal :=
  alu n .mul 2 (fun t w => logic (· * ·) t w) s

/-- MULHS (10 R270). -/
def execMulhs (n : Nat) (s : State) : Host.Outcome State Fault Refusal :=
  alu n .mulhs 2 (fun t w => znOnly (ofInt36 (sw (wa t w) * sw (wb t w) / 68719476736))) s

/-- MULHU (10 R270). -/
def execMulhu (n : Nat) (s : State) : Host.Outcome State Fault Refusal :=
  alu n .mulhu 2 (fun t w => znOnly (BitVec.ofNat 36 ((wa t w).toNat * (wb t w).toNat / 68719476736))) s

/-- MAC (10 R270). -/
def execMac (n : Nat) (s : State) : Host.Outcome State Fault Refusal :=
  alu n .mac 2 (fun t w => znOnly (wd t w + wa t w * wb t w)) s

/-- MACS (10 R270). -/
def execMacs (n : Nat) (s : State) : Host.Outcome State Fault Refusal :=
  alu n .macs 2 (fun t w => satWord 36 (sw (wd t w) + sw (wa t w) * sw (wb t w))) s

/-- MACP (10 R270). -/
def execMacp (n : Nat) (s : State) : Host.Outcome State Fault Refusal :=
  alu n .macp 2 (fun t w => satWord 36 (sw (wd t w) + halfProduct (wa t w) (wb t w) 1 + halfProduct (wa t w) (wb t w) 0)) s

/-- SAT (10 R271). -/
def execSat (n : Nat) (s : State) : Host.Outcome State Fault Refusal :=
  alu n .sat 1 (fun t w => satWord (fFn w) (sw (wa t w))) s

/-- ADDI (10 R272). -/
def execAddi (n : Nat) (s : State) : Host.Outcome State Fault Refusal :=
  alu n .addi 1 (fun t w => addWord (wa t w) (sextImm w) 0) s

/-- CMPI: flags only (10 R272). -/
def execCmpi (n : Nat) (s : State) : Host.Outcome State Fault Refusal :=
  alu n .cmpi 1 (fun t w => subWord (wa t w) (sextImm w) 0) s

/-- ANDI (10 R272). -/
def execAndi (n : Nat) (s : State) : Host.Outcome State Fault Refusal :=
  alu n .andi 1 (fun t w => znOnly (wa t w &&& zextImm w)) s

/-- ORI (10 R272). -/
def execOri (n : Nat) (s : State) : Host.Outcome State Fault Refusal :=
  alu n .ori 1 (fun t w => znOnly (wa t w ||| zextImm w)) s

/-- XORI (10 R272). -/
def execXori (n : Nat) (s : State) : Host.Outcome State Fault Refusal :=
  alu n .xori 1 (fun t w => znOnly (wa t w ^^^ zextImm w)) s

/-- SETH changes no flag (10 R272, R273). -/
def execSeth (n : Nat) (s : State) : Host.Outcome State Fault Refusal :=
  alu n .seth 1 (fun _ w => (word (fImm18 w * 2 ^ 18), {})) s

/-- SETL keeps the upper half and every flag (10 R272, R273). -/
def execSetl (n : Nat) (s : State) : Host.Outcome State Fault Refusal :=
  alu n .setl 1 (fun t w => (setHalf (wd t w) 0 (fImm18 w), {})) s

end Sys2Proof.Machine
end

