-- ==== Sys2Proof/Machine/Mover.lean ====
section
/-! DEFINITION. Machine/Mover.lean: the data mover (13): its queues, the checks before start, overlap and staging, the
copy or fill itself and the completion record. -/

namespace Sys2Proof.Machine

/-- The value of a status in a mover completion record (13 R372). -/
def moverStatus (st : Status) : Nat :=
  match st with
  | .ok => 0 | .badRequest => 2 | .align => 3 | .unmapped => 5 | .tagDenied => 6 | .memUncorrectable => 7
  | .hostAbort => 8 | .partnerStalled => 9 | .partnerTimeout => 10 | .portDown => 11 | .islandQuarantined => 12 | _ => 2

/-- Write one mover completion record and raise the vector if SIGNAL is set (13 R364, R372). -/
def moverRecord (s : State) (q : Nat) (d : MvDesc) (st : Nat) (addr : Nat) (side : Bool) : State :=
  match tget s.mover.queues q with
  | none => s
  | some m =>
    let o := m.own.q
    let entries := 2 ^ o.log2
    let phase := 1 - m.comp.prod / entries % 2
    let rcd := le 3 (phase + 2 * b2n side) ++ le 1 st ++ le 4 d.tag ++ le 8 (if st ≤ 4 then 0 else addr)
    let s := hostPost s m.own.fn (if o.pasidEn then some o.pasid else none) (o.compBase + 16 * (m.comp.prod % entries)) rcd
    let s := s.onMvq q (fun m => { m with
      comp := { m.comp with prod := modAdd 32 m.comp.prod 1 }
      counts := bump (bump m.counts 0) (3 + st) })
    if d.signal then msixRaise s m.own.fn o.vector else s

/-- A footprint's lowest and highest octet (13 R360). -/
def extent (base pz py x y z : Nat) : Nat × Nat := (base, base + (z - 1) * pz + (y - 1) * py + x - 1)

/-- The rows of a footprint, in footprint order: their first addresses. -/
def rowsOf (base pz py y z : Nat) : List Nat :=
  (List.range z).flatMap (fun k => (List.range y).map (fun j => base + k * pz + j * py))

/-- Do the extents of a copy overlap (13, Overlap)? -/
def overlaps (d : MvDesc) : Bool :=
  let a := extent d.src d.srcPitchZ d.srcPitchY d.x d.y d.z
  let b := extent d.dst d.dstPitchZ d.dstPitchY d.x d.y d.z
  d.op == 1 && d.srcHost == d.dstHost && a.1 ≤ b.2 && b.1 ≤ a.2

/-- Is a copy staged: 2D or 3D with overlapping extents (13 R368)? -/
def stagedCopy (d : MvDesc) : Bool := d.dims != 1 && overlaps d

/-- Is an address in a troupe raw view? -/
def inRaw (a : Nat) : Bool := match region a with | .raw _ _ => true | _ => false

/-- The checks before start, in order, with their record values (13 R362). -/
def moverChecks (d : MvDesc) : Option Nat :=
  let se := extent d.src d.srcPitchZ d.srcPitchY d.x d.y d.z
  let de := extent d.dst d.dstPitchZ d.dstPitchY d.x d.y d.z
  let fill := d.op == 2
  if d.rsvBad || (d.op != 1 && d.op != 2) || d.dims == 0 || 3 < d.dims || (fill && d.srcHost)
    || d.x == 0 || d.y == 0 || d.z == 0
    || (d.dims == 1 && (d.y != 1 || d.z != 1 || d.srcPitchY != 0 || d.dstPitchY != 0))
    || (d.dims ≤ 2 && (d.z != 1 || d.srcPitchZ != 0 || d.dstPitchZ != 0)) then some 2
  else if 2 ^ 40 < d.x * d.y * d.z || (if d.dstHost then 2 ^ 64 else 2 ^ 48) ≤ de.2
    || (!fill && (if d.srcHost then 2 ^ 64 else 2 ^ 48) ≤ se.2) then some 2
  else if (1 < d.y && d.dstPitchY < d.x) || (1 < d.z && d.dstPitchZ < (d.y - 1) * d.dstPitchY + d.x) then some 2
  else if !d.dstHost && inRaw d.dst && (d.dst % 8 != 0 || d.x % 8 != 0 || d.dstPitchY % 8 != 0 || d.dstPitchZ % 8 != 0) then some 3
  else if stagedCopy d && 4194304 < se.2 - se.1 + 1 then some 4
  else none

/-- Descriptors of a queue in flight. -/
def moverInFlight (s : State) (q : Nat) : Nat :=
  sumIn s.mover.engines (fun _ e => e.runs.countP (fun r => r.queue == q))

/-- May an engine take a queue's first descriptor now: its FENCE, and four in flight (13 R358)? -/
def moverEligible (s : State) (q : Nat) (m : MvQueue) : Bool :=
  match m.waiting with
  | [] => false
  | d :: _ =>
    let n := moverInFlight s q
    (!d.fence || n == 0) && n < 4

/-- The first of a list after a place in a ring of `n`. -/
def firstAfter (l : List Nat) (last : Nat) : Option Nat :=
  match l.find? (fun x => last < x) with | some x => some x | none => l.head?

/-- Flush the descriptors of a queue that have not started (13 R370); the result counts them. -/
def moverFlush (s : State) (q : Nat) : State × Nat :=
  match tget s.mover.queues q with
  | none => (s, 0)
  | some m =>
    let s := s.onMvq q (fun m => { m with waiting := [], flushTo := m.desc.prod })
    (m.waiting.foldl (fun s d => moverRecord s q d 1 0 false) s, m.waiting.length + modSub 32 m.desc.prod m.desc.cons)

/-- Free a queue that is being destroyed once nothing of it runs. -/
def moverRelease (s : State) (q : Nat) : State :=
  match tget s.mover.queues q with
  | some m =>
    if m.closing && moverInFlight s q == 0 && m.waiting.isEmpty && m.desc.cons == m.desc.prod then
      s.onMover (fun x => { x with queues := tdel x.queues q })
    else s
  | none => s

/-- Is an address in a Trapeze window region? -/
def inTrapeze (a : Nat) : Bool := match region a with | .trapeze _ _ => true | _ => false

/-- Read one row of a source: octets of host space are those the host returned, octets of accelerator memory those that
the run's READs have brought. -/
def readRow (s : State) (master : Nat) (w : Actor) (host : Bool) (x : Nat) (ext : List Byte) (got : List (Nat × List Byte)) (a : Nat) :
    Status × Nat × List Byte × State :=
  if host then (.ok, 0, fit x ext, s)
  else (pieces (x + 1) a x).foldl (fun acc pc =>
    if acc.1 != .ok then acc
    else if inTrapeze pc.1 then (.ok, 0, acc.2.2.1 ++ fit pc.2 (tgetD got pc.1 []), acc.2.2.2)
    else
      let r := loadAll acc.2.2.2 master w pc.1 pc.2 (ext.drop (pc.1 - a))
      (r.1, r.2.1, acc.2.2.1 ++ r.2.2.1, r.2.2.2)) (.ok, 0, [], s)

/-- Read the rows of a source, in footprint order. -/
def readRows (s : State) (master : Nat) (w : Actor) (host : Bool) (x : Nat) (ext : List Byte) (got : List (Nat × List Byte))
    (rows : List Nat) : Status × Nat × List (List Byte) × State :=
  rows.foldl (fun acc a =>
    if acc.1 != .ok then acc
    else
      let r := readRow acc.2.2.2 master w host x (ext.drop (acc.2.2.1.length * x)) got a
      (r.1, r.2.1, acc.2.2.1 ++ [r.2.2.1], r.2.2.2)) (.ok, 0, [], s)

/-- Write rows to a destination: the status, the failing address, the state, and how many writes an accelerator has to
answer. -/
def writeRows (s : State) (master : Nat) (w : Actor) (engine serial : Nat) (o : QueueCfg) (host ro : Bool)
    (rows : List (Nat × List Byte)) : Status × Nat × State × Nat :=
  rows.foldl (fun acc r =>
    if acc.1 != .ok then acc
    else if host then
      (.ok, 0, hostPost acc.2.2.1 o.fn (if o.q.pasidEn then some o.q.pasid else none) r.1 r.2 ro, acc.2.2.2)
    else (pieces (r.2.length + 1) r.1 r.2.length).foldl (fun acc pc =>
      if acc.1 != .ok then acc
      else
        let x := storeOne acc.2.2.1 master w pc.1 ((r.2.drop (pc.1 - r.1)).take pc.2) (.mover engine serial pc.1)
        (x.1, pc.1, x.2.1, acc.2.2.2 + b2n x.2.2)) acc) (.ok, 0, s, 0)

/-- Leave free values in the part of a destination footprint that lies in device memory and that the descriptor may write,
after a failure (13 R366). -/
def spoilRows (s : State) (w : Actor) (x : Nat) (host : Bool) (rows : List Nat) : State :=
  if host then s
  else rows.foldl (fun s a => (pieces (x + 1) a x).foldl (fun s pc =>
    match region pc.1 with
    | .hbm _ | .stage _ | .octet _ _ | .raw _ _ =>
      if accessCheck s w pc.1 pc.2 .write == .ok then
        let r := drawBytes s pc.2
        (memStore r.2 pc.1 r.1).2
      else s
    | _ => s) s) s

/-- The run of a serial number on an engine. -/
def moverRun (s : State) (engine serial : Nat) : Option MvRun :=
  (tgetD s.mover.engines engine {}).runs.find? (fun r => r.serial == serial)

/-- Change a run. -/
def onMvRun (s : State) (engine serial : Nat) (f : MvRun → MvRun) : State :=
  s.onMover (fun x => { x with engines := tmod x.engines engine (fun e => { e with
    runs := e.runs.map (fun r => if r.serial == serial then f r else r) }) })

/-- Issue the READs of a run's source that lies in accelerator memory; the first that fails its checks stops them. -/
def moverReads (s : State) (master : Nat) (w : Actor) (engine : Nat) (r : MvRun) : State :=
  let d := r.desc
  if d.op == 2 || d.srcHost then s
  else
    let ps := ((rowsOf d.src d.srcPitchZ d.srcPitchY d.y d.z).flatMap (fun a => pieces (d.x + 1) a d.x)).filter (fun pc => inTrapeze pc.1)
    ps.foldl (fun s pc =>
      match moverRun s engine r.serial with
      | none => s
      | some x =>
        if x.fail.isSome then s
        else match accessCheck s w pc.1 pc.2 .read, region pc.1 with
          | .ok, .trapeze p off =>
            match outWindow w.cfg p off with
            | some e => onMvRun (tpEnqueue s p (.read 0 w.part w.tenant (accAddr e off) pc.2) (.mover engine r.serial pc.1))
                engine r.serial (fun x => { x with reads := x.reads + 1 })
            | none => s
          | st, _ => onMvRun (refuseCount s master w pc.1 st) engine r.serial (fun x => { x with fail := some (st, pc.1, false) })) s

/-- Does a staged run wait for the engine's snapshot buffer, which an earlier one has (13 R357)? -/
def bufferBusy (e : MvEngine) (r : MvRun) : Bool :=
  r.staged && (match e.runs.find? (·.staged) with | some x => x.serial != r.serial | none => false)

/-- The Midway master of an engine (03 R83). -/
def moverMaster (engine : Nat) : Nat := if engine < 8 then 14 else 15

/-- The actor of a run: its queue's tags under the epoch it left its ring with. -/
def runActor (s : State) (m : MvQueue) (r : MvRun) : Actor :=
  { part := m.own.part, tenant := m.own.tenant, priv := false, cfg := cfgOf s m.own.part r.epoch }

/-- The snapshot buffer has become free: the next staged run takes it and reads its source (13 R357, R368). -/
def bufferNext (s : State) (engine : Nat) : State :=
  match (tgetD s.mover.engines engine {}).runs.find? (·.staged) with
  | none => s
  | some r =>
    match tget s.mover.queues r.queue with
    | some m => moverReads s (moverMaster engine) (runActor s m r) engine r
    | none => s

/-- End a run: its record, and its place on the engine (13 R364, R366). How much a failed run has written is a free value,
as is what it left in its destination. -/
def moverEnd (s : State) (engine : Nat) (r : MvRun) : State :=
  match tget s.mover.queues r.queue with
  | none => s
  | some m =>
    let d := r.desc
    let w := runActor s m r
    let s := s.onMover (fun x => { x with engines := tmod x.engines engine (fun e => { e with
      runs := e.runs.filter (fun y => y.serial != r.serial) }) })
    let s := if r.staged then bufferNext s engine else s
    match r.fail with
    | some (st, a, side) =>
      let s := if r.staged && !side then s
        else
          let k := draw (spoilRows s w d.x d.dstHost (rowsOf d.dst d.dstPitchZ d.dstPitchY d.y d.z))
          k.2.onMvq r.queue (fun m => { m with counts := bump m.counts 1 (k.1 % (d.x * d.y * d.z + 1)) })
      moverRelease (moverRecord s r.queue d (moverStatus st) a side) r.queue
    | none =>
      let s := s.onMvq r.queue (fun m => { m with counts := bump m.counts 1 (d.x * d.y * d.z) })
      moverRelease (moverRecord s r.queue d 0 0 false) r.queue

/-- A READ of a run is answered with data, or has failed. -/
def moverReadDone (s : State) (engine serial a : Nat) (r : Sum (List Byte) Status) : State :=
  onMvRun s engine serial (fun x =>
    match r with
    | .inl d => { x with reads := x.reads - 1, got := tset x.got a d }
    | .inr st => { x with reads := x.reads - 1, fail := some (x.fail.getD (st, a, false)) })

/-- A write of a run is answered (13 R364): the last answer ends it. -/
def moverWriteDone (s : State) (engine serial a : Nat) (st : Status) : State :=
  let s := onMvRun s engine serial (fun x => { x with
    writes := x.writes - 1
    fail := if st == .ok then x.fail else some (x.fail.getD (st, a, true)) })
  match moverRun s engine serial with
  | some r => if r.moved && r.writes == 0 then moverEnd s engine r else s
  | none => s

/-- The octets of one row of a fill (13 R359). -/
def fillRow (pattern x : Nat) : List Byte := (List.range x).map (fun k => byteOf (pattern / 2 ^ (8 * (k % 8))))

/-- MOVER_QUEUE_CREATE (13 R356, 19 R522). -/
def execMoverQueueCreate (h : Hdr) (q : QueueCreate) (s : State) : Host.Outcome State Fault Refusal :=
  boothStep (info 0x0A 0x01) h
    (fun s =>
      let n := pickNumber s.mover.queues s.fixedMode (hp h) 64 1024 q.queue
      [(q.log2 < 4 || 12 < q.log2 || vectorsOf h.fn ≤ q.vector || !baseOk q.descBase 64 || !baseOk q.compBase 16
          || (q.pasidEn && !(s.fn h.fn).pasidCap) || (!choose16 q.queue && 1024 ≤ q.queue), .badRequest),
       (n.isNone || (match n with | some k => thas s.mover.queues k || (s.fixedMode && k / 64 != hp h) | none => true), .noResource)]
      ++ roomChecks s (hp h) (hcharge h) 20 1 .noResource ++ [(!doorbellsFree s h.fn 2, .noDoorbells)])
    (fun s =>
      let n := (pickNumber s.mover.queues s.fixedMode (hp h) 64 1024 q.queue).getD 0
      let own : QueueCfg := { part := hp h, tenant := h.tenant, fn := h.fn, q := { q with queue := n } }
      let d := giveDoorbells s h.fn [.moverProd n, .moverComp n]
      let s := d.2.onMover (fun x => { x with queues := tset x.queues n { own := own } })
      .epoch (commitEpoch s (hp h) (fun c => { c with movers := tset c.movers n own })) (hp h)
        (le 2 n ++ d.1.flatMap (le 2))) s

/-- The queue a command names, if it is one the command may act on. -/
def moverOf (s : State) (h : Hdr) (q : Nat) : List (Bool × Status) :=
  match tget s.cfg.movers q with
  | none => [(true, .badRequest)]
  | some o => [(notMine h o.part o.tenant, .notPermitted)]

/-- MOVER_QUEUE_FLUSH (13 R370). -/
def execMoverQueueFlush (h : Hdr) (q : Nat) (s : State) : Host.Outcome State Fault Refusal :=
  boothStep (info 0x0A 0x02) h (fun s => moverOf s h q)
    (fun s => let r := moverFlush s q; .done r.1 .ok (le 4 r.2)) s

/-- MOVER_QUEUE_DESTROY (13 R370). -/
def execMoverQueueDestroy (h : Hdr) (q : Nat) (s : State) : Host.Outcome State Fault Refusal :=
  boothStep (info 0x0A 0x03) h (fun s => moverOf s h q)
    (fun s =>
      let s := (moverFlush s q).1.onMvq q (fun m => { m with closing := true })
      .epoch (moverRelease (commitEpoch s (hp h) (fun c => { c with movers := tdel c.movers q })) q) (hp h) []) s

/-- MOVER_STATS (13 R373). -/
def execMoverStats (h : Hdr) (q : Nat) (blk : OutBlk) (s : State) : Host.Outcome State Fault Refusal :=
  boothStep (info 0x0A 0x04) h (fun s => moverOf s h q)
    (fun s =>
      let t := match tget s.mover.queues q with | some m => m.counts | none => []
      writeOut h blk (statsBlock s q (counters t 16) []) s) s

/-- MOVER_START: an engine takes a descriptor and checks it (13 R357, R358, R362). -/
def execMoverStart (engine : Nat) (s : State) : Host.Outcome State Fault Refusal :=
  let e := tgetD s.mover.engines engine {}
  let qs := (s.mover.queues.filter (fun x => moverEligible s x.1 x.2)).map (fun x => (x.1, x.2.own.part))
  let parts := ((List.range 16).filter (fun p => qs.any (fun x => x.2 == p) && (!s.fixedMode || p == engine)))
  match firstAfter parts e.lastPart with
  | none => .next s
  | some p =>
    let mine := (qs.filter (fun x => x.2 == p)).map (·.1)
    match firstAfter mine (tgetD s.mover.lastQueue p 1024) with
    | none => .next s
    | some q =>
      if 4 ≤ e.runs.length || quarantined s 141 then .next s
      else match tget s.mover.queues q with
      | none => .next s
      | some m =>
        match m.waiting with
        | [] => .next s
        | d :: ds =>
          let s := s.onMvq q (fun m => { m with waiting := ds })
          let s := s.onMover (fun x => { x with
            lastQueue := tset x.lastQueue p q
            engines := tupd x.engines engine {} (fun e => { e with lastPart := p }) })
          match moverChecks d with
          | some st => .next (moverRelease (moverRecord s q d st 0 false) q)
          | none =>
            let r : MvRun := { queue := q, desc := d, staged := stagedCopy d, epoch := epochAt s p 141, serial := s.mover.nextSerial }
            let w := runActor s m r
            let s := s.onMover (fun x => { x with
              nextSerial := x.nextSerial + 1
              engines := tupd x.engines engine {} (fun e => { e with runs := e.runs ++ [r] }) })
            let s := if r.staged then s.onMvq q (fun m => { m with counts := bump m.counts 2 }) else s
            .next (if bufferBusy (tgetD s.mover.engines engine {}) r then s else moverReads s (moverMaster engine) w engine r)

/-- MOVER_COMPLETE: the `i`-th running descriptor of an engine has its source, writes its destination and, when every
write has completed, ends (13 R363 to R368). It stands still while READs of its source are unanswered or the snapshot buffer it needs is in use, and stays until
the accelerator has answered its last write. `ext` is what the host returned for source octets that lie with it, and
`srcFail` the status and address of a host read that failed. The whole source is read before the destination is
written, which is the result every case of overlap asks for. -/
def execMoverComplete (engine i : Nat) (ext : List Byte) (srcFail : Option (Status × Nat)) (s : State) :
    Host.Outcome State Fault Refusal :=
  match (tgetD s.mover.engines engine {}).runs[i]? with
  | none => .next s
  | some r =>
    match tget s.mover.queues r.queue with
    | none => .next s
    | some m =>
      if r.moved || (0 < r.reads && r.fail.isNone) || bufferBusy (tgetD s.mover.engines engine {}) r then .next s
      else
        let d := r.desc
        let o := m.own
        let master := moverMaster engine
        let w := runActor s m r
        let srcRows := rowsOf d.src d.srcPitchZ d.srcPitchY d.y d.z
        let dstRows := rowsOf d.dst d.dstPitchZ d.dstPitchY d.y d.z
        let rd : Status × Nat × List (List Byte) × State :=
          if d.op == 2 then (.ok, 0, dstRows.map (fun _ => fillRow d.src d.x), s)
          else match r.fail, srcFail with
            | some f, _ => (f.1, f.2.1, [], s)
            | none, some f => (f.1, f.2, [], s)
            | none, none => readRows s master w d.srcHost d.x ext r.got srcRows
        if rd.1 != .ok then .next (moverEnd rd.2.2.2 engine { r with fail := some (rd.1, rd.2.1, false) })
        else
          let wr := writeRows rd.2.2.2 master w engine r.serial o d.dstHost (roOf s o.fn d.roHint) (dstRows.zip rd.2.2.1)
          let r := { r with
            moved := true
            writes := wr.2.2.2
            got := []
            fail := if wr.1 == .ok then none else some (wr.1, wr.2.1, true) }
          .next (if r.writes == 0 then moverEnd wr.2.2.1 engine r else onMvRun wr.2.2.1 engine r.serial (fun _ => r))

end Sys2Proof.Machine
end

