-- ==== Sys2Proof/Machine/Codec.lean ====
section
/-! DEFINITION. Machine/Codec.lean: the visual codec (14) and the CODEC group of booth commands (19 R523, R524). Stream
`n` of instance `i` has the number `256 i + n` (log entry 34, DESIGN CHOICE). -/

namespace Sys2Proof.Machine

/-- The codec status of a device status (14 R397). -/
def codecStatus (st : Status) : Nat :=
  match st with
  | .ok => 0 | .unmapped => 7 | .tagDenied => 8 | .memUncorrectable => 9 | .hostAbort => 10 | .partnerStalled => 11
  | .partnerTimeout => 12 | .portDown => 13 | .islandQuarantined => 14 | _ => 15

/-- An instance's mode and times. -/
def instCfg (c : Cfg) (i : Nat) : InstCfg := tgetD c.codec.insts i {}

/-- One instance. -/
def instOf (s : State) (i : Nat) : Inst := tgetD s.codec.insts i {}

/-- The fields of a completion record (14 R397). -/
structure CdRecord where
  kind : Nat
  status : Nat
  pts : Nat
  tag : Nat
  signal : Bool
  bytes : Nat := 0
  concealed : Nat := 0
  clamped : Nat := 0
  picture : Nat := 0
  buf : Nat := 0
  ptype : Nat := 0
  /-- PROPAGATED, ERR_SYNTAX, ERR_REF and GRAIN, from bit 3 down -/
  flags : Nat := 0

/-- Count a record and raise CODEC_STREAM_ERROR where it is due (14 R398). -/
def codecCount (s : State) (n : Nat) (r : CdRecord) : State :=
  let s := s.onStream n (fun x => { x with
    counts := bump (bump (bump (bump x.counts 1 r.bytes) 2 r.concealed) 3 r.clamped) (4 + r.status)
    errSince := x.errSince + b2n ([1, 2, 4].contains r.status || (7 ≤ r.status && r.status ≤ 13)) })
  match tget s.codec.streams n with
  | none => s
  | some x =>
    let due := match x.errAt with | none => true | some t => decide (t + 1000000000 ≤ s.clock.cadence)
    if x.errSince == 0 || !due then s
    else
      let s := raiseEvent s (ownerFn x.own.part x.own.tenant x.own.fn) 0x000F x.own.part x.own.tenant (le 2 n ++ zeros 2 ++ le 4 x.errSince)
      s.onStream n (fun x => { x with errSince := 0, errAt := some s.clock.cadence })

/-- Write one completion record, and send the message where the descriptor asked for it (14 R397). -/
def codecRecord (s : State) (n : Nat) (r : CdRecord) : State :=
  match tget s.codec.streams n with
  | none => s
  | some x =>
    let b := x.own.blk
    let entries := 2 ^ b.compLog2
    let phase := 1 - x.comp.prod / entries % 2
    let rcd := le 4 phase ++ [byteOf (16 * r.kind + r.flags % 16), byteOf r.ptype, byteOf (8 * r.buf), byteOf r.status]
      ++ le 4 r.picture ++ le 2 (min r.clamped 65535) ++ le 2 (min r.concealed 65535) ++ le 4 r.bytes ++ le 4 r.tag ++ le 8 r.pts
    let s := hostPost s x.own.fn none (b.compBase + 32 * (x.comp.prod % entries)) rcd
    let s := s.onStream n (fun x => { x with comp := { x.comp with prod := modAdd 32 x.comp.prod 1 } })
    let s := codecCount s n r
    if r.signal then msixRaise s x.own.fn b.vector else s

/-- A descriptor of 32 octets (14 R381). -/
def parseCodec (d : List Byte) : CdDesc :=
  let f := fun (i k : Nat) => ofLe ((d.drop i).take k)
  let w := f 0 2
  { addr := f 24 8, length := f 20 4, tag := f 16 4, pts := f 8 8, buf := field w 11 5, host := bit w 7, signal := bit w 5
    forceKey := bit w 4, typ := field w 0 4, rsvBad := f 2 6 != 0 || field w 8 3 != 0 || bit w 6 }

/-- The KIND of the record that a descriptor ends with; none for RELEASE and OUTBUF (14 R382). -/
def recordKind (typ : Nat) : Option Nat := match typ with | 1 => some 1 | 3 => some 3 | 5 => some 4 | _ => none

/-- Is a picture of a stream running? -/
def codecRuns (s : State) (n : Nat) : Bool := (instOf s (n / 256)).running == some n

/-- Hand a buffer's picture to the function in an OUTPUT record (14 R389). -/
def codecOutput (s : State) (n i : Nat) : State :=
  match tget s.codec.streams n with
  | none => s
  | some x =>
    match tget x.bufs i with
    | none => s
    | some b =>
      match b.output with
      | none => s
      | some o =>
        let s := s.onStream n (fun x => { x with bufs := tset x.bufs i { b with held := false, busy := false, output := none } })
        codecRecord s n { kind := 2, status := o.status, pts := o.pts, tag := o.tag, signal := o.signal, picture := o.picture, buf := i }

/-- KIND of a descriptor's record in a stream: that of its type, or of the stream's direction (14 R381, R382). -/
def kindOf (x : Stream) (d : CdDesc) : Nat := if d.typ == 5 then 4 else if x.own.blk.dir == 0 then 1 else 3

/-- Write the records of pictures whose end is settled, up to the first that is still to be coded: records keep ring
order (14 R382). -/
def codecSettle (s : State) (n : Nat) : Nat → State
  | 0 => s
  | fuel + 1 =>
    match tget s.codec.streams n with
    | none => s
    | some x =>
      match x.pics with
      | [] => s
      | p :: ps =>
        match p.settled with
        | none => s
        | some st =>
          let d := p.desc
          let s := s.onStream n (fun x => { x with pics := ps })
          codecSettle (codecRecord s n { kind := kindOf x d, status := st, pts := d.pts, tag := d.tag, signal := d.signal, buf := d.buf }) n fuel

/-- Settle as much of a stream as its turn has come. -/
def codecSettled (s : State) (n : Nat) : State :=
  match tget s.codec.streams n with | some x => codecSettle s n x.pics.length | none => s

/-- A descriptor ends with a status, in its turn. -/
def codecOver (s : State) (n : Nat) (d : CdDesc) (st : Nat) : State :=
  let p : Picture := { stream := n, desc := d, epoch := 0, buf := none, chunk := none, ready := false, settled := some st, order := 0, waitFrom := 0 }
  codecSettled (s.onStream n (fun x => { x with pics := x.pics ++ [p] })) n

/-- Free a stream that is closing once nothing of it is left: its buffers go back FLUSHED, then END (14 R396). -/
def codecRelease (s : State) (n : Nat) : State :=
  match tget s.codec.streams n with
  | none => s
  | some x =>
    if !x.closing || !x.pics.isEmpty || !x.waiting.isEmpty || x.desc.cons != x.desc.prod then s
    else
      let held := (tfilter x.bufs (fun _ b => b.held))
      let s := held.foldl (fun s e =>
        let o := match e.2.output with | some o => (o.pts, o.tag, o.picture) | none => (0, 0, 0)
        codecRecord s n { kind := 2, status := 6, pts := o.1, tag := o.2.1, signal := false, picture := o.2.2, buf := e.1 }) s
      let s := codecRecord s n { kind := 4, status := 6, pts := 0, tag := 0, signal := true }
      let s := s.onInst (n / 256) (fun i => { i with order := i.order.filter (· != n) })
      s.onCodec (fun c => { c with streams := tdel c.streams n })

/-- Give the pictures of a stream, in ring order, the buffers and chunks they wait for (14 R383, R384). -/
def codecReady (s : State) (n : Nat) : Nat → State
  | 0 => s
  | fuel + 1 =>
    match tget s.codec.streams n with
    | none => s
    | some x =>
      match x.pics.find? (fun p => !p.ready && p.settled.isNone) with
      | none => s
      | some p =>
        let mark := fun (s : State) (q : Picture) =>
          let o := (instOf s (n / 256)).orders
          let s := s.onInst (n / 256) (fun i => { i with orders := i.orders + 1 })
          s.onStream n (fun x => { x with pics := x.pics.map (fun y =>
            if y == p then { q with ready := true, order := o, waitFrom := s.clock.cadence } else y) })
        if p.desc.typ == 5 then codecReady (mark s p) n fuel
        else if x.own.blk.dir == 0 then
          match tfind x.bufs (fun _ b => b.held && !b.busy) with
          | none => s
          | some (i, b) =>
            let s := s.onStream n (fun x => { x with bufs := tset x.bufs i { b with busy := true, noRef := false } })
            codecReady (mark s { p with buf := some i }) n fuel
        else
          match x.chunks with
          | [] => s
          | c :: cs => codecReady (mark (s.onStream n (fun x => { x with chunks := cs })) { p with chunk := some c }) n fuel

/-- Give resources to whatever of a stream waits for them. -/
def codecKick (s : State) (n : Nat) : State :=
  match tget s.codec.streams n with | some x => codecReady s n x.pics.length | none => s

/-- A descriptor that has not been taken completes FLUSHED (14 R396). -/
def codecFlushed (s : State) (n : Nat) (d : CdDesc) : State :=
  match recordKind d.typ with
  | some _ => codecOver s n d 6
  | none => s

/-- Descriptors of a stream have been read from its ring. -/
def codecDescsRead (s : State) (n : Nat) (d : List Byte) : State :=
  let s := (chunksOf 32 (d.length / 32) d).foldl (fun s c =>
    match tget s.codec.streams n with
    | none => s
    | some x =>
      let s := s.onStream n (fun x => { x with desc := { x.desc with cons := modAdd 32 x.desc.cons 1 } })
      if x.closing || newer 32 x.flushTo x.desc.cons then codecFlushed s n (parseCodec c)
      else s.onStream n (fun x => { x with waiting := x.waiting ++ [parseCodec c] })) s
  codecRelease s n

/-- Flush what has not been taken: how many descriptors that is (14 R396). -/
def codecFlush (s : State) (n : Nat) : State × Nat :=
  match tget s.codec.streams n with
  | none => (s, 0)
  | some x =>
    let s := s.onStream n (fun x => { x with waiting := [], flushTo := x.desc.prod })
    (x.waiting.foldl (fun s d => codecFlushed s n d) s, x.waiting.length + modSub 32 x.desc.prod x.desc.cons)

/-- Close a stream: flush, end the pictures that wait for the function, and free it when the rest has ended (14 R396). -/
def codecClose (s : State) (n : Nat) : State :=
  let s := (codecFlush s n).1
  let s := s.onStream n (fun x => { x with
    closing := true
    pics := x.pics.map (fun p => if p.ready || p.settled.isSome then p else { p with settled := some 6 }) })
  codecRelease (codecSettled s n) n

/-! Commands. -/

/-- CODEC_MODE_SET (14 R376, R384, R388, R393). -/
def execCodecModeSet (h : Hdr) (i mode age idle watchdog : Nat) (s : State) : Host.Outcome State Fault Refusal :=
  let range := fun (v : Nat) => v != 0 && (v < 1000 || 1000000 < v)
  boothStep (info 0x0B 0x01) h
    (fun s =>
      let now := (instCfg s.cfg i).exclusive
      [(1 < i || 1 < mode || range age || range idle || (watchdog != 0 && (watchdog < 10000 || 1000000 < watchdog)), .badRequest),
       ((mode == 1) != now && tany s.cfg.codec.streams (fun k _ => k / 256 == i), .codecBusy),
       (mode == 1 && s.fixedMode, .fixedMode)])
    (fun s => .device (commitAll s (fun c => { c with codec := { c.codec with insts := tupd c.codec.insts i {} (fun x => {
      exclusive := mode == 1
      ageStepUs := if age == 0 then x.ageStepUs else age
      idleUs := if idle == 0 then x.idleUs else idle
      watchdogUs := if watchdog == 0 then x.watchdogUs else watchdog }) } }))) s

/-- Does a profile with a bit depth belong to the supported ones (14 R374)? The profile numbers are the standards' own. -/
def profileOk (standard profile depth : Nat) : Bool :=
  match standard with
  | 0 => [66, 77, 100].contains profile && depth == 8
  | 1 => (profile == 1 && depth == 8) || (profile == 2 && (depth == 8 || depth == 10))
  | 2 => profile == 0 && (depth == 8 || depth == 10)
  | _ => false

/-- The greatest level, as ten times its number, that a mode takes (14 R374). -/
def levelLimit (standard : Nat) (exclusive : Bool) : Nat := if exclusive then 62 else if standard == 0 then 52 else 51

/-- Is a picture size out of range (14 R375)? -/
def sizeBad (exclusive : Bool) (w h : Nat) : Bool :=
  w == 0 || h == 0 || w % 2 == 1 || h % 2 == 1
    || (if exclusive then 35651584 < w * h || 8192 < w || 4352 < h else 9437184 < w * h || 4096 < w || 4096 < h)

/-- Are the rate control fields out of range: all 0 for decode (19 R524; 14 R394)? -/
def rateBad (b : CodecOpen) : Bool :=
  if b.dir == 0 then b.rcMode != 0 || b.quantiser != 0 || b.gop != 0 || b.rate != 0 || b.maxRate != 0 || b.keyInterval != 0
  else 2 < b.rcMode || (if b.standard == 2 then 255 else 51) < b.quantiser || 7 < b.gop || b.keyInterval == 0 || 65535 < b.keyInterval

/-- WORK_BYTES (14 R378). -/
def workBytes (b : CodecOpen) : Nat :=
  1048576 + (if b.dir == 0 then 96 * 17 else 160 * 4) * (ceilDiv b.maxWidth 16 * ceilDiv b.maxHeight 16)

/-- The fields of an open block out of range (14 R378). -/
def codecFieldsBad (s : State) (h : Hdr) (b : CodecOpen) : Bool :=
  let e := (instCfg s.cfg b.unit).exclusive
  1 < b.unit || 1 < b.dir || !profileOk b.standard b.profile b.bitDepth || b.levelMax == 0 || levelLimit b.standard e < b.levelMax
    || 3 < b.priority || 64 < b.sliceRows || sizeBad e b.maxWidth b.maxHeight || b.descLog2 < 4 || 12 < b.descLog2 || b.compLog2 < 4
    || 12 < b.compLog2 || vectorsOf h.fn ≤ b.vector || !baseOk b.descBase 32 || !baseOk b.compBase 32 || rateBad b
    || (b.workLen != 0 && (!inHbmOrStage b.workBase b.workLen || !rangeOwned s s.cfg (hp h) b.workBase b.workLen))

/-- An empty open block. -/
def noCodec : CodecOpen :=
  { unit := 0, dir := 0, standard := 0, profile := 0, levelMax := 0, bitDepth := 8, priority := 0, sliceRows := 0, maxWidth := 0,
    maxHeight := 0, descLog2 := 4, compLog2 := 4, vector := 0, descBase := 0, compBase := 0, workBase := 0, workLen := 0, rcMode := 0,
    quantiser := 0, gop := 0, rate := 0, maxRate := 0, keyInterval := 0 }

/-- The number a stream gets: the one it names, or the lowest free one of its instance. -/
def streamPick (s : State) (i n : Nat) : Option Nat :=
  if choose16 n then tfreeIn s.codec.streams (256 * i) (256 * i + 256)
  else if n / 256 == i && !thas s.codec.streams n then some n else none

/-- Streams of a partition, or of one of its tenants, on an instance. -/
def streamsUsed (s : State) (i p : Nat) (ten : Option Nat) : Nat :=
  tcount s.cfg.codec.streams (fun k x => k / 256 == i && x.part == p
    && (match ten with | some t => chargeOf x.fn x.tenant == t | none => true))

/-- CODEC_STREAM_OPEN (14 R377, R378). -/
def execCodecStreamOpen (h : Hdr) (n : Nat) (blk : HostBlk CodecOpen) (s : State) : Host.Outcome State Fault Refusal :=
  let b := blk.getD noCodec
  boothStep (info 0x0B 0x02) h
    (fun s =>
      [(blk.isNone, .hostAbort), (codecFieldsBad s h b || (!choose16 n && 511 < n), .badRequest),
       (quarantined s (142 + b.unit), .islandQuarantined),
       ((streamPick s b.unit n).isNone || decide (limitOf s (hp h) 24 < streamsUsed s b.unit (hp h) none + 1)
          || ((instCfg s.cfg b.unit).exclusive && 64 ≤ tcount s.codec.streams (fun k _ => k / 256 == b.unit)), .noStreams),
       (hcharge h != 0 && (match capOf s (hp h) (hcharge h) 24 with
          | some c => decide (c < streamsUsed s b.unit (hp h) (some (hcharge h)) + 1) | none => false), .tenantLimit),
       (!doorbellsFree s h.fn 2, .noDoorbells)])
    (fun s =>
      if b.workLen < workBytes b then .done s .bufferSmall (le 4 (workBytes b))
      else
        let n := (streamPick s b.unit n).getD 0
        let b := { b with sliceRows := if b.sliceRows == 0 then 4 else b.sliceRows }
        let own : StreamCfg := { part := hp h, tenant := h.tenant, fn := h.fn, blk := b }
        let d := giveDoorbells s h.fn [.codecDesc n, .codecComp n]
        let s := d.2.onCodec (fun c => { c with streams := tset c.streams n { own := own } })
        let s := s.onInst b.unit (fun i => { i with order := i.order ++ [n] })
        .epoch (commitEpoch s (hp h) (fun c => { c with codec := { c.codec with streams := tset c.codec.streams n own } })) (hp h)
          (le 2 n ++ d.1.flatMap (le 2))) s

/-- The checks of a command that names a stream. -/
def streamNamed (h : Hdr) (n : Nat) (s : State) : List (Bool × Status) :=
  match tget s.cfg.codec.streams n with
  | none => [(true, .badRequest)]
  | some c => [(notMine h c.part c.tenant, .notPermitted)]

/-- CODEC_STREAM_MODIFY (14 R382). -/
def execCodecStreamModify (h : Hdr) (m : CodecModify) (s : State) : Host.Outcome State Fault Refusal :=
  let put := fun (b : CodecOpen) => { b with
    priority := if bit m.mask 0 then m.priority else b.priority
    rcMode := if bit m.mask 1 then m.rcMode else b.rcMode
    quantiser := if bit m.mask 1 then m.quantiser else b.quantiser
    rate := if bit m.mask 1 then m.rate else b.rate
    maxRate := if bit m.mask 1 then m.maxRate else b.maxRate }
  boothStep (info 0x0B 0x03) h
    (fun s => streamNamed h m.stream s ++
      [(3 < m.mask || (bit m.mask 0 && 3 < m.priority)
          || (match tget s.cfg.codec.streams m.stream with | some c => rateBad (put c.blk) | none => false), .badRequest)])
    (fun s => .epoch (commitEpoch s (hp h) (fun c => { c with codec := { c.codec with
      streams := tmod c.codec.streams m.stream (fun x => { x with blk := put x.blk }) } })) (hp h) []) s

/-- CODEC_STREAM_FLUSH (14 R396). -/
def execCodecStreamFlush (h : Hdr) (n : Nat) (s : State) : Host.Outcome State Fault Refusal :=
  boothStep (info 0x0B 0x04) h (streamNamed h n) (fun s => let r := codecFlush s n; .done r.1 .ok (le 4 r.2)) s

/-- CODEC_STREAM_CLOSE (14 R396). -/
def execCodecStreamClose (h : Hdr) (n : Nat) (s : State) : Host.Outcome State Fault Refusal :=
  boothStep (info 0x0B 0x05) h (streamNamed h n)
    (fun s => .epoch (codecClose (commitEpoch s (hp h) (fun c => { c with codec := { c.codec with
      streams := tdel c.codec.streams n } })) n) (hp h) []) s

/-- The planes of a picture buffer: base and length of luma and chroma (14 R379). -/
def planes (b : CodecOpen) (luma chroma pitch : Nat) : List (Nat × Nat) :=
  [(luma, pitch * b.maxHeight), (chroma, pitch * b.maxHeight / 2)]

/-- Do two ranges share an octet? -/
def shares (x y : Nat × Nat) : Bool := decide (x.1 < y.1 + y.2) && decide (y.1 < x.1 + x.2)

/-- Is a buffer refused (14 R379)? -/
def bufferBad (s : State) (c : StreamCfg) (x : CodecBuffer) : Bool :=
  let b := c.blk
  let ps := planes b x.luma x.chroma x.pitch
  x.luma % 256 != 0 || x.chroma % 256 != 0 || x.pitch % 64 != 0 || x.pitch < b.maxWidth * (if b.bitDepth == 10 then 2 else 1)
    || ps.any (fun p => shares p (b.workBase, b.workLen) || !rangeOwned s s.cfg c.part p.1 p.2)
    || shares (x.luma, x.pitch * b.maxHeight) (x.chroma, x.pitch * b.maxHeight / 2)

/-- CODEC_BUFFER_REGISTER (14 R379). -/
def execCodecBufferRegister (h : Hdr) (x : CodecBuffer) (s : State) : Host.Outcome State Fault Refusal :=
  boothStep (info 0x0B 0x06) h
    (fun s => streamNamed h x.stream s ++
      [(decide (31 < x.index), .badRequest),
       (match tget s.cfg.codec.streams x.stream with | some c => bufferBad s c x | none => false, .bufferBad),
       (match tget s.codec.streams x.stream with
          | some y => (match tget y.bufs x.index with | some b => b.held | none => false) | none => true, .bufferBusy)])
    (fun s =>
      let s := s.onStream x.stream (fun y => { y with bufs := tset y.bufs x.index {
        luma := x.luma, chroma := x.chroma, pitch := x.pitch, held := y.own.blk.dir == 0, busy := false, output := none, noRef := false } })
      .done (codecKick s x.stream) .ok []) s

/-- CODEC_STATS (14 R398). -/
def execCodecStats (h : Hdr) (n : Nat) (blk : OutBlk) (s : State) : Host.Outcome State Fault Refusal :=
  boothStep (info 0x0B 0x07) h (streamNamed h n)
    (fun s => writeOut h blk (statsBlock s n (counters (match tget s.codec.streams n with | some x => x.counts | none => []) 20) []) s) s

/-! Work. -/

/-- CODEC_DESCRIPTOR_TAKE: the next descriptor of a stream is taken under its epoch (14 R381, R382). -/
def execCodecDescriptorTake (n : Nat) (s : State) : Host.Outcome State Fault Refusal :=
  match tget s.codec.streams n with
  | none => .next s
  | some x =>
    match x.waiting with
    | [] => .next s
    | d :: ds =>
      let s := s.onStream n (fun x => { x with waiting := ds })
      let dec := x.own.blk.dir == 0
      let len := d.length != 0 && d.length ≤ 268435456
      let known := thas x.bufs d.buf
      let good := !d.rsvBad && (match d.typ with
        | 1 => dec && len
        | 2 => dec && known
        | 3 => !dec && known
        | 4 => !dec && len
        | 5 => true
        | _ => false)
      if quarantined s (142 + n / 256) then .next (codecRelease (codecOver s n d 14) n)
      else if !good then .next (codecRelease (codecOver s n d 15) n)
      else if d.typ == 2 then
        .next (codecKick (s.onStream n (fun x => { x with bufs := tmod x.bufs d.buf (fun b =>
          if b.held then b else { b with held := true, busy := false, output := none, noRef := false }) })) n)
      else if d.typ == 4 then .next (codecKick (s.onStream n (fun x => { x with chunks := x.chunks ++ [d] })) n)
      else
        let p : Picture := { stream := n, desc := d, epoch := epochAt s x.own.part (142 + n / 256), buf := none, chunk := none,
                             ready := false, order := 0, waitFrom := 0 }
        let p := if d.typ == 3 then { p with buf := some d.buf } else p
        let s := s.onStream n (fun x => { x with
          pics := x.pics ++ [p]
          bufs := if d.typ == 3 then tmod x.bufs d.buf (fun b => { b with held := true, busy := true }) else x.bufs })
        .next (codecKick s n)

/-- The first picture of each stream of an instance, where it is ready: a stream's records keep ring order. -/
def readyPics (s : State) (i : Nat) : List (Stream × Picture) :=
  (s.codec.streams.filter (fun e => e.1 / 256 == i)).filterMap (fun e =>
    match e.2.pics with | p :: _ => if p.ready then some (e.2, p) else none | [] => none)

/-- The effective priority of a picture that has waited until a time (14 R384). -/
def effPriority (s : State) (x : Stream) (p : Picture) (until_ : Nat) : Nat :=
  let c := cfgOf s x.own.part p.epoch
  let prio := match tget c.codec.streams p.stream with | some y => y.blk.priority | none => x.own.blk.priority
  min 3 (prio + (until_ - p.waitFrom) / ((instCfg c (p.stream / 256)).ageStepUs * 1000))

/-- The ready picture that an instance chooses among those of a list (14 R384). -/
def bestPic (s : State) (l : List (Stream × Picture)) : Option (Stream × Picture) :=
  l.foldl (fun best e =>
    match best with
    | none => some e
    | some b =>
      let pe := effPriority s e.1 e.2 s.clock.cadence
      let pb := effPriority s b.1 b.2 s.clock.cadence
      if pb < pe || (pb == pe && e.2.order < b.2.order) then some e else some b) none

/-- The pictures an instance may choose from now: in fixed-equal-share mode those of the slot's partition, in EXCLUSIVE
mode those of the stream served (14 R387, R388). -/
def grantable (s : State) (i : Nat) : List (Stream × Picture) :=
  let x := instOf s i
  let l := (readyPics s i).filter (fun e => !s.fixedMode || e.1.own.part == x.slot)
  if (instCfg s.cfg i).exclusive then l.filter (fun e => x.order.head? == some e.2.stream) else l

/-- CODEC_PICTURE_GRANT. -/
def execCodecPictureGrant (i : Nat) (s : State) : Host.Outcome State Fault Refusal :=
  if (instOf s i).running.isSome || quarantined s (142 + i) then .next s
  else match bestPic s (grantable s i) with
    | none => .next s
    | some e => .next (s.onInst i (fun x => { x with running := some e.2.stream, grantedAt := s.clock.cadence }))

/-- Suspend the running picture: it is ready again (14 R385). -/
def codecSuspend (s : State) (i : Nat) : State :=
  let x := instOf s i
  match x.running with
  | none => s
  | some n =>
    let s := s.onInst i (fun x => { x with running := none, orders := x.orders + 1 })
    s.onStream n (fun y => { y with pics := match y.pics with
      | p :: ps => { p with order := x.orders, waitFrom := s.clock.cadence } :: ps
      | [] => [] })

/-- CODEC_TAKEOVER_POINT: a ready picture of higher effective priority takes the engine (14 R385). -/
def execCodecTakeoverPoint (i : Nat) (s : State) : Host.Outcome State Fault Refusal :=
  let x := instOf s i
  match x.running with
  | none => .next s
  | some n =>
    match tget s.codec.streams n with
    | none => .next s
    | some y =>
      match y.pics with
      | [] => .next s
      | p :: _ =>
        let others := (grantable s i).filter (fun e => e.2.stream != n)
        if (instCfg s.cfg i).exclusive then .next s
        else match bestPic s others with
          | none => .next s
          | some e =>
            if effPriority s y p x.grantedAt < effPriority s e.1 e.2 s.clock.cadence then
              .next ((codecSuspend s i).onInst i (fun x => { x with running := some e.2.stream, grantedAt := s.clock.cadence }))
            else .next s

/-- CODEC_SLOT_END: the rotation of fixed-equal-share mode moves on and the running picture is suspended (14 R387). -/
def execCodecSlotEnd (i : Nat) (s : State) : Host.Outcome State Fault Refusal :=
  if !s.fixedMode then .next s
  else .next ((codecSuspend s i).onInst i (fun x => { x with slot := (x.slot + 1) % 17 }))

/-- EXCLUSIVE mode moves to the next stream; the one served goes to the back (14 R388). -/
def exclNext (s : State) (i : Nat) : State := s.onInst i (fun x => { x with order := x.order.drop 1 ++ x.order.take 1 })

/-- EXCL_IDLE_EXPIRE. -/
def execExclIdleExpire (i : Nat) (s : State) : Host.Outcome State Fault Refusal :=
  if !(instCfg s.cfg i).exclusive || (instOf s i).running.isSome || !(grantable s i).isEmpty then .next s
  else .next (exclNext s i)

/-- Take the running picture off its instance and its stream. -/
def codecTakeOff (s : State) (i n : Nat) : State :=
  (s.onInst i (fun x => { x with running := none })).onStream n (fun y => { y with pics := y.pics.drop 1 })

/-- The Midway master of an instance (03 R83). -/
def codecMaster (i : Nat) : Nat := 16 + i

/-- Issue the writes of a decoded picture that lie within their plane; count the others (14 R390). The results: the
codec status of the first that failed, how many were not issued, the state. A write into a partner's memory fails as the
partner says. -/
def codecWrites (s : State) (i : Nat) (w : Actor) (blk : CodecOpen) (b : PicBuf) (fail : Nat) (ws : List CdWrite) : Nat × Nat × State :=
  ws.foldl (fun acc x =>
    let p := listGet (planes blk b.luma b.chroma b.pitch) x.plane (0, 0)
    if p.2 < x.offset + x.data.length then (acc.1, acc.2.1 + 1, acc.2.2)
    else if acc.1 != 0 then acc
    else
      let r := storeAll acc.2.2 (codecMaster i) w .other (p.1 + x.offset) x.data
      (if r.1 == .ok then (if inPartner (p.1 + x.offset) then fail else 0) else codecStatus r.1, acc.2.1, r.2.2.1)) (0, 0, s)

/-- Read the input of a picture: 0 or the codec status of the failure (14 R392). -/
def codecRead (s : State) (i : Nat) (w : Actor) (host : Bool) (fail : Nat) (ranges : List (Nat × Nat)) : Nat × State :=
  if host then (fail, s)
  else ranges.foldl (fun acc r =>
    if acc.1 != 0 then acc
    else
      let x := loadAll acc.2 (codecMaster i) w r.1 r.2 []
      (if x.1 == .ok then (if inPartner r.1 then fail else 0) else codecStatus x.1, x.2.2.2)) (0, s)

/-- The flags of a record. -/
def cdFlags (r : CdResult) (propagated syntax_ ref : Bool) : Nat :=
  8 * b2n propagated + 4 * b2n syntax_ + 2 * b2n ref + b2n r.grain

/-- Pictures that are output, and buffers that hold none any more (14 R389). -/
def codecOuts (s : State) (n : Nat) (r : CdResult) : State :=
  let s := r.outs.foldl (fun s k => codecOutput s n k) s
  s.onStream n (fun y => { y with bufs := tmap y.bufs (fun k b => if r.frees.contains k && b.output.isNone then { b with busy := false } else b) })

/-- A decoded picture ends (14 R389 to R392). -/
def decodeEnd (s : State) (i n : Nat) (y : Stream) (p : Picture) (r : CdResult) : State :=
  let w : Actor := { part := y.own.part, tenant := y.own.tenant, priv := false, cfg := cfgOf s y.own.part p.epoch }
  let k := p.buf.getD 0
  match tget y.bufs k with
  | none => s
  | some b =>
    let rd := codecRead s i w p.desc.host r.readFail [(p.desc.addr, p.desc.length)]
    let none_ := r.status == 3 && rd.1 == 0
    let wr := codecWrites rd.2 i w y.own.blk b r.writeFail (if none_ then [] else r.writes)
    let badRef := r.refs.any (fun q => match tget y.bufs q with | some x => x.noRef | none => true)
    let parse := if 0 < wr.2.1 || badRef then max 1 r.status else r.status
    let st := if wr.1 != 0 then wr.1 else if rd.1 != 0 then rd.1 else parse
    let s := codecTakeOff wr.2.2 i n
    let pic := y.pictures
    let out : OutPic := { pts := p.desc.pts, tag := p.desc.tag, signal := p.desc.signal, picture := pic, status := st }
    let s := s.onStream n (fun y => { y with
      pictures := if none_ then y.pictures else modAdd 32 y.pictures 1
      counts := if none_ then y.counts else bump y.counts 0
      bufs := tmod y.bufs k (fun b =>
        if none_ then { b with busy := false }
        else { b with output := if r.shown then some out else none, noRef := wr.1 != 0 }) })
    let s := codecRecord s n { kind := 1, status := st, pts := p.desc.pts, tag := p.desc.tag, signal := p.desc.signal, bytes := r.bytes,
                               concealed := r.concealed, clamped := wr.2.1, picture := pic, buf := if none_ then 0 else k, ptype := r.ptype,
                               flags := cdFlags r (r.propagated || badRef) (r.errSyntax || 0 < wr.2.1) (r.errRef || badRef) }
    codecOuts s n r

/-- An encoded picture ends (14 R394, R395). -/
def encodeEnd (s : State) (i n : Nat) (y : Stream) (p : Picture) (r : CdResult) : State :=
  let c := cfgOf s y.own.part p.epoch
  let w : Actor := { part := y.own.part, tenant := y.own.tenant, priv := false, cfg := c }
  let blk := match tget c.codec.streams n with | some x => x.blk | none => y.own.blk
  let k := p.buf.getD 0
  match tget y.bufs k, p.chunk with
  | some b, some chunk =>
    let rd := codecRead s i w false r.readFail (planes y.own.blk b.luma b.chroma b.pitch)
    let key := p.desc.forceKey || y.forceKey || blk.keyInterval ≤ y.sinceKey
    let full := decide (chunk.length < r.bits.length)
    let wr : Status × State :=
      if rd.1 != 0 || full then (.ok, rd.2)
      else if chunk.host then (.ok, hostPost rd.2 y.own.fn none chunk.addr r.bits)
      else let x := storeAll rd.2 (codecMaster i) w .other chunk.addr r.bits; (x.1, x.2.2.1)
    let st := if rd.1 != 0 then rd.1 else if full then 5 else if wr.1 != .ok then codecStatus wr.1
      else if chunk.host || inPartner chunk.addr then r.writeFail else 0
    let s := codecTakeOff wr.2 i n
    let s := s.onStream n (fun y => { y with
      pictures := modAdd 32 y.pictures 1
      counts := bump y.counts 0
      forceKey := st != 0
      sinceKey := if key then 1 else y.sinceKey + 1
      bufs := tmod y.bufs k (fun b => let again := y.pics.any (fun q => q.buf == some k); { b with held := again, busy := again }) })
    codecRecord s n { kind := 3, status := st, pts := p.desc.pts, tag := p.desc.tag, signal := p.desc.signal, bytes := r.bits.length,
                      picture := y.pictures, buf := k,
                      ptype := if key then 1 else if (instCfg c i).exclusive then r.ptype else 3 }
  | _, _ => s

/-- An EOS ends: every picture that is held for output is output, then END (14 R389). -/
def eosEnd (s : State) (i n : Nat) (p : Picture) (r : CdResult) : State :=
  let s := codecTakeOff s i n
  let s := r.outs.foldl (fun s k => codecOutput s n k) s
  let s := (List.range 32).foldl (fun s k => codecOutput s n k) s
  let s := codecRecord s n { kind := 4, status := 0, pts := p.desc.pts, tag := p.desc.tag, signal := p.desc.signal }
  if (instCfg s.cfg i).exclusive then exclNext s i else s

/-- Run something on the running picture of an instance. -/
def codecRunning (s : State) (i : Nat) (f : Nat → Stream → Picture → State) : State :=
  match (instOf s i).running with
  | none => s
  | some n =>
    match tget s.codec.streams n with
    | none => s
    | some y => match y.pics with
      | [] => s
      | p :: _ => f n y p

/-- CODEC_PICTURE_END: the running picture has been coded. -/
def execCodecPictureEnd (i : Nat) (r : CdResult) (s : State) : Host.Outcome State Fault Refusal :=
  .next (codecRunning s i (fun n y p =>
    let s := if p.desc.typ == 5 then eosEnd s i n p r else if y.own.blk.dir == 0 then decodeEnd s i n y p r else encodeEnd s i n y p r
    codecRelease (codecKick (codecSettled s n) n) n))

/-- STREAM_WATCHDOG: the running picture is abandoned, and its buffer holds no picture (14 R393). -/
def execStreamWatchdog (i : Nat) (s : State) : Host.Outcome State Fault Refusal :=
  .next (codecRunning s i (fun n y p =>
    let w : Actor := { part := y.own.part, tenant := y.own.tenant, priv := false, cfg := cfgOf s y.own.part p.epoch }
    let dec := y.own.blk.dir == 0
    let k := p.buf.getD 0
    let s := match tget y.bufs k with
      | some b => if dec && p.desc.typ == 1 then
          (planes y.own.blk b.luma b.chroma b.pitch).foldl (fun s x => spoilRows s w x.2 false [x.1]) s
        else s
      | none => s
    let s := codecTakeOff s i n
    let s := s.onStream n (fun y => { y with bufs := tmod y.bufs k (fun b => { b with busy := false, noRef := dec, held := dec }), forceKey := y.forceKey || !dec })
    let s := rindCount s 0x1E
    let s := codecRecord s n { kind := kindOf y p.desc, status := 4, pts := p.desc.pts, tag := p.desc.tag,
                               signal := p.desc.signal, picture := y.pictures, buf := k }
    codecRelease (codecKick (codecSettled s n) n) n))

/-- The instance's island is quarantined: every pending picture completes ISLAND_QUARANTINED (02 R53, 14 R396). -/
def codecQuarantine (s : State) (i : Nat) : State :=
  let mine := s.codec.streams.filter (fun e => e.1 / 256 == i)
  let s := s.onInst i (fun x => { x with running := none })
  mine.foldl (fun s e =>
    let s := s.onStream e.1 (fun y => { y with pics := [], waiting := [] })
    let ends : List (CdDesc × Nat) := e.2.pics.map (fun p => (p.desc, p.settled.getD 14))
      ++ (e.2.waiting.filter (fun d => (recordKind d.typ).isSome)).map (fun d => (d, 14))
    let s := ends.foldl (fun s x => codecOver s e.1 x.1 x.2) s
    codecRelease s e.1) s

end Sys2Proof.Machine
end

