-- ==== Sys2Proof/Machine/Tcp.lean ====
section
/-! DEFINITION. Machine/Tcp.lean: TCP as the NVMe/TCP service terminates it (15 R417; RFC 9293, RFC 7323, RFC 3168): the
sending side of a connection. The header layouts are those of the standards (log entry 36, PRESUMED). -/

namespace Sys2Proof.Machine

/-- Octets of data that one segment carries: the port's frame less its headers. -/
def tcpMss (s : State) (t : Tcp) : Nat :=
  min t.peerMss ((lportCfg s.cfg t.lport).maxFrame - 18 - (if t.ip == 4 then 20 else 40) - 32)

/-- A timestamp value, in milliseconds of Device Time. -/
def tcpNow (s : State) : Nat := s.clock.now / 1000000 % 2 ^ 32

/-- The options of a segment: on a SYN the segment size, selective acknowledgement, timestamps and a window scale of 7;
then timestamps, and the first block received out of order. -/
def tcpOptions (s : State) (t : Tcp) (syn : Bool) : List Byte :=
  let ts := [8, 10] ++ be 4 (tcpNow s) ++ be 4 t.tsRecent
  if syn then [2, 4] ++ be 2 (tcpMss s t) ++ [4, 2] ++ ts ++ [1, 3, 3, 7]
  else [1, 1] ++ ts ++ (match t.ooo with
    | x :: _ => [1, 1, 5, 10] ++ be 4 x.1 ++ be 4 (modAdd 32 x.1 x.2.length)
    | [] => [])

/-- An IPv4 or IPv6 header over TCP, with its checksum. -/
def ipTcp (ip src dst ecn : Nat) (seg : List Byte) : List Byte :=
  let n := if ip == 4 then 4 else 16
  let seg := patch seg 16 (be 2 (inetSum (be n src ++ be n dst ++ be 2 6 ++ be 2 seg.length ++ seg)))
  if ip == 4 then
    let h := [byteOf 0x45, byteOf ecn] ++ be 2 (20 + seg.length) ++ be 4 0 ++ [byteOf 64, byteOf 6] ++ be 2 0 ++ be 4 src ++ be 4 dst
    patch h 10 (be 2 (inetSum h)) ++ seg
  else be 4 (6 * 2 ^ 28 + ecn * 2 ^ 20) ++ be 2 seg.length ++ [byteOf 6, byteOf 64] ++ be 16 src ++ be 16 dst ++ seg

/-- Send one segment. Flag bits of a header: FIN 1, SYN 2, RST 4, ACK 16, ECE 64, CWR 128; the last two as RFC 3168 has them. -/
def tcpFrame (s : State) (t : Tcp) (seq flags : Nat) (data : List Byte) : State :=
  let ecn := if flags % 4 == 2 then (if bit flags 4 then 64 * b2n t.ecn else 192)
             else 64 * b2n t.ece + 128 * b2n (t.cwr && !data.isEmpty)
  let flags := if bit flags 2 then flags else flags + ecn
  let opts := tcpOptions s t (bit flags 1)
  let seg := be 2 t.localPort ++ be 2 t.remotePort ++ be 4 seq ++ be 4 (if bit flags 4 then t.rcvNxt else 0)
    ++ [byteOf ((5 + opts.length / 4) * 16), byteOf flags] ++ be 2 65535 ++ be 2 0 ++ be 2 0 ++ opts ++ data
  let m := drawBytes s 12
  txEnqueue m.2 t.txq .plain (etherFrame m.1 0 t.ip (ipTcp t.ip t.localAddr t.remoteAddr (if t.ecn && !data.isEmpty then 2 else 0) seg))

/-- Send a segment that takes sequence numbers, and keep it until it is acknowledged. -/
def tcpSend (s : State) (n : Nat) (t : Tcp) (syn fin : Bool) (data : List Byte) : State :=
  let flags := b2n fin + 2 * b2n syn + (if syn && t.st == .synSent then 0 else 16)
  let seg : TcpSeg := { seq := t.sndNxt, data := data, syn := syn, fin := fin, sentAt := s.clock.cadence, again := false, sacked := false }
  let s := s.onTcp n (fun t => { t with
    sndNxt := modAdd 32 t.sndNxt (data.length + b2n syn + b2n fin)
    segs := t.segs ++ [seg]
    cwr := t.cwr && data.isEmpty })
  tcpFrame s t t.sndNxt flags data

/-- An acknowledgement alone. -/
def tcpAck (s : State) (n : Nat) : State :=
  match tget s.stor.tcps n with
  | some t => tcpFrame s t t.sndNxt 16 []
  | none => s

/-- Send what the congestion window and the peer's window allow. -/
def tcpPump (s : State) (n : Nat) : Nat → State
  | 0 => s
  | fuel + 1 =>
    match tget s.stor.tcps n with
    | none => s
    | some t =>
      let room := min t.cwnd t.peerWindow - modSub 32 t.sndNxt t.sndUna
      let k := min (min room (tcpMss s t)) t.unsent.length
      if t.st != .established || k == 0 then s
      else tcpPump (tcpSend (s.onTcp n (fun t => { t with unsent := t.unsent.drop k })) n t false false (t.unsent.take k)) n fuel

/-- Put octets into a connection's stream. -/
def tcpWrite (s : State) (n : Nat) (d : List Byte) : State :=
  let s := s.onTcp n (fun t => { t with unsent := t.unsent ++ d })
  match tget s.stor.tcps n with | some t => tcpPump s n t.unsent.length | none => s

/-- Halve the congestion window, once for what was in flight (15 R417). -/
def tcpHalve (s : State) (n : Nat) : State :=
  s.onTcp n (fun t =>
    if modSub 32 t.sndUna t.recover < 2 ^ 31 then { t with cwnd := max (t.cwnd / 2) 1460, recover := t.sndNxt, acked := 0, cwr := t.ecn } else t)

/-- Send the oldest segment that has not been acknowledged again. -/
def tcpResend (s : State) (n : Nat) : State :=
  match tget s.stor.tcps n with
  | none => s
  | some t =>
    match t.segs.find? (fun x => !x.sacked) with
    | none => s
    | some x =>
      let s := s.onTcp n (fun t => { t with segs := t.segs.map (fun y => if y.seq == x.seq then { y with again := true } else y) })
      tcpFrame s t x.seq (b2n x.fin + 2 * b2n x.syn + (if x.syn && t.st == .synSent then 0 else 16)) x.data

/-- Reset a connection and forget it. -/
def tcpReset (s : State) (n : Nat) : State :=
  match tget s.stor.tcps n with
  | none => s
  | some t => (tcpFrame s t t.sndNxt 20 []).onStor (fun x => { x with tcps := tdel x.tcps n })

end Sys2Proof.Machine
end

