-- ==== Sys2Proof/Machine/Storage.lean ====
section
/-! DEFINITION. Machine/Storage.lean: volumes, storage queues and the commands handed to their backing (15 R404 to R415,
R419 to R424). -/

namespace Sys2Proof.Machine

/-- The storage status of a device status (15, table of storage statuses). -/
def storStatus (st : Status) : Nat :=
  match st with
  | .ok => 0 | .badRequest => 2 | .align => 8 | .unmapped => 15 | .tagDenied => 16 | .memUncorrectable => 17 | .hostAbort => 18
  | .partnerStalled => 19 | .partnerTimeout => 20 | .portDown => 21 | .islandQuarantined => 22 | _ => 15

/-- The Midway master of a drive's root port (03 R83); the NVMe/TCP service uses the first. -/
def storMaster (drive : Nat) : Nat := 18 + drive / 2

/-- A volume changes its state: a VOLUME_STATE record to the owning function and to the manager (15 R405). -/
def volState (s : State) (n : Nat) (v : VolumeCfg) (st : VolSt) (cause : Nat) : State :=
  let code := match st with | .creating => 0 | .ready => 1 | .offline => 2
  let d := le 2 n ++ [byteOf code, 0] ++ le 2 cause
  let s := s.onVol n (fun x => { x with st := st })
  let s := raiseEvent s 0 0x0010 v.part v.tenant d
  let o := ownerFn v.part v.tenant v.fn
  if o == 0 then s else raiseEvent s o 0x0010 v.part v.tenant d

/-- The volumes that a backing carries, under the current configuration and the retiring ones. -/
def volumesOn (s : State) (backing source : Nat) : List (Nat × VolumeCfg) :=
  let on := fun (c : Cfg) => c.stor.volumes.filter (fun e => e.2.v.backing == backing && e.2.v.source == source && thas s.stor.volumes e.1)
  let now := on s.cfg
  let old := s.parts.flatMap (fun e => match e.2.old with | some (_, c) => on c | none => [])
  now ++ (old.filter (fun e => !now.any (fun x => x.1 == e.1)))

/-- The volumes of a backing go OFFLINE (15 R405, R419 to R421). A volume that is being scrubbed stays CREATING. -/
def volumesOffline (s : State) (backing source cause : Nat) : State :=
  (volumesOn s backing source).foldl (fun s e =>
    match tget s.stor.volumes e.1 with
    | some x => if x.st == .ready then volState s e.1 e.2 .offline cause else s
    | none => s) s

/-- Send the scrub of a new volume (15 R405). -/
def volScrub (s : State) (v : VolumeCfg) (spaces : List NamespaceInfo) : State :=
  let zero := spaces.any (fun x => x.nsid == v.v.nsid && x.zeroDealloc)
  if v.v.backing == 0 then
    let id := (tgetD s.stor.drives v.v.source {}).nextId
    (s.onDrive v.v.source (fun d => { d with nextId := modAdd 16 d.nextId 1 })).send
      (.driveCmd v.v.source id (if zero then 9 else 8) v.v.nsid v.v.startLba v.v.blocks false)
  else
    let id := (tgetD s.stor.inits v.v.source {}).nextId
    let s := s.onStor (fun x => { x with inits := tmod x.inits v.v.source (fun i => { i with nextId := modAdd 16 i.nextId 1 }) })
    match tfind s.stor.tcps (fun _ t => t.initiator == some v.v.source && t.qid == 1) with
    | some (k, _) => tcpWrite s k (Config.nvmeCommand id (if zero then 9 else 8) v.v.nsid v.v.startLba v.v.blocks false [])
    | none => s

/-- A volume whose backing returned becomes READY, and a scrub begins again (15 R405, R419 to R421). -/
def volumeReady (s : State) (e : Nat × VolumeCfg) (spaces : List NamespaceInfo) : State :=
  match tget s.stor.volumes e.1 with
  | some x =>
    if x.dead then s
    else if x.st == .offline then volState s e.1 e.2 .ready 0
    else if x.st == .creating then volScrub s e.2 spaces
    else s
  | none => s

/-- The volumes of a backing return. -/
def volumesReady (s : State) (backing source : Nat) (spaces : List NamespaceInfo) : State :=
  (volumesOn s backing source).foldl (fun s e => volumeReady s e spaces) s

/-- A DRIVE_STATE record on the manager booth (15 R401, R402, R421). -/
def driveEvent (s : State) (d reason : Nat) : State := raiseEvent s 0 0x0011 0 0 [byteOf d, byteOf reason]

/-! Completion records (15 R412). -/

/-- Count a command's end on its volume (15 R424). -/
def volCount (s : State) (n op blocks st : Nat) : State :=
  s.onVol n (fun v => { v with counts :=
    let c := bump v.counts (4 + st)
    match op with
    | 1 => bump (bump c 0) 2 (if st == 0 then blocks else 0)
    | 2 => bump (bump c 1) 3 (if st == 0 then blocks else 0)
    | _ => c })

/-- Write one completion record of a storage queue. -/
def storRecord (s : State) (q : Nat) (d : StDesc) (st nvme : Nat) : State :=
  match tget s.stor.queues q with
  | none => s
  | some x =>
    let o := x.own.q
    let entries := 2 ^ o.log2
    let phase := 1 - x.comp.prod / entries % 2
    let rcd := le 6 phase ++ le 2 d.volume ++ [0, byteOf st] ++ le 2 nvme ++ le 4 d.tag
    let s := hostPost s x.own.fn (if o.pasidEn then some o.pasid else none) (o.compBase + 16 * (x.comp.prod % entries)) rcd
    let s := s.onStq q (fun x => { x with comp := { x.comp with prod := modAdd 32 x.comp.prod 1 } })
    let s := volCount s d.volume d.op (d.blocksM1 + 1) st
    if d.signal then msixRaise s x.own.fn o.vector else s

/-- Free a queue that is being destroyed once nothing of it is left, with its bounce cells (15 R413). -/
def storRelease (s : State) (q : Nat) : State :=
  match tget s.stor.queues q with
  | none => s
  | some x =>
    if !x.closing || !x.waiting.isEmpty || !x.runs.isEmpty || x.desc.cons != x.desc.prod then s
    else releaseCellsOf (s.onStor (fun y => { y with queues := tdel y.queues q })) x.cells
where
  /-- Cells of a queue that is gone are in release (02 R46). -/
  releaseCellsOf (s : State) (cs : List Nat) : State :=
    s.onMem (fun m => { m with cells := cs.foldl (fun x c => tmod x c (fun u => { u with released := true })) m.cells })

/-- Flush the descriptors that have not started (15 R413): how many they are. -/
def storFlush (s : State) (q : Nat) : State × Nat :=
  match tget s.stor.queues q with
  | none => (s, 0)
  | some x =>
    let s := s.onStq q (fun x => { x with waiting := [], flushTo := x.desc.prod })
    (x.waiting.foldl (fun s d => storRecord s q d 1 0) s, x.waiting.length + modSub 32 x.desc.prod x.desc.cons)

/-! Handing commands to a backing. -/

/-- The commands outstanding at a backing. -/
def cmdsAt (s : State) (backing source : Nat) : List DriveCmd :=
  if backing == 0 then (tgetD s.stor.drives source {}).cmds else (tgetD s.stor.inits source {}).cmds

/-- Change the commands outstanding at a backing. -/
def onCmds (s : State) (backing source : Nat) (f : List DriveCmd → List DriveCmd) : State :=
  if backing == 0 then s.onDrive source (fun d => { d with cmds := f d.cmds })
  else s.onStor (fun x => { x with inits := tmod x.inits source (fun i => { i with cmds := f i.cmds }) })

/-- A command goes to its backing: an NVMe command to a drive, or PDUs to a remote controller on one of its I/O queues. -/
def handOver (s : State) (v : VolumeCreate) (c : DriveCmd) : State :=
  if v.backing == 0 then
    let id := (tgetD s.stor.drives v.source {}).nextId
    let s := s.onDrive v.source (fun d => { d with nextId := modAdd 16 d.nextId 1, cmds := d.cmds ++ [{ c with id := id, sentAt := s.clock.cadence }] })
    s.send (.driveCmd v.source id c.opcode v.nsid c.slba c.blocks c.fua)
  else
    let id := (tgetD s.stor.inits v.source {}).nextId
    let s := s.onStor (fun x => { x with inits := tmod x.inits v.source (fun i => { i with
      nextId := modAdd 16 i.nextId 1, cmds := i.cmds ++ [{ c with id := id, sentAt := s.clock.cadence }] }) })
    let queues := match tget s.stor.inits v.source with
      | some i => (match i.own with | some o => max 1 o.blk.ioQueues | none => 1)
      | none => 1
    match tfind s.stor.tcps (fun _ t => t.initiator == some v.source && t.qid == id % queues + 1) with
    | some (n, _) => tcpWrite s n (Config.nvmeCommand id c.opcode v.nsid c.slba c.blocks c.fua c.data)
    | none => s

/-- The encryption key of a volume (15 R414): none where it has no slot. -/
def volKey (s : State) (v : VolumeCreate) : Option (List Byte) :=
  if v.keySlot == 0xFFFF then none else some (match tget s.cipher.slots v.keySlot with | some k => k.material | none => [])

/-- Encrypt or decrypt data block by block, from a volume-relative block number on (07 R194, 15 R414). -/
def xtsBlocks (f : List Byte → Nat → List Byte → List Byte) (key : List Byte) (bs lba : Nat) (d : List Byte) : List Byte :=
  (List.range (d.length / bs)).flatMap (fun i => fit bs (f key (lba + i) ((d.drop (i * bs)).take bs)))

/-- The tags of a command's data (15 R402). -/
def storActor (s : State) (part tenant epoch : Nat) : Actor := { part := part, tenant := tenant, priv := false, cfg := cfgOf s part epoch }

/-- Put data into bounce cells. -/
def fillCells (s : State) : List Nat → List Byte → State
  | [], _ => s
  | c :: cs, d => fillCells (memStore s (0x010000000000 + 2048 * c) (d.take 2048)).2 cs (d.drop 2048)

/-- The NVMe opcode of a storage OP (15 R403; log entry 36, PRESUMED). -/
def nvmeOpcode (op : Nat) : Nat := match op with | 1 => 2 | 2 => 1 | 3 => 0 | 4 => 8 | _ => 9

/-- Blocks of one command to a volume's backing: its largest transfer, and for encrypted data a segment of 128 KiB. -/
def partBlocks (s : State) (v : VolumeCfg) (op : Nat) : Nat :=
  let mdts := if v.v.backing == 0 then (tgetD s.stor.drives v.v.source {}).mdts else 2097152
  let enc := v.v.keySlot != 0xFFFF
  if op == 1 || op == 2 || (op == 4 && enc) then max 1 ((if enc then min mdts 131072 else mdts) / v.blockSize) else 65536

/-- May a partition hand a drive one more command (15 R423)? -/
def driveRoom (s : State) (v : VolumeCreate) (part : Nat) : Bool :=
  !s.fixedMode || v.backing != 0 || (cmdsAt s v.backing v.source).countP (fun c => c.part == part) < 64

/-- Change one started descriptor. -/
def onRun (s : State) (q count : Nat) (f : StRun → StRun) : State :=
  s.onStq q (fun x => { x with runs := x.runs.map (fun r => if r.count == count then f r else r) })

/-- Hand the next part of a started descriptor to its backing, if cells and the drive have room. `ext` is what the host
or an accelerator returned for a buffer of theirs that has to be encrypted or sent on, from the octets not yet used on;
`fail` the storage status of a read of it that failed. A part whose data has not come waits. -/
def storPart (s : State) (q : Nat) (x : StQueue) (r : StRun) (ext : List Byte) (fail : Nat) : Option (State × List Byte) :=
  let v := r.vol
  let d := r.desc
  let n := min (partBlocks s v d.op) (r.total - r.next)
  let bs := v.blockSize
  let key := volKey s v.v
  let data := d.op == 1 || d.op == 2 || (d.op == 4 && key.isSome)
  let cells := if data && key.isSome then ceilDiv (n * bs) 2048 else 0
  let out := d.op == 2 && (key.isSome || v.v.backing == 1)
  let a := d.bufAddr + r.next * bs
  let far := out && (d.host || inPartner a)
  if r.total ≤ r.next || x.freeCells.length < cells || !driveRoom s v.v x.own.part
    || (far && fail == 0 && ext.length < n * bs) then none
  else
    let use := x.freeCells.take cells
    let w := storActor s x.own.part x.own.tenant r.epoch
    let remote := v.v.backing == 1
    let rd : Nat × List Byte × State :=
      if d.op == 4 && key.isSome then (0, zeros (n * bs), s)
      else if !out then (0, [], s)
      else if d.host then (fail, fit (n * bs) ext, s)
      else
        let y := loadAll s (storMaster v.v.source) w a (n * bs) ext
        (if y.1 == .ok && far then fail else storStatus y.1, y.2.2.1, y.2.2.2)
    if rd.1 != 0 then
      some (onRun rd.2.2 q r.count (fun r => { r with next := r.total, status := if r.status == 0 then rd.1 else r.status }), [])
    else
      let plain := rd.2.1
      let body := match key with | some k => xtsBlocks Config.xtsEncrypt k bs (d.lba + r.next) plain | none => plain
      let s := fillCells rd.2.2 use body
      let c : DriveCmd := {
        id := 0
        use := .queue q r.count
        volume := d.volume
        part := x.own.part
        tenant := x.own.tenant
        fn := x.own.fn
        epoch := r.epoch
        opcode := if d.op == 4 && key.isSome then 1 else nvmeOpcode d.op
        fua := d.op == 2 && d.fua
        slba := if d.op == 3 then 0 else v.v.startLba + d.lba + r.next
        blocks := if d.op == 3 then 0 else n
        off := r.next
        bufs := if cells != 0 then use.map (fun c => (0x010000000000 + 2048 * c, 2048))
                else if d.op == 1 || d.op == 2 then [(a, n * bs)] else []
        host := d.host && cells == 0
        ro := d.roHint
        cells := use
        data := if remote then body else []
        fail := 0
        sentAt := 0
        aborted := false }
      let s := s.onStq q (fun x => { x with freeCells := x.freeCells.drop cells })
      let s := onRun s q r.count (fun r => { r with next := r.next + n, parts := r.parts + 1 })
      some (handOver s v.v c, if far then ext.drop (n * bs) else ext)

/-- Hand over what the started descriptors of a queue may send, in ring order. -/
def storIssue (s : State) (q : Nat) (ext : List Byte) (fail : Nat) : Nat → State
  | 0 => s
  | fuel + 1 =>
    match tget s.stor.queues q with
    | none => s
    | some x =>
      match x.runs.find? (fun r => r.next < r.total) with
      | none => s
      | some r =>
        match storPart s q x r ext fail with
        | none => s
        | some (s, ext) => storIssue s q ext fail fuel

/-- Has a started descriptor nothing left: no part, and no write that an accelerator has to answer (15 R412)? -/
def runOver (r : StRun) : Bool := r.parts == 0 && r.total ≤ r.next && r.writes == 0

/-- The record of a started descriptor that has ended. What a READ that failed leaves in its buffer is a free value. -/
def runRecord (s : State) (q : Nat) (own : QueueCfg) (r : StRun) : State :=
  let d := r.desc
  let w := storActor s own.part own.tenant r.epoch
  let s := if d.op == 1 && r.status != 0 then spoilRows s w ((d.blocksM1 + 1) * r.vol.blockSize) d.host [d.bufAddr] else s
  storRecord s q d r.status r.nvme

/-- End the started descriptors of a queue that have nothing left (15 R412). -/
def storEnd (s : State) (q : Nat) : State :=
  match tget s.stor.queues q with
  | none => s
  | some x =>
    let beyond := x.runs.filter runOver
    let s := s.onStq q (fun x => { x with runs := x.runs.filter (fun r => !runOver r) })
    storRelease (beyond.foldl (fun s r => runRecord s q x.own r) s) q

/-- A write of a started descriptor's data has been answered by an accelerator (15 R412). -/
def storWriteDone (s : State) (q count : Nat) (st : Status) : State :=
  storEnd (onRun s q count (fun r => { r with
    writes := r.writes - 1
    status := if r.status == 0 then storStatus st else r.status })) q

/-- Whatever a queue may do next. -/
def storKick (s : State) (q : Nat) (ext : List Byte) (fail : Nat) : State := storEnd (storIssue s q ext fail 4096) q

/-! The end of a command at its backing. -/

/-- Write data into memory of the device, or a window of it, for a command; its descriptor waits for what an accelerator
has to answer (15 R412). -/
def writeDevice (s : State) (master : Nat) (c : DriveCmd) (a : Nat) (d : List Byte) : Nat × State :=
  let w := storActor s c.part c.tenant c.epoch
  match c.use with
  | .queue q count =>
    let r := storeAll s master w (.stor q count) a d
    (storStatus r.1, onRun r.2.2.1 q count (fun x => { x with writes := x.writes + r.2.2.2 }))
  | .tcp _ _ => let r := storeAll s master w .other a d; (storStatus r.1, r.2.2.1)

/-- Write data into a function's buffer (15 R412): the storage status. -/
def writeBuffer (s : State) (master : Nat) (c : DriveCmd) (host : Bool) (pasid : Option Nat) (a : Nat) (d : List Byte) : Nat × State :=
  if host then (0, hostPost s c.fn pasid a d (roOf s c.fn c.ro))
  else writeDevice s master c a d

/-- Read a command's bounce cells: the storage status, the octets and the state. -/
def readCells (s : State) (master : Nat) (c : DriveCmd) : Nat × List Byte × State :=
  c.bufs.foldl (fun acc b =>
    if acc.1 != 0 then acc
    else
      let r := loadAll acc.2.2 master (storActor s c.part c.tenant c.epoch) b.1 b.2 []
      (storStatus r.1, acc.2.1 ++ r.2.2.1, r.2.2.2)) (0, [], s)

/-- A part of a descriptor has ended with a storage status and an NVMe status; `data` is what a remote controller returned. -/
def queueCmdEnd (s : State) (q count : Nat) (c : DriveCmd) (st nvme : Nat) (data : List Byte) : State :=
  match tget s.stor.queues q with
  | none => s
  | some x =>
    match x.runs.find? (fun r => r.count == count) with
    | none => s
    | some r =>
      let v := r.vol
      let bs := v.blockSize
      let key := volKey s v.v
      let deliver := r.desc.op == 1 && st == 0 && c.fail == 0 && (key.isSome || v.v.backing == 1)
      let rd : Nat × List Byte × State :=
        if deliver && v.v.backing == 0 then readCells s (storMaster v.v.source) c else (0, fit (c.blocks * bs) data, s)
      let raw := rd.2.1
      let s := rd.2.2
      let plain := match key with | some k => xtsBlocks Config.xtsDecrypt k bs (r.desc.lba + c.off) (fit (c.blocks * bs) raw) | none => raw
      let wr := if rd.1 != 0 then (rd.1, s)
        else if deliver then
          writeBuffer s (storMaster v.v.source) c r.desc.host (if x.own.q.pasidEn then some x.own.q.pasid else none)
            (r.desc.bufAddr + c.off * bs) plain
        else (0, s)
      let st := if st != 0 then st else if c.fail != 0 then c.fail else wr.1
      let s := onRun wr.2 q count (fun r => { r with
        parts := r.parts - 1
        next := if st == 0 then r.next else r.total
        status := if r.status == 0 then st else r.status
        nvme := if r.status == 0 then nvme else r.nvme })
      storEnd (s.onStq q (fun x => { x with freeCells := x.freeCells ++ c.cells })) q

/-- The NVMe status a host of the target receives for a storage status (log entry 36, PRESUMED). -/
def nvmeOf (st nvme : Nat) : Nat :=
  match st with | 0 => 0 | 10 => nvme | 4 => 0x0082 | 5 => 0x0082 | 6 => 0x0020 | 7 => 0x0080 | 3 => 0x000B | _ => 0x0006

/-- Change one command of a host. -/
def onTcpRun (s : State) (n cid : Nat) (f : TcpRun → TcpRun) : State :=
  s.onTcp n (fun t => { t with runs := t.runs.map (fun r => if r.cid == cid then f r else r) })

/-- Hand over the parts of a connection's commands that have room at their backing, in order (15 R410, R423). -/
def tcpIssue (s : State) (n : Nat) : Nat → State
  | 0 => s
  | fuel + 1 =>
    match tget s.stor.tcps n with
    | none => s
    | some t =>
      match t.runs.find? (fun r => !r.todo.isEmpty) with
      | none => s
      | some r =>
        match r.todo, live s (·.stor.volumes) r.volume with
        | c :: cs, some v =>
          if !driveRoom s v.v t.part then s
          else tcpIssue (handOver (onTcpRun s n r.cid (fun r => { r with todo := cs, parts := r.parts + 1 })) v.v c) n fuel
        | _, _ => s

/-- Answer the commands of a connection that have ended: the answer goes into its stream (15 R418). -/
def tcpEnd (s : State) (n : Nat) : State :=
  match tget s.stor.tcps n with
  | none => s
  | some t =>
    let beyond := t.runs.filter (fun r => r.parts == 0 && r.todo.isEmpty)
    let s := s.onTcp n (fun t => { t with runs := t.runs.filter (fun r => !(r.parts == 0 && r.todo.isEmpty)) })
    beyond.foldl (fun s r => tcpWrite (volCount s r.volume r.op r.blocks r.status) n
      (Config.nvmeAnswer r.cid (nvmeOf r.status r.nvme) (if r.op == 1 && r.status == 0 then r.data else []))) s

/-- A part of a host's command has ended; `data` is what a remote controller returned. -/
def tcpCmdEnd (s : State) (n cid : Nat) (c : DriveCmd) (st nvme : Nat) (data : List Byte) : State :=
  let st := if st != 0 then st else c.fail
  let got := if data.isEmpty then c.data else data
  tcpEnd (onTcpRun s n cid (fun r => { r with
    parts := r.parts - 1
    todo := if st == 0 then r.todo else []
    status := if r.status == 0 then st else r.status
    nvme := if r.status == 0 then nvme else r.nvme
    data := if r.op == 1 && st == 0 then patch r.data c.off got else r.data })) n

/-- A command at a backing has ended. -/
def cmdEnd (s : State) (c : DriveCmd) (st nvme : Nat) (data : List Byte) : State :=
  match c.use with
  | .queue q count => queueCmdEnd s q count c st nvme data
  | .tcp n cid => tcpCmdEnd s n cid c st nvme data

/-- Hand over what the hosts' commands have waiting. -/
def tcpIssueAll (s : State) : State :=
  (s.stor.tcps.filter (fun e => e.2.runs.any (fun r => !r.todo.isEmpty))).foldl (fun s e => tcpIssue s e.1 4096) s

/-- A backing ends (15 R419 to R422): every command outstanding at it completes, with a status that may depend on the
command, and those that had parts left to hand over send no more of them. -/
def backingEnd (s : State) (backing source : Nat) (st : DriveCmd → Nat) (rest : Nat) : State :=
  let on := fun (v : VolumeCfg) => v.v.backing == backing && v.v.source == source
  let s := s.onStor (fun y => { y with queues := tmap y.queues (fun _ x => { x with runs := x.runs.map (fun r =>
    if on r.vol && r.next < r.total then
      { r with next := r.total, status := if r.parts == 0 && r.status == 0 then rest else r.status }
    else r) }) })
  let mine := fun (n : Nat) => match live s (·.stor.volumes) n with | some v => on v | none => false
  let s := s.onStor (fun y => { y with tcps := tmap y.tcps (fun _ t => { t with runs := t.runs.map (fun r =>
    if mine r.volume && !r.todo.isEmpty then
      { r with todo := [], status := if r.parts == 0 && r.status == 0 then rest else r.status }
    else r) }) })
  let cs := cmdsAt s backing source
  let s := cs.foldl (fun s c => cmdEnd s c (st c) 0 []) (onCmds s backing source (fun _ => []))
  let s := (s.stor.queues.map (·.1)).foldl storEnd s
  (s.stor.tcps.map (·.1)).foldl tcpEnd s

end Sys2Proof.Machine
end

