-- ==== Sys2Proof/Machine/StorRows.lean ====
section
/-! DEFINITION. Machine/StorRows.lean: what the storage root ports do of themselves and what drives do (15 R402, R405,
R409 to R412, R420 to R423). -/

namespace Sys2Proof.Machine

/-- One 64-octet storage descriptor (15, table of the storage descriptor). -/
def parseStor (d : List Byte) : StDesc :=
  let w := ofLe d
  { bufAddr := field w 448 64
    lba := field w 384 48
    tag := field w 352 32
    blocksM1 := field w 336 16
    volume := field w 320 10
    op := field w 16 8
    host := bit w 4
    fua := bit w 3
    roHint := bit w 2
    signal := bit w 1
    fence := bit w 0
    rsvBad := field w 432 16 != 0 || field w 330 6 != 0 || field w 24 296 != 0 || field w 5 11 != 0 }

/-- Descriptors of a queue have been read from its ring; those that a flush covered complete FLUSHED. -/
def storDescsRead (s : State) (q : Nat) (d : List Byte) : State :=
  let s := (chunksOf 64 (d.length / 64) d).foldl (fun s c =>
    match tget s.stor.queues q with
    | none => s
    | some x =>
      let s := s.onStq q (fun x => { x with desc := { x.desc with cons := modAdd 32 x.desc.cons 1 } })
      if x.closing || newer 32 x.flushTo x.desc.cons then storRecord s q (parseStor c) 1 0
      else s.onStq q (fun x => { x with waiting := x.waiting ++ [parseStor c] })) s
  storRelease s q

/-- The checks of a command, in order, with their storage statuses (15 R409): of which partition and tenant it is,
whether its queue has bounce cells, and the volumes of its epoch. -/
def storChecks (s : State) (vols : Tbl VolumeCfg) (part : Nat) (tenant : VolumeCfg → Nat) (bounce : Bool) (d : StDesc) : Option Nat :=
  let v := tget vols d.volume
  let bs := match v with | some v => v.blockSize | none => 512
  if d.rsvBad || d.op == 0 || 5 < d.op || (d.op == 3 && (d.lba != 0 || d.blocksM1 != 0 || d.bufAddr != 0))
    || ((d.op == 1 || d.op == 2) && 2097152 < (d.blocksM1 + 1) * bs) then some 2
  else match v with
    | none => some 3
    | some v =>
      if v.part != part || (v.tenant != 0 && v.tenant != tenant v) then some 3
      else match (match tget s.stor.volumes d.volume with | some x => x.st | none => .offline) with
        | .creating => some 4
        | .offline => some 5
        | .ready =>
          if v.v.readOnly && (d.op == 2 || d.op == 4 || d.op == 5) then some 6
          else if v.v.blocks < d.lba + d.blocksM1 + 1 then some 7
          else if d.bufAddr % 4 != 0 then some 8
          else if v.v.keySlot != 0xFFFF && !bounce then some 9
          else none

/-- STOR_START: the next descriptor of a queue is taken and checked, and its parts are handed to the backing as far as
they have room (15 R409, R410). Where the next descriptor may not start, the parts that waited go on. `ext` is what the
host returned for the host-space buffers the parts need, `fail` the status of a read of them that failed. -/
def execStorStart (q : Nat) (ext : List Byte) (fail : Nat) (s : State) : Host.Outcome State Fault Refusal :=
  match tget s.stor.queues q with
  | none => .next s
  | some x =>
    match x.waiting with
    | [] => .next (storKick s q ext fail)
    | d :: ds =>
      let take := fun (s : State) => s.onStq q (fun x => { x with waiting := ds })
      if quarantined s 144 then .next (storRelease (storRecord (take s) q d 22 0) q)
      else if (d.fence && !x.runs.isEmpty) || 64 ≤ x.runs.length then .next (storKick s q ext fail)
      else
        let epoch := epochAt s x.own.part 144
        let vols := (cfgOf s x.own.part epoch).stor.volumes
        match storChecks s vols x.own.part (fun _ => x.own.tenant) (x.own.q.bounceCells != 0) d, tget vols d.volume with
        | some st, _ => .next (storRelease (storRecord (take s) q d st 0) q)
        | none, none => .next s
        | none, some v =>
          let r : StRun := {
            count := x.nextCount
            desc := d
            vol := v
            epoch := epoch
            parts := 0
            next := 0
            total := d.blocksM1 + 1
            status := 0
            nvme := 0 }
          let s := (take s).onStq q (fun x => { x with nextCount := x.nextCount + 1, runs := x.runs ++ [r] })
          .next (storKick s q ext fail)

/-- The command of an identifier at a drive. -/
def driveCmdOf (s : State) (drive id : Nat) : Option DriveCmd := (tgetD s.stor.drives drive {}).cmds.find? (fun c => c.id == id)

/-- DRIVE_COMPLETION: a drive ends a command with an NVMe status (15 R412). A command whose abort was sent ends
STORAGE_TIMEOUT (15 R420). `ext` and `fail` are as for STOR_START, for parts that find room now. -/
def execDriveCompletion (drive id nvme : Nat) (ext : List Byte) (fail : Nat) (s : State) : Host.Outcome State Fault Refusal :=
  match driveCmdOf s drive id with
  | none => .next s
  | some c =>
    let s := onCmds s 0 drive (fun cs => cs.filter (fun x => x.id != id))
    let s := cmdEnd s c (if c.aborted then 11 else if nvme == 0 then 0 else 10) nvme []
    let s := match c.use with | .queue q _ => storKick s q ext fail | .tcp _ _ => s
    .next (tcpIssueAll s)

/-- STORAGE_TIMEOUT: a command has been outstanding at its drive for longer than the storage command timeout (15 R420). -/
def execStorageTimeout (drive id : Nat) (s : State) : Host.Outcome State Fault Refusal :=
  match driveCmdOf s drive id with
  | none => .next s
  | some c =>
    if c.aborted then .next s
    else
      let s := s.onDrive drive (fun d => { d with
        timeouts := modAdd 64 d.timeouts 1
        cmds := d.cmds.map (fun x => if x.id == id then { x with aborted := true } else x) })
      .next ((rindCount s 0x1C).send (.driveAbort drive id))

/-- ABORT_CONFIRM_TIMEOUT: the drive has not confirmed an abort within 1 s, so its controller is reset (15 R420). The
VOLUME_STATE records' cause is a status for which the booths have no code, and stays open (log entry 37, DESIGN CHOICE). -/
def execAbortConfirmTimeout (drive id : Nat) (s : State) : Host.Outcome State Fault Refusal :=
  match driveCmdOf s drive id with
  | none => .next s
  | some c =>
    if !c.aborted then .next s
    else
      let s := s.onDrive drive (fun d => { d with st := .resetting, resets := modAdd 64 d.resets 1 })
      let s := backingEnd (s.send (.driveReset drive)) 0 drive (fun c => if c.aborted then 11 else 12) 12
      let cause := draw s
      let s := volumesOffline cause.2 0 drive (cause.1 % 65536)
      .next (rindLog (driveEvent s drive 4) 0x0010 144 [byteOf drive, 4])

/-- DRIVE_REINIT_DONE: a reset drive has been initialised again (15 R420). -/
def execDriveReinitDone (drive : Nat) (s : State) : Host.Outcome State Fault Refusal :=
  let d := tgetD s.stor.drives drive {}
  if d.st != .resetting then .next s
  else .next (volumesReady (driveEvent (s.onDrive drive (fun d => { d with st := .up })) drive 0) 0 drive d.spaces)

/-- A drive ends: link loss, removal, containment or a fatal status (15 R421). -/
def driveLost (s : State) (drive : Nat) : State :=
  match (tgetD s.stor.drives drive {}).st with
  | .absent | .lost => s
  | .unsupported => s.onDrive drive (fun d => { d with st := .absent })
  | .up | .resetting =>
    let s := backingEnd (s.onDrive drive (fun d => { d with st := .lost })) 0 drive (fun _ => 13) 13
    driveEvent (volumesOffline s 0 drive Status.driveLost.code) drive 3

/-- DRIVE_LOSS (15 R421). -/
def execDriveLoss (drive : Nat) (s : State) : Host.Outcome State Fault Refusal := .next (driveLost s drive)

/-- Is the drive's link there in its port's mode (15 R399)? -/
def driveLink (c : Cfg) (drive : Nat) : Bool := decide (drive < 4) && (drive % 2 == 0 || c.stor.x4.contains (drive / 2))

/-- The namespaces of a drive that the device uses (15 R403). -/
def usedSpaces (l : List NamespaceInfo) : List NamespaceInfo :=
  (l.filter (fun x => x.blockSize == 512 || x.blockSize == 4096)).take 16

/-- Do the namespace identifiers of two reports agree? -/
def sameSpaces (a b : List NamespaceInfo) : Bool := a.map (fun x => (x.nsid, x.ident)) == b.map (fun x => (x.nsid, x.ident))

/-- The volumes of a backing that came back as another stay OFFLINE until they are destroyed (15 R421). -/
def volumesDead (s : State) (backing source cause : Nat) : State :=
  (volumesOn s backing source).foldl (fun s e =>
    match tget s.stor.volumes e.1 with
    | some x =>
      let s := if x.st == .offline then s else volState s e.1 e.2 .offline cause
      s.onVol e.1 (fun x => { x with dead := true })
    | none => s) s

/-- DRIVE_LINK_UP: a link has come up, with what the drive on it reports (15 R401, R421). -/
def execDriveLinkUp (drive : Nat) (i : DriveInfo) (s : State) : Host.Outcome State Fault Refusal :=
  let d := tgetD s.stor.drives drive {}
  if !ingress s || !driveLink s.cfg drive || d.st == .up || d.st == .resetting then .next s
  else if !i.supported then .next (driveEvent (s.onDrive drive (fun d => { d with st := .unsupported })) drive 1)
  else
    let spaces := usedSpaces i.spaces
    let same := d.serial == i.serial && sameSpaces d.spaces spaces
    let known := !d.spaces.isEmpty
    let s := s.onDrive drive (fun d => { d with st := .up, serial := i.serial, mdts := i.mdts, spaces := spaces, cmds := [] })
    let s := driveEvent s drive 0
    .next (if known && !same then volumesDead s 0 drive Status.driveLost.code else volumesReady s 0 drive spaces)

/-- The part of a list of buffers that starts `off` octets in and is `n` long. -/
def bufsAt : List (Nat × Nat) → Nat → Nat → List (Nat × Nat)
  | [], _, _ => []
  | (a, k) :: t, off, n =>
    if n == 0 then []
    else if k ≤ off then bufsAt t (off - k) n
    else
      let m := min (k - off) n
      (a + off, m) :: bufsAt t 0 (n - m)

/-- Mark a command's access as failed; the first failure stays (15 R412). -/
def dmaFail (s : State) (drive id st : Nat) : State :=
  if st == 0 then s
  else s.onDrive drive (fun d => { d with cmds := d.cmds.map (fun c =>
    if c.id == id then { c with fail := if c.fail == 0 then st else c.fail } else c) })

/-- A drive writes into a command's buffers. -/
def dmaWrite (s : State) (drive : Nat) (c : DriveCmd) : List (Nat × Nat) → List Byte → State
  | [], _ => s
  | (a, n) :: t, d =>
    let pasid := match c.use with
      | .queue q _ => (match tget s.stor.queues q with
          | some x => if x.own.q.pasidEn then some x.own.q.pasid else none
          | none => none)
      | .tcp _ _ => none
    let r : Nat × State :=
      if c.cells.isEmpty then writeBuffer s (storMaster drive) c c.host pasid a (d.take n)
      else writeDevice s (storMaster drive) c a (d.take n)
    dmaWrite (dmaFail r.2 drive c.id r.1) drive c t (d.drop n)

/-- A drive reads a command's buffers in the device: the octets and the state. `ext` is what an accelerator or the host
returned for buffers that lie in their windows; a read that failed there carries no data. -/
def dmaRead (s : State) (drive : Nat) (c : DriveCmd) (ext : List Byte) : List (Nat × Nat) → List Byte × State
  | [] => ([], s)
  | (a, n) :: t =>
    let r := loadAll s (storMaster drive) (storActor s c.part c.tenant c.epoch) a n ext
    let lost := match region a with | .trapeze _ _ => 20 | .hostWin _ => 18 | _ => 0
    let st := if r.1 == .ok && ext.isEmpty then lost else storStatus r.1
    let x := dmaRead (dmaFail r.2.2.2 drive c.id st) drive c (ext.drop n) t
    (fit n r.2.2.1 ++ x.1, x.2)

/-- DRIVE_DMA_REQUEST: a drive reads or writes `data.length` octets, `off` octets into the data of one of its commands
(15 R402). A request outside every live buffer is refused. `data` is what it writes, or, for a read of a buffer that lies
with the host or an accelerator, what they returned; a read that failed there carries no data. -/
def execDriveDmaRequest (drive id off len : Nat) (write : Bool) (data : List Byte) (s : State) : Host.Outcome State Fault Refusal :=
  let d := tgetD s.stor.drives drive {}
  let refuse := (driveEvent (s.onDrive drive (fun d => { d with dmaDenied := modAdd 64 d.dmaDenied 1 })) drive 2).send (.driveRefused drive)
  if d.st == .absent || d.st == .lost then .next s
  else match driveCmdOf s drive id with
    | none => .next refuse
    | some c =>
      match c.use with
      | .tcp _ _ =>
        if c.data.length < off + len then .next refuse
        else if write then
          .next (s.onDrive drive (fun d => { d with cmds := d.cmds.map (fun x =>
            if x.id == id then { x with data := patch x.data off (fit len data) } else x) }))
        else .next (s.send (.driveAnswer drive ((c.data.drop off).take len)))
      | .queue _ _ =>
        let bufs := bufsAt c.bufs off len
        if (bufs.map (·.2)).sum != len then .next refuse
        else if write then .next (dmaWrite s drive c bufs (fit len data))
        else if c.host then
          if data.isEmpty then .next ((dmaFail (hostAbortCount s) drive id 18).send (.driveRefused drive))
          else .next (s.send (.driveAnswer drive (fit len data)))
        else
          let r := dmaRead s drive c data bufs
          .next (r.2.send (.driveAnswer drive r.1))

/-- Place a DRIVE_WARNING record for the warnings that wait, at most one each second (15 R422). -/
def driveWarn (s : State) (drive bits : Nat) : State :=
  let d := tgetD s.stor.drives drive {}
  let due := match d.warnAt with | none => true | some t => t + 1000000000 ≤ s.clock.cadence
  if due then
    (raiseEvent s 0 0x0012 0 0 ([byteOf drive, byteOf bits, 0, 0] ++ le 4 d.warnSince)).onDrive drive
      (fun d => { d with warnSince := 0, warnAt := some s.clock.cadence })
  else s

/-- DRIVE_ASYNC_EVENT: a SMART critical warning or an asynchronous event (15 R422). -/
def execDriveAsyncEvent (drive bits : Nat) (s : State) : Host.Outcome State Fault Refusal :=
  if (tgetD s.stor.drives drive {}).st != .up then .next s
  else .next (driveWarn (s.onDrive drive (fun d => { d with warnSince := d.warnSince + 1 })) drive bits)

/-- VOLUME_SCRUB_DONE (15 R405). -/
def execVolumeScrubDone (n : Nat) (s : State) : Host.Outcome State Fault Refusal :=
  match tget s.stor.volumes n, live s (·.stor.volumes) n with
  | some x, some v =>
    let up := if v.v.backing == 0 then (tgetD s.stor.drives v.v.source {}).st == .up else (tgetD s.stor.inits v.v.source {}).up
    if x.st == .creating && up && !x.dead then .next (volState s n v .ready 0) else .next s
  | _, _ => .next s

end Sys2Proof.Machine
end

