-- ==== Sys2Proof/Machine/NvmeTcp.lean ====
section
/-! DEFINITION. Machine/NvmeTcp.lean: the NVMe/TCP service (15 R416 to R419): segments received, connections, the target
and the initiator. TCP is RFC 9293 with RFC 7323, RFC 2018, RFC 3168, RFC 5681 and RFC 6298 (log entry 36, PRESUMED). -/

namespace Sys2Proof.Machine

/-- The options of a received segment. -/
structure TcpOpts where
  mss : Nat := 536
  scale : Nat := 0
  ts : Option Nat := none
  sacks : List (Nat × Nat) := []
  deriving DecidableEq, Repr, Inhabited

/-- Read the options. -/
def tcpOptsOf : Nat → List Byte → TcpOpts → TcpOpts
  | 0, _, o => o
  | fuel + 1, d, o =>
    match d with
    | [] => o
    | k :: t =>
      if k == 0 then o
      else if k == 1 then tcpOptsOf fuel t o
      else
        let n := o8 d 1
        if n < 2 then o
        else
          let o := match k.toNat with
            | 2 => { o with mss := w16 d 2 }
            | 3 => { o with scale := min (o8 d 2) 14 }
            | 5 => { o with sacks := (List.range ((n - 2) / 8)).map (fun i =>
                (ofBe ((d.drop (2 + 8 * i)).take 4), ofBe ((d.drop (6 + 8 * i)).take 4))) }
            | 8 => { o with ts := some (ofBe ((d.drop 2).take 4)) }
            | _ => o
          tcpOptsOf fuel (d.drop n) o

/-- A received segment. -/
structure TcpIn where
  seq : Nat
  ack : Nat
  flags : Nat
  window : Nat
  opts : TcpOpts
  data : List Byte
  /-- its packet carried a congestion mark -/
  ce : Bool
  deriving DecidableEq, Repr, Inhabited

/-- Parse a segment; none where its checksum or its lengths are wrong. -/
def parseTcp (d : List Byte) (p : Pkt) : Option TcpIn :=
  let stop := if p.ip == 4 then p.l3 + w16 d (p.l3 + 2) else p.l3 + 40 + w16 d (p.l3 + 4)
  let seg := (d.drop p.l4).take (stop - p.l4)
  let h := o8 seg 12 / 16 * 4
  let n := if p.ip == 4 then 4 else 16
  let sum := fold16 (sum16 (be n p.src ++ be n p.dst ++ be 2 6 ++ be 2 seg.length ++ seg))
  if p.proto != 6 || p.fragment || h < 20 || seg.length < h || d.length < stop || sum != 65535 then none
  else some {
    seq := ofBe ((seg.drop 4).take 4)
    ack := ofBe ((seg.drop 8).take 4)
    flags := o8 seg 13
    window := w16 seg 14
    opts := tcpOptsOf h ((seg.take h).drop 20) {}
    data := seg.drop h
    ce := p.ecn == 3 }

/-- The congestion window a connection begins with (RFC 5681). -/
def initialWindow (mss : Nat) : Nat := if 2190 < mss then 2 * mss else if 1095 < mss then 3 * mss else 4 * mss

/-- A round-trip sample in ns (RFC 6298); the retransmission timeout has a floor of 5 ms (15 R417). -/
def tcpSample (t : Tcp) (r : Nat) : Tcp :=
  match t.srtt with
  | none => { t with srtt := some r, rttvar := r / 2, rtoNs := max 5000000 (r + max 1 (4 * (r / 2))) }
  | some m =>
    let dev := if m < r then r - m else m - r
    let v := (3 * t.rttvar + dev) / 4
    let m := (7 * m + r) / 8
    { t with srtt := some m, rttvar := v, rtoNs := max 5000000 (m + max 1 (4 * v)) }

/-- Is `b` after `a` in the 32-bit sequence space, or equal to it? -/
def seqLe (a b : Nat) : Bool := modSub 32 b a < 2147483648

/-- The end of a sent segment in the sequence space. -/
def segEnd (x : TcpSeg) : Nat := modAdd 32 x.seq (x.data.length + b2n x.syn + b2n x.fin)

/-- An acknowledgement of new data (15 R417): the window grows by one segment for each round trip. -/
def tcpAckNew (s : State) (n : Nat) (t : Tcp) (g : TcpIn) : State :=
  let k := modSub 32 g.ack t.sndUna
  let beyond := t.segs.filter (fun x => seqLe (segEnd x) g.ack)
  let rest := t.segs.filter (fun x => !seqLe (segEnd x) g.ack)
  let sample := (beyond.reverse.find? (fun x => !x.again)).map (fun x => s.clock.cadence - x.sentAt)
  let s := s.onTcp n (fun t =>
    let t := match sample with | some r => tcpSample t r | none => t
    let grow := decide (t.cwnd ≤ t.acked + k)
    { t with
      sndUna := g.ack
      segs := rest
      dups := 0
      acked := if grow then 0 else t.acked + k
      cwnd := if grow then t.cwnd + tcpMss s t else t.cwnd })
  if g.ack != t.recover && seqLe g.ack t.recover && rest.any (·.again) then tcpResend s n else s

/-- The acknowledgement field of a segment (RFC 9293, RFC 5681, RFC 2018, RFC 3168). -/
def tcpAckIn (s : State) (n : Nat) (g : TcpIn) : State :=
  match tget s.stor.tcps n with
  | none => s
  | some t =>
    let k := modSub 32 g.ack t.sndUna
    if !bit g.flags 4 || modSub 32 t.sndNxt t.sndUna < k then s
    else
      let w := g.window * 2 ^ t.scale
      let same := t.peerWindow == w
      let s := s.onTcp n (fun t => { t with
        peerWindow := w
        segs := t.segs.map (fun x =>
          if g.opts.sacks.any (fun b => seqLe b.1 x.seq && seqLe (segEnd x) b.2) then { x with sacked := true } else x) })
      let s := if bit g.flags 6 && t.ecn then tcpHalve s n else s
      let s :=
        if k != 0 then tcpAckNew s n t g
        else if g.data.isEmpty && !t.segs.isEmpty && same && !bit g.flags 0 then
          let s := s.onTcp n (fun t => { t with dups := t.dups + 1 })
          if t.dups + 1 == 3 then tcpResend (tcpHalve s n) n else s
        else s
      tcpPump s n 4096

/-- Take what is in order out of the data received early. -/
def tcpOrder (rcv : Nat) (ooo : List (Nat × List Byte)) : Nat → Nat × List (Nat × List Byte)
  | 0 => (rcv, ooo)
  | fuel + 1 =>
    match ooo.find? (fun x => seqLe x.1 rcv) with
    | none => (rcv, ooo)
    | some x =>
      let e := modAdd 32 x.1 x.2.length
      tcpOrder (if seqLe rcv e then e else rcv) (ooo.filter (· != x)) fuel

/-- The data and the FIN of a segment: did the stream advance, has the peer ended it, and the state. -/
def tcpDataIn (s : State) (n : Nat) (g : TcpIn) : Bool × Bool × State :=
  match tget s.stor.tcps n with
  | none => (false, false, s)
  | some t =>
    let fin := bit g.flags 0
    let stop := modAdd 32 g.seq (g.data.length + b2n fin)
    if g.data.isEmpty && !fin then (false, false, s)
    else if !seqLe g.seq (modAdd 32 t.rcvNxt 8388480) || seqLe stop t.rcvNxt then (false, false, tcpAck s n)
    else if !seqLe g.seq t.rcvNxt then
      let s := s.onTcp n (fun t => { t with
        ooo := if g.data.isEmpty then t.ooo else (g.seq, g.data) :: t.ooo.filter (fun x => x.1 != g.seq)
        ece := (t.ece || (g.ce && t.ecn)) && !bit g.flags 7 })
      (false, false, tcpAck s n)
    else
      let r := tcpOrder (modAdd 32 g.seq g.data.length) t.ooo (t.ooo.length + 1)
      let ends := fin && r.1 == modAdd 32 g.seq g.data.length
      let s := s.onTcp n (fun t => { t with
        rcvNxt := modAdd 32 r.1 (b2n ends)
        ooo := r.2
        tsRecent := g.opts.ts.getD t.tsRecent
        ece := (g.ce && t.ecn) || (t.ece && !bit g.flags 7) })
      (r.1 != t.rcvNxt, ends, tcpAck s n)

/-! The initiator (15 R419). -/

/-- Open one connection of an initiator controller. Its local address and the rest of its port number are not in the
manual and stay open (log entry 36, PRESUMED). -/
def initOpen (s : State) (c : Nat) (own : InitCfg) (qid : Nat) : State :=
  let n := tfree s.stor.tcps 0
  let a := draw s
  let b := draw a.2
  let i := draw b.2
  let isn := i.1 % 2 ^ 32
  let t : Tcp := {
    part := own.part
    listener := none
    initiator := some c
    qid := qid
    ip := own.blk.ipVersion
    localAddr := a.1 % (if own.blk.ipVersion == 4 then 2 ^ 32 else 2 ^ 128)
    remoteAddr := own.blk.addr
    localPort := 49152 + b.1 % 15 * 1024 + n % 1024
    remotePort := own.blk.tcpPort
    lport := own.blk.lport
    txq := own.blk.txq
    st := .synSent
    sndUna := isn
    sndNxt := isn
    rcvNxt := 0
    cwnd := 0
    recover := isn
    ecn := true }
  let t := { t with cwnd := initialWindow (tcpMss s t) }
  tcpSend (i.2.onStor (fun x => { x with tcps := tset x.tcps n t })) n t true false []

/-- Open the admin and the I/O connections of an initiator controller. -/
def initStart (s : State) (c : Nat) (own : InitCfg) : State :=
  (List.range (1 + own.blk.ioQueues)).foldl (fun s q => initOpen s c own q) s

/-- Change an initiator controller. -/
def onInit (s : State) (c : Nat) (f : Initiator → Initiator) : State :=
  s.onStor (fun x => { x with inits := tmod x.inits c f })

/-- Reset the connections of an initiator controller. -/
def initReset (s : State) (c : Nat) : State :=
  (tkeys s.stor.tcps (fun _ t => t.initiator == some c)).foldl tcpReset s

/-- The connection of an initiator controller is lost (15 R419). One that was never connected ends its command. -/
def initLost (s : State) (c : Nat) : State :=
  match tget s.stor.inits c with
  | none => initReset s c
  | some i =>
    let s := initReset s c
    match i.waiter with
    | some (fn, id) => finish (s.onStor (fun x => { x with inits := tdel x.inits c })) fn id .remoteLost
    | none =>
      if !i.up then s
      else
        let s := onInit s c (fun i => { i with up := false, lost := true })
        volumesOffline (backingEnd s 1 c (fun _ => 14) 14) 1 c Status.remoteLost.code

/-- The namespace identifier that a report gives a namespace. -/
def identOf (l : List NamespaceInfo) (nsid : Nat) : Option Nat := (l.find? (fun x => x.nsid == nsid)).map (·.ident)

/-- An initiator controller is connected and reports its namespaces (15 R419): the first time its command commits its
epoch, after that the volumes with the same namespace identifier return. -/
def initReady (s : State) (c : Nat) (spaces : List NamespaceInfo) : State :=
  match tget s.stor.inits c with
  | none => s
  | some i =>
    match i.waiter, i.own with
    | some (fn, id), some own =>
      if twoEpochs s own.part || resizing s own.part then
        finish ((initReset s c).onStor (fun x => { x with inits := tdel x.inits c })) fn id .busyEpoch
      else
        let s := onInit s c (fun i => { i with up := true, waiter := none, spaces := spaces })
        let s := commitEpoch s own.part (fun g => { g with stor := { g.stor with initiators := tset g.stor.initiators c own } })
        releaseDeferred { s with deferred := s.deferred ++
          [{ fn := fn, id := id, parts := [own.part], status := .ok, result := le 1 c, epochOf := some own.part }] }
    | _, _ =>
      if i.up then s
      else
        let kept := i.spaces ++ spaces.filter (fun x => (identOf i.spaces x.nsid).isNone)
        let s := onInit s c (fun i => { i with up := true, lost := false, spaces := kept })
        ((volumesOn s 1 c).filter (fun e => identOf i.spaces e.2.v.nsid == identOf spaces e.2.v.nsid)).foldl
          (fun s e => volumeReady s e spaces) s

/-- A remote controller answers a command. -/
def initAnswer (s : State) (c cid status : Nat) (data : List Byte) : State :=
  match (cmdsAt s 1 c).find? (fun x => x.id == cid) with
  | none => s
  | some x =>
    let s := onCmds s 1 c (fun cs => cs.filter (fun y => y.id != cid))
    let s := cmdEnd s x (if status == 0 then 0 else 10) status data
    let s := match x.use with | .queue q _ => storKick s q [] 0 | .tcp _ _ => s
    tcpIssueAll s

/-! The target (15 R418). -/

/-- The storage OP of an NVMe opcode; 0 where there is none. -/
def opOfNvme (op : Nat) : Nat := match op with | 2 => 1 | 1 => 2 | 0 => 3 | 8 => 4 | 9 => 5 | _ => 0

/-- The subsystem that a connection's listener serves. -/
def tcpSubsystem (s : State) (t : Tcp) : Option SubsystemBlock :=
  let c := cfgAt s t.part 144
  match t.listener with
  | some l => (match tget c.stor.listeners l with | some x => tget c.stor.subsystems (4 * t.part + x.l.subsystem) | none => none)
  | none => none

/-- Is a connection's listener a discovery listener? -/
def tcpDiscovery (s : State) (t : Tcp) : Bool :=
  match t.listener with
  | some l => (match tget (cfgAt s t.part 144).stor.listeners l with | some x => x.l.discovery | none => false)
  | none => false

/-- The NVMe status of a Connect (log entry 36, PRESUMED). -/
def connectStatus (s : State) (t : Tcp) (qid entries : Nat) (sub host : List Byte) : Nat :=
  if tcpDiscovery s t then 0
  else match tcpSubsystem s t with
    | none => 0x0182
    | some b =>
      if fit 256 sub != fit 256 b.nqn || 16 < qid || 128 < entries then 0x0182
      else if !b.hosts.any (fun x => o8 x 0 != 0 && fit 256 x == fit 256 host) then 0x0184
      else 0

/-- An I/O command of a host: it is checked under R409 against the volume of its namespace, and handed to the backing in
parts (15 R410, R418). A controller has no bounce cells, so check 7 applies to it (log entry 38, DEDUCED). -/
def tcpIo (s : State) (n : Nat) (t : Tcp) (cid op nsid lba blocks : Nat) (fua : Bool) (data : List Byte) : State :=
  let epoch := epochAt s t.part 144
  let vols := (cfgOf s t.part epoch).stor.volumes
  let vol := match tcpSubsystem s t with | some b => listGet b.namespaces (nsid - 1) 0xFFFF | none => 0xFFFF
  let o := opOfNvme op
  let d : StDesc := { bufAddr := 0, lba := lba, tag := cid, blocksM1 := blocks - 1, volume := vol, op := o, host := false,
                      fua := fua, roHint := false, signal := false, fence := false, rsvBad := nsid == 0 || blocks == 0 }
  match storChecks s vols t.part (·.tenant) false d, tget vols vol with
  | some st, _ => tcpWrite (volCount s vol o blocks st) n (Config.nvmeAnswer cid (nvmeOf st 0) [])
  | none, none => s
  | none, some v =>
    let k := partBlocks s v o
    let bs := v.blockSize
    let part := fun (i : Nat) =>
      let m := min k (blocks - i * k)
      let c : DriveCmd := {
        id := 0
        use := .tcp n cid
        volume := vol
        part := t.part
        tenant := v.tenant
        fn := v.fn
        epoch := epoch
        opcode := nvmeOpcode o
        fua := o == 2 && fua
        slba := if o == 3 then 0 else v.v.startLba + lba + i * k
        blocks := if o == 3 then 0 else m
        off := i * k * bs
        bufs := []
        host := false
        ro := false
        cells := []
        data := if o == 2 then fit (m * bs) (data.drop (i * k * bs)) else if o == 1 then zeros (m * bs) else []
        fail := 0
        sentAt := 0
        aborted := false }
      c
    let r : TcpRun := {
      cid := cid
      volume := vol
      op := o
      blocks := blocks
      parts := 0
      todo := (List.range (ceilDiv blocks k)).map part
      status := 0
      nvme := 0
      data := if o == 1 then zeros (blocks * bs) else [] }
    tcpIssue (s.onTcp n (fun t => { t with runs := t.runs ++ [r] })) n 4096

/-- A connection has ended; an initiator loses its controller with it (15 R419). -/
def tcpClosed (s : State) (n : Nat) : State :=
  match tget s.stor.tcps n with
  | none => s
  | some t =>
    let s := s.onStor (fun x => { x with tcps := tdel x.tcps n })
    match t.initiator with
    | some c => initLost s c
    | none => s

/-- Reset a connection, with what its end brings. -/
def tcpAbort (s : State) (n : Nat) : State :=
  match tget s.stor.tcps n with
  | none => s
  | some t =>
    let s := tcpReset s n
    match t.initiator with
    | some c => initLost s c
    | none => s

/-- One exchange of NVMe/TCP that the stream of a connection completes. -/
def tcpPdu (s : State) (n : Nat) (p : NvmePdu) : State :=
  match tget s.stor.tcps n with
  | none => s
  | some t =>
    match t.initiator, p with
    | some c, .ready spaces => initReady s c spaces
    | some c, .answer cid status data => initAnswer s c cid status data
    | none, .connect cid qid entries sub host =>
      let st := connectStatus s t qid entries sub host
      let s := if st == 0 then s.onTcp n (fun t => { t with connected := true, qid := qid }) else s
      tcpWrite s n (Config.nvmeAnswer cid st [])
    | none, .admin cid status data => if t.connected then tcpWrite s n (Config.nvmeAnswer cid status data) else tcpAbort s n
    | none, .wants cid len => if t.connected then tcpWrite s n (Config.nvmeReady cid len) else tcpAbort s n
    | none, .io cid op nsid lba blocks fua data =>
      if !t.connected || tcpDiscovery s t || 128 ≤ t.runs.length then tcpAbort s n
      else tcpIo s n t cid op nsid lba blocks fua data
    | _, _ => tcpAbort s n

/-- A SYN for a listener opens a connection, if the partition has one left (15 R417). -/
def tcpAccept (s : State) (part lport l txq : Nat) (p : Pkt) (g : TcpIn) : State :=
  if limitOf s part 23 < usedOf s part none 23 + 1 || 1024 ≤ s.stor.tcps.length then s
  else
    let n := tfree s.stor.tcps 0
    let i := draw s
    let isn := i.1 % 2 ^ 32
    let t : Tcp := {
      part := part
      listener := some l
      initiator := none
      ip := p.ip
      localAddr := p.dst
      remoteAddr := p.src
      localPort := p.dport
      remotePort := p.sport
      lport := lport
      txq := txq
      st := .synReceived
      sndUna := isn
      sndNxt := isn
      rcvNxt := modAdd 32 g.seq 1
      tsRecent := g.opts.ts.getD 0
      scale := g.opts.scale
      peerMss := g.opts.mss
      cwnd := 0
      recover := isn
      peerWindow := g.window
      ecn := bit g.flags 6 && bit g.flags 7 }
    let t := { t with cwnd := initialWindow (tcpMss s t) }
    tcpSend (i.2.onStor (fun x => { x with tcps := tset x.tcps n t })) n t true false []

/-- A segment of a connection that its peer has not opened yet. -/
def tcpSynSent (s : State) (n : Nat) (t : Tcp) (g : TcpIn) : State :=
  if bit g.flags 4 && g.ack != t.sndNxt then s
  else if bit g.flags 2 then (if bit g.flags 4 then tcpClosed s n else s)
  else if !bit g.flags 1 || !bit g.flags 4 then s
  else
    let s := s.onTcp n (fun t => { t with
      st := .established
      rcvNxt := modAdd 32 g.seq 1
      sndUna := g.ack
      segs := []
      tsRecent := g.opts.ts.getD 0
      scale := g.opts.scale
      peerMss := g.opts.mss
      peerWindow := g.window
      ecn := t.ecn && bit g.flags 6 })
    let s := tcpAck s n
    match t.initiator with
    | some c =>
      (match tget s.stor.inits c with
        | some i => (match i.own with
            | some o => tcpWrite s n (Config.nvmeConnect o.blk.subNqn o.blk.hostNqn t.qid o.blk.ioQueues o.blk.digests)
            | none => s)
        | none => s)
    | none => s

/-- A segment of an open connection (RFC 9293): its sequence number, RST, acknowledgement, data and FIN in this order. -/
def tcpOpen (s : State) (n : Nat) (t : Tcp) (g : TcpIn) (pdus : List NvmePdu) : State :=
  let old := match g.opts.ts with | some v => newer 32 t.tsRecent v | none => false
  if bit g.flags 2 then (if g.seq == t.rcvNxt then tcpClosed s n else s)
  else if old || bit g.flags 1 then tcpAck s n
  else
    let s := s.onTcp n (fun t => { t with
      st := if t.st == .synReceived && bit g.flags 4 && g.ack == t.sndNxt then .established else t.st })
    let s := tcpAckIn s n g
    let r := tcpDataIn s n g
    let s := if r.1 then pdus.foldl (fun s p => tcpPdu s n p) r.2.2 else r.2.2
    match tget s.stor.tcps n with
    | none => s
    | some t =>
      if r.2.1 && t.st != .closing then tcpSend (s.onTcp n (fun t => { t with st := .closing })) n { t with st := .closing } false true []
      else if t.st == .closing && t.segs.isEmpty && t.sndUna == t.sndNxt then tcpClosed s n
      else s

/-- TCP_SEGMENT: a segment reaches the NVMe/TCP service (15 R417). `pdus` is what the stream's octets up to its end
complete, where it brings new ones in order. -/
def execTcpSegment (part lport : Nat) (d : List Byte) (pdus : List NvmePdu) (s : State) : Host.Outcome State Fault Refusal :=
  let p := parseFrame d
  match parseTcp d p with
  | none => .next s
  | some g =>
    if !ingress s || quarantined s 144 then .next s
    else match tfind s.stor.tcps (fun _ t => t.part == part && t.lport == lport && t.ip == p.ip && t.localAddr == p.dst
        && t.remoteAddr == p.src && t.localPort == p.dport && t.remotePort == p.sport) with
    | some (n, t) => .next (if t.st == .synSent then tcpSynSent s n t g else tcpOpen s n t g pdus)
    | none =>
      match tfind (cfgAt s part 144).stor.listeners (fun _ e => e.part == part && e.l.lport == lport && e.l.tcpPort == p.dport
          && e.l.ipVersion == p.ip && e.l.addr == p.dst) with
      | none => .next s
      | some (l, e) =>
        if bit g.flags 2 then .next s
        else if bit g.flags 1 && !bit g.flags 4 then .next (tcpAccept s part lport l e.l.txq p g)
        else
          let t : Tcp := {
            part := part
            listener := some l
            initiator := none
            ip := p.ip
            localAddr := p.dst
            remoteAddr := p.src
            localPort := p.dport
            remotePort := p.sport
            lport := lport
            txq := e.l.txq
            st := .closing
            sndUna := g.ack
            sndNxt := g.ack
            rcvNxt := 0
            cwnd := 0
            recover := 0 }
          .next (tcpFrame s t g.ack 4 [])

/-- TCP_RTO: a connection's retransmission timeout expires (15 R417). One whose oldest segment has gone unacknowledged
for 100 s is given up (RFC 9293; log entry 36, PRESUMED). -/
def execTcpRto (n : Nat) (s : State) : Host.Outcome State Fault Refusal :=
  match tget s.stor.tcps n with
  | none => .next s
  | some t =>
    match t.segs with
    | [] => .next s
    | x :: _ =>
      if 100000000000 ≤ s.clock.cadence - x.sentAt then .next (tcpAbort s n)
      else .next (tcpResend ((tcpHalve s n).onTcp n (fun t => { t with rtoNs := 2 * t.rtoNs, dups := 0 })) n)

/-- NVMEI_RECONNECT_TIMER: a lost controller is connected again (15 R419). -/
def execNvmeiReconnectTimer (c : Nat) (s : State) : Host.Outcome State Fault Refusal :=
  match tget s.stor.inits c with
  | none => .next s
  | some i =>
    match i.own with
    | none => .next s
    | some own =>
      if i.lost && !i.up && thas s.cfg.stor.initiators c && !quarantined s 144 && !tany s.stor.tcps (fun _ t => t.initiator == some c) then
        .next (initStart s c own)
      else .next s

/-- CTRL_LOSS_TMO_EXPIRE: the attempts to reconnect end (15 R419). -/
def execCtrlLossTmoExpire (c : Nat) (s : State) : Host.Outcome State Fault Refusal :=
  match tget s.stor.inits c with
  | none => .next s
  | some i => if i.lost && !i.up then .next (onInit (initReset s c) c (fun i => { i with lost := false })) else .next s

/-- Island 144 is quarantined (15 R422): every pending storage command completes ISLAND_QUARANTINED and every connection
is reset. -/
def storQuarantine (s : State) : State :=
  let s := s.onStor (fun x => { x with
    drives := tmap x.drives (fun _ d => { d with cmds := [] })
    inits := tmap x.inits (fun _ i => { i with cmds := [] }) })
  let s := s.stor.queues.foldl (fun s e =>
    let ds := e.2.runs.map (·.desc) ++ e.2.waiting
    let s := s.onStq e.1 (fun x => { x with runs := [], waiting := [], freeCells := x.cells })
    storRelease (ds.foldl (fun s d => storRecord s e.1 d 22 0) s) e.1) s
  (s.stor.tcps.map (·.1)).foldl tcpAbort s

end Sys2Proof.Machine
end

