-- ==== Sys2Proof/Machine/PressOps.lean ====
section
/-! DEFINITION. Machine/PressOps.lean: the sum lane's operations (11 R317 to R321) and the stages of the Press (20 R536 to
R552), which use each other. -/

namespace Sys2Proof.Machine

/-! The sum lane. -/

/-- The ports of a member bitmap. -/
def membersOf (m : Nat) : List Nat := (List.range 4).filter (bit m)

/-- The expected count of an operation: its members and the device (11 R317). -/
def sumCount (o : SumOp) : Nat := (membersOf o.members).length + 1

/-- Send a control message to every member. -/
def sumSend (s : State) (members : Nat) (m : Nat → TpMsg) : State :=
  (membersOf members).foldl (fun s p => tpControl s p (m p)) s

/-- Open an operation: SUM_ARM, with HOLD for a Set, or SUM_SAMPLE (11 R318, 20 R540). -/
def sumActivate (s : State) (o : SumOp) : State :=
  let n := s.tp.nextOp % 256
  let o := { o with op := n }
  let s := s.onTrapeze (fun t => { t with sumOpen := some o, nextOp := (t.nextOp + 1) % 256 })
  if o.scalar then sumSend s o.members (fun p => .sumSample n (s.tport p).sumDelay)
  else
    let s := sumSend s o.members (fun _ => .sumArm o.job n 0 o.stepNo)
    match o.use with
    | .command _ _ => s
    | .press j =>
      let s := s.onJob j (fun x => { x with op := x.op.map (fun y => { y with begun := true, startedAt := s.clock.cadence }) })
      sumSend s o.members (fun _ => .hold o.job o.stepNo)

/-- Start an operation, or let it wait for the open one to end (11 R317). -/
def sumStart (s : State) (o : SumOp) : State :=
  match s.tp.sumOpen with
  | none => sumActivate s o
  | some _ => s.onTrapeze (fun t => { t with sumWaiting := t.sumWaiting ++ [o] })

/-- Calibrate the members that are up: CAL_PULSE to each, and the deskew delays as measured (11 R321). -/
def calibrate (s : State) (delays : List (Nat × Nat)) : State :=
  (delays.filter (fun d => d.1 < 4 && tpUp (s.tport d.1))).foldl (fun s d =>
    (tpControl s d.1 (.calPulse 51)).onTp d.1 (fun t => { t with sumDelay := d.2 % 65536 })) s

/-- End the open operation: SUM_CLEAR to its members, a calibration it deferred, then the operation that waits. -/
def sumClear (s : State) : State :=
  match s.tp.sumOpen with
  | none => s
  | some o =>
    let s := (sumSend s o.members (fun _ => .sumClear o.op)).onTrapeze (fun t => { t with sumOpen := none })
    let s := match s.tp.calDue with
      | some d => (calibrate s d).onTrapeze (fun t => { t with calDue := none })
      | none => s
    match s.tp.sumWaiting with
    | [] => s
    | x :: xs => sumActivate (s.onTrapeze (fun t => { t with sumWaiting := xs })) x

/-- Take the Press's operation off the sum lane, open or waiting. -/
def sumDropPress (s : State) (j : Nat) : State :=
  match s.tp.sumOpen with
  | some o => if o.use == .press j then sumClear s
      else s.onTrapeze (fun t => { t with sumWaiting := t.sumWaiting.filter (fun x => x.use != .press j) })
  | none => s

/-! The wheel (20 R547). -/

/-- A length rounded up to 4,096. -/
def pageUp (n : Nat) : Nat := ceilDiv n 4096 * 4096

/-- Octets of a manifest. -/
def manifestLen (regions shards : Nat) : Nat := 128 + 48 * regions + 40 * shards

/-- WHEEL_OFFSET of each region, from an offset on. -/
def wheelOffsets : Nat → List PressRegion → List Nat
  | _, [] => []
  | o, r :: rs => o :: wheelOffsets (o + pageUp r.length) rs

/-- The regions of an arm block with their wheel offsets. -/
def placedRegions (a : ArmBlock) : List PressRegion :=
  (a.regions.zip (wheelOffsets (pageUp (manifestLen a.regions.length a.shards.length)) a.regions)).map
    (fun e => { e.1 with wheelOffset := e.2 })

/-- WHEEL_BYTES. -/
def wheelBytes (a : ArmBlock) : Nat :=
  match (placedRegions a).getLast? with
  | some r => r.wheelOffset + r.length
  | none => pageUp (manifestLen 0 a.shards.length)

/-- A region entry. -/
def regionBytes (r : PressRegion) : List Byte :=
  le 4 r.region ++ [byteOf r.kind, byteOf r.member, 0, 0] ++ le 8 r.source ++ le 8 r.length ++ le 8 r.crc ++ le 8 r.wheelOffset ++ zeros 8

/-- A shard entry. -/
def shardBytes (x : PressShard) : List Byte :=
  le 8 x.object ++ le 8 x.objectOffset ++ le 4 x.region ++ zeros 4 ++ le 8 x.regionOffset ++ le 8 x.length

/-- A manifest's octets with VERIFIED, FIRST_BAD and MANIFEST_CRC as given. -/
def manifestBytes (jn : Nat) (a : ArmBlock) (o : PressOp) (regions : List PressRegion) (verified firstBad crc : Nat) : List Byte :=
  let n := regions.length
  le 4 0x57484C31 ++ le 2 1 ++ le 2 jn ++ le 8 o.step ++ le 8 o.generation ++ le 8 o.setTime ++ le 8 Config.unitId
    ++ [byteOf (membersOf a.members).length, byteOf a.peers.length, byteOf verified, 0] ++ le 4 n ++ le 4 a.shards.length
    ++ le 4 firstBad ++ le 8 128 ++ le 8 (128 + 48 * n) ++ le 8 (pageUp (manifestLen n a.shards.length)) ++ le 8 (wheelBytes a)
    ++ zeros 32 ++ le 8 crc ++ regions.flatMap regionBytes ++ a.shards.flatMap shardBytes

/-- The manifest as Copy writes it: VERIFIED 0, FIRST_BAD 0 and its CRC. -/
def manifestAtCopy (jn : Nat) (a : ArmBlock) (o : PressOp) (regions : List PressRegion) : List Byte :=
  manifestBytes jn a o regions 0 0 (crc64 (manifestBytes jn a o regions 0 0 0))

/-- Write to the staging buffer. -/
def stageWrite (s : State) (a : ArmBlock) (off : Nat) (d : List Byte) : State :=
  hostPost s 0 (if a.pasidEn then some a.pasid else none) (a.staging + off) d

/-! Messages and records. -/

/-- The number of a stage (19 R528). -/
def stageNo (x : PressStage) : Nat :=
  match x with | .set => 2 | .drain => 3 | .copy => 4 | .verify => 5 | .release => 6 | .flush => 7

/-- The TYPE of a Press message. -/
def pressTypeNo (t : PressType) : Nat := match t with | .ready => 1 | .drained => 2 | .copied => 3 | .abandon => 4

/-- Send one Press message on a peer connection (20 R537). -/
def pressSendTo (s : State) (jn : Nat) (o : PressOp) (typ : PressType) (status n : Nat) : State :=
  match connCfg s n, tget s.gdp.conns n with
  | some c, some g =>
    if g.state != .open_ then s
    else
      let d := be 4 0x47505231 ++ [byteOf (pressTypeNo typ), 0] ++ be 2 status ++ be 2 jn ++ zeros 6 ++ be 8 o.step ++ be 8 o.generation
      gdpStart s n c { (default : GdpDesc) with op := 7, length := 32 } true d 0 g.nextSsn 32 0
  | _, _ => s

/-- Send one to every peer that satisfies a condition. -/
def pressSend (s : State) (jn : Nat) (j : PressJob) (o : PressOp) (typ : PressType) (status : Nat) (dest : Nat → Bool) : State :=
  (j.arm.peers.filter dest).foldl (fun s n => pressSendTo s jn o typ status n) s

/-- A PRESS_STAGE record (19 R532). -/
def pressRecord (s : State) (jn stage status : Nat) : State :=
  raiseEvent s 0 0x0019 (match tget s.press.jobs jn with | some j => j.arm.partition | none => 0) 0
    (le 2 jn ++ [byteOf stage, 0] ++ le 2 status)

/-- Change a job's operation. -/
def onOp (s : State) (jn : Nat) (f : PressOp → PressOp) : State := s.onJob jn (fun j => { j with op := j.op.map f })

/-! The end of an operation. -/

/-- The last stage completed, as RESULT 0+1 reports it when a stage fails (20 R549, R550). -/
def pressLast (o : PressOp) : Nat :=
  match o.restore, o.stage with
  | _, .set => 1
  | _, .drain => 1
  | false, .copy => 3
  | false, .verify => 4
  | true, .verify => 3
  | true, .copy => 5
  | false, .release => 5
  | true, .release => 4
  | _, .flush => 6

/-- Release the members: RESUME and SUM_CLEAR, and the held connections start operations again (20 R545). -/
def pressFree (s : State) (jn : Nat) (j : PressJob) (o : PressOp) : State :=
  let s := if o.begun then sumSend s j.arm.members (fun _ => .resume jn) else s
  onOp (sumDropPress s jn) jn (fun o => { o with begun := false })

/-- End an operation: its command, where one waits, and the job back to armed. -/
def pressEnd (s : State) (jn : Nat) (o : PressOp) (st : Status) (last stage : Nat) : State :=
  let gen := match tget s.press.jobs jn with | some j => j.generation | none => 0
  let s := s.onJob jn (fun j => { j with op := none })
  match o.cmd with
  | some (fn, id) => finish s fn id st { result := [byteOf last] ++ (if o.restore then [] else zeros 7 ++ le 8 gen), stage := stage }
  | none => s

/-- An operation fails: ABANDON to the peers whose COPIED has not arrived, release, and its end (20 R550). `cause` stands
in the records, `st` in the completion. -/
def pressAbort (s : State) (jn cause : Nat) (st : Status) (firstBad : Nat := 0xFFFFFFFF) : State :=
  match tget s.press.jobs jn with
  | none => s
  | some j =>
    match j.op with
    | none => s
    | some o =>
      let early := o.stage == .set || o.stage == .drain
      let s := pressSend s jn j o .abandon cause (fun n => !o.copied.contains n)
      let s := pressRecord s jn (stageNo o.stage) cause
      let s := if early then rindCount s 0x20 else s
      let s := rindLog s 0x000D 128 (le 2 jn ++ [byteOf (stageNo o.stage), 0] ++ le 2 cause ++ zeros 2 ++ le 4 firstBad)
      pressEnd (pressFree s jn j o) jn o (if early then .pressSetTimeout else st) (pressLast o) 0

/-- An operation fails with a status of its own. -/
def pressFail (s : State) (jn : Nat) (st : Status) : State := pressAbort s jn st.code st

/-- A cancel takes effect: `stage` is the first stage that is not performed (20 R551). -/
def pressCancelled (s : State) (jn stage : Nat) : State :=
  match tget s.press.jobs jn with
  | none => s
  | some j =>
    match j.op with
    | none => s
    | some o =>
      let s := pressSend s jn j o .abandon Status.cancelled.code (fun n => !o.copied.contains n)
      let s := if stage == stageNo o.stage then pressRecord s jn stage Status.cancelled.code else s
      pressEnd (pressFree s jn j o) jn o .cancelledAtStage (if o.restore && stage == 4 then 5 else if o.restore && stage == 5 then 3 else stage - 1) stage

/-- Ask for a cancel (20 R551): at once during the Set wait and between Flush writes, else at the next named point. -/
def pressCancel (s : State) (jn : Nat) : State :=
  match tget s.press.jobs jn with
  | none => s
  | some j =>
    match j.op with
    | none => s
    | some o =>
      match o.stage with
      | .set => pressCancelled s jn 2
      | .flush => pressCancelled s jn 7
      | .drain => onOp s jn (fun o => { o with cancel := true })
      | .verify => if o.restore || o.flush then onOp s jn (fun o => { o with cancel := true }) else s
      | .copy => if o.restore then s else onOp s jn (fun o => { o with cancel := true })
      | .release => if o.flush then onOp s jn (fun o => { o with cancel := true }) else s

/-- A stage ends well: its record, then the cancel that waits for its end, or the next stage. -/
def pressNext (s : State) (jn : Nat) (o : PressOp) (next : PressStage) : State :=
  let s := pressRecord s jn (stageNo o.stage) 0
  if o.cancel then pressCancelled s jn (stageNo next) else onOp s jn (fun o => { o with stage := next })

/-! Points that more than one event can reach. -/

/-- Release when every peer's COPIED has arrived (20 R545), then Flush or the end. -/
def pressReleaseCheck (s : State) (jn : Nat) : State :=
  match tget s.press.jobs jn with
  | none => s
  | some j =>
    match j.op with
    | none => s
    | some o =>
      if o.stage != .release || !j.arm.peers.all o.copied.contains then s
      else
        let s := pressRecord (pressFree s jn j o) jn 6 0
        if o.flush && !o.restore then
          let s := onOp s jn (fun o => { o with stage := .flush })
          if o.cancel then pressCancelled s jn 7 else s
        else pressEnd s jn o .ok 6 0

/-- Verify of a checkpoint or Copy of a restore has ended: COPIED to every peer, and the wait for theirs. -/
def pressCopiedOut (s : State) (jn : Nat) : State :=
  match tget s.press.jobs jn with
  | none => s
  | some j =>
    match j.op with
    | none => s
    | some o =>
      let s := onOp s jn (fun o => { o with stage := .release })
      pressReleaseCheck (pressSend s jn j o .copied 0 (fun _ => true)) jn

/-- Drain is complete when this node has sent DRAINED and every peer's has arrived (20 R541). -/
def pressDrainCheck (s : State) (jn : Nat) : State :=
  match tget s.press.jobs jn with
  | none => s
  | some j =>
    match j.op with
    | none => s
    | some o =>
      if o.stage == .drain && o.sentDrained && j.arm.peers.all o.drained.contains then
        pressNext s jn o (if o.restore then .verify else .copy)
      else s

/-- The device's unit goes on when READY has been sent and every peer's has arrived (20 R540). -/
def pressReadyCheck (s : State) (jn : Nat) : State :=
  match tget s.press.jobs jn with
  | none => s
  | some j =>
    match j.op with
    | none => s
    | some o =>
      if o.stage == .set && o.sentReady && j.arm.peers.all o.ready.contains then onOp s jn (fun o => { o with unitOn := true })
      else s

/-- The Set is complete (20 R540). -/
def pressSetDone (s : State) (jn : Nat) : State :=
  match tget s.press.jobs jn with
  | some j => match j.op with
    | some o => onOp (pressNext s jn o .drain) jn (fun o => { o with setTime := s.clock.now })
    | none => s
  | none => s

/-- A write of a restore to an accelerator has been answered. -/
def pressWriteDone (s : State) (jn : Nat) (st : Status) : State :=
  match tget s.press.jobs jn with
  | none => s
  | some j =>
    match j.op with
    | none => s
    | some o =>
      if o.stage != .copy || !o.restore then s
      else if st != .ok then pressFail s jn st
      else
        let s := onOp s jn (fun o => { o with writes := o.writes - 1 })
        if o.copying && o.writes ≤ 1 then pressCopiedOut (pressRecord s jn 4 0) jn else s

/-! The end of a sum lane operation. -/

/-- An operation of the sum lane ends: a command with its result, a Set by failing or by its count. -/
def sumEnd (s : State) (o : SumOp) (st : Status) (value : Nat) : State :=
  match o.use with
  | .command fn id => finish (sumClear s) fn id st { result := if st == .ok then [byteOf value] else [] }
  | .press j =>
    if st == .ok then pressSetDone (s.onTrapeze (fun t => { t with sumOpen := some { o with won := true } })) j
    else pressFail s j st

end Sys2Proof.Machine
end

