-- ==== Sys2Proof/Machine/Components.lean ====
section
/-! DEFINITION. Machine/Components.lean: the firmware components and their restarts (18 R478 to R481). -/

namespace Sys2Proof.Machine

/-- An identifier no command has: what waits to end it ends nobody. -/
def nobody : Nat := 65536

/-- A sum lane operation that no longer has a command to end. -/
def sumOrphan (fn id : Nat) (o : SumOp) : SumOp :=
  match o.use with
  | .command f i => if f == fn && i == id then { o with use := .command f nobody } else o
  | .press _ => o

/-- An initiator connection that has not committed its epoch is given up (18 R485, 02 R63, R64). -/
def initGiveUp (s : State) (fn id : Nat) : State :=
  (tkeys s.stor.inits (fun _ i => i.waiter == some (fn, id))).foldl (fun s c =>
    (initReset s c).onStor (fun x => { x with inits := tdel x.inits c })) s

/-- Has a detach made its closing commit? -/
def detachPast (d : Detach) : Bool := match d.stage with | .retire => true | .ready => true | _ => false

/-- A detach whose command ends before its commit is given up: the tenant stays attached (02 R63, R64, 17 R472). -/
def detachGiveUp (s : State) (fn id : Nat) : State :=
  let gone := s.detaches.filter (fun d => d.cmd == some (fn, id) && !detachPast d)
  let s := { s with detaches := s.detaches.filter (fun d => !(d.cmd == some (fn, id) && !detachPast d)) }
  gone.foldl (fun s d => s.onFn d.vf (fun f => { f with detaching := false })) s

/-- Nothing ends a command any more: it has ended by itself. An operation of the Press goes on (20 R552); a resize between
its commits is cancelled (17 R469). -/
def dropWaiter (s : State) (fn id : Nat) : State :=
  let mine := fun (x : Nat × Nat) => x.1 == fn && x.2 == id
  let s := detachGiveUp (initGiveUp s fn id) fn id
  let s := s.onTrapeze (fun t => { t with
    sumOpen := t.sumOpen.map (sumOrphan fn id)
    sumWaiting := t.sumWaiting.filter (fun o => match o.use with | .command f i => !mine (f, i) | .press _ => true) })
  let s := s.onNet (fun n => { n with cancels := n.cancels.filter (fun e => !mine (e.1, e.2.1)) })
  let s := s.onPlaybill (fun p => { p with cmd := p.cmd.filter (fun x => !mine x) })
  let s := s.onRind (fun r => { r with waiters := r.waiters.filter (fun x => !mine x), nextWaiters := r.nextWaiters.filter (fun x => !mine x) })
  { s with
    press := { s.press with jobs := tmap s.press.jobs (fun _ j => { j with
      op := j.op.map (fun o => { o with cmd := o.cmd.filter (fun x => !mine x) }) }) }
    resize := s.resize.map (fun r => if mine (r.fn, r.id) then
      { r with id := nobody, cancelled := r.cancelled || r.stage != .grow } else r)
    detaches := s.detaches.map (fun d => { d with cmd := d.cmd.filter (fun x => !mine x) }) }

/-- The commands a component holds: those handed to it; booth service holds also those not handed over yet. `all` takes in
the commands that wait in booth service for the component. -/
def heldBy (s : State) (c : Nat) (all : Bool) : List (Nat × OutCmd) :=
  s.fns.flatMap (fun e => (e.2.booth.outst.filter (fun k =>
    (componentOf k.group == c && (all || k.state != .waiting)) || (c == 1 && k.state == .waiting))).map (fun k => (e.1, k)))

/-- Does a command's commit wait for adoption, or a resize for that of its grow commit? -/
def committed (s : State) (fn id : Nat) : Bool :=
  s.deferred.any (fun d => d.fn == fn && d.id == id)
    || (match s.resize with | some r => r.fn == fn && r.id == id && r.stage == .grow | none => false)

/-- A held command ends by its component's fault: at once, or after the adoption of its commit (02 R64). -/
def faultEnd (st : Status) (s : State) (k : Nat × OutCmd) : State :=
  if committed s k.1 k.2.id then
    { s with
      deferred := s.deferred.map (fun d => if d.fn == k.1 && d.id == k.2.id then { d with status := st } else d)
      resize := s.resize.map (fun r => if r.fn == k.1 && r.id == k.2.id then { r with status := st } else r) }
  else
    let s := dropWaiter s k.1 k.2.id
    let s := if k.2.group == 1 then
        s.onBooth k.1 (fun b => { b with outst := b.outst.map (fun x => { x with cancellers := x.cancellers.filter (· != k.2.id) }) })
      else s
    finish s k.1 k.2.id st

/-- A component faults: it restarts, or stays stopped at the fourth fault within 10 minutes (18 R479 to R481). -/
def componentFault (s : State) (c : Nat) : State :=
  let k := tgetD s.comps c {}
  if k.state != .running || 8 < c then s
  else
    let faults := k.faults.filter (fun t => s.clock.cadence < t + 600000000000) ++ [s.clock.cadence]
    let stop := decide (4 ≤ faults.length)
    let held := heldBy s c stop
    let s := held.foldl (faultEnd (if stop then .fwUnavailable else .fwRestarted)) s
    let s := s.onComp c (fun _ => { state := if stop then .stopped else .restarting, faults := faults })
    if stop then
      let s := assertAlert (rindLog s 0x0006 128 [byteOf c])
      raiseEvent (if c == 8 then s else setAlert s (0x0200 + c)) 0 0x0006 0 0 [byteOf c]
    else
      let d := [byteOf c, 0] ++ le 2 held.length
      raiseEvent (rindLog (rindMinute (rindCount s (0x28 + c)) 23) 0x0005 128 d) 0 0x0005 0 0 d

end Sys2Proof.Machine
end

