-- ==== Sys2Proof/Machine/Feeds.lean ====
section
/-! DEFINITION. Machine/Feeds.lean: feed and return rings, the format stage's requests (06 R174 to R182, R189), and the
SESSION commands (19 R513, R514). -/

namespace Sys2Proof.Machine

/-! Rings. -/

/-- Octets of a ring's data area; 0 stands for 4 GiB. -/
def dataArea (b : RingBind) : Nat := if b.dataLen == 0 then 4294967296 else b.dataLen

/-- Change a feed ring. -/
def onFeed (s : State) (n : Nat) (f : Feed → Feed) : State := s.onSess (fun x => { x with feeds := tmod x.feeds n f })
/-- Change a return ring. -/
def onRet (s : State) (n : Nat) (f : Ret → Ret) : State := s.onSess (fun x => { x with returns := tmod x.returns n f })

/-- Read a 32-bit count of a control block in stage memory. -/
def readCount (s : State) (a : Nat) : Status × Nat × State :=
  let r := memLoad s a 4
  (r.1, ofLe r.2.1, r.2.2)

/-- Write a 32-bit count of a control block. -/
def writeCount (s : State) (a v : Nat) : State := (memStore s a (le 4 v)).2

/-- A feed request that has failed after it reserved its space: the ring enters ERROR, the request ends with the status
and those accepted after it with RING_ERROR (06 R181). -/
def feedFail (s : State) (n count st : Nat) : State :=
  match tget s.sess.feeds n with
  | none => s
  | some f =>
    let s := onFeed s n (fun f => { f with error := true, inflight := f.inflight.filter (fun r => modSub 32 count r.count != 0 && newer 32 count r.count) })
    (f.inflight.filter (fun r => r.count == count || newer 32 r.count count)).foldl
      (fun s r => reply s r.reply (if r.count == count then st else 6) r.tag 0 0) s

/-- The spans of a feed ring that its CONS has not passed. -/
def liveSpans (f : Feed) (cons : Nat) : List (Nat × Nat × Nat) := f.spans.filter (fun x => modSub 32 x.1 cons < 2 ^ 31)

/-- Data space for a tensor (06 R176): its offset and what it takes with an unused tail; none where there is no room. In
an area that holds nothing the tail is free, and the tensor takes its own space only. -/
def allocSpan (f : Feed) (area cons bytes : Nat) : Option (Nat × Nat) :=
  let need := ceilDiv bytes 64 * 64
  let used := ((liveSpans f cons).map (fun x => x.2.2)).sum
  let tail := if area < f.ptr + need && used != 0 then area - f.ptr else 0
  if area < used + tail + need then none
  else some (if area < f.ptr + need then 0 else f.ptr, tail + need)

/-- The generator of a request: a session's, or its partition's. -/
def genOf (s : State) (session p : Nat) : Nat :=
  if session == 0xFFFF then tgetD s.sess.gens p 0 else match tget s.sess.sess session with | some x => x.gen | none => 0

/-- Keep the generator's state. -/
def genPut (s : State) (session p g : Nat) : State :=
  if session == 0xFFFF then s.onSess (fun x => { x with gens := tset x.gens p g })
  else s.onSession session (fun x => { x with gen := g })

/-- May a request name a session (06 R182, 08 R238)? -/
def sessionOk (r : PortReq) (cfg : Cfg) (n : Nat) : Bool :=
  n == 0xFFFF || (match tget cfg.sess.sessions n with | some c => seesTenant r c.part c.tenant | none => false)

/-- Do all bits of a format request outside its fields read 0 (06 R182)? -/
def formatBitsOk (r : PortReq) : Bool :=
  (reqOp r == 1 || !bit (reqWord r 0) 18) && reqWord r 1 / 2 ^ 30 == 0 && reqWord r 2 / 2 ^ 24 == 0
    && (reqOp r == 1 || (reqWord r 3 == 0 && reqWord r 4 == 0))
    && reqWord r 3 / 2 ^ 34 == 0 && field (reqWord r 3) 16 2 == 0 && reqWord r 4 / 2 ^ 34 == 0 && field (reqWord r 4) 16 2 == 0
    && reqWord r 5 / 2 ^ 32 == 0 && reqWord r 6 / 2 ^ 12 == 0 && reqWord r 7 / 2 ^ 32 == 0 && (reqOp r != 1 || reqWord r 7 == 0)

/-- The two dimensions of a word. -/
def dims (v : Nat) : Nat × Nat := (field v 0 16, field v 18 16)

/-- The source elements of a FEED: their status, values and the state. -/
def feedSource (s : State) (r : PortReq) (cfg : Cfg) (fmt count : Nat) : Status × List (FV × Bool) × State :=
  let addr := field (reqWord r 1) 0 30
  if bit (reqWord r 0) 18 then
    let n := tensorBytes fmt count
    let w : Actor := { part := r.part, tenant := r.tenant, priv := false, cfg := cfg }
    if 2 ^ 28 < addr + n then (.tagDenied, [], s)
    else
      let x := loadAll s 11 w (0x010000000000 + addr) n []
      (x.1, if x.1 == .ok then readTensor fmt count x.2.2.1 else [], x.2.2.2)
  else
    let troupe := r.tumbler / 8
    let k := troupeWords fmt count
    if 1048576 < addr + k || !(List.range k).all (fun i => troupeOwned s cfg r.part r.tenant troupe (addr + i)) then (.tagDenied, [], s)
    else
      let bad := (List.range k).find? (fun i => s.mem.bad.contains (0x030100000000 + troupe * 0x800000 + (addr + i) * 8))
      match bad with
      | some i => (.memUncorrectable, [], memError s (0x030100000000 + troupe * 0x800000 + (addr + i) * 8))
      | none => (.ok, readPacked fmt count (wordsRead s.mem.troupe (troupe * 1048576 + addr) k), s)

/-- A feed request whose source turns out unreadable after its space has been reserved (06 R178, R181). -/
def feedUnread (s : State) (r : PortReq) (ring : Nat) (f : Feed) (c : FeedCfg) (cons off used bytes tag : Nat) : State :=
  let res : FeedRes := { count := f.res, reply := r.reply, dataOff := off, used := used, bytes := bytes, entry := []
                         tumbler := r.tumbler, tag := tag, beyond := 0, nans := 0, epoch := r.epoch, part := r.part }
  let s := onFeed s ring (fun f => { f with
    res := modAdd 32 f.res 1
    inflight := f.inflight ++ [res]
    spans := liveSpans f cons ++ [(f.res, off, used)]
    ptr := (off + ceilDiv bytes 64 * 64) % dataArea c.bind })
  feedFail s ring f.res 11

/-- FEED_REQUEST: the oldest request of port 1, if it is a FEED or has a reserved OP (06 R178, R182 to R189). -/
def execFeedRequest (s : State) : Host.Outcome State Fault Refusal :=
  match headReq s 1 with
  | none => .next s
  | some r =>
    if reqOp r == 2 || reqOp r == 3 then .next s
    else
      let s0 := takeReq s r
      let tag := reqWord r 5 % 2 ^ 32
      let no := fun (s : State) (st : Nat) => Host.Outcome.next (reply s r.reply st tag 0 0)
      let w0 := reqWord r 0
      let src := field w0 24 3
      let dst := field w0 21 3
      let count := field w0 0 18
      let session := field (reqWord r 2) 0 16
      let ring := field (reqWord r 6) 0 12
      let cfg := cfgOf s r.part r.epoch
      let d := dims (reqWord r 3)
      let e := dims (reqWord r 4)
      if quarantined s 138 then no s0 15
      else if reqOp r != 1 || !formatBitsOk r then no s0 7
      else match tget cfg.sess.feeds ring, tget s.sess.feeds ring with
        | some c, some f =>
          let bytes := tensorBytes dst count
          if !seesTenant r c.part c.tenant || !sessionOk r cfg session then no s0 7
          else if src == 7 && !bit w0 18 then no s0 4
          else if count == 0 || d.1 * d.2 * e.1 * e.2 != count then no s0 3
          else if f.error then no s0 6
          else if dataArea c.bind < bytes then no s0 2
          else
            let cons := readCount s0 c.bind.control
            if cons.1 != .ok then no cons.2.2 11
            else
              let n := 2 ^ c.bind.log2
              let s := cons.2.2
              if n < modSub 32 f.prod cons.2.1 then no (onFeed s ring (fun f => { f with error := true })) 6
              else if n ≤ modSub 32 f.res cons.2.1 then no s 1
              else match allocSpan f (dataArea c.bind) cons.2.1 bytes with
                | none => no s 1
                | some (off, used) =>
                  let x := feedSource s r cfg src count
                  if x.1 == .memUncorrectable then .next (feedUnread x.2.2 r ring f c cons.2.1 off used bytes tag)
                  else if x.1 != .ok then no x.2.2 (portStatus x.1)
                  else
                    let s := x.2.2
                    let k := signed 8 (field (reqWord r 2) 16 8)
                    let t := convTensor dst (bit w0 19) (bit w0 20) (x.2.1.map (fun v => (scaleFV v.1 k, v.2))) (genOf s session r.part)
                    let s := genPut s session r.part t.2.gen
                    let entry := le 2 (1 - f.res / n % 2) ++ zeros 16 ++ le 2 r.epoch ++ [byteOf dst, byteOf (field (reqWord r 2) 16 8)]
                      ++ le 2 session ++ le 4 off ++ le 4 bytes ++ le 4 count ++ le 2 d.1 ++ le 2 d.2 ++ le 2 e.1 ++ le 2 e.2
                      ++ le 4 tag ++ le 6 r.index ++ le 2 0 ++ le 8 s.clock.now
                    let res : FeedRes := { count := f.res, reply := r.reply, dataOff := off, used := used, bytes := bytes, entry := entry
                                           tumbler := r.tumbler, tag := tag, beyond := t.2.beyond, nans := t.2.nans, epoch := r.epoch, part := r.part }
                    let s := onFeed s ring (fun f => { f with
                      res := modAdd 32 f.res 1
                      inflight := f.inflight ++ [res]
                      spans := liveSpans f cons.2.1 ++ [(f.res, off, used)]
                      ptr := (off + ceilDiv bytes 64 * 64) % dataArea c.bind })
                    let w : Actor := { part := r.part, tenant := r.tenant, priv := false, cfg := cfg }
                    let wr := storeAll s 11 w (.feedData ring f.res) (c.bind.dataArea + off) t.1
                    if wr.1 != .ok then .next (feedFail wr.2.2.1 ring f.res (portStatus wr.1)) else .next wr.2.2.1
        | _, _ => no s0 7

/-- FEED_ENTRY_WRITE: the ring's first accepted entry is written once its data writes have completed (06 R178). -/
def execFeedEntryWrite (ring : Nat) (s : State) : Host.Outcome State Fault Refusal :=
  match tget s.sess.feeds ring with
  | none => .next s
  | some f =>
    match f.inflight with
    | [] => .next s
    | r :: rest =>
      match tget (cfgOf s r.part r.epoch).sess.feeds ring with
      | none => .next (feedFail s ring r.count 6)
      | some c =>
        if quarantined s 138 then .next s
        else
          let w : Actor := { part := r.part, tenant := c.tenant, priv := false, cfg := cfgOf s r.part r.epoch }
          let x := storeOne s 11 w (c.bind.entryArray + 64 * (r.count % 2 ^ c.bind.log2)) r.entry (.feedEntry ring r.count)
          if x.1 != .ok then .next (feedFail x.2.1 ring r.count (portStatus x.1))
          else
            let s := onFeed x.2.1 ring (fun f => { f with inflight := rest, prod := modAdd 32 r.count 1 })
            let s := writeCount s (c.bind.control + 4) (modAdd 32 r.count 1)
            .next (reply s r.reply 0 r.tag r.beyond r.nans)

/-- The binding a return-ready event goes to: that of the entry's session if it is the partition's, else the ring's. -/
def returnBinding (cfg : Cfg) (c : FeedCfg) (session : Nat) : Nat :=
  match tget cfg.sess.sessions session with
  | some x => if x.part == c.part then sessBinding x else 64 * c.part + c.binding
  | none => 64 * c.part + c.binding

/-- The session of a return entry, if it is the partition's; 0xFFFF stands for none. -/
def returnSession (cfg : Cfg) (c : FeedCfg) (session : Nat) : Nat :=
  match tget cfg.sess.sessions session with
  | some x => if x.part == c.part then session else 0xFFFF
  | none => 0xFFFF

/-- Raise the return-ready events of a ring's new entries, in entry order, from its control block's PROD (06 R170, R175,
R179). `sessions` are the SESSION fields of the new entries as read from the accelerator. -/
def returnPoll (s : State) (ring : Nat) (sessions : List Nat) : State :=
  match tget s.sess.returns ring, (match tget s.cfg.sess.returns ring with
    | some c => tget (cfgAt s c.part 138).sess.returns ring | none => none) with
  | some f, some c =>
    if f.error then s
    else
      let r := readCount s c.bind.control
      if r.1 != .ok then r.2.2
      else
        let s := r.2.2
        if 2 ^ c.bind.log2 < modSub 32 r.2.1 f.cons then onRet s ring (fun f => { f with error := true })
        else
          (List.range (modSub 32 r.2.1 f.raised)).foldl (fun s i =>
            let n := modAdd 32 f.raised i
            match tget s.sess.returns ring with
            | some g =>
              if g.raised != n then s
              else
                let ses := listGet sessions i 0xFFFF
                let e : Event := { kind := 2, binding := returnBinding (cfgAt s c.part 138) c ses, session := returnSession (cfgAt s c.part 138) c ses, epoch := epochAt s c.part 138
                                   words := [word (kindWord 2 + ses), word ring, 0, word n, 0], payload := [], source := ring }
                let x := putAct s c.part e
                if x.1 then onRet x.2 ring (fun g => { g with raised := modAdd 32 n 1 }) else x.2
            | none => s) s
  | _, _ => s

/-- RETURN_PROD_POLL: the session engine reads a bound ring's PROD (06 R179). -/
def execReturnProdPoll (ring : Nat) (sessions : List Nat) (s : State) : Host.Outcome State Fault Refusal :=
  if quarantined s 138 then .next s else .next (returnPoll s ring sessions)

/-- The common part of the return requests: the ring, and its entry's place between CONS and PROD. -/
def returnReq (s : State) (r : PortReq) : Sum Nat (FeedCfg × Ret × State) :=
  let ring := field (reqWord r 6) 0 12
  let cfg := cfgOf s r.part r.epoch
  match tget cfg.sess.returns ring, tget s.sess.returns ring with
  | some c, some f =>
    if !seesTenant r c.part c.tenant || !sessionOk r cfg (field (reqWord r 2) 0 16) then .inl 7
    else if f.error then .inl 6
    else
      let p := readCount s c.bind.control
      if p.1 != .ok then .inl 11
      else if 2 ^ c.bind.log2 < modSub 32 p.2.1 f.cons then .inl 6
      else if modSub 32 p.2.1 f.cons ≤ modSub 32 (reqWord r 7) f.cons then .inl 7
      else .inr (c, f, p.2.2)
  | _, _ => .inl 7

/-- A return request refused with RING_ERROR: a control block out of range puts the ring into ERROR (06 R175). -/
def returnRefused (s : State) (ring st : Nat) : State := if st == 6 then onRet s ring (fun f => { f with error := true }) else s

/-- RETURN_READ_REQUEST: convert a return entry's tensor into troupe memory (06 R180, R182). `entry` and `data` are what
the accelerator returned for the entry and its tensor, `fail` the status of a read it did not answer. -/
def execReturnReadRequest (entry data : List Byte) (fail : Option Status) (s : State) : Host.Outcome State Fault Refusal :=
  match headReq s 1 with
  | none => .next s
  | some r =>
    if reqOp r != 2 then .next s
    else
      let s0 := takeReq s r
      let tag := reqWord r 5 % 2 ^ 32
      let no := fun (s : State) (st : Nat) => Host.Outcome.next (reply s r.reply st tag 0 0)
      let w0 := reqWord r 0
      let src := field w0 24 3
      let dst := field w0 21 3
      let count := field w0 0 18
      let session := field (reqWord r 2) 0 16
      let cfg := cfgOf s r.part r.epoch
      let w : Actor := { part := r.part, tenant := r.tenant, priv := false, cfg := cfg }
      if quarantined s 138 then no s0 15
      else if !formatBitsOk r then no s0 7
      else match returnReq s0 r with
        | .inl st => no (returnRefused s0 (field (reqWord r 6) 0 12) st) st
        | .inr (c, _, s) =>
          if dst == 7 then no s 4
          else if count == 0 then no s 3
          else
            let en := loadAll s 11 w (c.bind.entryArray + 64 * (reqWord r 7 % 2 ^ c.bind.log2)) 64 entry
            let st := if en.1 != .ok then en.1 else fail.getD .ok
            if st != .ok then no en.2.2.2 (portStatus st)
            else
              let e := en.2.2.1
              let at_ := fun (o n : Nat) => ofLe ((e.drop o).take n)
              let fmt := at_ 20 1
              let off := at_ 24 4
              let bytes := at_ 28 4
              let s := en.2.2.2
              if 7 < fmt || bytes != tensorBytes fmt (at_ 32 4) || dataArea c.bind < off + bytes
                || !(at_ 22 2 == 0xFFFF || (match tget cfg.sess.sessions (at_ 22 2) with | some x => x.part == r.part | none => false)) then no s 5
              else if fmt != src then no s 4
              else if at_ 32 4 != count then no s 3
              else
                let troupe := r.tumbler / 8
                let addr := field (reqWord r 1) 0 30
                let k := troupeWords dst count
                if 1048576 < addr + k || !(List.range k).all (fun i => troupeOwned s cfg r.part r.tenant troupe (addr + i)) then no s 8
                else
                  let x := loadAll s 11 w (c.bind.dataArea + off) bytes data
                  if x.1 != .ok then no x.2.2.2 (portStatus x.1)
                  else
                    let s := x.2.2.2
                    let sc := signed 8 (field (reqWord r 2) 16 8)
                    let t := convElems dst (bit w0 19) (bit w0 20) ((readTensor fmt count x.2.2.1).map (fun v => (scaleFV v.1 sc, v.2))) (genOf s session r.part)
                    let s := genPut s session r.part t.gen
                    let base := 0x030100000000 + troupe * 0x800000 + addr * 8
                    let s := s.onMem (fun m => { m with
                      troupe := wordsWrite m.troupe (troupe * 1048576 + addr) (packWords dst t.elems)
                      bad := m.bad.filter (fun u => u < base || base + 8 * k ≤ u) })
                    .next (reply s r.reply 0 tag t.beyond t.nans)

/-- RETURN_RELEASE_REQUEST: free a return entry (06 R180). -/
def execReturnReleaseRequest (s : State) : Host.Outcome State Fault Refusal :=
  match headReq s 1 with
  | none => .next s
  | some r =>
    if reqOp r != 3 then .next s
    else
      let s0 := takeReq s r
      let tag := reqWord r 5 % 2 ^ 32
      let no := fun (s : State) (st : Nat) => Host.Outcome.next (reply s r.reply st tag 0 0)
      let n := reqWord r 7 % 2 ^ 32
      if quarantined s 138 then no s0 15
      else if !formatBitsOk r then no s0 7
      else match returnReq s0 r with
        | .inl st => no (returnRefused s0 (field (reqWord r 6) 0 12) st) st
        | .inr (c, f, s) =>
          let ring := field (reqWord r 6) 0 12
          let rel := if f.released.contains n then f.released else f.released ++ [n]
          let run := ((List.range rel.length).takeWhile (fun i => rel.contains (modAdd 32 f.cons i))).length
          let cons := modAdd 32 f.cons run
          let s := onRet s ring (fun f => { f with
            cons := cons
            raised := if newer 32 cons f.raised then cons else f.raised
            released := rel.filter (fun x => modSub 32 x cons < 2 ^ 31) })
          no (writeCount s (c.bind.control + 4) cons) 0

/-! SESSION commands (19 R513). -/

/-- The first `n` free cells of a partition, from its share units in order. -/
def freeCellsFrom (s : State) (p : Nat) : Nat → Nat → Nat → List Nat
  | 0, _, _ => []
  | _, 0, _ => []
  | fuel + 1, n + 1, c =>
    if unitOwner s s.cfg (c / 512) != p then freeCellsFrom s p fuel (n + 1) ((c / 512 + 1) * 512)
    else if thas s.mem.cells c then freeCellsFrom s p fuel (n + 1) (c + 1)
    else c :: freeCellsFrom s p fuel n (c + 1)

/-- Cells for an allocation; fewer than asked where the partition has no more. -/
def freeCells (s : State) (p n : Nat) : List Nat :=
  (freeCellsFrom s p (s.mem.cells.length + 256 + n) n (if s.fixedMode then p * 8192 else 0)).filter (· < 131072)

/-- Allocate cells to an object of a tenant. -/
def takeCells (s : State) (p t : Nat) (cs : List Nat) : State :=
  s.onMem (fun m => { m with cells := cs.foldl (fun x c => tset x c { part := p, tenant := t, released := false }) m.cells })

/-- Cells of an object that has ended are in release until the free list takes them (02 R46). -/
def releaseCells (s : State) (cs : List Nat) : State :=
  s.onMem (fun m => { m with cells := cs.foldl (fun x c => tmod x c (fun u => { u with released := true })) m.cells })

/-- FREE_LIST_TAKES_CELL (02 R46). -/
def execFreeListTakesCell (c : Nat) (s : State) : Host.Outcome State Fault Refusal :=
  match tget s.mem.cells c with
  | some u => if u.released then .next (s.onMem (fun m => { m with cells := tdel m.cells c })) else .next s
  | none => .next s

/-- The field checks of a session block (06 R154, 19 R514). -/
def sessFieldsBad (s : State) (h : Hdr) (b : SessionBlock) : Bool :=
  !b.rsvZero || 3 < b.profile || (b.ipVersion != 4 && b.ipVersion != 6) || (b.period != 10 && b.period != 20)
    || b.depth < 2 || 64 < b.depth || b.delay < 1 || b.depth ≤ b.delay || 3 < b.slotCode || b.spf == 0
    || !lportExists s.cfg b.lport || !(b.ptSet.length == 4 && b.ptSet.all (fun x => x < 128 || x == 255)) || 127 < b.ptOut
    || 63 < b.binding
    || (match tget s.cfg.net.txqs b.txq with | some q => notMine h q.part q.tenant || q.lport != b.lport | none => true)
    || (b.meter != 0xFFFF && (match tget s.cfg.net.meters b.meter with | some m => notMine h m.part m.tenant | none => true))
    || (b.rtcpRing != 0xFFFF && (match tget s.cfg.net.rings b.rtcpRing with | some m => notMine h m.part m.tenant | none => true))

/-- The key checks of a session (07 R201); a slot already bound for the same use is not bound again. -/
def sessKeyChecks (s : State) (h : Hdr) (b : SessionBlock) (old : Option SessionBlock) : List (Bool × Status) :=
  if b.profile == 0 then [(b.keyRx != 0xFFFF || b.keyTx != 0xFFFF, .keyBadType)]
  else
    (if b.keyRx == 0xFFFF || old.any (fun o => o.keyRx == b.keyRx) then []
     else keyChecks s (hp h) h.tenant b.keyRx 1 1 [profileAlg b.profile])
    ++ (if b.keyTx == 0xFFFF || old.any (fun o => o.keyTx == b.keyTx) then []
        else keyChecks s (hp h) h.tenant b.keyTx 1 2 [profileAlg b.profile])

/-- Does a session's binding fail 08 R223? -/
def sessBindingBad (s : State) (h : Hdr) (b : SessionBlock) : Bool :=
  match tget s.cfg.acts.bindings (64 * hp h + b.binding) with
  | some x => x.b.inputWords < slotBytes b / 4 || (x.tenant != 0 && h.tenant != 0 && x.tenant != h.tenant)
  | none => true

/-- An empty session block, for a command whose block cannot be read. -/
def noBlock : SessionBlock :=
  { profile := 0, ipVersion := 4, localPort := 0, remotePort := 0, lport := 0, learn := false, suppress := false,
    anyRemote := false, localAddr := 0, remoteAddr := 0, tci := 0, period := 10, depth := 2, delay := 1, slotCode := 0,
    spf := 1, ssrcIn := 0, ssrcOut := 0, ptSet := [], ptOut := 0, rocInInit := 0, rocOutInit := 0, keyRx := 0xFFFF,
    keyTx := 0xFFFF, meter := 0xFFFF, txq := 0, binding := 0, rtcpRing := 0xFFFF, seed := 0, rsvZero := true }

/-- Cells a session needs (06 R155). -/
def sessCells (b : SessionBlock) : Nat := ceilDiv (b.depth * slotBytes b) 2048

/-- SESSION_OPEN (06 R154, R155). -/
def execSessionOpen (h : Hdr) (n : Nat) (blk : HostBlk SessionBlock) (s : State) : Host.Outcome State Fault Refusal :=
  let b := blk.getD noBlock
  let pick := fun (s : State) => pickNumber s.sess.sess s.fixedMode (hp h) 1024 16384 n
  boothStep (info 0x05 0x01) h
    (fun s =>
      [(!choose16 n && 16384 ≤ n, .badRequest), (blk.isNone, .hostAbort), (sessFieldsBad s h b, .badRequest),
       (match pick s with | some k => thas s.sess.sess k || (s.fixedMode && k / 1024 != hp h) | none => true, .noSessions)]
      ++ roomChecks s (hp h) (hcharge h) 4 1 .noSessions
      ++ [(decide ((freeCells s (hp h) (sessCells b)).length < sessCells b), .noCells)]
      ++ sessKeyChecks s h b none ++ [(sessBindingBad s h b, .badBinding)])
    (fun s =>
      let k := (pick s).getD 0
      let cells := freeCells s (hp h) (sessCells b)
      let d := draw s
      let x : Sess := { part := hp h, charge := hcharge h, outIndex := b.rocOutInit * 65536, outTs := d.1 % 2 ^ 32,
                        delay := b.delay, seedNext := some b.seed, cells := cells }
      let s := (takeCells d.2 (hp h) h.tenant cells).onSess (fun z => { z with sess := tset z.sess k x })
      let c : SessCfg := { part := hp h, tenant := h.tenant, fn := h.fn, blk := b }
      .epoch (commitEpoch s (hp h) (fun g => { g with sess := { g.sess with sessions := tset g.sess.sessions k c } })) (hp h) (le 2 k)) s

/-- The checks of a command that names an open session. -/
def sessNamed (s : State) (h : Hdr) (n : Nat) : List (Bool × Status) :=
  match tget s.cfg.sess.sessions n with
  | none => [(true, if h.fn == 0 then .badRequest else .notPermitted)]
  | some c => [(notMine h c.part c.tenant, .notPermitted)]

/-- Do the fields that may not change keep their values (06 R154)? -/
def sessFixed (a b : SessionBlock) : Bool :=
  a.profile == b.profile && a.rocInInit == b.rocInInit && a.rocOutInit == b.rocOutInit && a.period == b.period
    && a.spf == b.spf && a.slotCode == b.slotCode && a.depth == b.depth

/-- SESSION_MODIFY (06 R154, 07 R202). -/
def execSessionModify (h : Hdr) (n : Nat) (blk : HostBlk SessionBlock) (s : State) : Host.Outcome State Fault Refusal :=
  let b := blk.getD noBlock
  boothStep (info 0x05 0x02) h
    (fun s =>
      let old := (tget s.cfg.sess.sessions n).map (·.blk)
      sessNamed s h n ++ [(blk.isNone, .hostAbort), (sessFieldsBad s h b, .badRequest),
        (!(old.all (fun o => sessFixed o b)), .badRequest)]
      ++ sessKeyChecks s h b old ++ [(sessBindingBad s h b, .badBinding)])
    (fun s =>
      let s := match tget s.cfg.sess.sessions n with
        | some c => if c.blk.keyTx != b.keyTx then keySpend s c.blk.keyTx else s
        | none => s
      let s := s.onSession n (fun x => { x with seedNext := some b.seed })
      .epoch (commitEpoch s (hp h) (fun g => { g with sess := { g.sess with
        sessions := tmod g.sess.sessions n (fun c => { c with blk := b }) } })) (hp h) []) s

/-- Close a session at a commit: its key is spent and it moves to closing (06 R156, 07 R202). -/
def sessClose (s : State) (n : Nat) : State :=
  match tget s.cfg.sess.sessions n with
  | none => s
  | some c =>
    let s := if c.blk.profile == 0 then s else keySpend s c.blk.keyTx
    s.onSession n (fun x => { x with closing := true, closedIn := modAdd 16 (s.part c.part).epoch 1 })

/-- Free the closing sessions of a partition once the epoch before their closing has retired (02 R46, 06 R156). -/
def sessRetire (s : State) (p : Nat) : State :=
  let gone := s.sess.sess.filter (fun e => e.2.part == p && e.2.closing && !thas s.cfg.sess.sessions e.1)
  let s := gone.foldl (fun s e => releaseCells s e.2.cells) s
  s.onSess (fun x => { x with sess := x.sess.filter (fun e => !(e.2.part == p && e.2.closing && !thas s.cfg.sess.sessions e.1)) })

/-- Seeds whose epoch island 138 has adopted are loaded (06 R188). -/
def sessAdopt (s : State) : State :=
  let inOld := fun (p : Nat) => (s.part p).remaining.contains 138
  s.onSess (fun x => { x with
    sess := tmap x.sess (fun _ y => match y.seedNext with
      | some g => if inOld y.part then y else { y with gen := g, seedNext := none }
      | none => y)
    gens := x.gensNext.foldl (fun t e => if inOld e.1 then t else tset t e.1 e.2) x.gens
    gensNext := x.gensNext.filter (fun e => inOld e.1) })

/-- SESSION_CLOSE (06 R156). -/
def execSessionClose (h : Hdr) (n : Nat) (s : State) : Host.Outcome State Fault Refusal :=
  boothStep (info 0x05 0x03) h (fun s => sessNamed s h n)
    (fun s => .epoch (commitEpoch (sessClose s n) (hp h)
      (fun g => { g with sess := { g.sess with sessions := tdel g.sess.sessions n } })) (hp h) []) s

/-- SESSION_STATS (06 R157). -/
def execSessionStats (h : Hdr) (n : Nat) (blk : OutBlk) (s : State) : Host.Outcome State Fault Refusal :=
  boothStep (info 0x05 0x04) h (fun s => sessNamed s h n)
    (fun s => writeOut h blk (statsBlock s n (counters (match tget s.sess.sess n with | some x => x.counts | none => []) 17) []) s) s

/-- The field checks of a ring binding (06 R174, 19 R513). -/
def bindFieldsBad (r : RingBind) : Bool :=
  r.log2 < 4 || 16 < r.log2 || r.entryArray % 64 != 0 || r.dataArea % 64 != 0 || r.control % 64 != 0
    || r.dataLen % 64 != 0 || (r.dataLen != 0 && r.dataLen < 4096)

/-- Is a range wholly in one Trapeze window of the partition? -/
def inOwnWindow (s : State) (p a n : Nat) : Bool :=
  (match region a with | .trapeze _ _ => true | _ => false) && rangeOwned s s.cfg p a n

/-- Do the ranges of a binding lie where they must (06 R174)? -/
def bindRangesBad (s : State) (p : Nat) (r : RingBind) : Bool :=
  !inOwnWindow s p r.entryArray (64 * 2 ^ r.log2) || !inOwnWindow s p r.dataArea (dataArea r)
    || !((match region r.control with | .stage _ => true | _ => false) && rangeOwned s s.cfg p r.control 64)

/-- Zero-fill an entry array, and set the counts of the control block: both at a reset, the device's own at a bind. -/
def zeroArray (s : State) (p t : Nat) (r : RingBind) (both : Bool) : State :=
  let w : Actor := { part := p, tenant := t, priv := false, cfg := s.cfg }
  let s := (storeAll s 11 w .other r.entryArray (zeros (64 * 2 ^ r.log2))).2.2.1
  let s := if both then writeCount s r.control 0 else s
  writeCount s (r.control + 4) 0

/-- FEED_RING_BIND (06 R174). -/
def execFeedRingBind (h : Hdr) (r : RingBind) (s : State) : Host.Outcome State Fault Refusal :=
  let pick := fun (s : State) => pickNumber s.cfg.sess.feeds s.fixedMode (hp h) 256 4096 r.ring
  boothStep (info 0x05 0x05) h
    (fun s =>
      [(bindFieldsBad r || (!choose16 r.ring && 4096 ≤ r.ring), .badRequest),
       (match pick s with | some k => thas s.sess.feeds k || (s.fixedMode && k / 256 != hp h) | none => true, .noResource)]
      ++ roomChecks s (hp h) (hcharge h) 15 1 .noResource ++ [(bindRangesBad s (hp h) r, .tagDenied)])
    (fun s =>
      let k := (pick s).getD 0
      let c : FeedCfg := { part := hp h, tenant := h.tenant, fn := h.fn, bind := { r with ring := k }, binding := 0 }
      let s := (zeroArray s (hp h) h.tenant r false).onSess (fun x => { x with feeds := tset x.feeds k {} })
      .epoch (commitEpoch s (hp h) (fun g => { g with sess := { g.sess with feeds := tset g.sess.feeds k c } })) (hp h) (le 2 k)) s

/-- RETURN_RING_BIND (06 R174). -/
def execReturnRingBind (h : Hdr) (r : RingBind) (binding : Nat) (s : State) : Host.Outcome State Fault Refusal :=
  let pick := fun (s : State) => pickNumber s.cfg.sess.returns s.fixedMode (hp h) 256 4096 r.ring
  boothStep (info 0x05 0x06) h
    (fun s =>
      [(bindFieldsBad r || (!choose16 r.ring && 4096 ≤ r.ring), .badRequest),
       (63 < binding || (match tget s.cfg.acts.bindings (64 * hp h + binding) with
          | some b => b.tenant != 0 && h.tenant != 0 && b.tenant != h.tenant | none => true), .badRequest),
       (match pick s with | some k => thas s.sess.returns k || (s.fixedMode && k / 256 != hp h) | none => true, .noResource)]
      ++ roomChecks s (hp h) (hcharge h) 16 1 .noResource ++ [(bindRangesBad s (hp h) r, .tagDenied)])
    (fun s =>
      let k := (pick s).getD 0
      let c : FeedCfg := { part := hp h, tenant := h.tenant, fn := h.fn, bind := { r with ring := k }, binding := binding }
      let s := (zeroArray s (hp h) h.tenant r false).onSess (fun x => { x with returns := tset x.returns k {} })
      .epoch (commitEpoch s (hp h) (fun g => { g with sess := { g.sess with returns := tset g.sess.returns k c } })) (hp h) (le 2 k)) s

/-- The checks of a command that names a bound ring. -/
def ringNamed (h : Hdr) (t : Tbl FeedCfg) (n : Nat) : List (Bool × Status) :=
  match tget t n with
  | none => [(true, if h.fn == 0 then .badRequest else .notPermitted)]
  | some c => [(notMine h c.part c.tenant, .notPermitted)]

/-- FEED_RING_RESET (06 R181). -/
def execFeedRingReset (h : Hdr) (n : Nat) (s : State) : Host.Outcome State Fault Refusal :=
  boothStep (info 0x05 0x07) h (fun s => ringNamed h s.cfg.sess.feeds n)
    (fun s =>
      let s := match tget s.cfg.sess.feeds n, tget s.sess.feeds n with
        | some c, some f =>
          let s := f.inflight.foldl (fun s r => reply s r.reply 6 r.tag 0 0) s
          onFeed (zeroArray s c.part c.tenant c.bind true) n (fun _ => {})
        | _, _ => s
      .epoch (commitEpoch s (hp h) id) (hp h) []) s

/-- RETURN_RING_RESET (06 R181). -/
def execReturnRingReset (h : Hdr) (n : Nat) (s : State) : Host.Outcome State Fault Refusal :=
  boothStep (info 0x05 0x08) h (fun s => ringNamed h s.cfg.sess.returns n)
    (fun s =>
      let s := match tget s.cfg.sess.returns n with
        | some c => onRet (zeroArray s c.part c.tenant c.bind true) n (fun _ => {})
        | none => s
      .epoch (commitEpoch s (hp h) id) (hp h) []) s

/-- FEED_RING_UNBIND. -/
def execFeedRingUnbind (h : Hdr) (n : Nat) (s : State) : Host.Outcome State Fault Refusal :=
  boothStep (info 0x05 0x09) h (fun s => ringNamed h s.cfg.sess.feeds n)
    (fun s => .epoch (commitEpoch s (hp h) (fun g => { g with sess := { g.sess with feeds := tdel g.sess.feeds n } })) (hp h) []) s

/-- RETURN_RING_UNBIND. -/
def execReturnRingUnbind (h : Hdr) (n : Nat) (s : State) : Host.Outcome State Fault Refusal :=
  boothStep (info 0x05 0x0A) h (fun s => ringNamed h s.cfg.sess.returns n)
    (fun s => .epoch (commitEpoch s (hp h) (fun g => { g with sess := { g.sess with returns := tdel g.sess.returns n } })) (hp h) []) s

/-- Forget the unbound rings of a partition once their epoch has retired. -/
def ringsRetire (s : State) : State :=
  let old := fun (f : Cfg → Bool) => s.parts.any (fun e => match e.2.old with | some (_, c) => f c | none => false)
  s.onSess (fun x => { x with
    feeds := x.feeds.filter (fun e => thas s.cfg.sess.feeds e.1 || old (fun c => thas c.sess.feeds e.1))
    returns := x.returns.filter (fun e => thas s.cfg.sess.returns e.1 || old (fun c => thas c.sess.returns e.1)) })

/-- FEED_SEED (06 R188). -/
def execFeedSeed (h : Hdr) (seed : Nat) (s : State) : Host.Outcome State Fault Refusal :=
  boothStep (info 0x05 0x0B) h (fun _ => [])
    (fun s => .epoch (commitEpoch (s.onSess (fun x => { x with gensNext := tset x.gensNext (hp h) seed })) (hp h) id) (hp h) []) s

end Sys2Proof.Machine
end

