-- ==== Sys2Proof/Machine/TrapezeRows.lean ====
section
/-! DEFINITION. Machine/TrapezeRows.lean: what arrives on a Trapeze port and what happens to it (11 R290 to R321): flits,
completions, accesses of the accelerator, training, lane sparing, the watchdogs and the sum lane. -/

namespace Sys2Proof.Machine

/-- Count in a port's counters, in the order of 11 R322. -/
def tpCount (s : State) (p k : Nat) (n : Nat := 1) : State := s.onTp p (fun t => { t with counts := bump t.counts k n })

/-- The code of a port state (11, TP_STATE). -/
def tpStNo (x : TpSt) : Nat := match x with | .down => 0 | .training => 1 | .active => 2 | .degraded => 3 | .stalled => 4

/-- The logical lane on a fibre's spare, 0xFF for none. -/
def laneOnSpare (t : Tp) (fibre : Nat) : Nat :=
  ((List.range 16).find? (fun i => tget t.laneMap (16 * fibre + i) == some 16)).getD 0xFF

/-- The functions that own a window of a port, other than the manager (11 R310). -/
def windowOwners (s : State) (p : Nat) : List (Nat × Nat × Nat) :=
  let o := (tfilter s.cfg.tp.outWin (fun k e => k / 1024 == p && e.valid)).map
    (fun x => (ownerFn x.2.part x.2.tenant (tgetD s.cfg.tp.outBy x.1 0), x.2.part, x.2.tenant))
  let i := (tfilter s.cfg.tp.inWin (fun k e => k / 256 == p && e.valid)).map
    (fun x => (ownerFn x.2.part x.2.tenant 0, x.2.part, x.2.tenant))
  ((o ++ i).filter (fun x => x.1 != 0)).eraseDups

/-- A TRAPEZE_STATE record on the manager booth and, where a port left service, on those of its windows' owners (19 R532). -/
def tpEvent (s : State) (p : Nat) (cause : Status) (owners : Bool) : State :=
  let t := s.tport p
  let d := [byteOf p, byteOf (tpStNo t.st), byteOf t.spareUsed, byteOf t.fibreDropped]
    ++ (List.range 4).map (fun f => byteOf (laneOnSpare t f)) ++ le 2 cause.code
  let s := raiseEvent s 0 0x000D 0 0 d
  if owners then (windowOwners s p).foldl (fun s x => raiseEvent s x.1 0x000D x.2.1 x.2.2 d) s else s

/-- An outbound request has ended: its answer goes to the operation that issued it (11 R304). -/
def tpEnd (s : State) (r : TpReq) (st : Status) (data : List Byte) : State :=
  match r.use with
  | .feedData ring count => if st == .ok then s else feedFail s ring count (portStatus st)
  | .feedEntry ring count => if st == .ok then s else feedFail s ring count (portStatus st)
  | .gdp n kind msn =>
    if kind == 2 then gdpAtomicAnswered s n msn (if st == .ok then .inl (ofLe data) else .inr st)
    else gdpWriteAnswered s n kind msn st
  | .mover e serial a =>
    if isWrite r.msg then moverWriteDone s e serial a st
    else moverReadDone s e serial a (if st == .ok then .inl data else .inr st)
  | .press j => pressWriteDone s j st
  | .stor q count => storWriteDone s q count st
  | .midway t m => mwAnswer s t m st data
  | .other => s

/-- End every request that a port's outbound queue keeps, when the port stays DOWN (11 R308, R309; log entry 30, DEDUCED). -/
def tpFlush (s : State) (p : Nat) (st : Status) : State :=
  let q := (s.tport p).queue
  q.foldl (fun s r => tpEnd s r st []) (s.onTp p (fun t => { t with queue := [] }))

/-- Credits, sequence numbers and the replay buffer of a port are reset (11 R310). -/
def tpLinkReset (t : Tp) : Tp :=
  { t with
    replay := []
    nextSeq := 0
    expected := 0
    ackedSeq := 4095
    discarding := false
    naks := 0
    unacked := 0
    crAdvReq := 0
    crAdvRsp := 0
    crAdvCtl := 0
    crUsedReq := 0
    crUsedRsp := 0
    crUsedCtl := 0
    crSeenReq := 0
    crSeenRsp := 0
    crSeenCtl := 0
    freedReq := 0
    freedRsp := 0
    freedCtl := 0
    responses := []
    controls := []
    writes := []
    reads := []
    withheld := []
    swaps := [] }

/-- A port leaves ACTIVE or DEGRADED (11 R310, R317): what it holds unanswered ends with `pend`. -/
def tpLeavePort (s : State) (p : Nat) (dest : TpSt) (cause : Status) (pend : Status := .partnerStalled) : State :=
  let t := s.tport p
  let s := s.onTp p (fun t => { tpLinkReset t with st := dest })
  let s := (t.writes ++ t.reads).foldl (fun s r => tpEnd s r pend []) s
  let s := if dest == .down then rindLog s 0x000F (134 + p) ([byteOf p, 0] ++ le 2 cause.code) else s
  let s := tpEvent s p cause true
  match s.tp.sumOpen with
  | some o => if bit o.members p && !o.won then sumEnd s o .sumMemberLost 0 else s
  | none => s

/-! Training (11 R309). -/

/-- Start a training: from cold, or with the rings still locked. `again` counts it as a retrain. -/
def tpTrain (s : State) (p : Nat) (hot again : Bool) : State :=
  let n := if hot then 4 else 2
  let s := s.onTp p (fun t => { tpLinkReset t with
    st := .training
    retryWait := false
    tries := t.tries + 1
    step := n
    laneMap := []
    spareUsed := 0
    fibreDropped := 0
    counts := if again then bump t.counts 5 else t.counts })
  let s := if again then rindCount s 0x1A else s
  s.send (.tpTrain p n)

/-- The result of TRAPEZE_ENABLE (19 R527). -/
def tpResult (t : Tp) : List Byte := [byteOf (tpStNo t.st), byteOf (min t.tries 255)] ++ le 2 t.lastFail

/-- End the TRAPEZE_ENABLE commands that wait for a port. -/
def tpEnableDone (s : State) (p : Nat) (st : Status) : State :=
  ((s.fn 0).booth.outst.filter (fun c => c.group == 0x0D && c.code == 1 && c.state == .applied && c.arg == p)).foldl
    (fun s c => finish s 0 c.id st { result := tpResult (s.tport p) }) s

/-- A training has failed: another try after 100 ms, or, after the sixteenth failure, none (11 R309). -/
def tpTrainFail (s : State) (p : Nat) (cause : Status) : State :=
  let s := s.onTp p (fun t => { tpLinkReset t with
    st := .down, step := 0, fails := t.fails + 1, lastFail := cause.code, counts := bump t.counts 6 })
  if 16 ≤ (s.tport p).fails then
    tpEnableDone (tpFlush (s.onTp p (fun t => { t with retryWait := false })) p .portDown) p .portDown
  else s.onTp p (fun t => { t with retryWait := true })

/-- The PARAM the device sends: revision 1, its buffers, no lane on a spare (11 R299, R300). -/
def deviceParam : List Byte :=
  be 2 1 ++ be 2 2047 ++ be 2 2047 ++ be 2 256 ++ List.replicate 4 0xFF ++ zeros 20

/-- TRAINING_STEP: the step under way completes, or training fails. `delay` is the deskew delay that step 7 measures. -/
def execTrainingStep (p : Nat) (ok : Bool) (delay : Nat) (s : State) : Host.Outcome State Fault Refusal :=
  let t := s.tport p
  if t.st != .training then .next s
  else if !ok then .next (tpTrainFail s p .portDown)
  else if t.step == 6 && t.crAdvReq == 0 then .next s
  else if t.step == 7 then
    if s.tp.sumOpen.isSome then .next s
    else
      let s := (s.send (.tpMsg p (.calPulse 51))).onTp p (fun t => { t with
        st := .active, step := 0, fails := 0, sumDelay := delay })
      .next (tpPump (tpEnableDone (tpEvent s p .ok false) p .ok) p)
  else
    let s := s.onTp p (fun t => { t with step := t.step + 1, combOk := t.combOk || t.step == 2 })
    let s := s.send (.tpTrain p (t.step + 1))
    .next (if t.step == 5 then s.send (.tpMsg p (.param deviceParam)) else s)

/-- TRAINING_RETRY: 100 ms after a failed training it runs again, from cold. -/
def execTrainingRetry (p : Nat) (s : State) : Host.Outcome State Fault Refusal :=
  let t := s.tport p
  if t.st == .down && t.retryWait then .next (tpTrain s p false false) else .next s

/-- PARAM: the checks of 11 R299 and R300, then the partner's credits and its sum lane delay. -/
def execParam (p : Nat) (d : List Byte) (s : State) : Host.Outcome State Fault Refusal :=
  let t := s.tport p
  let at_ := fun (o n : Nat) => ofBe ((d.drop o).take n)
  let short := fun (o lo : Nat) => at_ o 2 < lo || 2047 < at_ o 2
  if t.st != .training || t.step != 6 then .next s
  else if at_ 0 2 != 1 || short 2 512 || short 4 512 || short 6 64 || at_ 12 4 != 0 || at_ 20 12 != 0 then
    .next (tpTrainFail s p .paramMismatch)
  else .next (s.onTp p (fun t => { t with
    crAdvReq := at_ 2 2
    crAdvRsp := at_ 4 2
    crAdvCtl := at_ 6 2
    sumDelay := at_ 16 4 }))

/-- COMB_LOSS: a line below +6.5 dBm takes the port DOWN (11 R290). -/
def execCombLoss (p : Nat) (s : State) : Host.Outcome State Fault Refusal :=
  let up := tpUp (s.tport p)
  let s := s.onTp p (fun t => { t with combOk := false })
  if up then .next (tpLeavePort (tpCount s p 7) p .down .portDown)
  else .next s

/-! Flits (11 R296 to R298, R306, R307). -/

/-- Ask for a resend after the last accepted flit, once. -/
def tpNak (s : State) (p : Nat) : State :=
  let t := s.tport p
  if t.discarding then s
  else (s.onTp p (fun t => { t with discarding := true, unacked := 0 })).send (.tpAck p t.ackedSeq true)

/-- The acknowledgement and the credits of a good flit's header. -/
def tpHeader (t : Tp) (f : Flit) : Tp :=
  let covered := fun (q : Nat) => decide (modSub 12 f.ackSeq q < 2048)
  let rest := t.replay.filter (fun e => !covered e.1)
  { t with
    replay := rest
    naks := if rest.length < t.replay.length then 0 else t.naks
    crUsedReq := t.crUsedReq - modSub 12 f.crReq t.crSeenReq
    crUsedRsp := t.crUsedRsp - modSub 12 f.crRsp t.crSeenRsp
    crUsedCtl := t.crUsedCtl - modSub 12 f.crCtl t.crSeenCtl
    crSeenReq := f.crReq
    crSeenRsp := f.crRsp
    crSeenCtl := f.crCtl }

/-- A sequenced flit is accepted: its slots are taken and freed, and an acknowledgement falls due after 64. -/
def tpAccept (s : State) (p : Nat) (f : Flit) : State :=
  let s := s.onTp p (fun t => { t with
    expected := modAdd 12 t.expected 1
    ackedSeq := f.fseq
    discarding := false
    unacked := t.unacked + 1
    freedReq := modAdd 12 t.freedReq f.slotsReq
    freedRsp := modAdd 12 t.freedRsp f.slotsRsp
    freedCtl := modAdd 12 t.freedCtl f.slotsCtl
    counts := bump t.counts 9 f.badMsgs })
  if 64 ≤ (s.tport p).unacked then (s.onTp p (fun t => { t with unacked := 0 })).send (.tpAck p f.fseq false) else s

/-- FLIT_RX. The messages of an accepted flit follow as commands of their own. -/
def execFlitRx (p : Nat) (f : Flit) (s : State) : Host.Outcome State Fault Refusal :=
  if !ingress s || !tpUp (s.tport p) then .next s
  else if !f.crcOk then
    let s := tpCount s p 2
    .next (if f.null then s else tpNak s p)
  else
    let s := (tpCount s p 1).onTp p (fun t => tpHeader t f)
    let s := if f.nak then
        rindMinute ((tpCount s p 3).onTp p (fun t => { t with naks := t.naks + 1 })) (10 + p)
      else s
    if f.nak && 8 ≤ (s.tport p).naks then .next (tpTrain (tpLeavePort s p .training .partnerStalled) p true true)
    else
      let s := if f.nak then s.send (.tpReplay p (modAdd 12 f.ackSeq 1)) else s
      let s := if f.null then s else if f.fseq == (s.tport p).expected then tpAccept s p f else tpNak s p
      .next (tpPump s p)

/-- ACK_TIMER: an acknowledgement is due while an accepted flit is not acknowledged. -/
def execAckTimer (p : Nat) (s : State) : Host.Outcome State Fault Refusal :=
  let t := s.tport p
  if tpUp t && 0 < t.unacked then .next ((s.onTp p (fun t => { t with unacked := 0 })).send (.tpAck p t.ackedSeq false))
  else .next s

/-! Completions (11 R304, R305). -/

/-- A completion that matches nothing outstanding; it gives back a tag that was withheld. -/
def tpLate (s : State) (p tag : Nat) : State :=
  (tpCount s p 8).onTp p (fun t => { t with withheld := t.withheld.filter (· != tag) })

/-- Complete one read or atomic of the kind given, or discard the completion. -/
def tpComplete (s : State) (p tag : Nat) (isRead : Bool) (data : List Byte) : State :=
  let t := s.tport p
  if !tpUp t then s
  else match t.reads.find? (fun r => tagOf r.msg == tag && (match r.msg with | .read .. => isRead | _ => !isRead)) with
    | none => tpLate s p tag
    | some r =>
      let s := s.onTp p (fun t => { t with reads := t.reads.filter (fun x => tagOf x.msg != tag) })
      let d := match r.msg with | .read _ _ _ _ n => fit n data | _ => fit 8 data
      tpPump (tpEnd s r .ok d) p

/-- RDCOMP. -/
def execRdcomp (p tag : Nat) (data : List Byte) (s : State) : Host.Outcome State Fault Refusal :=
  .next (tpComplete s p tag true data)

/-- ATCOMP. -/
def execAtcomp (p tag old : Nat) (s : State) : Host.Outcome State Fault Refusal :=
  .next (tpComplete s p tag false (le 8 old))

/-- WCOMP: every outstanding write up to the tag is complete. -/
def execWcomp (p tag : Nat) (s : State) : Host.Outcome State Fault Refusal :=
  let t := s.tport p
  if !tpUp t then .next s
  else if !t.writes.any (fun r => tagOf r.msg == tag) then .next (tpLate s p tag)
  else
    let covered := fun (r : TpReq) => decide (modSub 16 tag (tagOf r.msg) < 32768)
    let s := s.onTp p (fun t => { t with writes := t.writes.filter (fun r => !covered r) })
    .next (tpPump ((t.writes.filter covered).foldl (fun s r => tpEnd s r .ok []) s) p)

/-- The device status of an ERR code; none for a reserved one (11 R304). -/
def errStatus (code : Nat) : Option Status :=
  match code with | 1 => some .tagDenied | 2 => some .unmapped | 3 => some .memUncorrectable | 4 => some .unmapped | _ => none

/-- TP_ERR: the write of the tag fails, or else the read or atomic (log entry 31, DEDUCED). -/
def execTpErr (p tag code : Nat) (s : State) : Host.Outcome State Fault Refusal :=
  let t := s.tport p
  if !tpUp t then .next s
  else match errStatus code with
    | none => .next (tpCount s p 9)
    | some st =>
      match t.writes.find? (fun r => tagOf r.msg == tag), t.reads.find? (fun r => tagOf r.msg == tag) with
      | some r, _ => .next (tpPump (tpEnd (s.onTp p (fun t => { t with
          writes := t.writes.filter (fun x => tagOf x.msg != tag) })) r st []) p)
      | none, some r => .next (tpPump (tpEnd (s.onTp p (fun t => { t with
          reads := t.reads.filter (fun x => tagOf x.msg != tag) })) r st []) p)
      | none, none => .next (tpLate s p tag)

/-- TRAPEZE_READ_TIMEOUT: the read ends with PARTNER_TIMEOUT and its tag is withheld (04 R102, 11 R305). -/
def execTrapezeReadTimeout (p tag : Nat) (s : State) : Host.Outcome State Fault Refusal :=
  let t := s.tport p
  match t.reads.find? (fun r => tagOf r.msg == tag) with
  | none => .next s
  | some r =>
    let s := s.onTp p (fun t => { t with
      reads := t.reads.filter (fun x => tagOf x.msg != tag), withheld := t.withheld ++ [tag] })
    .next (tpPump (tpEnd (rindCount s 0x18) r .partnerTimeout []) p)

/-- CREDIT_WATCHDOG: the port enters STALLED and retrains at once (04 R102, 11 R308, R309). -/
def execCreditWatchdog (p : Nat) (s : State) : Host.Outcome State Fault Refusal :=
  let t := s.tport p
  if !tpUp t || (t.queue.isEmpty && t.responses.isEmpty && t.controls.isEmpty) then .next s
  else .next (tpTrain (tpLeavePort (rindCount s 0x17) p .stalled .partnerStalled) p true true)

/-! Accesses of the accelerator (11 R303, R314). -/

/-- The inbound window that covers an accelerator's access, under the epoch of its partition. -/
def inWindow (s : State) (p addr len : Nat) : Option TpWindow :=
  (List.range 16).findSome? (fun q =>
    windowAt (tfilter (cfgAt s q (134 + p)).tp.inWin (fun _ e => e.part == q && addr + len ≤ e.offset * 65536 + 2 ^ e.sizeLog2))
      (256 * p) 0 256 addr)

/-- The ERR code of a status (11 R297, R304). -/
def errCode (st : Status) : Nat := match st with | .tagDenied => 1 | .unmapped => 2 | .memUncorrectable => 3 | _ => 4

/-- Answer an access: the response waits for its turn on the response channel. -/
def tpAnswer (s : State) (p : Nat) (m : TpMsg) : State :=
  tpPump (s.onTp p (fun t => { t with responses := t.responses ++ [m] })) p

/-- Perform an access of an accelerator, if a window allows it. -/
def tpInbound (s : State) (x : TpAccess) (len : Nat) (perm : TpWindow → Bool)
    (f : State → Actor → Nat → Status × TpMsg × State) : State :=
  if !tpUp (s.tport x.port) then s
  else match inWindow s x.port x.addr len with
    | none => tpAnswer s x.port (.err x.tag 2)
    | some e =>
      if !perm e then tpAnswer s x.port (.err x.tag 1)
      else
        let r := f s (actor s e.part e.tenant (134 + x.port)) (e.accBase + (x.addr - e.offset * 65536))
        tpAnswer r.2.2 x.port (if r.1 == .ok then r.2.1 else .err x.tag (errCode r.1))

/-- TP_WRITE. -/
def execTpWrite (x : TpAccess) (data : List Byte) (s : State) : Host.Outcome State Fault Refusal :=
  .next (tpInbound s x data.length (·.write) (fun s w a =>
    let r := storeAll s (20 + x.port) w .other a data
    (r.1, .wcomp x.tag, r.2.2.1)))

/-- TP_READ. -/
def execTpRead (x : TpAccess) (len : Nat) (s : State) : Host.Outcome State Fault Refusal :=
  .next (tpInbound s x len (·.read) (fun s w a =>
    let r := loadAll s (20 + x.port) w a len []
    (r.1, .rdcomp x.tag r.2.2.1, r.2.2.2)))

/-- TP_FADD. -/
def execTpFadd (x : TpAccess) (addend : Nat) (s : State) : Host.Outcome State Fault Refusal :=
  .next (tpInbound s x 8 (·.atomic) (fun s w a =>
    let r := atomicAt s (20 + x.port) w a (fun old => modAdd 64 old addend)
    (r.1, .atcomp x.tag r.2.1, r.2.2)))

/-- TP_CAS. -/
def execTpCas (x : TpAccess) (compare swap : Nat) (s : State) : Host.Outcome State Fault Refusal :=
  .next (tpInbound s x 8 (·.atomic) (fun s w a =>
    let r := atomicAt s (20 + x.port) w a (fun old => if old == compare then swap else old)
    (r.1, .atcomp x.tag r.2.1, r.2.2)))

/-! Return signals and telemetry (11 R315, R316). -/

/-- RING_SIGNAL: a hint to read the ring's control block. `sessions` are the SESSION fields of the new entries. -/
def execRingSignal (p ring _prod : Nat) (sessions : List Nat) (s : State) : Host.Outcome State Fault Refusal :=
  let bound := match tget s.cfg.sess.returns ring with
    | some c => (match region c.bind.entryArray with | .trapeze q _ => q == p | _ => false)
    | none => false
  if !tpUp (s.tport p) then .next s
  else if !bound then .next (tpCount s p 10)
  else if quarantined s 138 then .next s
  else .next (returnPoll s ring sessions)

/-- TELEMETRY: at most one message per 10 µs is kept, and written to the telemetry ring where one is bound. -/
def execTelemetry (p seq : Nat) (data : List Byte) (s : State) : Host.Outcome State Fault Refusal :=
  let t := s.tport p
  let early := match t.telemAt with | some x => decide (s.clock.cadence < x + 10000) | none => false
  if !tpUp t then .next s
  else if early then .next (tpCount s p 11)
  else
    let s := s.onTp p (fun t => { t with telem := be 4 seq ++ fit 64 data, telemTime := s.clock.now, telemAt := some s.clock.cadence })
    match t.telemRing with
    | none => .next s
    | some (r, v) =>
      if 2 ^ r.log2 ≤ modSub 32 r.prod r.cons then .next s
      else
        let s := hostPost s 0 none (r.base + 64 * (r.prod % 2 ^ r.log2)) (fit 64 data)
        let s := s.onTp p (fun t => { t with telemRing := some ({ r with prod := modAdd 32 r.prod 1 }, v) })
        .next (msixRaise s 0 v)

/-! Lane sparing (11 R293 to R295). -/

/-- Is a fibre's spare in use, or the fibre dropped? Both words number TXA from the top (11, TP_STATE). -/
def fibreBit (v fibre : Nat) : Bool := bit v (3 - fibre)

/-- A fibre is dropped, with the fibre of the same letter of the other direction: the port is DEGRADED (11 R295). -/
def tpDrop (s : State) (p fibre : Nat) : State :=
  let letter := if fibre % 2 == 0 then 10 else 5
  tpEvent (s.onTp p (fun t => { t with st := .degraded, fibreDropped := t.fibreDropped ||| letter })) p .ok false

/-- The second lane of the last fibre of a direction is lost: DOWN, then a training from cold (11 R295). -/
def tpLost (s : State) (p : Nat) : State :=
  tpTrain (tpLeavePort (rindMinute s (10 + p)) p .down .portDown) p false true

/-- Would dropping a fibre leave its direction none? -/
def lastFibre (t : Tp) (fibre : Nat) : Bool := fibreBit t.spareUsed fibre && t.st == .degraded

/-- The device faults a lane: it asks its partner to move it (11 R293). -/
def tpFaultLane (s : State) (p fibre lane : Nat) : State :=
  let t := s.tport p
  if !tpUp t || fibreBit t.fibreDropped fibre || t.swaps.any (fun w => w.fibre == fibre && w.lane == lane) then s
  else if lastFibre t fibre then tpLost s p
  else
    let w : TpSwap := { fibre := fibre, lane := lane, fs := none, dropFibre := fibreBit t.spareUsed fibre }
    tpControl (s.onTp p (fun t => { t with swaps := t.swaps ++ [w] })) p (.spareReq fibre lane)

/-- RING_LOCK_LOSS (11 R292). -/
def execRingLockLoss (p fibre lane : Nat) (s : State) : Host.Outcome State Fault Refusal := .next (tpFaultLane s p fibre lane)

/-- LANE_BER_FAULT: a receiving side's fault (11 R293). -/
def execLaneBerFault (p fibre lane : Nat) (s : State) : Host.Outcome State Fault Refusal :=
  if fibre < 2 then .next s else .next (tpFaultLane s p fibre lane)

/-- SPARE_REQ: the partner faults a lane, and the device names the flit of the move (log entry 32, DEDUCED). -/
def execSpareReq (p fibre lane : Nat) (s : State) : Host.Outcome State Fault Refusal :=
  let t := s.tport p
  if !tpUp t || fibreBit t.fibreDropped fibre then .next s
  else if lastFibre t fibre then .next (tpLost s p)
  else
    let fs := modAdd 12 t.nextSeq 32
    let w : TpSwap := { fibre := fibre, lane := lane, fs := some fs, dropFibre := fibreBit t.spareUsed fibre }
    .next (tpControl (s.onTp p (fun t => { t with swaps := t.swaps ++ [w] })) p (.spareAck fibre lane fs))

/-- SPARE_ACK: the partner names the flit of the move the device asked for. -/
def execSpareAck (p fibre lane fs : Nat) (s : State) : Host.Outcome State Fault Refusal :=
  .next (s.onTp p (fun t => { t with swaps := t.swaps.map (fun w =>
    if w.fibre == fibre && w.lane == lane && w.fs.isNone then { w with fs := some fs } else w) }))

/-- LANE_SWAP: at flit FS the oldest agreed move takes place. -/
def execLaneSwap (p : Nat) (s : State) : Host.Outcome State Fault Refusal :=
  let t := s.tport p
  match t.swaps.find? (fun w => w.fs.isSome) with
  | none => .next s
  | some w =>
    let s := s.onTp p (fun t => { t with swaps := t.swaps.erase w })
    if w.dropFibre || fibreBit t.spareUsed w.fibre then
      .next (if lastFibre t w.fibre then tpLost s p else tpDrop (rindMinute s (10 + p)) p w.fibre)
    else
      let s := s.onTp p (fun t => { t with
        laneMap := tset t.laneMap (16 * w.fibre + w.lane) 16
        spareUsed := t.spareUsed ||| 2 ^ (3 - w.fibre)
        counts := bump t.counts 4 })
      let s := rindLog (rindCount (rindMinute s (10 + p)) 0x19) 0x000E (134 + p) [byteOf p, byteOf w.fibre, byteOf w.lane]
      .next (tpEvent s p .ok false)

/-- SPARE_ACK_TIMEOUT: a SPARE_REQ unanswered for 10 µs drops the fibre (11 R323). -/
def execSpareAckTimeout (p fibre lane : Nat) (s : State) : Host.Outcome State Fault Refusal :=
  let t := s.tport p
  match t.swaps.find? (fun w => w.fibre == fibre && w.lane == lane && w.fs.isNone) with
  | none => .next s
  | some w =>
    let s := s.onTp p (fun t => { t with swaps := t.swaps.erase w })
    if !tpUp t then .next s
    else .next (if t.st == .degraded then tpLost s p else tpDrop (rindMinute s (10 + p)) p fibre)

/-! The sum lane (11 R317 to R321). -/

/-- Has every member's BOUNDARY for the operation's step arrived? -/
def allBoundaries (o : SumOp) : Bool := (membersOf o.members).all o.boundaries.contains

/-- Is the device's own unit on? A command's is on from the start, a Set's when the Press turns it on (11 R318). -/
def unitOn (s : State) (o : SumOp) : Bool :=
  match o.use with
  | .command _ _ => true
  | .press j => match tget s.press.jobs j with
    | some x => (match x.op with | some y => y.unitOn | none => false)
    | none => false

/-- Every accelerator member of a Set has stopped: READY to every peer (20 R540). -/
def sumAllStopped (s : State) (o : SumOp) : State :=
  match o.use with
  | .command _ _ => s
  | .press j =>
    match tget s.press.jobs j with
    | none => s
    | some x =>
      match x.op with
      | none => s
      | some y =>
        if y.sentReady then s
        else pressReadyCheck (onOp (pressSend s j x y .ready 0 (fun _ => true)) j (fun y => { y with sentReady := true })) j

/-- SUM_WINDOW: a window's reading is judged. `light` is the charge of the accelerators' emitters in thousandths of a
unit, or of one step of a scalar value. -/
def execSumWindow (light : Nat) (s : State) : Host.Outcome State Fault Refusal :=
  match s.tp.sumOpen with
  | none => .next s
  | some o =>
    if o.won then .next s
    else if !(membersOf o.members).all (fun p => tpUp (s.tport p)) then .next (sumEnd s o .sumMemberLost 0)
    else if o.scalar then .next (sumEnd s o .ok (min 255 ((light + 500) / 1000 + min 51 o.value)))
    else
      let on := unitOn s o
      let n := min 5 ((light + 1000 * b2n on + 500) / 1000)
      let want := sumCount o
      if want < n then .next (sumEnd s o .sumExcess n)
      else if n == want then
        if allBoundaries o then .next (sumEnd s o .ok n)
        else .next (s.onTrapeze (fun t => { t with sumOpen := some { o with reached := true } }))
      else if n + 1 == want && !on && allBoundaries o then .next (sumAllStopped s o)
      else .next s

/-- BOUNDARY: a member reports its step. One of another step fails a Set (20 R540). -/
def execBoundary (p job stepNo : Nat) (s : State) : Host.Outcome State Fault Refusal :=
  match s.tp.sumOpen with
  | none => .next s
  | some o =>
    if o.scalar || o.won || !bit o.members p || !tpUp (s.tport p) || (match o.use with | .press j => j != job | .command _ _ => false) then .next s
    else if stepNo != o.stepNo then
      match o.use with
      | .press _ => .next (sumEnd (tpCount s p 12) o .sumMismatch 0)
      | .command _ _ => .next s
    else
      let o := { o with boundaries := if o.boundaries.contains p then o.boundaries else o.boundaries ++ [p] }
      let s := s.onTrapeze (fun t => { t with sumOpen := some o })
      if o.reached && allBoundaries o then .next (sumEnd s o .ok (sumCount o)) else .next s

/-- SUM_CONFIRM_TIMEOUT: a count of N without every BOUNDARY (11 R319). -/
def execSumConfirmTimeout (s : State) : Host.Outcome State Fault Refusal :=
  match s.tp.sumOpen with
  | none => .next s
  | some o =>
    if !o.reached || o.won || allBoundaries o then .next s
    else
      let late := (membersOf o.members).filter (fun p => !o.boundaries.contains p)
      .next (sumEnd (late.foldl (fun s p => tpCount s p 12) s) o .sumMismatch 0)

/-- SUM_CALIBRATION: at once, or when the open operation has ended (11 R321). `delays` are the deskew delays measured,
by port. -/
def execSumCalibration (delays : List (Nat × Nat)) (s : State) : Host.Outcome State Fault Refusal :=
  if s.tp.sumOpen.isSome then .next (s.onTrapeze (fun t => { t with calDue := some delays }))
  else .next (calibrate s delays)

/-- TRAPEZE_SUM_TIMEOUT: the count of a command has not reached N in its time (19 R527). -/
def execTrapezeSumTimeout (s : State) : Host.Outcome State Fault Refusal :=
  match s.tp.sumOpen with
  | none => .next s
  | some o =>
    match o.use with
    | .command _ _ => if o.scalar || o.reached then .next s else .next (sumEnd s o .partnerTimeout 0)
    | .press _ => .next s

end Sys2Proof.Machine
end

