-- ==== Sys2Proof/Machine/TrapezeCmds.lean ====
section
/-! DEFINITION. Machine/TrapezeCmds.lean: the TRAPEZE group of booth commands (19 R527; 11 R309 to R322). -/

namespace Sys2Proof.Machine

/-- Keep a command's argument for the time it stays outstanding. -/
def setArg (s : State) (fn id v : Nat) : State :=
  s.onBooth fn (fun b => { b with outst := b.outst.map (fun c => if c.id == id then { c with arg := v } else c) })

/-- TRAPEZE_ENABLE (11 R309). -/
def execTrapezeEnable (h : Hdr) (p : Nat) (s : State) : Host.Outcome State Fault Refusal :=
  boothStep (info 0x0D 0x01) h
    (fun s => [(3 < p, .badRequest), (quarantined s (134 + p), .islandQuarantined)])
    (fun s =>
      let t := s.tport p
      if tpUp t then .done s .ok (tpResult t)
      else
        let s := setArg s h.fn h.id p
        if t.st == .training then .long s
        else .long (tpTrain (s.onTp p (fun t => { t with tries := 0, fails := 0 })) p false false)) s

/-- Take a port out of service for good: DOWN, its queue ended, and TRAPEZE_ENABLE with it (log entry 30, DEDUCED). -/
def tpOff (s : State) (p : Nat) (cause held queued : Status) : State :=
  let s := if tpUp (s.tport p) then tpLeavePort s p .down cause held
    else s.onTp p (fun t => { tpLinkReset t with st := .down, step := 0 })
  tpEnableDone (tpFlush (s.onTp p (fun t => { t with retryWait := false })) p queued) p queued

/-- TRAPEZE_DISABLE (19 R527). -/
def execTrapezeDisable (h : Hdr) (p : Nat) (s : State) : Host.Outcome State Fault Refusal :=
  boothStep (info 0x0D 0x02) h (fun _ => [(decide (3 < p), .badRequest)])
    (fun s => .done (tpOff s p .portDown .partnerStalled .portDown) .ok []) s

/-- Does an entry break the ranges or alignments of its fields (11 R311)? -/
def windowBroken (e : TpWindow) : Bool :=
  e.sizeLog2 < 16 || 40 < e.sizeLog2 || e.accBase % 2 ^ e.sizeLog2 != 0 || e.offset % 2 ^ (e.sizeLog2 - 16) != 0

/-- Does a window meet another valid one of its port? -/
def windowMeets (t : Tbl TpWindow) (base n k : Nat) (e : TpWindow) : Bool :=
  tany t (fun j x => base ≤ j && j < base + n && j != k && x.valid && x.offset * 65536 < e.offset * 65536 + 2 ^ e.sizeLog2
    && e.offset * 65536 < x.offset * 65536 + 2 ^ x.sizeLog2)

/-- The entry a window command names: the one it gives, or the lowest that is not valid (19 R502). -/
def windowEntry (t : Tbl TpWindow) (base n k : Nat) : Option Nat :=
  if choose16 k then (List.range n).find? (fun i => match tget t (base + i) with | some e => !e.valid | none => true)
  else if k < n then some k else none

/-- A partition's valid outbound entries on one port, those of one tenant where it is given (11 R311, 17 R462). -/
def windowsUsed (s : State) (p part : Nat) (ten : Option Nat) : Nat :=
  tcount s.cfg.tp.outWin (fun k e => k / 1024 == p && e.valid && e.part == part
    && (match ten with | some n => chargeOf (tgetD s.cfg.tp.outBy k 0) e.tenant == n | none => true))

/-- The checks that the two window commands share: the fields of the entry and its tags, then the overlap (11 R312). -/
def windowChecks (h : Hdr) (t : Tbl TpWindow) (base n k : Nat) (e : TpWindow) (rsvZero more : Bool) : List (Bool × Status) :=
  let old := match windowEntry t base n k with | some i => tget t (base + i) | none => none
  [((match old with | some x => x.valid && notMine h x.part x.tenant | none => false), .notPermitted),
   (!rsvZero || (e.valid && (windowBroken e || e.part != hp h || (h.fn != 0 && e.tenant != 0 && e.tenant != tenantOf h.fn) || more)),
     .windowBad),
   (e.valid && windowMeets t base n (base + (windowEntry t base n k).getD 0) e, .windowOverlap)]

/-- TRAPEZE_WINDOW_SET (11 R311, R312). -/
def execTrapezeWindowSet (h : Hdr) (p k : Nat) (e : TpWindow) (rsvZero : Bool) (s : State) : Host.Outcome State Fault Refusal :=
  boothStep (info 0x0D 0x03) h
    (fun s =>
      let t := s.cfg.tp.outWin
      let i := 1024 * p + (windowEntry t (1024 * p) 1024 k).getD 0
      let fresh := e.valid && (match tget t i with | some x => !x.valid | none => true)
      [((decide (3 < p) || (!choose16 k && decide (1023 < k))), .badRequest),
       ((windowEntry t (1024 * p) 1024 k).isNone, .noResource)]
      ++ windowChecks h t (1024 * p) 1024 k e rsvZero false
      ++ [(fresh && decide (limitOf s (hp h) 18 < windowsUsed s p (hp h) none + 1), .noResource),
          (fresh && hcharge h != 0 && (match capOf s (hp h) (hcharge h) 18 with
            | some c => decide (c < windowsUsed s p (hp h) (some (hcharge h)) + 1) | none => false), .tenantLimit)])
    (fun s =>
      let n := (windowEntry s.cfg.tp.outWin (1024 * p) 1024 k).getD 0
      let i := 1024 * p + n
      .epoch (commitEpoch s (hp h) (fun c => { c with tp := { c.tp with
        outWin := if e.valid then tset c.tp.outWin i e else tdel c.tp.outWin i
        outBy := if e.valid then tset c.tp.outBy i h.fn else tdel c.tp.outBy i } })) (hp h) (le 2 n)) s

/-- TRAPEZE_INWINDOW_SET (11 R314). -/
def execTrapezeInwindowSet (h : Hdr) (p k : Nat) (e : TpWindow) (rsvZero : Bool) (s : State) : Host.Outcome State Fault Refusal :=
  boothStep (info 0x0D 0x04) h
    (fun s =>
      let t := s.cfg.tp.inWin
      [((decide (3 < p) || (!choose16 k && decide (255 < k))), .badRequest),
       ((windowEntry t (256 * p) 256 k).isNone, .noResource)]
      ++ windowChecks h t (256 * p) 256 k e rsvZero (!inHbmOrStage e.accBase (2 ^ e.sizeLog2)))
    (fun s =>
      let n := (windowEntry s.cfg.tp.inWin (256 * p) 256 k).getD 0
      let i := 256 * p + n
      .epoch (commitEpoch s (hp h) (fun c => { c with tp := { c.tp with
        inWin := if e.valid then tset c.tp.inWin i e else tdel c.tp.inWin i } })) (hp h) (le 2 n)) s

/-- Is a doorbell that of a port's telemetry ring? -/
def isTelem (p : Nat) (d : DbTarget) : Bool := match d with | .telem q => q == p | _ => false

/-- TRAPEZE_TELEM_SET (11 R316). -/
def execTrapezeTelemSet (h : Hdr) (p base log2 vector : Nat) (s : State) : Host.Outcome State Fault Refusal :=
  boothStep (info 0x0D 0x05) h
    (fun s =>
      [(decide (3 < p) || (base != 0 && (log2 < 4 || 12 < log2 || vectorsOf h.fn ≤ vector || !baseOk base 64)), .badRequest),
       (base != 0 && (s.tport p).telemRing.isNone && !doorbellsFree s h.fn 1, .noDoorbells)])
    (fun s =>
      let s := dropDoorbells s h.fn (isTelem p)
      if base == 0 then .done (s.onTp p (fun t => { t with telemRing := none })) .ok []
      else
        let d := giveDoorbells s h.fn [.telem p]
        .done (d.2.onTp p (fun t => { t with telemRing := some ({ base := base, log2 := log2 }, vector) })) .ok (d.1.flatMap (le 2))) s

/-- TRAPEZE_SUM (11 R317 to R319). -/
def execTrapezeSum (h : Hdr) (c : SumCmd) (s : State) : Host.Outcome State Fault Refusal :=
  boothStep (info 0x0D 0x06) h
    (fun s =>
      [(15 < c.members || 51 < c.value || c.timeoutUs == 0 || 1000000 < c.timeoutUs, .badRequest),
       (c.scalar && !bit (s.fn h.fn).booth.featEn 6, .unsupported),
       (!(membersOf c.members).all (fun p => tpUp (s.tport p)), .portDown)])
    (fun s => .long (sumStart s {
      use := .command h.fn h.id
      scalar := c.scalar
      op := 0
      members := c.members
      value := c.value
      stepNo := c.stepNo
      job := 0
      boundaries := []
      reached := false
      won := false })) s

/-- TRAPEZE_WATCHDOG_SET (11 R322, 04 R102). -/
def execTrapezeWatchdogSet (h : Hdr) (p creditUs readUs : Nat) (s : State) : Host.Outcome State Fault Refusal :=
  boothStep (info 0x0D 0x07) h
    (fun _ => [(decide (3 < p) || creditUs < 100 || 100000 < creditUs || readUs < 50 || 50000 < readUs, .badRequest)])
    (fun s => .done (s.onTp p (fun t => { t with creditUs := creditUs, readUs := readUs })) .ok []) s

/-- TRAPEZE_STATS (11 R322). -/
def execTrapezeStats (h : Hdr) (p : Nat) (blk : OutBlk) (s : State) : Host.Outcome State Fault Refusal :=
  boothStep (info 0x0D 0x08) h (fun _ => [(decide (3 < p), .badRequest)])
    (fun s => writeOut h blk (statsBlock s p (counters (s.tport p).counts 13) []) s) s

end Sys2Proof.Machine
end

