-- ==== Sys2Proof/Machine/Quarantine.lean ====
section
/-! DEFINITION. Machine/Quarantine.lean: ledger faults, quarantine and the FAULTED state (02 R53 to R56, 08 R230). -/

namespace Sys2Proof.Machine

/-- The device becomes FAULTED because of an island (02 R53, 21 R580, 23 R606). -/
def enterFaulted (s : State) (i : Nat) : State :=
  if s.power.st == .faulted then s
  else
    let s := rindCount (assertAlert (setAlert s (0x0100 + i))) 0x0D
    s.onPower (fun p => { p with st := .faulted })

/-- The binding has a tumbler, and every one is quarantined (08 R230). -/
def bindingStarved (s : State) (b : ActBinding) : Bool := !b.tumblers.isEmpty && b.tumblers.all (quarantined s)

/-- Bindings that have begun to starve are reported, and those with a tumbler again forget it. -/
def starvedCheck (s : State) : State :=
  s.cfg.acts.bindings.foldl (fun s e =>
    let was := (tgetD s.acts.stats e.1 {}).starved
    let is_ := bindingStarved s e.2.b
    let s := if was == is_ then s else s.onStat e.1 (fun x => { x with starved := is_ })
    if is_ && !was then
      let pay := [byteOf (e.1 % 64)]
      let owner := ownerFn e.2.part e.2.tenant e.2.fn
      let s := raiseEvent s 0 0x000C e.2.part e.2.tenant pay
      if owner == 0 then s else raiseEvent s owner 0x000C e.2.part e.2.tenant pay
    else s) s

/-- An island leaves the set of a partition's epoch that has still to adopt it. The tenants' blocks are updated when the
last one does (17 R477). -/
def leaveSet (s : State) (p i : Nat) : State :=
  if !(s.part p).remaining.contains i then s
  else
    let s := s.onPart p (fun q => { q with remaining := q.remaining.filter (· != i) })
    if !(s.part p).remaining.isEmpty then s
    else if resizing s p then shareResize s p else shareUpdateAll s p

/-- A quarantined island leaves the adoption sets, so a commit that waited for it completes (02 R61). -/
def leaveAdoption (s : State) (i : Nat) : State :=
  releaseDeferred ((List.range 16).foldl (fun s p => leaveSet s p i) s)

/-- A tumbler is quarantined: its invocation ends and other tumblers take its partition's events. -/
def tumblerQuarantine (s : State) (n : Nat) : State :=
  let t := tgetD s.acts.tumblers n {}
  let s := s.onIsland n (fun x => { x with faults := x.faults + 1 })
  let s := match t.run with | some inv => endInv s n t inv .islandQuarantined 0 | none => s
  starvedCheck (leaveAdoption s n)

/-- A network port is quarantined: every frame completes ISLAND_QUARANTINED, and its links are down. -/
def netQuarantine (s : State) (np : Nat) : State :=
  let ports := (List.range 8).map (fun k => 8 * np + k)
  ports.foldl (fun s n =>
    let s := match (lportOf s n).wire with
      | some w => txFlushOne (s.onLPort n (fun p => { p with wire := none })) w.queue w.frame 6
      | none => s
    linkDown ((txqsOf s n).foldl (fun s q => (txFlushAll s q 6).1) s) n) s

/-- The GDP engine is quarantined: every operation completes ISLAND_QUARANTINED. -/
def gdpQuarantine (s : State) : State :=
  let latch := fun (n : Nat) (g : GdpConn) =>
    AuditRun.mk 6 140 n 0 (g.window - g.outstanding) g.outstanding g.window
  let latched := s.gdp.conns.map (fun e => latch e.1 e.2)
  (s.gdp.conns.map (·.1)).foldl (fun s n => gdpFail s n .islandQuarantined)
    { s with audits := s.audits.filter (fun a => a.kind != 6) ++ latched }

/-- The data mover is quarantined: every pending descriptor completes ISLAND_QUARANTINED. -/
def moverQuarantine (s : State) : State :=
  let runs := s.mover.engines.flatMap (fun e => e.2.runs)
  let s := s.onMover (fun m => { m with engines := tmap m.engines (fun _ e => { e with runs := [] }) })
  let s := runs.foldl (fun s r => moverRecord s r.queue r.desc 12 0 false) s
  s.mover.queues.foldl (fun s e =>
    moverRelease (e.2.waiting.foldl (fun s d => moverRecord s e.1 d 12 0 false) (s.onMvq e.1 (fun q => { q with waiting := [] }))) e.1) s

/-- Quarantine an island (02 R53, R61). `cause` goes into the log entry: 0 for a ledger fault or a known-answer test, else the
status of a failed self-test (23). -/
def quarantine (s : State) (i cause : Nat) : State :=
  if quarantined s i || 147 < i then s
  else
    let s := rindLog (rindCount s 0x0C) 0x0002 i (le 2 cause)
    let s := s.onIsland i (fun x => { x with quarantined := true })
    if i < 128 then tumblerQuarantine s i
    else if 130 ≤ i && i < 134 then leaveAdoption (netQuarantine s (i - 130)) i
    else if 134 ≤ i && i < 138 then leaveAdoption (tpOff s (i - 134) .islandQuarantined .islandQuarantined .islandQuarantined) i
    else if i == 140 then leaveAdoption (gdpQuarantine s) i
    else if i == 141 then leaveAdoption (moverQuarantine s) i
    else if i == 142 || i == 143 then leaveAdoption (codecQuarantine s (i - 142)) i
    else if i == 144 then leaveAdoption (storQuarantine s) i
    else enterFaulted s i

/-- A ledger fault is reported (02 R56): the counter, the log entry and the event records. -/
def ledgerReport (s : State) (kind island index held inUse total : Nat) : State :=
  let s := rindMinute (rindCount s 0x0B) 21
  let s := rindLog s 0x0001 island ([byteOf kind, 0] ++ le 2 index ++ le 4 held ++ le 4 inUse ++ le 4 total)
  let pay := [byteOf kind, byteOf island] ++ le 2 index ++ zeros 4 ++ le 4 held ++ le 4 inUse ++ le 4 total
  let s := raiseEvent s 0 0x0002 0 0 pay
  if island < 128 then
    (match tumblerOwner s s.cfg island with | some p => raiseTenants s p 0x0002 pay | none => s)
  else s

/-- A ledger fault of an instance (02 R53, R55, R56): its keeper is quarantined, or its component restarts. -/
def ledgerFault (s : State) (kind island index held inUse total : Nat) : State :=
  let s := ledgerReport s kind island index held inUse total
  if kind == 7 then componentFault s 2
  else if kind == 8 then componentFault s 1
  else quarantine s island 0

/-- A known-answer test of an algorithm fails (07 R210). -/
def katFault (s : State) (alg : Nat) : State :=
  quarantine (rindLog (rindCount (ledgerReport s 0 139 alg 0 0 0) 0x0E) 0x000C 139 [byteOf alg]) 139 0

/-- CIPHER_SELFTEST (07 R210, 19): `failing` is the first algorithm whose test fails, or 0. The command's record is written
before the device stops. -/
def execCipherSelftest (h : Hdr) (failing : Nat) (s : State) : Host.Outcome State Fault Refusal :=
  boothStep (info 0x06 0x04) h (fun _ => [])
    (fun s =>
      if failing == 0 then .done s .ok [0]
      else
        let s := ledgerReport s 0 139 failing 0 0 0
        let s := rindLog (rindCount s 0x0E) 0x000C 139 [byteOf failing]
        .long (quarantine (finish s h.fn h.id .selftestFail { result := [byteOf failing] }) 139 0)) s

/-- ISLAND_RELEASE (02 R54, R61, 19 R509): a tumbler whose self-test passes returns to service with the current
configuration; its acts are in its instruction memory again (08 R221). -/
def execIslandRelease (h : Hdr) (island : Nat) (passes : Bool) (s : State) : Host.Outcome State Fault Refusal :=
  boothStep (info 0x02 0x07) h
    (fun s => [(127 < island || !quarantined s island, .badRequest),
               (decide (3 < (tgetD s.islands island {}).faults), .notPermitted),
               (!passes, .selftestFail)])
    (fun s => .done (starvedCheck (s.onIsland island (fun x => { x with quarantined := false }))) .ok []) s

end Sys2Proof.Machine
end

