-- ==== Sys2Proof/Machine/Registers.lean ====
section
/-! DEFINITION. Machine/Registers.lean: the registers of control space (03 R70, R88, R659; 05 R140; 11 TP_STATE; 21 AO_,
MS_ and PB_; 23 AO_RIND_, AO_ID and ATB_): their values, what a read latches or clears, and what a write does.

An offset is counted from 0x0200_0000_0000 and names a 32-bit word. -/

namespace Sys2Proof.Machine

/-- The default priority of a master (03 R83). -/
def defaultPriority (m : Nat) : Nat :=
  if m < 5 then 12 else if m == 5 then 10 else if m < 10 then 9 else if m < 13 then 11 else if m == 13 then 9
  else if m < 16 then 6 else if m < 18 then 7 else if m < 20 then 8 else if m < 24 then 10 else 11

/-- The priority of a master at a target under a configuration (03 R88). -/
def mwPriority (c : Cfg) (t m : Nat) : Nat := tgetD c.own.priority (28 * t + m) (defaultPriority m)

/-- Half of a 64-bit register: 0 the low word. -/
def wordHalf (v h : Nat) : Nat := v / 2 ^ (32 * h) % 2 ^ 32

/-- A MW_ register. -/
def mwReg (s : State) (o : Nat) : Option Nat :=
  if o < 0x160 then
    let t := o / 16
    let j := o / 4 % 4
    some (((List.range 8).map (fun k => if 8 * j + k < 28 then mwPriority s.cfg t (8 * j + k) * 16 ^ k else 0)).sum)
  else if 0x1000 ≤ o && o < 0x1000 + 22 * 0x40 then
    let m := tgetD s.mem.targets ((o - 0x1000) / 0x40) {}
    let h := o / 4 % 2
    match (o - 0x1000) % 0x40 / 8 with
    | 0 => some (wordHalf m.unmapped h)
    | 1 => some (wordHalf m.denied h)
    | 2 => some (wordHalf m.lockbrk h)
    | 3 => some (wordHalf m.corr h)
    | 4 => some (wordHalf m.firstFault h)
    | _ => none
  else none

/-- TP_STATE of a port (11). -/
def tpStateReg (t : Tp) : Nat :=
  let st := match t.st with | .down => 0 | .training => 1 | .active => 2 | .degraded => 3 | .stalled => 4
  st * 2 ^ 28 + t.spareUsed * 2 ^ 24 + t.fibreDropped * 2 ^ 20 + min t.tries 15 * 2 ^ 16 + b2n t.combOk

/-- An alarm's registers (21, AO_ALARMn). -/
def alarmReg (a : Alarm) (r : Nat) : Option Nat :=
  let first := a.first.getD 0
  match r with
  | 0 => some (b2n a.enable + 2 * b2n a.periodic + 4 * b2n a.wake)
  | 1 => some (wordHalf a.t 0)
  | 2 => some (wordHalf a.t 1)
  | 3 => some (max a.period 1)
  | 4 => some (a.count * 65536 + 4 * b2n a.onBackup + b2n a.fired)
  | 5 => some (wordHalf first 0)
  | 6 => some (wordHalf first 1)
  | _ => none

/-- An event log entry as its 32 octets (23 R608). -/
def logBytes (e : RindEntry) : List Byte :=
  le 8 e.time ++ le 4 e.seq ++ le 2 e.typ ++ [byteOf e.island, byteOf e.flags] ++ fit 16 e.detail

/-- The first 256 octets of the identity record (23 R623). -/
def identity : List Byte :=
  let d := le 8 Config.unitId ++ (List.range 13).map (fun i => Config.identityByte (8 + i)) ++ [0x10]
    ++ (List.range 230).map (fun i => Config.identityByte (22 + i))
  d ++ le 4 (crc32 d)

/-- The Rind registers of the AO_ block (23 R615). -/
def rindReg (s : State) (a : Nat) : Option Nat :=
  let r := s.rind
  if a == 0x100 then
    some (r.lastBlock * 256 + 16 * b2n r.flashFail + 8 * b2n r.restored + 4 * b2n r.empty + 2 * b2n r.committing + b2n r.dirty)
  else if a == 0x108 || a == 0x10C then some (wordHalf r.commitTime (a / 4 % 2))
  else if a == 0x110 then some (modSub 32 r.nextSeq 1)
  else if a == 0x114 then some r.log.length
  else if a == 0x120 then some s.mgmt.logSel
  else if 0x140 ≤ a && a < 0x160 then
    let d := if a == 0x140 then (match r.log.find? (fun e => e.seq == s.mgmt.logSel) with
        | some e => logBytes e
        | none => List.replicate 32 0xFF)
      else s.mgmt.logBuf
    some (ofLe (fit 4 (d.drop (a - 0x140))))
  else if 0x400 ≤ a && a < 0x500 then
    some (if r.idShown then ofLe (fit 4 (identity.drop (a - 0x400))) else 0xFFFFFFFF)
  else if 0x1000 ≤ a && a < 0x1800 then
    let id := (a - 0x1000) / 8
    let v := tgetD r.counters id 0
    some (if a % 8 == 0 then wordHalf v 0 else (tget s.mgmt.cntHi id).getD (wordHalf v 1))
  else if 0x2000 ≤ a && a < 0x4000 then some (tgetD r.hists ((a - 0x2000) / 4) 0)
  else none

/-- The registers of the AO_ block (21). -/
def aoReg (s : State) (a : Nat) : Option Nat :=
  let m := s.mgmt
  let p := s.power
  let rtc := s.clock.rtc
  let now := if p.vmain then s.clock.now else 0
  if 0x040 ≤ a && a < 0x0C0 then alarmReg (tgetD m.alarms ((a - 0x040) / 0x20) {}) ((a - 0x040) % 0x20 / 4)
  else match a with
    | 0x000 =>
      let v := if p.vbat then p.vbat20 else 0
      some (v % 256 * 256 + 4 * b2n (v < 120) + 2 * b2n (!p.vstby && p.vbat) + b2n p.vmain)
    | 0x010 => some (wordHalf rtc 0)
    | 0x014 => some m.rtcHi
    | 0x018 => some 0
    | 0x01C => some 0
    | 0x0C0 => some (wordHalf now 0)
    | 0x0C4 => some m.devtHi
    | 0x0D0 => some (m.playbill.updates * 65536 + m.playbill.phase * 256 + 2 * b2n m.playbill.fbValid + b2n m.playbill.uip)
    | 0x0D4 => some m.alert
    | 0x0D8 => some (wordHalf m.alertTime 0)
    | 0x0DC => some (wordHalf m.alertTime 1)
    | a => rindReg s a

/-- The registers of the MS_ block (21, 22). -/
def msReg (s : State) (a : Nat) : Option Nat :=
  let m := s.mgmt
  match a with
  | 0x000 => some (m.msLast * 65536 + m.msExtra * 256 + 4 * b2n m.msExtraSeen + 2 * b2n m.msFailed + b2n s.power.vmain)
  | 0x010 => some m.cntShort
  | 0x014 => some m.cntLong
  | 0x018 => some m.cntCrc
  | 0x020 => some (4 * b2n m.quiesced + 2 * b2n m.refused)
  | _ => none

/-- Does the management component perform the frames of the management SPI? In every other state the frame unit does, on the
AO_, MS_ and PB_ blocks only (21 R564, 22 R590, R603). -/
def managed (s : State) : Bool :=
  s.power.vmain && (s.power.st == .boot || s.power.st == .run || s.power.st == .faulted)

/-- The registers of the ATB_ block (23 R618); they read as ones without the management component (21 R564). -/
def atbReg (s : State) (a : Nat) : Option Nat :=
  let t := s.test
  if !managed s then some 0xFFFFFFFF
  else if 0x1000 ≤ a && a < 0x5000 then some (tgetD t.capture ((a - 0x1000) / 4) 0)
  else match a with
    | 0x000 => some t.atbCtrl
    | 0x004 => some (2 ^ 30 * b2n t.busy + 2 ^ 29 * t.mode + 65536 * t.count + max t.div 1)
    | 0x008 => some t.result
    | _ => none

/-- The value of a control-space word; none where the manual names no register (03 R659). -/
def regValue (s : State) (o : Nat) : Option Nat :=
  if o / 0x10000 == 1 then mwReg s (o - 0x10000)
  else if 0x100000 ≤ o && o < 0x140000 then
    (if o % 0x10000 < 8 then some (wordHalf (tgetD s.net.carTurn ((o - 0x100000) / 0x10000) 0) (o / 4 % 2)) else none)
  else if 0x300000 ≤ o && o < 0x340000 then
    (if o % 0x10000 == 0 then some (tpStateReg (s.tport ((o - 0x300000) / 0x10000))) else none)
  else match o / 0x10000 with
    | 0x40 => aoReg s (o - 0x400000)
    | 0x41 => msReg s (o - 0x410000)
    | 0x42 => if o == 0x420000 then some (s.mgmt.playbill.check * 65536 + s.mgmt.playbill.outcome) else none
    | 0x43 => atbReg s (o - 0x430000)
    | _ => none

/-- What a read of a word latches (21, 23 R615). -/
def regLatch (s : State) (o : Nat) : State :=
  let a := o - 0x400000
  if o / 0x10000 != 0x40 then s
  else if a == 0x010 then s.onMgmt (fun m => { m with rtcHi := wordHalf s.clock.rtc 1 % 2 ^ 31 + 2 ^ 31 * b2n s.clock.timeInvalid })
  else if a == 0x0C0 then s.onMgmt (fun m => { m with devtHi := if s.power.vmain then wordHalf s.clock.now 1 else 0 })
  else if a == 0x140 then
    s.onMgmt (fun m => { m with logBuf := match s.rind.log.find? (fun e => e.seq == m.logSel) with
      | some e => logBytes e
      | none => List.replicate 32 0xFF })
  else if 0x1000 ≤ a && a < 0x1800 && a % 8 == 0 then
    let id := (a - 0x1000) / 8
    s.onMgmt (fun m => { m with cntHi := tset m.cntHi id (wordHalf (tgetD s.rind.counters id 0) 1) })
  else s

/-- The bits of `v` that `r` had as 1 become 0. -/
def clearBits (v r : Nat) : Nat := v - (v &&& r)

/-- Change one alarm. -/
def onAlarm (s : State) (n : Nat) (f : Alarm → Alarm) : State := s.onMgmt (fun m => { m with alarms := tupd m.alarms n {} f })

/-- What a read that returned `v` clears in a word's RC fields (00 R14). -/
def regClear (s : State) (o v : Nat) : State :=
  let a := o - 0x400000
  let m := o - 0x11000
  if o == 0x410000 then
    s.onMgmt (fun x => { x with msExtraSeen := x.msExtraSeen && !bit v 2, msFailed := x.msFailed && !bit v 1 })
  else if o / 0x10000 == 0x40 && 0x040 ≤ a && a < 0x0C0 && a % 0x20 == 0x10 then
    onAlarm s ((a - 0x040) / 0x20) (fun x => { x with
      fired := x.fired && !bit v 0
      onBackup := x.onBackup && !bit v 2
      count := clearBits x.count (v / 65536) })
  else if 0x11000 ≤ o && m < 22 * 0x40 && m % 0x40 / 8 == 4 then
    s.onTarget (m / 0x40) (fun x => { x with firstFault := clearBits x.firstFault (v * 2 ^ (32 * (o / 4 % 2))) })
  else s

/-- A whole read of a control-space word: its value, and the state with what it latches and clears. A word without a
register returns a free value (03 R659). -/
def regRead (s : State) (o : Nat) : Nat × State :=
  match regValue s o with
  | some v => (v, regClear (regLatch s o) o v)
  | none => let d := draw s; (d.1 % 2 ^ 32, d.2)

/-- Read octets of control space, word by word in ascending order. -/
def controlRead (s : State) (o n : Nat) : List Byte × State :=
  let lo := o / 4
  let words := ceilDiv (o % 4 + n) 4
  let r : List Byte × State := (List.range words).foldl (fun acc i =>
    let x := regRead acc.2 (4 * (lo + i))
    (acc.1 ++ le 4 x.1, x.2)) ([], s)
  ((r.1.drop (o % 4)).take n, r.2)

/-! Writes (21 R561, R564, R569, R571; 23 R615, R619). -/

/-- Clear an alarm's STATUS, COUNT and FIRST (21 R571); it asserts WAKE_N no longer (21 R572). -/
def alarmClear (a : Alarm) : Alarm := { a with fired := false, count := 0, first := none, onBackup := false, waking := false }

/-- A write of AO_ALARMn_CTRL. -/
def alarmCtrl (a : Alarm) (v : Nat) : Alarm := alarmClear { a with enable := bit v 0, periodic := bit v 1, wake := bit v 2 }

/-- A write of AO_ALARMn_PERIOD; 0 stands for 1. -/
def alarmPeriod (a : Alarm) (v : Nat) : Alarm := alarmClear { a with period := max (v % 2 ^ 32) 1 }

/-- A write of AO_ALARMn_T_HI makes both words take effect. -/
def alarmTHi (a : Alarm) (v : Nat) : Alarm := alarmClear { a with t := v % 2 ^ 31 * 2 ^ 32 + a.tLo }

/-- A write of AO_RTC_SET_HI sets the RTC from both words. -/
def rtcSet (s : State) (v : Nat) : State :=
  s.onClock (fun c => { c with rtc := v % 2 ^ 31 * 2 ^ 32 + s.mgmt.rtcSetLo, timeInvalid := false })

/-- A write of ATB_CTRL. -/
def atbCtrlSet (s : State) (v : Nat) : State := s.onTest (fun t => { t with atbCtrl := v % 2 ^ 32 / 64 * 64 })

/-- The RW fields of ATB_ADC; a COUNT outside 1 to 4,096 leaves the field unchanged (00 R16). -/
def atbAdcFields (s : State) (v : Nat) : State :=
  s.onTest (fun t => { t with
    mode := b2n (bit v 29)
    count := if field v 16 13 == 0 || 4096 < field v 16 13 then t.count else field v 16 13
    div := v % 4096 })

/-- The node the converter reads, and the value a reading `x` of it stands for; the rail of a domain that is switched off reads
below 50 mV (23 R616, R618). -/
def atbReading (off : List Nat) (t : Test) (x : Nat) : Nat :=
  let node := if bit t.atbCtrl 6 then field t.atbCtrl 12 9 else field t.atbCtrl 21 9
  if 0x1E0 ≤ node then (if 147 < 32 * field t.atbCtrl 7 3 + (node - 0x1E0) then 0 else x % 65536)
  else if node < 236 && off.contains node then x % 171
  else x % 4096

/-- A START while no conversion runs: a single conversion, whose reading is `x`, or a capture (23 R618). -/
def atbStart (s : State) (x : Nat) : State :=
  s.onTest (fun t =>
    if t.busy then t
    else if t.mode == 1 then (if t.count == 0 then t else { t with busy := true, goal := t.count, taken := 0 })
    else { t with result := 2 ^ 31 + atbReading s.power.gated t x })

/-- May the management SPI write a word now? -/
def spiWritable (s : State) (o : Nat) : Bool :=
  let a := o - 0x400000
  if o / 0x10000 == 0x40 then
    a == 0x018 || a == 0x01C || a == 0x120 || (0x040 ≤ a && a < 0x0C0 && a % 0x20 < 0x10 && a % 4 == 0)
  else o == 0x410020 || ((o == 0x430000 || o == 0x430004) && managed s)

/-- Write a word that has no effect beyond its registers. A single conversion that the write starts reads `x`. -/
def regWrite (s : State) (o v x : Nat) : State :=
  let a := o - 0x400000
  let n := (a - 0x040) / 0x20
  if !spiWritable s o then s
  else if o == 0x430000 then atbCtrlSet s v
  else if o == 0x430004 then (let s := atbAdcFields s v; if bit v 31 then atbStart s x else s)
  else if o == 0x410020 then s
  else if a == 0x018 then s.onMgmt (fun m => { m with rtcSetLo := v % 2 ^ 32 })
  else if a == 0x01C then rtcSet s v
  else if a == 0x120 then s.onMgmt (fun m => { m with logSel := v % 2 ^ 32 })
  else match (a - 0x040) % 0x20 / 4 with
    | 0 => onAlarm s n (fun x => alarmCtrl x v)
    | 1 => onAlarm s n (fun x => { x with tLo := v % 2 ^ 32 })
    | 2 => onAlarm s n (fun x => alarmTHi x v)
    | _ => onAlarm s n (fun x => alarmPeriod x v)

end Sys2Proof.Machine
end

