-- ==== Sys2Proof/Machine/Power.lean ====
section
/-! DEFINITION. Machine/Power.lean: supplies, resets, the boot chain, bring-up, temperature and power limits (22), and the
loss of a reference clock (25 R645). -/

namespace Sys2Proof.Machine

/-! What a reset of the VMAIN domains leaves (22 R593, R594). -/

/-- The tumbler quarantines that a warm reset keeps: those after a fourth fault (02 R54). -/
def keptIslands (t : Tbl Island) : Tbl Island :=
  (tfilter t (fun n x => decide (n < 128) && decide (0 < x.faults))).map
    (fun e => (e.1, { e.2 with quarantined := decide (3 < e.2.faults) }))

/-- Everything powered from VMAIN returns to its reset value. A warm reset keeps Device Time and the quarantine counts. -/
def resetVmain (s : State) (warm : Bool) : State :=
  let s := (List.range 4).foldl (fun s d => if driveLink s.cfg d then s.send (.drivePerst d true) else s) s
  { s with
    host := {}
    fns := []
    parts := []
    comps := []
    deferred := []
    resize := none
    detaches := []
    mem := {}
    chans := []
    audits := []
    islands := if warm then keptIslands s.islands else []
    net := {}
    sess := {}
    cipher := {}
    acts := {}
    tp := {}
    gdp := {}
    mover := {}
    codec := {}
    stor := {}
    press := {}
    cfg := {}
    test := if warm then { ir := s.test.ir, restricted := s.test.restricted, bootWaits := s.test.bootWaits, hbmStack := s.test.hbmStack } else {}
    clock := if warm then { s.clock with ppb := 0 }
      else { s.clock with
        now := 0
        cadence := 0
        ppb := 0
        frac := 0
        rtcWrite := none
        steppedAt := none }
    mgmt := { s.mgmt with
      eids := []
      mctpWait := []
      bootReady := warm && s.mgmt.bootReady
      playbill := { s.mgmt.playbill with cmd := none } }
    rind := { s.rind with waiters := [], nextWaiters := [] }
    power := { s.power with
      order := 0
      tumblerFreq := 100
      codecFreq := 100
      throttling := false
      stepAt := none
      gated := []
      shutdown := false } }

/-! The boot chain (22 R597 to R603). -/

/-- The header record in force (22 R599). -/
def headerOf (f : Flash) : HdrRecord :=
  if f.hdr0.valid && (!f.hdr1.valid || !newer 32 f.hdr1.seq f.hdr0.seq) then f.hdr0
  else if f.hdr1.valid then f.hdr1
  else {}

/-- Write a header: the record that is not in force, with the next sequence (22 R599). -/
def headerWrite (f : Flash) (h : HdrRecord) : Flash :=
  let r := { h with valid := true, seq := modAdd 32 (headerOf f).seq 1 }
  if f.hdr0.valid && (!f.hdr1.valid || !newer 32 f.hdr1.seq f.hdr0.seq) then { f with hdr1 := r } else { f with hdr0 := r }

/-- State and TRIES of a slot. -/
def slotState (h : HdrRecord) (k : Nat) : ImgState × Nat := if k == 0 then (h.stA, h.triesA) else (h.stB, h.triesB)

/-- A header with a slot changed. -/
def slotSet (h : HdrRecord) (k : Nat) (st : ImgState) (tries : Nat) : HdrRecord :=
  if k == 0 then { h with stA := st, triesA := tries } else { h with stB := st, triesB := tries }

/-- The image of a slot. -/
def imageOf (f : Flash) (k : Nat) : Image := if k == 0 then f.imgA else f.imgB

/-- The first check of 22 R598 an image fails: its reason, or 0. -/
def imageReason (x : Fuses) (i : Image) : Nat :=
  if !i.readable then 1
  else if !i.headerOk then 2
  else if !bit i.steppings 1 then 3
  else if !i.keyMatches || bit x.revoked i.keyIndex then 4
  else if !i.hashOk then 5
  else if !i.ecdsaOk || !i.mldsaOk then 6
  else if i.svn < x.svnMin then 7
  else 0

/-- Mark a slot BAD: the record, the counter and the log entry (22 R600, 23). -/
def markBad (s : State) (k reason : Nat) : State :=
  let h := headerOf s.flash
  rindLog (rindCount (s.onFlash (fun f => headerWrite f (slotSet h k .bad (slotState h k).2))) 0x0A) 0x000A 255
    [byteOf k, byteOf reason]

/-- The slots of a state, A first. -/
def slotsIn (h : HdrRecord) (st : ImgState) : List Nat := (List.range 2).filter (fun k => (slotState h k).1 == st)

/-- Choose the candidate slots (22 R600). The reason of a trial slot marked BAD is the free value (log entry 40, DESIGN CHOICE). -/
def candidates (s : State) : List Nat × State :=
  let h := headerOf s.flash
  match slotsIn h .trial with
  | k :: _ =>
    if (slotState h k).2 < 2 then
      (k :: slotsIn h .active, s.onFlash (fun f => headerWrite f (slotSet h k .trial ((slotState h k).2 + 1))))
    else
      let d := draw s
      (slotsIn h .active ++ slotsIn h .valid, markBad d.2 k (d.1 % 256))
  | [] => (slotsIn h .active ++ slotsIn h .valid, s)

/-- The device refuses to start (22 R603). -/
def enterRefused (s : State) (slot reason : Nat) : State :=
  let s := s.onMgmt (fun m => { m with alert := 0x0400 + reason % 256, alertTime := s.clock.rtc, refused := true })
  let s := assertAlert (s.onPower (fun p => { p with st := .refused }))
  let s := rindLog (rindCount s 0x09) 0x0009 255 [byteOf reason, byteOf slot]
  if s.power.vstby && (activeConfig s.flash).playbill == 1 && s.mgmt.playbill.phase == 0 then playbillStart s
  else s.onPlaybill (fun p => { p with alertPending := true })

/-- Check the candidates in order: boot the first that passes, or refuse. -/
def bootFrom (s : State) (first : Nat × Nat) : List Nat → State
  | [] => enterRefused s first.2 first.1
  | k :: ks =>
    match imageReason s.fuses (imageOf s.flash k) with
    | 0 => s.onPower (fun p => { p with bootSlot := k, trial := (slotState (headerOf s.flash) k).1 == .trial })
    | r => bootFrom (markBad s k r) (if first.1 == 0 then (r, k) else first) ks

/-- The boot flow starts: the boot ROM chooses a slot. With no candidate at all the reason is the free value. -/
def bootStart (s : State) : State :=
  let s := s.onMgmt (fun m => { m with quiesced := false, refused := false })
  let s := s.onMem (fun m => { m with spoiled := [] })
  let s := s.onPower (fun p => { p with st := .boot, order := 0 })
  let c := candidates s
  match c.1 with
  | [] => let d := draw c.2; enterRefused d.2 0 (d.1 % 256)
  | ks => bootFrom c.2 (0, 0) ks

/-- Raise SVN_MIN when a slot becomes ACTIVE (22 R601). -/
def svnRaise (s : State) : State :=
  let h := headerOf s.flash
  let svns := ((slotsIn h .active ++ slotsIn h .valid).map (fun k => (imageOf s.flash k).svn))
  match svns with
  | [] => s
  | x :: xs => { s with fuses := { s.fuses with svnMin := max s.fuses.svnMin (xs.foldl min x) } }

/-- A trial that reached RUN in time succeeds (22 R600). -/
def trialEnds (s : State) : State :=
  if !s.power.trial || s.power.bootAt + 10000000000 < s.clock.cadence then s
  else
    let h := headerOf s.flash
    let k := s.power.bootSlot
    let h := if (slotState h (1 - k)).1 == .active then slotSet h (1 - k) .valid (slotState h (1 - k)).2 else h
    svnRaise ((s.onFlash (fun f => headerWrite f (slotSet h k .active (slotState h k).2))).onPower (fun p => { p with trial := false }))

/-! Resets (22 R583, R584, R592, R595). -/

/-- A warm reset is triggered: the orderly shutdown begins (22 R595). -/
def warmReset (s : State) : State :=
  if s.power.shutdown || s.mgmt.quiesced || !s.power.vmain || !s.power.vstby then s
  else
    let s := rindCount s 0x01
    let s := { s with fns := tmap s.fns (fun _ f => { f with booth := { f.booth with ready := false, outst := [] } }) }
    let goal := modAdd 32 s.rind.flash.recordSeq (if s.rind.committing then 2 else 1)
    rindTrigger (s.onPower (fun p => { p with shutdown := true, commitGoal := goal, resetKind := some .warm, bootAt := 0 }))

/-- The boot flow of a warm reset starts when QUIESCED is set, PERST_N is deasserted and no restricted JTAG instruction is
in effect (22 R595, 23 R621). -/
def warmStart (s : State) : State :=
  if !s.mgmt.quiesced || s.power.perst || !s.power.vmain then s
  else if s.test.restricted then s.onTest (fun t => { t with bootWaits := true })
  else
    let s := s.onTest (fun t => { t with bootWaits := false })
    bootStart (if s.power.bootAt == 0 then s.onPower (fun p => { p with bootAt := s.clock.cadence }) else s)

/-- RTC form to Device Time (21 R569). -/
def rtcToTime (r : Nat) : Nat := r / 32768 * 1000000000 + r % 32768 * 1000000000 / 32768

/-- Device Time to RTC form (21 R569). -/
def timeToRtc (d : Nat) : Nat := d / 1000000000 * 32768 + d % 1000000000 * 32768 / 1000000000

/-- A power-on reset: the VMAIN domains start with Device Time from the RTC, and the boot ROM runs (22 R592, 21 R569). -/
def powerOn (s : State) : State :=
  let s := resetVmain s false
  let s := s.onClock (fun c => { c with now := if c.timeInvalid then 0 else rtcToTime c.rtc })
  let s := rindCount s 0x00
  let s := rindBin s 29 (if s.clock.timeInvalid then 31 else
    match s.power.vmainOffAt with
    | some t => log2Bin ((s.clock.rtc - t) / 32768)
    | none => 31)
  bootStart (s.onPower (fun p => { p with resetKind := some .powerOn, bootAt := 0, vmainOffAt := none }))

/-- VMAIN_GOOD (22 R583, R584). Without VSTBY the VMAIN domains stay in reset. -/
def execVmainGood (s : State) : Host.Outcome State Fault Refusal :=
  if s.power.vmain then .next s
  else
    let s := s.onPower (fun p => { p with vmain := true })
    .next (if s.power.vstby then powerOn s else s)

/-- BROWNOUT (22 R584): every VMAIN domain loses power at once. -/
def execBrownout (s : State) : Host.Outcome State Fault Refusal :=
  if !s.power.vmain then .next s
  else
    let s := s.onPower (fun p => { p with
      vmain := false
      vmainOffAt := some s.clock.rtc
      st := if p.vstby then .standby else if p.vbat then .backup else .off })
    let s := rindLog (rindCount s 0x06) 0x0008 255 []
    .next ((resetVmain s false).onMgmt (fun m => { m with refused := false, quiesced := false }))

/-- The state of the always-on island without VMAIN domains. -/
def restState (vstby vbat : Bool) : PowerSt := if vstby then .standby else if vbat then .backup else .off

/-- VSTBY_LOSS (22 R583): the VMAIN domains reset, a record being written is lost, and a Playbill update is interrupted
with its seal open (21 R579, 23 R613). -/
def execVstbyLoss (s : State) : Host.Outcome State Fault Refusal :=
  if !s.power.vstby then .next s
  else
    let s := (resetVmain s false).onMgmt (fun m => { m with refused := false, quiesced := false })
    let s := s.onRind (fun r => { r with committing := false, writing := none, again := false })
    let s := s.onPlaybill (fun p => if p.phase == 0 then p else { p with phase := 0, outcome := 2 })
    .next (s.onPower (fun p => { p with
      vstby := false
      st := restState false p.vbat
      vmainOffAt := if p.vmain then some s.clock.rtc else p.vmainOffAt }))

/-- What follows when VSTBY is there again: the redraw of an interrupted label, and the start of the device (22 R583, 21
R579). -/
def vstbyBack (s : State) : State :=
  let s := s.onPower (fun p => { p with vstby := true, st := .standby })
  let s := if s.mgmt.playbill.uip && s.mgmt.playbill.fbValid then playbillDraw s else s
  if s.power.vmain then powerOn s else s

/-- VSTBY_RETURN (22 R583): the always-on island has run from VBAT. -/
def execVstbyReturn (s : State) : Host.Outcome State Fault Refusal :=
  if s.power.vstby || !s.power.vbat then .next s else .next (vstbyBack s)

/-- VBAT_LOW (21 R570): with VSTBY absent the RTC stops and TIME_INVALID is set. -/
def execVbatLow (s : State) : Host.Outcome State Fault Refusal :=
  if s.power.vstby || !s.power.vbat then .next s
  else .next ((s.onPower (fun p => { p with vbat := false, st := .off })).onClock (fun c => { c with timeInvalid := true }))

/-- ALWAYS_ON_POWER_ON (22 R592, R593, 23 R613): the always-on island starts alone, from VSTBY or from VBAT, with every
register at its reset value and an empty shadow. -/
def execAlwaysOnPowerOn (onVstby : Bool) (s : State) : Host.Outcome State Fault Refusal :=
  if s.power.vstby || s.power.vbat then .next s
  else
    let s := { s with
      mgmt := { config := s.mgmt.config }
      clock := { s.clock with rtc := 0, timeInvalid := true }
      rind := { flash := s.rind.flash, nextBlock := s.rind.nextBlock, empty := true, idShown := false } }
    let s := rindCount (s.onPower (fun p => { p with vbat := !onVstby, st := .backup, vmainOffAt := none })) 0x02
    .next (if onVstby then vstbyBack s else s)

/-- PERST_N_ASSERT (22 R592). -/
def execPerstNAssert (s : State) : Host.Outcome State Fault Refusal :=
  if s.power.perst then .next s else .next (warmReset (s.onPower (fun p => { p with perst := true })))

/-- PERST_N_DEASSERT (22 R595): the boot flow of a warm reset starts once QUIESCED. WAKE_N is released (21 R572). -/
def execPerstNDeassert (s : State) : Host.Outcome State Fault Refusal :=
  if !s.power.perst then .next s
  else
    let s := s.onPower (fun p => { p with
      perst := false
      bootAt := if p.resetKind == some .warm && (p.shutdown || s.mgmt.quiesced) then s.clock.cadence else p.bootAt })
    let s := if s.power.vmain then s.onMgmt (fun m => { m with alarms := tmap m.alarms (fun _ a => { a with waking := false }) }) else s
    .next (warmStart s)

/-- HOT_RESET: the host link goes down, or a hot reset is received on it (22 R592). -/
def execHotReset (s : State) : Host.Outcome State Fault Refusal :=
  .next (warmReset (s.onHost (fun h => { h with linkUp := false })))

/-- QUIESCED (22 R595): the orderly shutdown ends after its record of the Rind; later ones are not waited for (23 R611). -/
def execQuiesced (s : State) : Host.Outcome State Fault Refusal :=
  if !s.power.shutdown || (s.rind.committing && newer 32 s.power.commitGoal s.rind.flash.recordSeq) then .next s
  else
    let s := resetVmain s true
    let s := s.onPower (fun p => { p with st := .boot })
    .next (warmStart (s.onMgmt (fun m => { m with quiesced := true, refused := false })))

/-! Bring-up (22 R602, R604). -/

/-- The islands in the order of bring-up. -/
def bringOrder : List Nat :=
  [128, 129, 145, 146, 147, 139, 138, 140, 141] ++ List.range 128 ++ [142, 143, 144, 130, 131, 132, 133, 134, 135, 136, 137]

/-- The standby log follows the entries in force, with SEQ continuing from the newest of them (23 R613). -/
def mergeLog (r : Rind) : List RindEntry :=
  let l := r.flash.log ++ r.log.zipIdx.map (fun e => { e.1 with seq := modAdd 32 r.flash.nextSeq e.2 })
  l.drop (l.length - 8192)

/-- The Rind in force and the standby increments are merged into the shadow (23 R613). -/
def rindMerge (s : State) : State :=
  let r := s.rind
  if !r.empty then s
  else
    let s := s.onRind (fun r => { r with
      counters := r.flash.counters.foldl (fun t e => tupd t e.1 0 (fun c => satAdd 64 c e.2)) r.counters
      hists := r.flash.hists.foldl (fun t e => tupd t e.1 0 (fun c => satAdd 32 c e.2)) r.hists
      log := mergeLog r
      nextSeq := modAdd 32 r.flash.nextSeq r.log.length
      empty := false
      restored := true })
    let s := (List.range (r.flash.log.length + r.log.length - 8192)).foldl (fun s _ => rindCount s 0x22) s
    rindLog (rindCount s 0x03) 0x000B 255 (le 4 (modSub 32 r.flash.nextSeq 1) ++ le 4 0 ++ le 8 r.flash.rtc)

/-- The control complex is up: the configuration block is chosen, the Rind merged and committed (22 R602, 23 R611). -/
def controlUp (s : State) : State :=
  let c := activeConfig s.flash
  let s := { s with fixedMode := c.shareMode == 0, mgmt := { s.mgmt with config := c } }
  rindTrigger (rindMerge (s.onRind (fun r => { r with idShown := true })))

/-- The boot flow is over: the trial ends, ALERT_N is released (log entry 41, DEDUCED), and a pending alert or a lost frame buffer
is drawn (21 R579, R580). -/
def reachRun (s : State) : State :=
  let s := s.onPower (fun p => { p with st := .run, resetKind := none })
  let s := trialEnds (s.onMgmt (fun m => { m with alertN := false }))
  let p := s.mgmt.playbill
  if !playbillReady s then s
  else if (p.alertPending && !p.interval) || (!p.fbValid && s.flash.content.isSome) then playbillStart s
  else s

/-- ISLAND_BRING_UP (22 R604): the next island of the order is powered, zero-filled and self-tested. `kat` is the
first algorithm whose known-answer test fails, or 0; it counts with the control complex (07 R210, 22 R602). -/
def execIslandBringUp (passes : Bool) (kat : Nat) (s : State) : Host.Outcome State Fault Refusal :=
  let k := s.power.order
  match bringOrder[k]? with
  | none => .next s
  | some i =>
    if s.power.st != .boot || s.mgmt.quiesced || s.power.shutdown || (0 < k && s.power.tripWait) then .next s
    else
      let s := s.onPower (fun p => { p with order := k + 1 })
      let s := if i == 128 then controlUp s else s
      let s := if !passes then quarantine s i 0x0041 else s
      let s := if i == 128 && kat != 0 && s.power.st == .boot then katFault s kat else s
      let s := if i == 144 && passes then
          (List.range 4).foldl (fun s d => if driveLink s.cfg d then s.send (.drivePerst d false) else s) s
        else s
      .next (if s.power.order == 148 && s.power.st == .boot then reachRun s else s)

/-- TRIAL_TIMEOUT (22 R600): a trial that has not reached RUN within 10 s causes a warm reset. It still stands when its boot
flow has reached RUN too late, or FAULTED. -/
def execTrialTimeout (s : State) : Host.Outcome State Fault Refusal :=
  if s.power.trial && (s.power.st == .boot || s.power.st == .run || s.power.st == .faulted) && !s.mgmt.quiesced then .next (warmReset s) else .next s

/-! Temperature and power (22 R585 to R589). -/

/-- One step down: the tumbler islands, then the codec islands, by 5% (22 R587); no lower than the least DCO frequency of
their group (02 R38; log entry 42, DEDUCED). -/
def slowDown (p : Power) : Power :=
  if 70 < p.tumblerFreq then { p with tumblerFreq := p.tumblerFreq - 5 }
  else if 70 < p.codecFreq then { p with codecFreq := p.codecFreq - 5 }
  else p

/-- One step up. -/
def speedUp (p : Power) : Power := { p with tumblerFreq := min 100 (p.tumblerFreq + 5), codecFreq := min 100 (p.codecFreq + 5) }

/-- Take a frequency step, when the time since the last one has passed (22 R587). -/
def freqStep (s : State) (ns : Nat) (f : Power → Power) : State :=
  if (match s.power.stepAt with | some t => decide (t + ns ≤ s.clock.cadence) | none => true) then
    s.onPower (fun p => { f p with stepAt := some s.clock.cadence })
  else s

/-- Throttle: 5% per 1 ms (22 R587), counting the start (23 R606). -/
def throttle (s : State) : State :=
  let s := if s.power.throttling then s else rindCount s 0x08
  (freqStep s 1000000 slowDown).onPower (fun p => { p with throttling := true })

/-- THERMAL_SAMPLE (22 R587, R588): the hottest junction in units of 0.125 °C. -/
def execThermalSample (hot : Int) (s : State) : Host.Outcome State Fault Refusal :=
  if !s.power.vmain then .next s
  else
    let s := if hot < 760 && s.power.st == .boot then s.onPower (fun p => { p with tripWait := false }) else s
    .next (if 800 ≤ hot || (s.power.throttling && 784 ≤ hot) then throttle s
      else
        let s := s.onPower (fun p => { p with throttling := false })
        if hot < 760 then freqStep s 10000000 speedUp else s)

/-- CURRENT_SENSOR_SAMPLE (22 R585, R589): package power averaged over 1 s and over 1 ms, in watts. The ring feedforward
is inside the ports (11 R291). -/
def execCurrentSensorSample (second milli : Nat) (s : State) : Host.Outcome State Fault Refusal :=
  if s.power.vmain && (440 ≤ second || 520 ≤ milli) then .next (throttle s) else .next s

/-- THERMAL_TRIP (22 R588): the island of the diode and its temperature in units of 0.125 °C. -/
def execThermalTrip (island temp : Nat) (s : State) : Host.Outcome State Fault Refusal :=
  if !s.power.vmain || s.power.st == .tripped || !s.power.vstby then .next s
  else
    let s := rindLog (rindCount s 0x07) 0x0007 island (le 2 temp)
    let s := assertAlert (s.onMgmt (fun m => { m with alert := 0x0300, alertTime := s.clock.rtc }))
    let s := s.onPlaybill (fun p => { p with alertPending := true })
    .next ((resetVmain s true).onPower (fun p => { p with st := .tripped, tripWait := true }))

/-- May a domain be switched off (22 R586)? Domains are numbered in the order of the groups of 01 R20 (log entry 39, DEDUCED). -/
def mayGate (s : State) (d : Nat) : Bool :=
  if d < 128 then
    ((tumblerOwner s s.cfg d).isNone || !tany s.cfg.acts.bindings (fun _ b => b.b.tumblers.contains d))
      && (tgetD s.acts.tumblers d {}).run.isNone
  else if d < 144 then (List.range 16).all (fun j => decide (15 < unitOwner s s.cfg (16 * (d - 128) + j)))
  else if 152 ≤ d && d < 184 then
    let port := (d - 152) / 8 * 8
    !(modeOffsets (tgetD s.cfg.net.portMode (port / 8) 0)).any (fun o =>
      o ≤ (d - 152) % 8 && (d - 152) % 8 < o + lanesOf s.cfg (port + o) && (lportOf s (port + o)).up)
  else if 188 ≤ d && d < 208 then (s.tport ((d - 188) / 5)).st == .down && !(s.tport ((d - 188) / 5)).retryWait
  else if d == 214 || d == 215 then !tany s.codec.streams (fun k _ => k / 256 == d - 214)
  else if d == 216 || d == 217 then
    (List.range 2).all (fun k => (tgetD s.stor.drives (2 * (d - 216) + k) {}).st == .absent)
  else if 222 ≤ d && d < 230 then !tany s.mem.cells (fun c _ => c / 16384 == d - 222)
  else false

/-- Switch a domain off: troupe memories and banks of stage memory read as zero when they are switched on again. -/
def gateOff (s : State) (d : Nat) : State :=
  let s := s.onPower (fun p => { p with gated := d :: p.gated })
  if 128 ≤ d && d < 144 then s.onMem (fun m => { m with
    troupe := wordsZero m.troupe ((d - 128) * 1048576) 1048576
    bad := m.bad.filter (fun u => u < 0x030100000000 + (d - 128) * 0x800000 || 0x030100000000 + (d - 127) * 0x800000 ≤ u) })
  else if 222 ≤ d && d < 230 then
    let a := 0x010000000000 + (d - 222) * 0x2000000
    s.onMem (fun m => { m with
      bytes := memZero m.bytes a 0x2000000
      bad := m.bad.filter (fun u => u < a || a + 0x2000000 ≤ u) })
  else s

/-- DOMAIN_GATE (22 R586): a domain that holds no work and no state to keep is switched off, and one that is needed again
is switched on. -/
def execDomainGate (d : Nat) (s : State) : Host.Outcome State Fault Refusal :=
  if s.power.st != .run then .next s
  else if s.power.gated.contains d then
    .next (if mayGate s d then s else s.onPower (fun p => { p with gated := p.gated.filter (fun x => x != d) }))
  else .next (if mayGate s d then gateOff s d else s)

/-! Reference clocks (25 R645). -/

/-- EREF_LOSS: every network link goes down; Device Time goes on from an internal oscillator, whose error within 2,000 ppm is a
free value (log entry 57, DESIGN CHOICE). -/
def execErefLoss (s : State) : Host.Outcome State Fault Refusal :=
  if !s.clock.eref then .next s
  else
    let d := draw s
    .next ((List.range 32).foldl linkDown (d.2.onClock (fun c => { c with
      eref := false
      oscPpb := ((d.1 % 4000001 : Nat) : Int) - 2000000 })))

/-- EREF_RETURN. -/
def execErefReturn (s : State) : Host.Outcome State Fault Refusal := .next (s.onClock (fun c => { c with eref := true, oscPpb := 0 }))

/-- HREF_LOSS: the drive links fail, and the host link goes down, which is a warm reset. -/
def execHrefLoss (s : State) : Host.Outcome State Fault Refusal :=
  let s := (List.range 4).foldl driveLost (s.onClock (fun c => { c with href := false }))
  .next (warmReset (s.onHost (fun h => { h with linkUp := false })))

/-- XTAL32_LOSS: the RTC stops and TIME_INVALID is set. -/
def execXtal32Loss (s : State) : Host.Outcome State Fault Refusal :=
  .next (s.onClock (fun c => { c with xtal := false, timeInvalid := true }))

end Sys2Proof.Machine
end

