-- ==== Sys2Proof/Machine/Mgmt.lean ====
section
/-! DEFINITION. Machine/Mgmt.lean: the management component (21): MCTP, PLDM, the boot flash, the management SPI, the clocks
and alarms, the Playbill; the Rind's ticks and commits (23 R606 to R615); and the MANAGEMENT commands (19 R529). -/

namespace Sys2Proof.Machine

/-- Does the management component run? -/
def mgmtRuns (s : State) : Bool := managed s && (tgetD s.comps 8 {}).state == .running

/-! MCTP and PLDM (21 R554 to R557). -/

/-- The answer to a control request (DSP0236): completion code and data. Supported are Set and Get Endpoint ID, Get MCTP
Version Support and Get Message Type Support; the others complete with ERROR_UNSUPPORTED_CMD (log entry 43, PRESUMED). -/
def mctpAnswer (s : State) (m : MctpReq) : State :=
  let eid := tgetD s.mgmt.eids m.binding 0
  match m.command with
  | 0x01 =>
    if m.eid < 8 || m.eid == 0xFF then s.send (.mctp m.binding [0x01, 0x02])
    else (s.onMgmt (fun x => { x with eids := tset x.eids m.binding m.eid })).send (.mctp m.binding ([0x01, 0x00, 0x00] ++ [byteOf m.eid, 0]))
  | 0x02 => s.send (.mctp m.binding [0x02, 0x00, byteOf eid, 0, 0])
  | 0x04 => s.send (.mctp m.binding ([0x04, 0x00, 0x01] ++ [0xF1, 0xF3, 0xF1, 0x00]))
  | 0x05 => s.send (.mctp m.binding [0x05, 0x00, 0x01, 0x01])
  | c => s.send (.mctp m.binding [byteOf c, 0x05])

/-- The state that PLDM sensor 8 reports. -/
def deviceState (s : State) : Nat :=
  match s.power.st with
  | .faulted => 3
  | .boot => 1
  | _ => if (List.range 9).any (fun c => (tgetD s.comps c {}).state == .stopped) then 4 else 2

/-- The answer to a read of a PLDM sensor (21 R556): `reading` is what a numeric sensor 1 to 7 measures, if it stands for a
live value. It gives the sensor, whether it is unavailable, and the reading. -/
def pldmAnswer (s : State) (sensor : Nat) (reading : Option Nat) : State :=
  let p := s.mgmt.playbill
  let v : Option Nat := match sensor with
    | 8 => some (deviceState s)
    | 9 =>
      if s.mgmt.config.playbill == 0 then none
      else if p.uip then some 2
      else if p.outcome == 1 then some 1
      else if p.outcome == 0 then none
      else some 2
    | 10 => some s.mgmt.alert
    | n => if 1 ≤ n && n ≤ 7 then reading else none
  s.send (.pldm (match v with | some x => [sensor, 0, x] | none => [sensor, 1, 0]))

/-- Does a configuration block hold only values the manual gives it (21 R559)? -/
def configOk (c : ConfigBlock) : Bool :=
  c.magicOk && c.rsvZero && c.shareMode ≤ 1 && 0x08 ≤ c.smbusAddr && c.smbusAddr ≤ 0x77 && c.playbill ≤ 1 && c.nodeName.length ≤ 24

/-- Write the inactive copy of the configuration block with the next sequence (21 R559). A copy cut off is invalid. -/
def configWrite (f : Flash) (c : ConfigBlock) (whole : Bool) : Flash :=
  let first := f.cfg0.valid && (!f.cfg1.valid || !newer 32 f.cfg1.seq f.cfg0.seq)
  let seq := if first then f.cfg0.seq else if f.cfg1.valid then f.cfg1.seq else 0
  let x : CfgCopy := { valid := whole, seq := modAdd 32 seq 1, block := c }
  if first then { f with cfg1 := x } else { f with cfg0 := x }

/-- Does an image pass the signature checks of an update (21 R557, 22 R598)? -/
def imageVerifies (x : Fuses) (i : Image) : Bool := [0, 3, 7].contains (imageReason x i)

/-- A transfer of an update (21 R557): into the slot that did not boot, or into the inactive copy. The slot is EMPTY from
the start of the transfer until ActivateFirmware (log entry 44, DEDUCED). -/
def fwUpdate (s : State) (u : FwUpdate) : State :=
  match u with
  | .config c whole => if configOk c then s.onFlash (fun f => configWrite f c whole) else s
  | .image i whole =>
    let k := 1 - s.power.bootSlot
    let h := headerOf s.flash
    s.onFlash (fun f =>
      let f := headerWrite f (slotSet h k .empty 0)
      let x := if whole then i else { i with readable := true, hashOk := false }
      { f with
        imgA := if k == 0 then x else f.imgA
        imgB := if k == 1 then x else f.imgB
        written := if whole && imageVerifies s.fuses i then some k else none })

/-- ActivateFirmware: the slot that was written becomes the trial (21 R557, 22 R599). -/
def fwActivate (s : State) : State :=
  match s.flash.written with
  | none => s
  | some k => s.onFlash (fun f => { headerWrite f (slotSet (headerOf f) k .trial 0) with written := none })

/-- Serve one request. -/
def mgmtServe (s : State) (r : MgmtReq) : State :=
  match r with
  | .control m => mctpAnswer s m
  | .sensor n reading => pldmAnswer s n reading
  | .update u => fwUpdate s u
  | .activate => fwActivate s

/-- A request over MCTP (21 R555): served while VMAIN is present and the management component runs, held while the component
restarts, and unanswered otherwise. -/
def mgmtRequest (s : State) (r : MgmtReq) : State :=
  if mgmtRuns s then mgmtServe s r
  else if managed s && (tgetD s.comps 8 {}).state == .restarting then s.onMgmt (fun x => { x with mctpWait := x.mctpWait ++ [r] })
  else s

/-- Does a binding carry messages: the host link is up, or the pins of the others are active (21 R554, 25 R638)? -/
def mctpReach (s : State) (binding : Nat) : Bool := if binding == 0 then s.host.linkUp else s.power.st != .boot

/-- MCTP_MESSAGE (21 R554, R555). -/
def execMctpMessage (m : MctpReq) (s : State) : Host.Outcome State Fault Refusal :=
  .next (if mctpReach s m.binding then mgmtRequest s (.control m) else s)

/-- PLDM_SENSOR_READ (21 R555, R556). -/
def execPldmSensorRead (sensor : Nat) (reading : Option Nat) (s : State) : Host.Outcome State Fault Refusal :=
  .next (mgmtRequest s (.sensor sensor reading))

/-- PLDM_FW_UPDATE (21 R555, R557). -/
def execPldmFwUpdate (u : FwUpdate) (s : State) : Host.Outcome State Fault Refusal := .next (mgmtRequest s (.update u))

/-- ACTIVATE_FIRMWARE (21 R555, R557). -/
def execActivateFirmware (s : State) : Host.Outcome State Fault Refusal := .next (mgmtRequest s .activate)

/-! The management SPI (21 R560 to R564). -/

/-- The end of a frame: LAST and what follows from it. -/
def spiLast (s : State) (code : Nat) : State :=
  s.onMgmt (fun m => { m with
    msLast := code
    msFailed := m.msFailed || code != 0
    cntShort := if code == 1 then satAdd 32 m.cntShort 1 else m.cntShort
    cntLong := if code == 2 then satAdd 32 m.cntLong 1 else m.cntLong
    cntCrc := if code == 4 then satAdd 32 m.cntCrc 1 else m.cntCrc })

/-- Is the frame unit held by a management component that does not run? -/
def spiBusy (s : State) : Bool := managed s && (tgetD s.comps 8 {}).state != .running

/-- Control-space offset of a word address. -/
def spiOff (a : Nat) : Nat := 0x400000 + 4 * a

/-- The data words of a frame. -/
def spiWords (d : List Byte) : Nat → List Nat
  | 0 => []
  | n + 1 => ofBe (d.take 4) :: spiWords (d.drop 4) n

/-- A write of a MS_CONTROL word (22 R595, table). -/
def msControl (s : State) (v : Nat) : State :=
  if v / 65536 % 65536 == 0x5253 && bit v 0 && s.power.vmain then warmReset s else s

/-- Write the words of an applied frame in ascending order. -/
def spiApply (s : State) (a x : Nat) : List Nat → State
  | [] => s
  | w :: ws => spiApply (if spiOff a == 0x410020 then msControl s w else regWrite s (spiOff a) w x) (a + 1) x ws

/-- SPI_WRITE_FRAME (21 R561, R564): the octets received, the clocks counted, and the reading of a conversion that the
frame starts. A reserved OP is a bad header of this row. -/
def execSpiWriteFrame (d : List Byte) (clocks x : Nat) (s : State) : Host.Outcome State Fault Refusal :=
  if !s.power.vstby then .next s
  else if spiBusy s then .next ((spiLast s 7).send .spiOnes)
  else
    let count := ofBe ((d.drop 4).take 1)
    let a := ofBe ((d.drop 1).take 3)
    let l := 8 * (7 + 4 * count)
    let body := d.take (5 + 4 * count)
    .next (if clocks < l || clocks < 56 || d.length * 8 + 7 < clocks then spiLast s 1
      else if l < clocks then spiLast s 2
      else if d.take 1 != [0x02] || count == 0 || 64 < count then spiLast s 3
      else if crc16 body != ofBe ((d.drop (5 + 4 * count)).take 2) then spiLast s 4
      else if !(List.range count).all (fun i => a + i < 65536 && spiWritable s (spiOff (a + i))) then spiLast s 5
      else spiLast (spiApply s a x (spiWords (d.drop 5) count)) 0)

/-- Read the words of a frame one after the other: their values, with what each read latches. -/
def spiRead (s : State) (a : Nat) : Nat → List Nat × State
  | 0 => ([], s)
  | n + 1 =>
    let v : Nat × State := match regValue s (spiOff a) with
      | some v => (v, regLatch s (spiOff a))
      | none => let r := draw s; (r.1 % 2 ^ 32, r.2)
    let r := spiRead v.2 (a + 1) n
    (v.1 :: r.1, r.2)

/-- Clear the RC fields of the words that were shifted out whole. -/
def spiClear (s : State) (a : Nat) : List Nat → State
  | [] => s
  | v :: vs => spiClear (regClear s (spiOff a) v) (a + 1) vs

/-- SPI_READ_FRAME (21 R562 to R564): the octets of the header and its CRC, and the clocks of the frame. A header outside the
registers' span drives ones (log entry 45, DEDUCED). -/
def execSpiReadFrame (d : List Byte) (clocks : Nat) (s : State) : Host.Outcome State Fault Refusal :=
  if !s.power.vstby then .next s
  else if spiBusy s then .next ((spiLast s 7).send .spiOnes)
  else
    let a := ofBe ((d.drop 1).take 3)
    let count := ofBe ((d.drop 4).take 1)
    if clocks < 64 || d.length < 7 then .next (spiLast s 1)
    else if d.take 1 != [0x03] || count == 0 || 64 < count then .next ((spiLast s 3).send .spiOnes)
    else if crc16 (d.take 5) != ofBe ((d.drop 5).take 2) then .next ((spiLast s 4).send .spiOnes)
    else if 65536 < a + count then .next ((spiLast s 5).send .spiOnes)
    else
      let data := clocks - 64
      let words := min count (ceilDiv data 32)
      let whole := min count (data / 32)
      let extra := data - 32 * (count + 1)
      let clean := data % 32 == 0
      let r := spiRead s a words
      let trailer := if 32 * count < data then crc16 (r.1.flatMap (be 4)) * 65536 else 0
      let s := r.2.send (.spi (r.1.take whole) trailer)
      let s := if clean then spiClear s a (r.1.take whole) else s
      let s := s.onMgmt (fun m => { m with msExtra := min extra 255, msExtraSeen := m.msExtraSeen || 0 < extra })
      .next (spiLast s (if clean then 0 else 6))

/-- A read of one word through BAR2 or in a frame of its own: its value, and what it latches and clears. -/
def regReadRow (s : State) (off : Nat) : Host.Outcome State Fault Refusal :=
  let r := regRead s off
  .next (r.2.send (.register off r.1))

/-- A write of one word over the management SPI, when it can write the word. -/
def writeRow (s : State) (off v x : Nat) : Host.Outcome State Fault Refusal :=
  .next (if !s.power.vstby || spiBusy s then s else regWrite s off v x)

/-- RTC_SET: a write of AO_RTC_SET_HI (21 R569). -/
def execRtcSet (v : Nat) (s : State) : Host.Outcome State Fault Refusal := writeRow s 0x40001C v 0
/-- ALARM_T_HI_WRITE (21 R571). -/
def execAlarmTHiWrite (n v : Nat) (s : State) : Host.Outcome State Fault Refusal := writeRow s (0x400048 + 0x20 * (n % 4)) v 0
/-- ALARM_CTRL_WRITE: of AO_ALARMn_CTRL, or of AO_ALARMn_PERIOD (21 R571). -/
def execAlarmCtrlWrite (n : Nat) (period : Bool) (v : Nat) (s : State) : Host.Outcome State Fault Refusal :=
  writeRow s (0x400040 + 0x20 * (n % 4) + (if period then 12 else 0)) v 0
/-- ALARM_STATUS_READ (21 R571). -/
def execAlarmStatusRead (n : Nat) (s : State) : Host.Outcome State Fault Refusal := regReadRow s (0x400050 + 0x20 * (n % 4))
/-- RTC_LO_READ (21 R569). -/
def execRtcLoRead (s : State) : Host.Outcome State Fault Refusal := regReadRow s 0x400010
/-- DEVT_LO_READ (21 R568). -/
def execDevtLoRead (s : State) : Host.Outcome State Fault Refusal := regReadRow s 0x4000C0
/-- RIND_COUNTER_READ: the low word of a counter (23 R615). -/
def execRindCounterRead (id : Nat) (s : State) : Host.Outcome State Fault Refusal := regReadRow s (0x401000 + 8 * (id % 256))
/-- RIND_LOG_DATA0_READ (23 R615). -/
def execRindLogData0Read (s : State) : Host.Outcome State Fault Refusal := regReadRow s 0x400140
/-- MS_STATUS_READ (21 R563). -/
def execMsStatusRead (s : State) : Host.Outcome State Fault Refusal := regReadRow s 0x410000
/-- MW_FIRST_FAULT_READ: a half of a target's register (03 R88). -/
def execMwFirstFaultRead (target : Nat) (high : Bool) (s : State) : Host.Outcome State Fault Refusal :=
  if 21 < target then .next s else regReadRow s (0x11020 + 0x40 * target + 4 * b2n high)
/-- MS_CONTROL_RESET (22 R592, R595). -/
def execMsControlReset (v : Nat) (s : State) : Host.Outcome State Fault Refusal :=
  .next (if !s.power.vstby || spiBusy s then s else msControl s v)
/-- ATB_ADC_START: a write of ATB_ADC with START, and the reading of a single conversion (23 R618). -/
def execAtbAdcStart (v x : Nat) (s : State) : Host.Outcome State Fault Refusal :=
  writeRow s 0x430004 (v % 2 ^ 31 + 2 ^ 31) x
/-- ATB_CAPTURE_SAMPLE: one sample of the running capture (23 R618). -/
def execAtbCaptureSample (x : Nat) (s : State) : Host.Outcome State Fault Refusal :=
  .next (if !s.test.busy then s
    else s.onTest (fun t => { t with
      capture := tset t.capture t.taken (atbReading s.power.gated t x % 4096)
      taken := t.taken + 1
      busy := decide (t.taken + 1 < t.goal) }))

/-! Alarms, the RTC and the Playbill (21 R569 to R580). -/

/-- ALARM_FIRE (21 R571, R572): the alarm is enabled and the RTC is at or past its time. -/
def execAlarmFire (n : Nat) (s : State) : Host.Outcome State Fault Refusal :=
  let a := tgetD s.mgmt.alarms n {}
  if 3 < n || !a.enable || s.clock.timeInvalid || s.clock.rtc < a.t || !(s.power.vstby || s.power.vbat) then .next s
  else
    let step := max a.period 1 * 32768
    let k := if a.periodic then (s.clock.rtc - a.t) / step + 1 else 1
    let backup := !s.power.vstby
    let s := onAlarm s n (fun a => { a with
      enable := a.periodic
      t := if a.periodic then a.t + k * step else a.t
      count := satAdd 16 a.count k
      first := if a.fired then a.first else some a.t
      fired := true
      onBackup := a.onBackup || backup
      waking := a.waking || (a.wake && !backup) })
    .next (if backup then (List.range k).foldl (fun s _ => rindLog (rindCount s 0x21) 0x0011 255 [byteOf n]) s else s)

/-- RTC_WRITEBACK (21 R569): 10 minutes after the last TIME_SET, and every 10 minutes after that. -/
def execRtcWriteback (s : State) : Host.Outcome State Fault Refusal :=
  if !(match s.clock.rtcWrite with | some t => decide (t ≤ s.clock.cadence) | none => false) || !mgmtRuns s then .next s
  else .next (s.onClock (fun c => { c with rtc := timeToRtc c.now, rtcWrite := some (c.cadence + 600000000000) }))

/-- The octets of a label that its seal's check covers. -/
def labelBytes (l : Label) : List Byte :=
  l.name ++ le 1 l.slot ++ le 4 l.image ++ le 4 l.version ++ le 2 l.alert ++ le 8 l.alertTime ++ le 1 (b2n l.cal) ++ l.service ++ l.text

/-- End the PLAYBILL_UPDATE that waits for the update, if one does. -/
def playbillEnd (s : State) (st : Status) : State :=
  match s.mgmt.playbill.cmd with
  | some (fn, id) => finish (s.onPlaybill (fun p => { p with cmd := none })) fn id st
  | none => s

/-- PLAYBILL_PHASE_END (21 R577, R578). -/
def execPlaybillPhaseEnd (s : State) : Host.Outcome State Fault Refusal :=
  let p := s.mgmt.playbill
  if p.phase == 0 then .next s
  else if p.phase < 3 then .next ((s.onPlaybill (fun p => { p with phase := p.phase + 1 })).send (.panel (p.phase + 1)))
  else
    .next (playbillEnd (s.onPlaybill (fun p => { p with
      uip := false
      phase := 0
      updates := modAdd 16 p.updates 1
      outcome := 1
      check := Config.labelCrc (labelBytes p.label) % 65536 })) .ok)

/-- PLAYBILL_PANEL_TIMEOUT (21 R577): the update ends with UIP set. -/
def execPlaybillPanelTimeout (s : State) : Host.Outcome State Fault Refusal :=
  if s.mgmt.playbill.phase == 0 then .next s
  else .next (playbillEnd (s.onPlaybill (fun p => { p with phase := 0, outcome := 3 })) .partnerTimeout)

/-- PLAYBILL_INTERVAL_END (21 R580): a pending alert is drawn. -/
def execPlaybillIntervalEnd (s : State) : Host.Outcome State Fault Refusal :=
  let s := s.onPlaybill (fun p => { p with interval := false })
  .next (if s.mgmt.playbill.alertPending && playbillReady s && mgmtRuns s then playbillStart s else s)

/-! The Rind (23 R606 to R615). -/

/-- RIND_COMMIT_TIMER (23 R611). -/
def execRindCommitTimer (s : State) : Host.Outcome State Fault Refusal := .next (rindTrigger s)

/-- Where the record being written goes, and where the next one will: a BASE, which spans five blocks, once the DELTAs pass
1 MiB or where nothing is in force; else a DELTA of 4 KiB (23 R610; log entry 46, DEDUCED). -/
def rindPlace (r : Rind) : Nat × Nat × Nat :=
  if !r.flash.valid || 1048576 < r.flash.deltas + 4096 then ((r.nextBlock + 4) % 63, (r.nextBlock + 5) % 63, 0)
  else
    let d := r.flash.deltas + 4096
    (r.nextBlock, if d % 65536 == 0 then (r.nextBlock + 1) % 63 else r.nextBlock, d)

/-- RIND_RECORD_DONE (23 R611, R612): the record has been written and read back, or it failed its read-back. -/
def execRindRecordDone (ok : Bool) (s : State) : Host.Outcome State Fault Refusal :=
  match s.rind.writing with
  | none => .next s
  | some w =>
    if ok then
      let p := rindPlace s.rind
      let waiters := s.rind.waiters
      let s := s.onRind (fun r => { r with
        flash := { w with deltas := p.2.2 }
        lastBlock := p.1
        nextBlock := p.2.1
        commitTime := w.rtc
        fails := 0
        writing := none
        committing := false
        waiters := []
        dirty := r.counters != w.counters || r.hists != w.hists || r.nextSeq != w.nextSeq })
      let s := rindCount s 0x23
      let s := waiters.foldl (fun s x => finish s x.1 x.2 .ok) s
      .next (if s.rind.again && !s.rind.committing then rindStartRecord s else s)
    else
      let block := s.rind.nextBlock
      let s := s.onRind (fun r => { r with nextBlock := (r.nextBlock + 1) % 63, fails := r.fails + 1 })
      let s := rindLog (rindCount s 0x24) 0x0012 255 (le 2 block)
      .next (if 3 ≤ s.rind.fails then
          s.onRind (fun r => { r with flashFail := true, committing := false, writing := none, again := false })
        else s)

/-- A sample of the hottest junction toward the half-cycles (23 R607): a turn by at least 4 °C ends one. -/
def halfCycle (s : State) (hot : Int) : State :=
  match s.rind.extreme with
  | none => s.onRind (fun r => { r with extreme := some (hot, hot, true) })
  | some (last, prev, up) =>
    if (up && last ≤ hot) || (!up && hot ≤ last) then s.onRind (fun r => { r with extreme := some (hot, prev, up) })
    else if (if up then last - hot else hot - last) < 32 then s
    else
      let s := s.onRind (fun r => { r with extreme := some (hot, last, !up) })
      if last == prev then s else rindBin s 28 (linearBin ((last - prev).natAbs : Int) 0 32)

/-- RIND_SECOND_TICK (23 R606, R607). -/
def execRindSecondTick (x : SecondSample) (s : State) : Host.Outcome State Fault Refusal :=
  let lin := fun (s : State) (h : Nat) (v low w : Int) => rindBin s h (linearBin v low w)
  let s := if s.power.vstby then lin s 2 x.vstby 3000 20 else s
  let s := if s.power.st == .standby then rindCount s 0x05 else s
  if !s.power.vmain then .next s
  else
    let s := rindCount s 0x04
    let s := halfCycle (lin (lin s 0 x.hot 0 32) 1 x.vmain 10800 100) x.hot
    let s := lin (lin s 4 x.power 0 20000) 5 x.droop 0 50
    let s := (List.range 4).foldl (fun s p =>
      if (s.tport p).st == .down then s else lin s (6 + p) ((listGet x.heaters p 0 : Nat) : Int) 0 150) s
    .next (lin (lin (lin s 25 x.freq 1000 40) 26 x.tumblerCurrent 0 10000) 27 x.otherCurrent 0 5000)

/-- RIND_MINUTE_TICK (23 R607): VBAT in units of 20 mV, and the per-minute histograms while VMAIN is good. -/
def execRindMinuteTick (vbat20 : Nat) (s : State) : Host.Outcome State Fault Refusal :=
  if !s.power.vstby && !s.power.vbat then .next s
  else
    let s := rindBin s 3 (linearBin vbat20 100 3)
    let s := s.onPower (fun p => { p with vbat20 := vbat20, vbat := if p.vstby then decide (110 ≤ vbat20) else p.vbat })
    if !s.power.vmain then .next s
    else
      .next (((List.range 15).foldl (fun s i => rindBin s (10 + i) (log2Bin (tgetD s.rind.minute (10 + i) 0))) s).onRind
        (fun r => { r with minute := [] }))

/-! The MANAGEMENT group (19 R529). -/

/-- DEVICE_INFO (19 R665). -/
def execDeviceInfo (h : Hdr) (s : State) : Host.Outcome State Fault Refusal :=
  boothStep (info 0x0F 0x01) h (fun _ => [])
    (fun s =>
      let i := bootImage s
      .done s .ok (le 8 Config.unitId ++ le 4 (i.major * 65536 + i.minor) ++ le 4 i.imageId
        ++ [byteOf s.power.bootSlot, byteOf (b2n (!s.fixedMode)), 0x10])) s

/-- DEVICE_CONFIG_SET (21 R559). -/
def execDeviceConfigSet (h : Hdr) (blk : HostBlk ConfigBlock) (len : Nat) (s : State) : Host.Outcome State Fault Refusal :=
  boothStep (info 0x0F 0x02) h
    (fun _ => [(len != 256, .badRequest), (blk.isNone, .hostAbort),
               ((match blk with | some c => !configOk c | none => false), .badRequest)])
    (fun s => match blk with
      | some c => .done (s.onFlash (fun f => configWrite f c true)) .ok []
      | none => .done s .hostAbort []) s

/-- TIME_SET (21 R567, R569). -/
def execTimeSet (h : Hdr) (time : Nat) (s : State) : Host.Outcome State Fault Refusal :=
  boothStep (info 0x0F 0x03) h (fun _ => [])
    (fun s => .done (s.onClock (fun c => { c with
      now := time
      rtc := timeToRtc time
      timeInvalid := false
      rtcWrite := some (c.cadence + 600000000000)
      steppedAt := some c.cadence })) .ok (le 8 s.clock.now)) s

/-- TIME_ADJUST (21 R565): the offset is a 32-bit two's complement number. -/
def execTimeAdjust (h : Hdr) (ppb : Nat) (s : State) : Host.Outcome State Fault Refusal :=
  let v : Int := if ppb < 2 ^ 31 then ppb else (ppb : Int) - 2 ^ 32
  boothStep (info 0x0F 0x04) h (fun _ => [(decide (500000 < v) || decide (v < -500000), .badRequest)])
    (fun s => .done (s.onClock (fun c => { c with ppb := v })) .ok []) s

/-- ALARM_SET (21 R571, 19 R529). -/
def execAlarmSet (h : Hdr) (n flags time period : Nat) (s : State) : Host.Outcome State Fault Refusal :=
  boothStep (info 0x0F 0x05) h
    (fun s => [(decide (3 < n) || decide (7 < flags) || decide (2 ^ 63 ≤ time) || period == 0, .badRequest), (s.clock.timeInvalid, .timeInvalid)])
    (fun s => .done (onAlarm s n (fun a => alarmClear { a with
      t := time
      period := period
      enable := bit flags 0
      periodic := bit flags 1
      wake := bit flags 2 })) .ok []) s

/-- Is a content block outside what 21 R576 allows? -/
def contentBad (c : ContentBlock) : Bool :=
  let text := fun (l : List Byte) => l.any (fun b => b != 0 && (b.toNat < 0x20 || 0x7E < b.toNat))
  c.nodeName.length != 24 || c.serviceCode.length != 12 || c.text.length != 74 || !c.rsvZero || text c.nodeName || text c.text
    || c.serviceCode.any (fun b => b.toNat < 0x30 || 0x39 < b.toNat)

/-- PLAYBILL_UPDATE (21 R576, R577). -/
def execPlaybillUpdate (h : Hdr) (blk : HostBlk ContentBlock) (s : State) : Host.Outcome State Fault Refusal :=
  boothStep (info 0x0F 0x06) h
    (fun s => [(blk.isNone, .hostAbort), ((match blk with | some c => contentBad c | none => false), .badRequest),
               (!s.power.vstby || s.mgmt.config.playbill == 0, .noStandby),
               (s.mgmt.playbill.interval || s.mgmt.playbill.phase != 0, .playbillRate)])
    (fun s =>
      let s := s.onFlash (fun f => { f with content := blk })
      .long (playbillStart (s.onPlaybill (fun p => { p with cmd := some (h.fn, h.id) })))) s

/-- RIND_READ (23 R614). -/
def execRindRead (h : Hdr) (section_ : Nat) (blk : OutBlk) (s : State) : Host.Outcome State Fault Refusal :=
  boothStep (info 0x0F 0x07) h (fun _ => [(2 < section_, .badRequest)])
    (fun s =>
      let r := s.rind
      let body := match section_ with
        | 0 => (256, (List.range 256).flatMap (fun i => le 8 (tgetD r.counters i 0)))
        | 1 => (64, (List.range 2048).flatMap (fun i => le 4 (tgetD r.hists i 0)))
        | _ => (r.log.length, r.log.flatMap logBytes)
      writeOut h blk (le 8 s.clock.now ++ le 4 body.1 ++ le 4 section_ ++ body.2) s) s

/-- RIND_COMMIT (23 R611): it completes when its record has been read back. -/
def execRindCommit (h : Hdr) (s : State) : Host.Outcome State Fault Refusal :=
  boothStep (info 0x0F 0x08) h (fun _ => [])
    (fun s => .long (rindTrigger (s.onRind (fun r => { r with nextWaiters := r.nextWaiters ++ [(h.fn, h.id)] })))) s

end Sys2Proof.Machine
end

