-- ==== Sys2Proof/Machine/Jtag.lean ====
section
/-! DEFINITION. Machine/Jtag.lean: the JTAG instructions (23 R619 to R622) and the writes of registers that have no row of
their own (00 R13 to R16). -/

namespace Sys2Proof.Machine

/-- An instruction register that holds an unrestricted instruction ends a restricted one and lets a waiting boot flow
start (23 R621). -/
def jtagFree (s : State) (op : Nat) : State :=
  let s := s.onTest (fun t => { t with ir := op, restricted := false })
  if s.test.bootWaits then warmStart s else s

/-- Load an unrestricted instruction; the port needs VMAIN good (23 R620). -/
def jtagLoad (s : State) (op : Nat) : State := if s.power.vmain then jtagFree s op else s

/-- Load a restricted instruction: it takes effect while PERST_N is asserted, and is BYPASS otherwise (23 R621). -/
def jtagRestricted (s : State) (op : Nat) : State :=
  if !s.power.vmain then s
  else if s.power.perst then s.onTest (fun t => { t with ir := op, restricted := true })
  else s.onTest (fun t => { t with ir := op })

/-- The value of IDCODE (23 R620): version 1, part 0x4016, and the manufacturer identity of the BSDL file, which the
manual does not give. -/
def idcode (maker : Nat) : Nat := 0x14016001 + 2 * (maker % 2048)

/-- IDCODE (23 R620): the register is shifted out. -/
def execIdcode (s : State) : Host.Outcome State Fault Refusal :=
  .next (if s.power.vmain then (let d := draw (jtagLoad s 0x01); d.2.send (.jtag (idcode d.1))) else s)

/-- SAMPLE_PRELOAD (23 R620). -/
def execSamplePreload (s : State) : Host.Outcome State Fault Refusal := .next (jtagLoad s 0x02)
/-- EXTEST (23 R621). -/
def execExtest (s : State) : Host.Outcome State Fault Refusal := .next (jtagRestricted s 0x03)
/-- HIGHZ (23 R621). -/
def execHighz (s : State) : Host.Outcome State Fault Refusal := .next (jtagRestricted s 0x04)
/-- CLAMP (23 R621). -/
def execClamp (s : State) : Host.Outcome State Fault Refusal := .next (jtagRestricted s 0x05)
/-- EXTEST_PULSE (23 R621). -/
def execExtestPulse (s : State) : Host.Outcome State Fault Refusal := .next (jtagRestricted s 0x06)
/-- EXTEST_TRAIN (23 R621). -/
def execExtestTrain (s : State) : Host.Outcome State Fault Refusal := .next (jtagRestricted s 0x07)

/-- HBM_1500 (23 R622): the first shift selects a stack; what the stack holds is unspecified from then on, until the boot
flow zero-fills it. -/
def execHbm1500 (stack : Nat) (s : State) : Host.Outcome State Fault Refusal :=
  let t := jtagRestricted s 0x20
  if !(s.power.vmain && s.power.perst) then .next t
  else
    let d := draw (t.onTest (fun x => { x with hbmStack := stack % 2 }))
    .next (d.2.onMem (fun m => { m with spoiled := tset m.spoiled (stack % 2) s.draws }))

/-- ATB_JTAG (23 R619): the data register is ATB_CTRL. -/
def execAtbJtag (v : Nat) (s : State) : Host.Outcome State Fault Refusal :=
  .next (if s.power.vmain then atbCtrlSet (jtagLoad s 0x21) v else s)

/-- BYPASS; every opcode without an instruction acts as it (23 R620). -/
def execBypass (s : State) : Host.Outcome State Fault Refusal := .next (jtagLoad s 0xFF)

/-- TAP_RESET (23 R620, R621): Test-Logic-Reset selects IDCODE. -/
def execTapReset (s : State) : Host.Outcome State Fault Refusal := .next (if s.power.vmain then jtagFree s 0x01 else s)

/-! Register writes (00 R13; 16 R441, R448; 18 R483). -/

/-- A 32-bit write of a half of a 64-bit register. -/
def regHalf (old h v : Nat) : Nat := if h == 0 then old / 2 ^ 32 * 2 ^ 32 + v % 2 ^ 32 else old % 2 ^ 32 + v % 2 ^ 32 * 2 ^ 32

/-- A 32-bit write of word `j` of a 128-bit register. -/
def regQuarter (old j v : Nat) : Nat := old - field old (32 * j) 32 * 2 ^ (32 * j) + v % 2 ^ 32 * 2 ^ (32 * j)

/-- A write of a booth capability register other than BOOTH_CTRL, while ENABLE = 0 (18 R483). -/
def boothReg (b : Booth) (off v : Nat) : Booth :=
  match off with
  | 0x10 => { b with subBase := regHalf b.subBase 0 v }
  | 0x14 => { b with subBase := regHalf b.subBase 1 v }
  | 0x18 => { b with cmpBase := regHalf b.cmpBase 0 v }
  | 0x1C => { b with cmpBase := regHalf b.cmpBase 1 v }
  | 0x20 => { b with evtBase := regHalf b.evtBase 0 v }
  | 0x24 => { b with evtBase := regHalf b.evtBase 1 v }
  | 0x28 => { b with subLog2 := field v 0 4, cmpLog2 := field v 8 4, evtLog2 := field v 16 4 }
  | 0x2C => { b with cmpVector := field v 0 11, evtVector := field v 16 11 }
  | 0x30 => { b with pasidEn := bit v 31, pasid := field v 0 20 }
  | 0x38 => { b with reqMajor := field v 16 16, reqMinor := field v 0 16 }
  | 0x50 => { b with featReq := regQuarter b.featReq 0 v }
  | 0x54 => { b with featReq := regQuarter b.featReq 1 v }
  | 0x58 => { b with featReq := regQuarter b.featReq 2 v }
  | 0x5C => { b with featReq := regQuarter b.featReq 3 v }
  | _ => b

/-- Does a function answer configuration requests? It does not before RUN and during its reset (16 R429, R454, 22 R590). -/
def fnAnswers (s : State) (fn : Nat) : Bool := ingress s && (fn == 0 || vfExists s fn) && !(s.fn fn).flr

/-- REGISTER_WRITE (00 R13 to R16): the value is written to the word's fields; `x` is the reading of a conversion that the
write starts. -/
def execRegisterWrite (r : RegTarget) (v x : Nat) (s : State) : Host.Outcome State Fault Refusal :=
  match r with
  | .control off => .next (if !s.power.vstby || spiBusy s then s else regWrite s off v x)
  | .booth fn off =>
    .next (if !fnAnswers s fn || (s.fn fn).booth.enable then s else s.onBooth fn (fun b => boothReg b off v))
  | .config fn =>
    .next (if !fnAnswers s fn then s else s.onFn fn (fun f => { f with
      roEnable := bit v 0
      idoReq := bit v 1
      idoComp := bit v 2
      ats := bit v 3
      pasidCap := bit v 4 }))

end Sys2Proof.Machine
end

