-- ==== Sys2Proof/Machine/Shares.lean ====
section
/-! DEFINITION. Machine/Shares.lean: the PARTITION group (19 R509): shares and their resizing (17 R465 to R470), the
Midway priority table, the host windows and the apertures. -/

namespace Sys2Proof.Machine

/-! The checks of a shrink (17 R466). -/

/-- Does a tumbler carry a leaving unit? -/
def tumblerLeaves (leaving : List Nat) (n : Nat) : Bool := leaving.contains (2 * n) || leaving.contains (2 * n + 1)

/-- The lowest leaving unit whose HBM a range of device memory meets. -/
def hbmUnitHit (leaving : List Nat) (a n : Nat) : Option Nat :=
  leaving.find? (fun j => decide (a < (j + 1) * 0x8000000) && decide (j * 0x8000000 < a + n))

/-- The lowest leaving unit whose troupe granule a range of a troupe's words meets. -/
def troupeUnitHit (leaving : List Nat) (t a n : Nat) : Option Nat :=
  leaving.find? (fun j => j / 16 == t && decide (a < (j % 16 + 1) * 65536) && decide (j % 16 * 65536 < a + n))

/-- The device ranges that objects of a partition name: GDP regions, codec buffers and work areas, the buffers of storage
descriptors not yet ended, and aperture entries. -/
def namedRanges (s : State) (p : Nat) : List (Nat × Nat) :=
  let size := fun (v : Nat) => match live s (·.stor.volumes) v with | some x => x.blockSize | none => 0
  (s.cfg.gdp.regions.filter (fun e => e.2.part == p)).map (fun e => (e.2.set.base, e.2.set.length))
    ++ (s.codec.streams.filter (fun e => e.2.own.part == p)).flatMap (fun e =>
        (e.2.own.blk.workBase, e.2.own.blk.workLen) :: e.2.bufs.flatMap (fun b => planes e.2.own.blk b.2.luma b.2.chroma b.2.pitch))
    ++ (s.stor.queues.filter (fun e => e.2.own.part == p)).flatMap (fun e =>
        ((e.2.waiting ++ e.2.runs.map (·.desc)).filter (fun d => !d.host)).map (fun d =>
          (d.bufAddr, (d.blocksM1 + 1) * size d.volume)))
    ++ (s.cfg.own.apertures.filter (fun e => 0 < e.1 / 4 && partOf (e.1 / 4) == p)).map (fun e => (e.2, 0x1000000))

/-- The tumblers a partition keeps. -/
def keptTumblers (s : State) (p : Nat) (leaving : List Nat) : List Nat :=
  (tumblersOf s s.cfg p).filter (fun n => !tumblerLeaves leaving n)

/-- The ranges of troupe words that acts and input areas name, in the troupes the partition keeps a tumbler of (log entry
47): troupe, first word, words. -/
def namedWords (s : State) (p : Nat) (leaving : List Nat) : List (Nat × Nat × Nat) :=
  let kept := keptTumblers s p leaving
  ((s.acts.acts.filter (fun e => e.1 / 64 == p)).flatMap (fun e =>
      ((kept.map (· / 8)).eraseDups).flatMap (fun t => e.2.segments.map (fun g => (t, g.1, g.2)))))

/-- The input areas of a partition's bindings on the tumblers it keeps. -/
def namedInputs (s : State) (p : Nat) (leaving : List Nat) : List (Nat × Nat × Nat) :=
  let kept := keptTumblers s p leaving
  (s.cfg.acts.bindings.filter (fun e => e.2.part == p)).flatMap (fun e =>
    (e.2.b.tumblers.filter (fun n => kept.contains n)).map (fun n => (n / 8, inputArea e.2.b n, e.2.b.inputWords)))

/-- A counted resource that the remaining units do not cover. -/
def countedShort (s : State) (p : Nat) (leaving : List Nat) : Option Nat :=
  let left := unitsOf s s.cfg p - leaving.length
  ((List.range 21).map (· + 4)).find? (fun code => decide (perUnit code * left < usedOf s p none code))

/-- A leaving unit with a stage-memory cell that is allocated to an object. -/
def cellUnit (s : State) (leaving : List Nat) : Option Nat :=
  leaving.find? (fun j => tany s.mem.cells (fun c u => c / 512 == j && !u.released))

/-- A binding that would be left with no tumbler: the first leaving unit of its tumblers. -/
def bindingUnit (s : State) (p : Nat) (leaving : List Nat) : Option Nat :=
  (s.cfg.acts.bindings.filter (fun e => e.2.part == p && e.2.b.tumblers.all (tumblerLeaves leaving))).findSome? (fun e =>
    leaving.find? (fun j => e.2.b.tumblers.contains (j / 2)))

/-- The first failing check of one partition: the resource code and the first unit at fault, 0 for a counted resource. -/
def shrinkFault (s : State) (p : Nat) (leaving : List Nat) : Option (Nat × Nat) :=
  match countedShort s p leaving with
  | some code => some (code, 0)
  | none =>
  match cellUnit s leaving with
  | some j => some (1, j)
  | none =>
  match (namedRanges s p).findSome? (fun r => hbmUnitHit leaving r.1 r.2) with
  | some j => some (0, j)
  | none =>
  match (namedWords s p leaving).findSome? (fun r => troupeUnitHit leaving r.1 r.2.1 r.2.2) with
  | some j => some (2, j)
  | none =>
  match (namedInputs s p leaving).findSome? (fun r => troupeUnitHit leaving r.1 r.2.1 r.2.2) with
  | some j => some (2, j)
  | none => (bindingUnit s p leaving).map (fun j => (3, j))

/-! The stages of a resize (17 R467). -/

/-- The units that a map moves: unit, old owner, new owner. -/
def mapMoves (s : State) (m : List Nat) : List (Nat × Nat × Nat) :=
  ((List.range 256).map (fun j => (j, unitOwner s s.cfg j, listGet m j 255))).filter (fun x => x.2.1 != x.2.2)

/-- The units a partition loses. -/
def leavingOf (r : Resize) (p : Nat) : List Nat := (r.moves.filter (fun m => m.2.1 == p)).map (·.1)
/-- The units a partition gains. -/
def joiningOf (r : Resize) (p : Nat) : List Nat := (r.moves.filter (fun m => m.2.2 == p)).map (·.1)
/-- The partitions that lose units. -/
def losers (r : Resize) : List Nat := (List.range 16).filter (fun p => !(leavingOf r p).isEmpty)
/-- The partitions that gain units. -/
def gainers (r : Resize) : List Nat := (List.range 16).filter (fun p => !(joiningOf r p).isEmpty)

/-- A partition's shrink commit: the leaving units become unassigned, their granules' owner tenants are gone, and leaving
tumblers leave every binding. -/
def shrinkCommit (r : Resize) (s : State) (p : Nat) : State :=
  let leaving := leavingOf r p
  commitEpoch s p (fun c => { c with
    own := { c.own with
      units := tfilter c.own.units (fun j _ => !leaving.contains j)
      hbmTenant := tfilter c.own.hbmTenant (fun g _ => !leaving.contains (g / 8))
      troupeTenant := tfilter c.own.troupeTenant (fun g _ => !leaving.contains g) }
    acts := { c.acts with bindings := tmap c.acts.bindings (fun _ b =>
      if b.part == p then { b with b := { b.b with tumblers := b.b.tumblers.filter (fun n => !tumblerLeaves leaving n) } } else b) } })

/-- Zero-fill the tied resources of a unit, and the instruction memory of its tumbler (03 R94, 08 R221). -/
def scrubUnit (m : MemSys) (j : Nat) : MemSys :=
  let t := j / 16
  let h := j * 0x8000000
  let c := 0x010000000000 + j * 0x100000
  let inUnit := fun (u : Nat) => match region u with
    | .hbm _ => decide (h ≤ u) && decide (u < h + 0x8000000)
    | .stage _ => decide (c ≤ u) && decide (u < c + 0x100000)
    | .raw k o => k == t && o / 8 / 65536 == j % 16
    | .instr n _ => n == j / 2
    | _ => false
  { m with
    bytes := memZero (memZero m.bytes h 0x8000000) c 0x100000
    troupe := wordsZero m.troupe (t * 1048576 + j % 16 * 65536) 65536
    im := wordsZero m.im (j / 2 * 32768) 32768
    bad := m.bad.filter (fun u => !inUnit u) }

/-- Copy the acts of a partition into a joining tumbler (08 R221). -/
def actsInto (s : State) (p n : Nat) : State :=
  s.onMem (fun m => { m with im :=
    (s.acts.acts.filter (fun e => e.1 / 64 == p)).foldl (fun im e =>
      wordsWrite im (n * 32768 + e.2.imBase) (e.2.code.map word)) m.im })

/-- A partition's grow commit. -/
def growCommit (r : Resize) (s : State) (p : Nat) : State :=
  let joining := joiningOf r p
  let owned := fun (j : Nat) => joining.contains j || unitOwner s s.cfg j == p
  let tumblers := (List.range 128).filter (fun n => tumblerLeaves joining n && owned (2 * n) && owned (2 * n + 1))
  commitEpoch (tumblers.foldl (fun s n => actsInto s p n) s) p (fun c => { c with
    own := { c.own with units := joining.foldl (fun t j => tset t j p) c.own.units } })

/-- PARTITION_SHARES_SET (17 R465 to R468): the checks and the shrink commits. -/
def execPartitionSharesSet (h : Hdr) (blk : HostBlk (List Nat)) (s : State) : Host.Outcome State Fault Refusal :=
  let m := blk.getD []
  boothStep (info 0x02 0x01) h
    (fun s =>
      let r : Resize := { fn := h.fn, id := h.id, stage := .shrink, moves := mapMoves s m, cancelled := false }
      [(s.fixedMode, .fixedMode), (blk.isNone, .hostAbort),
       (m.length != 256 || m.any (fun b => 15 < b && b != 255), .badRequest),
       (s.resize.isSome || tany s.press.jobs (fun _ j => (resizeParts r).contains j.arm.partition), .resizeBusy),
       ((resizeParts r).any (twoEpochs s), .busyEpoch)])
    (fun s =>
      let r : Resize := { fn := h.fn, id := h.id, stage := .shrink, moves := mapMoves s m, cancelled := false }
      match (losers r).findSome? (fun p => shrinkFault s p (leavingOf r p)) with
      | some f => .done s .shareInUse ([byteOf f.1, 0] ++ le 2 f.2)
      | none =>
        let s := (losers r).foldl (shrinkCommit r) { s with resize := some r }
        .long ((resizeParts r).foldl shareResize s)) s

/-- Every shrink epoch has retired and the moving units are zero-filled (17 R467, R469): a cancelled resize ends, any other
grows. -/
def resizeScrubbed (s : State) : State :=
  match s.resize with
  | none => s
  | some r =>
    if r.stage == .grow || (losers r).any (twoEpochs s) then s
    else
      let s := s.onMem (fun m => r.moves.foldl (fun m x => scrubUnit m x.1) m)
      if r.cancelled then resizeEnd s r .cancelledAtStage 1
      else
        let s := (gainers r).foldl (growCommit r) { s with resize := some { r with stage := .grow } }
        releaseDeferred ((gainers r).foldl shareResize s)

/-! The other commands of the group. -/

/-- The block that PARTITION_INFO writes (17 R476, 19 R509, R663). -/
def partitionBlock (s : State) (p : Nat) : List Byte :=
  let flags := 2 * b2n s.fixedMode + 4 * b2n (resizing s p)
  let hdr := le 4 0 ++ le 2 flags ++ le 2 (s.part p).epoch ++ le 2 p ++ le 2 (unitsOf s s.cfg p)
    ++ le 1 0 ++ le 1 (tumblersOf s s.cfg p).length ++ le 2 0 ++ le 8 s.clock.now ++ zeros 40
  fit 1024 (hdr ++ (List.range 25).flatMap (fun code => le 4 (limitOf s p code) ++ le 4 (usedOf s p none code) ++ le 4 0xFFFFFFFF ++ le 4 0))

/-- PARTITION_INFO (19 R509, R663). -/
def execPartitionInfo (h : Hdr) (blk : OutBlk) (s : State) : Host.Outcome State Fault Refusal :=
  boothStep (info 0x02 0x02) h (fun _ => [])
    (fun s => writeOut h blk (partitionBlock s (hp h)
      ++ (if h.fn == 0 then (List.range 256).map (fun j => byteOf (unitOwner s s.cfg j)) else [])) s) s

/-- MIDWAY_PRIORITY_SET (03 R88): byte `28 t + m` of the block. -/
def execMidwayPrioritySet (h : Hdr) (blk : HostBlk (List Nat)) (s : State) : Host.Outcome State Fault Refusal :=
  let l := blk.getD []
  boothStep (info 0x02 0x03) h
    (fun _ => [(blk.isNone, .hostAbort), (l.length != 616 || l.any (fun b => decide (15 < b)), .badRequest)])
    (fun s => .device (commitAll s (fun c => { c with own := { c.own with priority := l.zipIdx.map (fun e => (e.2, e.1)) } }))) s

/-- Do the fields of a host window entry break their range or alignment (16 R445)? -/
def hostWindowBroken (s : State) (h : Hdr) (w : HostWindow) : Bool :=
  w.hostBase % 4096 != 0 || 2 ^ 64 ≤ w.hostBase || w.sizeLog2 < 16 || 47 < w.sizeLog2 || w.offset % 2 ^ (w.sizeLog2 - 16) != 0
    || 0x800000000000 < w.offset * 65536 + 2 ^ w.sizeLog2
    || w.part != hp h || (h.fn != 0 && w.tenant != 0 && w.tenant != tenantOf h.fn)
    || !(w.fn == 0 || (1 ≤ w.fn && w.fn ≤ 1008 && partOf w.fn == w.part && (w.tenant == 0 || tenantOf w.fn == w.tenant)))
    || (h.fn != 0 && w.fn != h.fn)
    || (w.pasidEn && !(s.fn w.fn).pasidCap)

/-- Do two windows overlap? -/
def hostWindowsMeet (a b : HostWindow) : Bool :=
  decide (a.offset * 65536 < b.offset * 65536 + 2 ^ b.sizeLog2) && decide (b.offset * 65536 < a.offset * 65536 + 2 ^ a.sizeLog2)

/-- HOST_WINDOW_SET (16 R444, R445). `rsvZero` says that the entry's reserved bits are 0. An entry that is not valid takes
no share and overlaps nothing. -/
def execHostWindowSet (h : Hdr) (n : Nat) (w : HostWindow) (rsvZero : Bool) (s : State) : Host.Outcome State Fault Refusal :=
  let pick := fun (s : State) => pickNumber s.cfg.own.windows false 0 0 4096 n
  boothStep (info 0x02 0x04) h
    (fun s =>
      let k := (pick s).getD 0
      let old := tget s.cfg.own.windows k
      let isNew := w.valid && !(match old with | some o => o.valid && o.part == hp h | none => false)
      [(!choose16 n && decide (4096 ≤ n), .badRequest), ((pick s).isNone, .noResource),
       ((match old with | some o => o.valid && notMine h o.part o.tenant | none => false), .notPermitted),
       (!rsvZero || (w.valid && hostWindowBroken s h w), .windowBad),
       (w.valid && tany s.cfg.own.windows (fun j o => j != k && o.valid && hostWindowsMeet w o), .windowOverlap)]
      ++ (if isNew then roomChecks s (hp h) (hcharge h) 19 1 .noResource else []))
    (fun s =>
      let k := (pick s).getD 0
      .epoch (commitEpoch s (hp h) (fun c => { c with own := { c.own with
        windows := if w.valid then tset c.own.windows k w else tdel c.own.windows k
        windowBy := if w.valid then tset c.own.windowBy k h.fn else tdel c.own.windowBy k } })) (hp h) (le 2 k)) s

/-- APERTURE_SET (16 R433, 19 R509, R664). -/
def execApertureSet (h : Hdr) (vf entry mapped base : Nat) (s : State) : Host.Outcome State Fault Refusal :=
  let f := if h.fn == 0 then vf else h.fn
  boothStep (info 0x02 0x05) h
    (fun s =>
      [(h.fn != 0 && vf != 0 && vf != h.fn, .notPermitted),
       (h.fn == 0 && (!vfExists s vf || h.part != partOf vf), .badRequest),
       (3 < entry || 1 < mapped, .badRequest),
       (mapped == 1 && (base % 0x1000000 != 0 || !inHbmOrStage base 0x1000000), .windowBad)])
    (fun s => .epoch (commitEpoch s (hp h) (fun c => { c with own := { c.own with
      apertures := if mapped == 1 then tset c.own.apertures (4 * f + entry) base else tdel c.own.apertures (4 * f + entry) } })) (hp h) []) s

/-- HOST_TIMEOUT_SET (16 R453). -/
def execHostTimeoutSet (h : Hdr) (us : Nat) (s : State) : Host.Outcome State Fault Refusal :=
  boothStep (info 0x02 0x06) h (fun _ => [(us < 1000 || 1000000 < us, .badRequest)])
    (fun s => .done (s.onHost (fun x => { x with dmaTimeoutUs := us })) .ok []) s

end Sys2Proof.Machine
end

