-- ==== Sys2Proof/Machine/Doorbells.lean ====
section
/-! DEFINITION. Machine/Doorbells.lean: the doorbell pages (16 R435 to R437, 18 R488, 08 R226) and the parley (17 R475). -/

namespace Sys2Proof.Machine

/-! Fetching from the rings of a function. -/

/-- Read the next published descriptors of a mover queue (13 R356). -/
def moverFetch (s : State) (q : Nat) : State :=
  match tget s.mover.queues q with
  | some x => ringFetch s x.own.fn (if x.own.q.pasidEn then some x.own.q.pasid else none) x.own.q.descBase 64 x.own.q.log2
      x.desc.prod x.desc.cons (.moverDesc q x.desc.cons)
  | none => s

/-- Read the next published descriptors of a codec stream (14 R380). -/
def codecFetch (s : State) (n : Nat) : State :=
  match tget s.codec.streams n with
  | some x => ringFetch s x.own.fn none x.own.blk.descBase 32 x.own.blk.descLog2 x.desc.prod x.desc.cons (.codecDesc n x.desc.cons)
  | none => s

/-- Read the next published descriptors of a storage queue (15 R408). -/
def storFetch (s : State) (q : Nat) : State :=
  match tget s.stor.queues q with
  | some x => ringFetch s x.own.fn (if x.own.q.pasidEn then some x.own.q.pasid else none) x.own.q.descBase 64 x.own.q.log2
      x.desc.prod x.desc.cons (.storDesc q x.desc.cons)
  | none => s

/-- Read on in the ring that a doorbell drives. -/
def ringKick (s : State) (t : DbTarget) : State :=
  match t with
  | .rxBuf r => rxFetch s r
  | .txProd q => txFetch s q
  | .gdpOp n => gdpFetch s n
  | .gdpRecv n => gdpFetch s n
  | .moverProd q => moverFetch s q
  | .codecDesc n => codecFetch s n
  | .storProd q => storFetch s q
  | _ => s

/-- What a ring doorbell is checked against: producer or consumer, the device's count, and the ring's entries. -/
def ringView (s : State) (t : DbTarget) : Option (Bool × Nat × Nat) :=
  match t with
  | .rxBuf r => (tget s.net.rings r).map (fun x => (true, x.bufCons, match live s (·.net.rings) r with | some c => 2 ^ c.log2 | none => 0))
  | .rxComp r => (tget s.net.rings r).map (fun x => (false, x.compProd, match live s (·.net.rings) r with | some c => 2 ^ c.log2 | none => 0))
  | .txProd q => (tget s.net.txqs q).map (fun x => (true, x.descCons, match txqCfg s q with | some c => 2 ^ c.log2 | none => 0))
  | .txComp q => (tget s.net.txqs q).map (fun x => (false, x.compProd, match txqCfg s q with | some c => 2 ^ c.log2 | none => 0))
  | .sample q => (tget s.net.samplers q).map (fun x => (false, x.prod, 2 ^ x.log2))
  | .gdpOp n => (tget s.gdp.conns n).map (fun g => (true, g.opRing.cons, match connCfg s n with | some c => 2 ^ c.blk.opLog2 | none => 0))
  | .gdpRecv n => (tget s.gdp.conns n).map (fun g => (true, g.recvRing.cons, match connCfg s n with | some c => 2 ^ c.blk.recvLog2 | none => 0))
  | .gdpComp n => (tget s.gdp.conns n).map (fun g => (false, g.compRing.prod, match connCfg s n with | some c => 2 ^ c.blk.compLog2 | none => 0))
  | .moverProd q => (tget s.mover.queues q).map (fun x => (true, x.desc.cons, 2 ^ x.own.q.log2))
  | .moverComp q => (tget s.mover.queues q).map (fun x => (false, x.comp.prod, 2 ^ x.own.q.log2))
  | .codecDesc n => (tget s.codec.streams n).map (fun x => (true, x.desc.cons, 2 ^ x.own.blk.descLog2))
  | .codecComp n => (tget s.codec.streams n).map (fun x => (false, x.comp.prod, 2 ^ x.own.blk.compLog2))
  | .storProd q => (tget s.stor.queues q).map (fun x => (true, x.desc.cons, 2 ^ x.own.q.log2))
  | .storComp q => (tget s.stor.queues q).map (fun x => (false, x.comp.prod, 2 ^ x.own.q.log2))
  | .telem p => (s.tport p).telemRing.map (fun r => (false, r.1.prod, 2 ^ r.1.log2))
  | .parleyOfTenant => none
  | .parleyOfManager _ => none

/-- Set the host's count of a ring. -/
def ringSet (s : State) (t : DbTarget) (v : Nat) : State :=
  match t with
  | .rxBuf r => s.onRing r (fun x => { x with bufProd := v })
  | .rxComp r => s.onRing r (fun x => { x with compCons := v })
  | .txProd q => s.onTxq q (fun x => { x with descProd := v })
  | .txComp q => s.onTxq q (fun x => { x with compCons := v })
  | .sample q => s.onNet (fun n => { n with samplers := tmod n.samplers q (fun x => { x with cons := v }) })
  | .gdpOp n => s.onConn n (fun g => { g with opRing := { g.opRing with prod := v } })
  | .gdpRecv n => s.onConn n (fun g => { g with recvRing := { g.recvRing with prod := v } })
  | .gdpComp n => s.onConn n (fun g => { g with compRing := { g.compRing with cons := v } })
  | .moverProd q => s.onMvq q (fun x => { x with desc := { x.desc with prod := v } })
  | .moverComp q => s.onMvq q (fun x => { x with comp := { x.comp with cons := v } })
  | .codecDesc n => s.onStream n (fun x => { x with desc := { x.desc with prod := v } })
  | .codecComp n => s.onStream n (fun x => { x with comp := { x.comp with cons := v } })
  | .storProd q => s.onStq q (fun x => { x with desc := { x.desc with prod := v } })
  | .storComp q => s.onStq q (fun x => { x with comp := { x.comp with cons := v } })
  | .telem p => s.onTp p (fun t => { t with telemRing := t.telemRing.map (fun r => ({ r.1 with cons := v }, r.2)) })
  | .parleyOfTenant => s
  | .parleyOfManager _ => s

/-! Acceptance (16 R436, R437). -/

/-- Discard a doorbell write. -/
def dbDiscard (s : State) (fn : Nat) : State := s.onFn fn (fun f => { f with dbDiscards := modAdd 64 f.dbDiscards 1 })

/-- A value that a ring does not accept: it is counted, and reported at most once a second. -/
def dbRefuse (s : State) (fn : Nat) : State :=
  let s := (dbDiscard s fn).onFn fn (fun f => { f with dbErrors := f.dbErrors + 1 })
  let f := s.fn fn
  let due := match f.dbErrorAt with | none => true | some t => decide (t + 1000000000 ≤ s.clock.cadence)
  if !due then s
  else
    let s := raiseEvent s fn 0x0014 (if fn == 0 then 0 else partOf fn) (tenantOf fn) (le 4 f.dbErrors)
    s.onFn fn (fun f => { f with dbErrors := 0, dbErrorAt := some s.clock.cadence })

/-- Is a new producer count within the ring? -/
def prodOk (v c entries : Nat) : Bool := modSub 32 v c ≤ entries
/-- Is a new consumer count within the ring? -/
def consOk (v p entries : Nat) : Bool := modSub 32 p v ≤ entries

/-- Write the EVENTS_LOST record where records have been lost and the ring has an entry for it (04 R101). -/
def eventsLost (s : State) (fn : Nat) : State :=
  let b := (s.fn fn).booth
  if b.lost == 0 || !b.ready || b.stopping || !issuable s fn || (tgetD s.comps 1 {}).state == .stopped
      || 2 ^ b.evtLog2 ≤ modSub 32 b.evtProd b.evtCons then s
  else putEvent (s.onBooth fn (fun b => { b with lost := 0 })) fn 0x0001 (if fn == 0 then 0 else partOf fn) (tenantOf fn) (le 4 b.lost)

/-- Does the host port look at a function's doorbell writes? One in D3hot or under reset has them discarded. -/
def dbHeard (s : State) (fn : Nat) : Bool := issuable s fn

/-- Is the booth's doorbell in use? -/
def boothHeard (s : State) (fn : Nat) : Bool :=
  let b := (s.fn fn).booth
  dbHeard s fn && b.enable && b.ready && !b.stopping

/-- The submission tail (18 R488, R492). -/
def subDoorbell (s : State) (fn v : Nat) : State :=
  let b := (s.fn fn).booth
  if !boothHeard s fn then dbDiscard s fn
  else if !prodOk v b.subCons (2 ^ b.subLog2) then dbRefuse s fn
  else s.onBooth fn (fun b => { b with subProd := v, readFailed := false })

/-- The completion head: the identifiers of the records before it are free (02 R46, 18 R495, R496). -/
def cmpDoorbell (s : State) (fn v : Nat) : State :=
  let b := (s.fn fn).booth
  if !boothHeard s fn then dbDiscard s fn
  else if !consOk v b.cmpProd (2 ^ b.cmpLog2) then dbRefuse s fn
  else s.onBooth fn (fun b => { b with
    cmpCons := v
    done := b.done.drop (b.done.length - (modSub 32 b.cmpProd v + b.held.length)) })

/-- The event head; EVENTS_LOST is written first where records were lost (04 R101). -/
def evtDoorbell (s : State) (fn v : Nat) : State :=
  let b := (s.fn fn).booth
  if !boothHeard s fn then dbDiscard s fn
  else if !consOk v b.evtProd (2 ^ b.evtLog2) then dbRefuse s fn
  else
    let freed := newer 32 v b.evtCons
    let s := s.onBooth fn (fun b => { b with evtCons := v })
    if freed then eventsLost s fn else s

/-- An act doorbell of a tenant function (08 R225, R226). -/
def actDoorbell (s : State) (fn k v : Nat) : State :=
  let p := partOf fn
  let c := (cfgAt s p 129).acts
  if fn == 0 || !dbHeard s fn then dbDiscard s fn
  else match tget c.doorbells (64 * p + k) with
    | none => dbDiscard s fn
    | some n =>
      match tget c.bindings (64 * p + n) with
      | none => dbDiscard s fn
      | some b =>
        if b.tenant != 0 && b.tenant != tenantOf fn then
          dbDiscard (s.onStat (64 * p + n) (fun x => { x with doorbellDenied := x.doorbellDenied + 1 })) fn
        else
          let ev : Event := {
            kind := 5
            binding := 64 * p + n
            session := 0
            epoch := epochAt s p 129
            words := [word (kindWord 5 + k), word (tenantOf fn), 0, word v, 0]
            payload := []
            source := k }
          (putAct (s.onFn fn (fun f => { f with actLast := tset f.actLast k v })) p ev).2

/-! The parley (17 R475). -/

/-- Place a PARLEY record of one direction. -/
def parleyRecord (s : State) (vf : Nat) (up : Bool) (v : Nat) : State :=
  raiseEvent s (if up then 0 else vf) 0x0016 (partOf vf) (tenantOf vf) (le 2 vf ++ zeros 2 ++ le 4 v)

/-- Change one direction of a tenant's parley; `up` is tenant to manager. -/
def onParley (s : State) (vf : Nat) (up : Bool) (f : Parley → Parley) : State :=
  s.onFn vf (fun x => if up then { x with toManager := f x.toManager } else { x with toTenant := f x.toTenant })

/-- One direction of a tenant's parley. -/
def parleyOf (s : State) (vf : Nat) (up : Bool) : Parley := if up then (s.fn vf).toManager else (s.fn vf).toTenant

/-- A parley doorbell is written: a record at once, or the value that the next one carries. -/
def parleyWrite (s : State) (vf : Nat) (up : Bool) (v : Nat) : State :=
  if (parleyOf s vf up).running then onParley s vf up (fun p => { p with pending := some v })
  else onParley (parleyRecord s vf up v) vf up (fun p => { p with running := true })

/-- A ring or parley doorbell of a number. -/
def ringDoorbell (s : State) (fn n v : Nat) : State :=
  match tget (s.fn fn).doorbells n with
  | none => dbDiscard s fn
  | some d =>
    let keep := fun (s : State) => s.onFn fn (fun f => { f with doorbells := tmod f.doorbells n (fun d => { d with last := v }) })
    if !dbHeard s fn then dbDiscard s fn
    else match d.target with
      | .parleyOfTenant => keep (parleyWrite s fn true v)
      | .parleyOfManager vf => keep (parleyWrite s vf false v)
      | t =>
        match ringView s t with
        | none => dbDiscard s fn
        | some (producer, count, entries) =>
          if !(if producer then prodOk v count entries else consOk v count entries) then dbRefuse s fn
          else ringKick (ringSet (keep s) t v) t

/-- A write to a doorbell page (16 R435, R436): `off` counts from the first page, `size` is the octets written. -/
def doorbellWrite (s : State) (fn off size v : Nat) : State :=
  if !ingress s || !(fn == 0 || vfExists s fn) then s
  else if size != 4 || off % 4 != 0 || (if fn == 0 then 0x10000 else 0x1000) ≤ off || 2 ^ 32 ≤ v then dbDiscard s fn
  else if off == 0 then subDoorbell s fn v
  else if off == 4 then cmpDoorbell s fn v
  else if off == 8 then evtDoorbell s fn v
  else if off < 0x100 then dbDiscard s fn
  else if off < 0x200 then actDoorbell s fn ((off - 0x100) / 4) v
  else ringDoorbell s fn ((off - 0x200) / 4) v

/-- BOOTH_SUBMISSION_DOORBELL (18 R488). -/
def execBoothSubmissionDoorbell (fn size v : Nat) (s : State) : Host.Outcome State Fault Refusal := .next (doorbellWrite s fn 0 size v)
/-- BOOTH_COMPLETION_DOORBELL (18 R496). -/
def execBoothCompletionDoorbell (fn size v : Nat) (s : State) : Host.Outcome State Fault Refusal := .next (doorbellWrite s fn 4 size v)
/-- BOOTH_EVENT_DOORBELL (04 R101). -/
def execBoothEventDoorbell (fn size v : Nat) (s : State) : Host.Outcome State Fault Refusal := .next (doorbellWrite s fn 8 size v)
/-- RING_PRODUCER_DOORBELL (16 R437): the offset tells the doorbell; a reserved offset is discarded. -/
def execRingProducerDoorbell (fn off size v : Nat) (s : State) : Host.Outcome State Fault Refusal := .next (doorbellWrite s fn off size v)
/-- RING_CONSUMER_DOORBELL (16 R437). -/
def execRingConsumerDoorbell (fn off size v : Nat) (s : State) : Host.Outcome State Fault Refusal := .next (doorbellWrite s fn off size v)
/-- ACT_DOORBELL_WRITE (08 R226): act doorbell `k` of a function. -/
def execActDoorbellWrite (fn k size v : Nat) (s : State) : Host.Outcome State Fault Refusal :=
  .next (doorbellWrite s fn (0x100 + 4 * (k % 64)) size v)
/-- PARLEY_DOORBELL (17 R475): the offset of the doorbell that TENANT_ATTACH assigned. -/
def execParleyDoorbell (fn off size v : Nat) (s : State) : Host.Outcome State Fault Refusal := .next (doorbellWrite s fn off size v)

/-- PARLEY_INTERVAL_END (17 R475): 10 µs after a record, the value that came meanwhile is placed. -/
def execParleyIntervalEnd (vf : Nat) (up : Bool) (s : State) : Host.Outcome State Fault Refusal :=
  let p := parleyOf s vf up
  if !p.running then .next s
  else match p.pending with
    | some v => .next (onParley (parleyRecord s vf up v) vf up (fun p => { p with pending := none }))
    | none => .next (onParley s vf up (fun p => { p with running := false }))

end Sys2Proof.Machine
end

