-- ==== Sys2Proof/Machine/HostPort.lean ====
section
/-! DEFINITION. Machine/HostPort.lean: what the host port does with the link: BAR accesses (16 R430 to R434), MSI-X (16
R438 to R440), the device's reads of host memory (16 R451, R453), translations (16 R448 to R450), the link (16 R425, R451)
and D3hot (22 R591). -/

namespace Sys2Proof.Machine

/-- Does a function exist? The manager always does. -/
def fnExists (s : State) (fn : Nat) : Bool := fn == 0 || vfExists s fn

/-! Host accesses. -/

/-- A host access that is refused: counted and logged once (16 R434). -/
def hostRefuse (s : State) (fn : Nat) : State :=
  aerLog (s.onFn fn (fun f => { f with accessDenied := modAdd 64 f.accessDenied 1 })) fn .accessRefused

/-- A refused read is answered with Completer Abort; a refused write is discarded. -/
def barRefuse (s : State) (fn : Nat) (read : Bool) : State :=
  let s := hostRefuse s fn
  if read then s.send (.hostAnswer fn .completerAbort) else s

/-- The parts of a function's BAR0 (16 R430, R431). -/
inductive Bar0 where
  | doorbells
  | table (off : Nat)
  | pending (off : Nat)
  | info (off : Nat)
  deriving DecidableEq, Repr

/-- Where a BAR0 access lies; none when it does not lie wholly within one range (16 R434). -/
def bar0At (fn off len : Nat) : Option Bar0 :=
  let within := fun (lo n : Nat) => lo ≤ off && off + len ≤ lo + n
  if fn == 0 then
    if within 0 0x10000 then some .doorbells
    else if within 0x10000 0x8000 then some (.table (off - 0x10000))
    else if within 0x18000 0x100 then some (.pending (off - 0x18000))
    else if within 0x20000 0x40 then some (.info (off - 0x20000))
    else none
  else if within 0 0x1000 then some .doorbells
  else if within 0x2000 0x200 then some (.table (off - 0x2000))
  else if within 0x3000 8 then some (.pending (off - 0x3000))
  else if within 0x4000 0x40 then some (.info (off - 0x4000))
  else none

/-- The value last accepted by the doorbell of an offset (16 R436). -/
def doorbellValue (s : State) (fn off : Nat) : Nat :=
  let f := s.fn fn
  if off == 0 then f.booth.subProd
  else if off == 4 then f.booth.cmpCons
  else if off == 8 then f.booth.evtCons
  else if 0x100 ≤ off && off < 0x200 then tgetD f.actLast ((off - 0x100) / 4) 0
  else if 0x200 ≤ off then (match tget f.doorbells ((off - 0x200) / 4) with | some d => d.last | none => 0)
  else 0

/-- The 16 octets of an MSI-X table entry (16 R438). -/
def msixEntry (e : Msix) : List Byte := le 8 e.addr ++ le 4 e.data ++ le 4 (b2n e.masked)

/-- One octet of a function's MSI-X table. -/
def msixByte (s : State) (fn off : Nat) : Byte := listGet (msixEntry (tgetD (s.fn fn).msix (off / 16) {})) (off % 16) 0

/-- One octet of the pending bit array. -/
def pendingByte (s : State) (fn off : Nat) : Byte :=
  byteOf ((List.range 8).map (fun i => 2 ^ i * b2n (tgetD (s.fn fn).msix (8 * off + i) {}).pending)).sum

/-- FN_INFO (16, table of FN_INFO). -/
def fnInfo (s : State) (fn : Nat) : List Byte :=
  let f := s.fn fn
  let p := if fn == 0 then 0 else partOf fn
  le 4 (b2n (fn == 0) + 64 * p + 1024 * tenantOf fn + 2 ^ 19 * (s.host.linkWidth % 32) + 2 ^ 24 * s.host.linkRate) ++ zeros 44
    ++ le 8 f.dbDiscards ++ le 8 f.accessDenied

/-- One octet of a BAR0 range. -/
def bar0Byte (s : State) (fn : Nat) (r : Bar0) (off i : Nat) : Byte :=
  match r with
  | .doorbells => byteOf (doorbellValue s fn ((off + i) / 4 * 4) / 2 ^ (8 * ((off + i) % 4)))
  | .table o => msixByte s fn (o + i)
  | .pending o => pendingByte s fn (o + i)
  | .info o => listGet (fnInfo s fn) (o + i) 0

/-! MSI-X. -/

/-- A vector may send again: its pending bit becomes one message, at once or at the end of its holdoff (16 R439, R440). -/
def msixRelease (s : State) (fn v : Nat) : State :=
  let f := s.fn fn
  let e := tgetD f.msix v {}
  if !e.pending || e.masked || !f.msixEnable || f.fnMask || !issuable s fn then s
  else if e.held then
    s.onFn fn (fun f => { f with msix := tupd f.msix v {} (fun e => { e with pending := false, raised := true }) })
  else msixSend s fn v

/-- Every vector of a function that may send does. -/
def msixFlush (s : State) (fn : Nat) : State := ((s.fn fn).msix.map (·.1)).foldl (fun s v => msixRelease s fn v) s

/-- An MSI-X table entry from its 16 octets. -/
def msixFrom (e : Msix) (d : List Byte) : Msix :=
  { e with addr := ofLe (d.take 8), data := ofLe ((d.drop 8).take 4), masked := bit (ofLe (d.drop 12)) 0 }

/-- Write octets of the MSI-X table, entry by entry. -/
def msixTable (s : State) (fn off : Nat) (d : List Byte) : State :=
  let lo := off / 16
  let n := ceilDiv (off % 16 + d.length) 16
  (List.range n).foldl (fun s i =>
    let k := lo + i
    let octet := fun j => let a := 16 * k + j; if off ≤ a && a < off + d.length then listGet d (a - off) 0 else msixByte s fn a
    msixRelease (s.onFn fn (fun f => { f with msix := tupd f.msix k {} (fun e => msixFrom e ((List.range 16).map octet)) })) fn k) s

/-- MSIX_TABLE_WRITE (16 R438, R439). -/
def execMsixTableWrite (fn : Nat) (w : MsixWrite) (s : State) : Host.Outcome State Fault Refusal :=
  if !ingress s || !fnExists s fn || (s.fn fn).flr then .next s
  else match w with
    | .table off d => .next (if 16 * vectorsOf fn < off + d.length then s else msixTable s fn off d)
    | .control enable mask => .next (msixFlush (s.onFn fn (fun f => { f with msixEnable := enable, fnMask := mask })) fn)

/-- MSIX_HOLDOFF_END (16 R440): a raise during the holdoff sends one message now. -/
def execMsixHoldoffEnd (fn v : Nat) (s : State) : Host.Outcome State Fault Refusal :=
  let e := tgetD (s.fn fn).msix v {}
  if !e.held then .next s
  else
    let s := s.onFn fn (fun f => { f with msix := tupd f.msix v {} (fun e =>
      { e with held := false, raised := false, pending := e.pending || e.raised }) })
    .next (msixRelease s fn v)

/-- HOST_BAR0_ACCESS (16 R430 to R436). Writes to the pending bits and to FN_INFO are ignored. -/
def execHostBar0Access (fn off : Nat) (x : BarAccess) (s : State) : Host.Outcome State Fault Refusal :=
  if !ingress s || !fnExists s fn then .next s
  else match x with
    | .read len =>
      match bar0At fn off len with
      | none => .next (barRefuse s fn true)
      | some r => .next (s.send (.hostAnswer fn (.data ((List.range len).map (bar0Byte s fn r off)))))
    | .write d poisoned =>
      if poisoned then .next (aerLog s fn .poisonedWrite)
      else match bar0At fn off d.length with
        | none => .next (barRefuse s fn false)
        | some .doorbells => .next (doorbellWrite s fn off d.length (ofLe d))
        | some (.table o) => .next (if (s.fn fn).flr then s else msixTable s fn o d)
        | some (.pending _) => .next s
        | some (.info _) => .next s

/-! BAR2 (16 R430 to R434). -/

/-- The device address of a BAR2 offset; none where nothing is mapped. -/
def bar2Addr (s : State) (fn off : Nat) : Option Nat :=
  if fn == 0 then
    if off < 0x800000000 then some off
    else if 0x800000000 ≤ off && off < 0x810000000 then some (off - 0x800000000 + 0x010000000000)
    else if 0xC00000000 ≤ off && off < 0xD00000000 then some (off - 0xC00000000 + 0x020000000000)
    else none
  else if off < 0x4000000 then
    (tget (cfgAt s (partOf fn) 129).own.apertures (4 * fn + off / 0x1000000)).map (fun b => b + off % 0x1000000)
  else none

/-- Who makes a host access: the manager with PRIV, a tenant function with its own tags (16 R427). -/
def hostActor (s : State) (fn : Nat) : Actor := if fn == 0 then privActor s 0 else actor s (partOf fn) (tenantOf fn) 129

/-- One piece of a read: its status, its data, the state. -/
def bar2ReadPiece (s : State) (fn off n : Nat) : Status × List Byte × State :=
  match bar2Addr s fn off with
  | none => (.unmapped, [], s)
  | some a =>
    let w := hostActor s fn
    match accessCheck s w a n .read with
    | .ok =>
      match region a with
      | .control o => let r := controlRead s o n; (.ok, r.1, r.2)
      | _ => memLoad s a n 5
    | st => (st, [], refuseCount s 5 w a st)

/-- One piece of a write. The manager's writes to control space are refused (16 R432). -/
def bar2WritePiece (s : State) (fn off : Nat) (d : List Byte) : Status × State :=
  match bar2Addr s fn off with
  | none => (.unmapped, s)
  | some a =>
    let w := hostActor s fn
    match region a with
    | .control _ => (.notPermitted, s)
    | _ =>
      match accessCheck s w a d.length .write with
      | .ok => memStore s a d 5
      | st => (st, refuseCount s 5 w a st)

/-- HOST_BAR2_ACCESS: the pieces in ascending order, the first that fails ending the request (16 R434, R452). -/
def execHostBar2Access (fn off : Nat) (x : BarAccess) (s : State) : Host.Outcome State Fault Refusal :=
  if !ingress s || !fnExists s fn then .next s
  else match x with
    | .read len =>
      let r : Status × List Byte × State := (pieces (len + 1) off len).foldl (fun acc pc =>
        if acc.1 != .ok then acc
        else let x := bar2ReadPiece acc.2.2 fn pc.1 pc.2; (x.1, acc.2.1 ++ x.2.1, x.2.2)) (.ok, [], s)
      match r.1 with
      | .ok => .next (r.2.2.send (.hostAnswer fn (.data r.2.1)))
      | .memUncorrectable => .next (r.2.2.send (.hostAnswer fn .poisoned))
      | _ => .next (barRefuse r.2.2 fn true)
    | .write d poisoned =>
      if poisoned then .next (aerLog s fn .poisonedWrite)
      else
        let r : Status × State := (pieces (d.length + 1) off d.length).foldl (fun acc pc =>
          if acc.1 != .ok then acc else bar2WritePiece acc.2 fn pc.1 ((d.drop (pc.1 - off)).take pc.2)) (.ok, s)
        .next (if r.1 == .ok then r.2 else barRefuse r.2 fn false)

/-! The device's reads of host memory (16 R448 to R453). -/

/-- One mover descriptor of 64 octets (13 R359). -/
def parseMover (d : List Byte) : MvDesc :=
  let w := ofLe d
  { src := field w 448 64
    dst := field w 384 64
    srcPitchZ := field w 336 48
    dstPitchZ := field w 288 48
    srcPitchY := field w 248 40
    dstPitchY := field w 208 40
    x := field w 176 32
    y := field w 160 16
    z := field w 144 16
    tag := field w 112 32
    op := field w 16 8
    dims := field w 14 2
    dstHost := bit w 4
    srcHost := bit w 3
    roHint := bit w 2
    signal := bit w 1
    fence := bit w 0
    rsvBad := field w 24 88 != 0 || field w 5 9 != 0 }

/-- Descriptors of a mover queue have been read: they wait, or complete FLUSHED where a flush covered them, or
ISLAND_QUARANTINED where the mover is quarantined (13 R356, R370; 02 R53). -/
def moverDescsRead (s : State) (q : Nat) (d : List Byte) : State :=
  let s := (chunksOf 64 (d.length / 64) d).foldl (fun s c =>
    match tget s.mover.queues q with
    | none => s
    | some x =>
      let s := s.onMvq q (fun x => { x with desc := { x.desc with cons := modAdd 32 x.desc.cons 1 } })
      if x.closing || newer 32 x.flushTo x.desc.cons then moverRecord s q (parseMover c) 1 0 false
      else if quarantined s 141 then moverRecord s q (parseMover c) 12 0 false
      else s.onMvq q (fun x => { x with waiting := x.waiting ++ [parseMover c] })) s
  moverRelease s q

/-- Buffer addresses of a receive ring have been read (05 R150). -/
def rxBuffersRead (s : State) (ring : Nat) (d : List Byte) : State :=
  (chunksOf 8 (d.length / 8) d).foldl (fun s c => s.onRing ring (fun r => { r with
    buffers := r.buffers ++ [ofLe c]
    bufCons := modAdd 32 r.bufCons 1 })) s

/-- The row of LEDGER_AUDIT: tenant functions need TENANT_AUDIT (18 R487, 19 R512). -/
def ledgerInfo (fn : Nat) : CmdInfo := if fn == 0 then info 0x04 0x03 else { info 0x04 0x03 with feature := some 5 }

/-- The row of a submission entry; that of SHAPER_SET depends on the shaper it names, that of LEDGER_AUDIT on the function. -/
def entryInfo (fn group code shaper : Nat) : Option CmdInfo :=
  if group == 0x08 && code == 0x0D then some (shaperInfo shaper)
  else if group == 0x04 && code == 0x03 then some (ledgerInfo fn)
  else commandInfo group code

/-- The header of a submission entry (18 R489). -/
def entryHdr (fn w : Nat) : Hdr :=
  { fn := fn
    id := field w 48 16
    part := field w 44 4
    tenant := field w 38 6
    fence := bit w 25
    signal := bit w 24
    context := field w 64 64
    rsvZero := field w 26 12 == 0 && field w 16 8 == 0
    paramsClean := true }

/-- Fetch one entry of a submission read; one whose group and code no command has completes UNSUPPORTED (18 R493). -/
def fetchEntry (s : State) (fn : Nat) (d : List Byte) : State :=
  let w := ofLe d
  match entryInfo fn (field w 8 8) (field w 0 8) (field w 128 16) with
  | some i => fetchOne s i (entryHdr fn w)
  | none => fetchOne s { group := field w 8 8, code := field w 0 8, minor := 65536 } (entryHdr fn w)

/-- A submission read has been answered (18 R492): its entries are fetched in ring order; none where it failed. -/
def submissionRead (s : State) (fn : Nat) (d : Option (List Byte)) : State :=
  let b := (s.fn fn).booth
  let s := s.onBooth fn (fun b => { b with reading := 0, readFailed := b.readFailed || d.isNone })
  if !b.ready || b.stopping then s
  else match d with
    | some d => (chunksOf 64 (d.length / 64) d).foldl (fun s e => fetchEntry s fn e) s
    | none => s

/-- A read of host memory has ended, with its data or with HOST_ABORT. A failed read of a descriptor ring leaves its
entries unread (log entry 12, DESIGN CHOICE); data of a ring that is no longer the one that was read is not used. -/
def readDone (s : State) (u : ReadFor) (d : Option (List Byte)) : State :=
  let at_ := fun (cons : Option Nat) (n : Nat) => cons == some n
  match u, d with
  | .submission fn, _ => submissionRead s fn d
  | .txBuf q count, _ => txBuffer s q count d
  | .window m, _ => mwAnswer s 21 m (match d with | some _ => .ok | none => .hostAbort) (d.getD [])
  | .txDesc q n, some d => if at_ ((tget s.net.txqs q).map (·.descCons)) n then txDescs s q d else s
  | .rxBuffers r n, some d =>
    if at_ ((tget s.net.rings r).map (·.bufCons)) n then rxFetch (rxBuffersRead s r d) r else s
  | .moverDesc q n, some d =>
    if at_ ((tget s.mover.queues q).map (·.desc.cons)) n then moverFetch (moverDescsRead s q d) q else s
  | .codecDesc k n, some d =>
    if at_ ((tget s.codec.streams k).map (·.desc.cons)) n then codecFetch (codecDescsRead s k d) k else s
  | .storDesc q n, some d =>
    if at_ ((tget s.stor.queues q).map (·.desc.cons)) n then storFetch (storDescsRead s q d) q else s
  | .gdpOps c n, some d =>
    if at_ ((tget s.gdp.conns c).map (·.opRing.cons)) n then gdpFetch (gdpOpsRead s c d) c else s
  | .gdpRecvs c n, some d =>
    if at_ ((tget s.gdp.conns c).map (·.recvRing.cons)) n then gdpFetch (gdpRecvsRead s c d) c else s
  | .txDesc _ _, none => s
  | .rxBuffers _ _, none => s
  | .moverDesc _ _, none => s
  | .codecDesc _ _, none => s
  | .storDesc _ _, none => s
  | .gdpOps _ _, none => s
  | .gdpRecvs _ _, none => s

/-- A read is no longer outstanding: invalidations that waited for it may complete (16 R449). -/
def invalsAfter (s : State) (tag : Nat) : State :=
  let l := s.host.invals.map (fun i => { i with waits := i.waits.filter (· != tag) })
  let s := s.onHost (fun h => { h with invals := l.filter (fun i => !i.waits.isEmpty) })
  (l.filter (fun i => i.waits.isEmpty)).foldl (fun s i => s.send (.invalidateCompletion i.tag)) s

/-- Take a read out of those outstanding. -/
def readTake (s : State) (tag : Nat) : State :=
  invalsAfter (s.onHost (fun h => { h with reads := h.reads.filter (fun r => r.tag != tag) })) tag

/-- A completion for a read arrives (16 R451 to R453). -/
def readAnswer (s : State) (fn tag : Nat) (x : HostRdAns) : State :=
  match s.host.reads.find? (fun r => r.tag == tag) with
  | none => aerLog (s.onHost (fun h => { h with deadTags := h.deadTags.filter (· != tag) })) fn .unexpectedCompletion
  | some r =>
    let s := readTake s tag
    match x with
    | .data d => readDone s r.use (some (fit r.len d))
    | .abort => readDone (hostAbortCount (aerLog s r.fn .completerAbortReceived)) r.use none
    | .poisoned => readDone (hostAbortCount (aerLog s r.fn .poisonedCompletion)) r.use none

/-- HOST_READ_COMPLETION. -/
def execHostReadCompletion (fn tag : Nat) (x : HostRdAns) (s : State) : Host.Outcome State Fault Refusal := .next (readAnswer s fn tag x)

/-- HOST_DMA_TIMEOUT (16 R453): the read ends with HOST_ABORT, and its tag stays out of use. -/
def execHostDmaTimeout (tag : Nat) (s : State) : Host.Outcome State Fault Refusal :=
  match s.host.reads.find? (fun r => r.tag == tag) with
  | none => .next s
  | some r =>
    let s := (readTake s tag).onHost (fun h => { h with deadTags := h.deadTags ++ [tag] })
    .next (readDone (hostAbortCount (aerLog s r.fn .completionTimeout)) r.use none)

/-- SUBMISSION_READ_DONE (18 R492): the answer to a booth's outstanding submission read. -/
def execSubmissionReadDone (fn : Nat) (x : HostRdAns) (s : State) : Host.Outcome State Fault Refusal :=
  match s.host.reads.find? (fun r => r.use == .submission fn) with
  | none => .next s
  | some r => .next (readAnswer s fn r.tag x)

/-! Translations (16 R448 to R450). -/

/-- Send the posted requests that wait, in order, up to the first that still lacks its translation. -/
def releasePosts (s : State) : State :=
  let l := s.host.heldPosts
  let r : Bool × State := l.foldl (fun acc p =>
    let s := acc.2
    let keep := s.onHost (fun h => { h with heldPosts := h.heldPosts ++ [p] })
    if acc.1 then (true, keep)
    else if !issuable s p.fn then (false, keep)
    else match p.msix with
      | some v => (false, s.send (.msix p.fn v p.addr (ofLe p.data)))
      | none =>
        if translated s p.fn p.pasid p.addr true then (false, s.send (.hostWrite p.fn p.pasid p.addr p.ro p.data))
        else (true, keep)) (false, s.onHost (fun h => { h with heldPosts := [] }))
  r.2

/-- Issue the held reads whose translation is known. -/
def releaseReads (s : State) : State :=
  let go := fun (r : HostRd) => issuable s r.fn && translated s r.fn r.pasid r.addr false
  let ready := s.host.heldReads.filter go
  let s := s.onHost (fun h => { h with heldReads := h.heldReads.filter (fun r => !go r), reads := h.reads ++ ready })
  ready.foldl (fun s r => s.send (.hostRead r.tag r.fn r.pasid r.addr r.len)) s

/-- A posted request whose translation is refused is not issued (16 R660). -/
def postRefused (s : State) (p : HeldPost) : State :=
  let s := hostAbortCount s
  if p.isEvent then loseEvent s p.fn else s

/-- Fail the held requests that a translation does not permit (16 R450). -/
def transRefuse (s : State) (fn : Nat) (pasid : Option Nat) (hits : Nat → Bool) : State :=
  let badPost := fun (p : HeldPost) => p.msix.isNone && p.fn == fn && p.pasid == pasid && hits p.addr && !translated s fn pasid p.addr true
  let badRead := fun (r : HostRd) => r.fn == fn && r.pasid == pasid && hits r.addr && !translated s fn pasid r.addr false
  let posts := s.host.heldPosts.filter badPost
  let reads := s.host.heldReads.filter badRead
  let s := s.onHost (fun h => { h with
    heldPosts := h.heldPosts.filter (fun p => !badPost p)
    heldReads := h.heldReads.filter (fun r => !badRead r) })
  reads.foldl (fun s r => readDone (hostAbortCount s) r.use none) (posts.foldl postRefused s)

/-- Put an entry into the translation cache; a full cache loses one that the manual does not name (16 R448). -/
def atcPut (s : State) (e : AtcEntry) : State :=
  if s.host.atc.length < 16384 then s.onHost (fun h => { h with atc := h.atc ++ [e] })
  else
    let d := draw s
    d.2.onHost (fun h => { h with atc := h.atc.eraseIdx (d.1 % h.atc.length) ++ [e] })

/-- TRANSLATION_COMPLETION (16 R448, R450): the held requests it serves are issued or fail. -/
def execTranslationCompletion (fn : Nat) (pasid : Option Nat) (addr : Nat) (x : TransAns) (s : State) : Host.Outcome State Fault Refusal :=
  let awaited := s.host.heldPosts.any (fun p => p.msix.isNone && p.fn == fn && p.pasid == pasid && p.addr == addr)
    || s.host.heldReads.any (fun r => r.fn == fn && r.pasid == pasid && r.addr == addr)
  if !awaited then .next (aerLog s fn .unexpectedCompletion)
  else match x with
    | .page base size read write =>
      let s := atcPut s { fn := fn, pasid := pasid, base := base, size := size, read := read, write := write }
      .next (releaseReads (releasePosts (transRefuse s fn pasid (fun a => base ≤ a && a < base + size))))
    | .error => .next (releaseReads (releasePosts (transRefuse (aerLog s fn .completerAbortReceived) fn pasid (· == addr))))

/-- INVALIDATE_REQUEST (16 R449): up to 32 are outstanding; the completion waits for the reads that used what was removed,
and the held requests ask again. -/
def execInvalidateRequest (fn : Nat) (pasid : Option Nat) (base size tag : Nat) (s : State) : Host.Outcome State Fault Refusal :=
  if !ingress s || 32 ≤ s.host.invals.length then .next s
  else
    let hit := fun (e : AtcEntry) => e.fn == fn && e.pasid == pasid && e.base < base + size && base < e.base + e.size
    let gone := s.host.atc.filter hit
    let used := fun (f : Nat) (ps : Option Nat) (a : Nat) => gone.any (fun e => e.fn == f && e.pasid == ps && e.base ≤ a && a < e.base + e.size)
    let waits := (s.host.reads.filter (fun r => used r.fn r.pasid r.addr)).map (·.tag)
    let again := s.host.heldPosts.filter (fun p => p.msix.isNone && used p.fn p.pasid p.addr)
    let s := s.onHost (fun h => { h with atc := h.atc.filter (fun e => !hit e) })
    let s := again.foldl (fun s p => s.send (.translationRequest p.fn p.pasid p.addr)) s
    .next (if waits.isEmpty then s.send (.invalidateCompletion tag)
      else s.onHost (fun h => { h with invals := h.invals ++ [{ tag := tag, waits := waits }] }))

/-! The link and D3hot. -/

/-- HOST_LINK_UP (16 R425): a rate code of FN_INFO and a width. Below 32 GT/s or x8, HOST_LINK tells. -/
def execHostLinkUp (rate width : Nat) (s : State) : Host.Outcome State Fault Refusal :=
  if !s.power.vmain || s.power.shutdown then .next s
  else
    let s := s.onHost (fun h => { h with linkUp := true, linkRate := rate, linkWidth := width, deadTags := [] })
    .next (if rate < 5 || width < 8 then raiseEvent s 0 0x0013 0 0 (le 1 rate ++ le 1 width) else s)

/-- HOST_LINK_FATAL (16 R451, 22 R592): reported through AER; it resets the device only where the link goes down. -/
def execHostLinkFatal (down : Bool) (s : State) : Host.Outcome State Fault Refusal :=
  let s := aerLog s 0 .fatal
  .next (if down then warmReset (s.onHost (fun h => { h with linkUp := false })) else s)

/-- A function is back in D0: what it held is written and its rings are fetched on (22 R591). -/
def backToD0 (s : State) (fn : Nat) : State :=
  let s := s.onFn fn (fun f => { f with d3 := false })
  let s := msixFlush (eventsLost (writeHeld (releaseReads (releasePosts s)) fn) fn) fn
  ((s.fn fn).doorbells.map (fun d => d.2.target)).foldl ringKick s

/-- D_STATE_CHANGE (22 R591). -/
def execDStateChange (fn : Nat) (d3 : Bool) (s : State) : Host.Outcome State Fault Refusal :=
  if !ingress s || !fnExists s fn || (s.fn fn).flr || (s.fn fn).d3 == d3 then .next s
  else if d3 then .next (s.onFn fn (fun f => { f with d3 := true }))
  else .next (backToD0 s fn)

end Sys2Proof.Machine
end

