-- ==== Sys2Proof/Machine/Tenants.lean ====
section
/-! DEFINITION. Machine/Tenants.lean: stopping a booth (18 R485), closing a tenant (16 R454, 17 R472, R473), the resets of
functions (16 R429, R454, R455), the TENANT group (19 R510) and the BOOTH group (19 R508). -/

namespace Sys2Proof.Machine

/-! Stopping a booth. -/

/-- Abandon reads of host memory; their late completions are unexpected (16 R453, R454). -/
def readsDrop (s : State) (p : HostRd → Bool) : State :=
  let gone := s.host.reads.filter p
  let s := s.onHost (fun h => { h with
    reads := h.reads.filter (fun r => !p r)
    heldReads := h.heldReads.filter (fun r => !p r)
    deadTags := h.deadTags ++ gone.map (·.tag) })
  gone.foldl (fun s r => invalsAfter s r.tag) s

/-- The Press job whose operation a command asked for. -/
def pressOf (s : State) (fn id : Nat) : Option Nat :=
  (tkeys s.press.jobs (fun _ j => match j.op with | some o => o.cmd == some (fn, id) | none => false)).head?

/-- Is a command a resize that has not made its grow commit? -/
def resizeOpen (s : State) (fn id : Nat) : Bool :=
  match s.resize with | some r => r.fn == fn && r.id == id && r.stage != .grow | none => false

/-- Ask for the cancel of a resize (17 R469). -/
def resizeCancel (s : State) : State := { s with resize := s.resize.map (fun r => { r with cancelled := true }) }

/-- What stopping a booth does to one fetched command (18 R485). -/
def stopCommand (fn : Nat) (s : State) (c : OutCmd) : State :=
  if committed s fn c.id then s
  else if resizeOpen s fn c.id then resizeCancel s
  else if s.detaches.any (fun d => d.cmd == some (fn, c.id) && detachPast d) then s
  else match pressOf s fn c.id with
    | some j => pressCancel s j
    | none => (dropWaiter s fn c.id).onBooth fn (fun b => { b with outst := b.outst.filter (fun x => x.id != c.id) })

/-- Stop a function's booth: nothing more is fetched, events are discarded, and its commands end without records. The
manager's takes the Press's operation with it, whether or not a command still waits for it (20 R551, R552). -/
def boothStop (s : State) (fn : Nat) : State :=
  let b := (s.fn fn).booth
  if !b.ready || b.stopping then s.onBooth fn (fun b => { b with enable := false })
  else
    let s := readsDrop s (fun r => r.use == .submission fn)
    let s := s.onBooth fn (fun b => { b with
      enable := false
      stopping := true
      lost := 0
      reading := 0
      held := [] })
    let s := b.outst.foldl (stopCommand fn) s
    if fn == 0 then (s.press.jobs.map (·.1)).foldl pressCancel s else s

/-! Closing a tenant. -/

/-- Do what completes descriptors, with nothing of it written to the host or signalled (16 R454 step 4). -/
def quietly (s : State) (fn : Nat) (f : State → State) : State :=
  let was := (s.fn fn).flr
  (f (s.onFn fn (fun x => { x with flr := true }))).onFn fn (fun x => { x with flr := was })

/-- Destroy a mover queue: what has not started is FLUSHED, counted and not written. -/
def moverClose (s : State) (q : Nat) : State :=
  match tget s.mover.queues q with
  | none => s
  | some m =>
    let rest := modSub 32 m.desc.prod m.desc.cons
    let s := quietly s m.own.fn (fun s => (moverFlush s q).1)
    moverRelease (s.onMvq q (fun m => { m with
      closing := true
      desc := { m.desc with cons := m.desc.prod }
      counts := bump (bump m.counts 0 rest) 4 rest })) q

/-- Destroy a storage queue. -/
def storClose (s : State) (q : Nat) : State :=
  match tget s.stor.queues q with
  | none => s
  | some m =>
    let s := quietly s m.own.fn (fun s => (storFlush s q).1)
    storRelease (s.onStq q (fun m => { m with closing := true, desc := { m.desc with cons := m.desc.prod } })) q

/-- Close a codec stream. -/
def streamClose (s : State) (n : Nat) : State :=
  match tget s.codec.streams n with
  | none => s
  | some x =>
    let rest := modSub 32 x.desc.prod x.desc.cons
    quietly (s.onStream n (fun x => { x with
      desc := { x.desc with cons := x.desc.prod }
      counts := bump x.counts 10 rest })) x.own.fn (fun s => codecClose s n)

/-- Destroy a transmit queue; the descriptors it has not read are FLUSHED as well. -/
def txqClose (s : State) (q : Nat) : State :=
  match txqCfg s q, tget s.net.txqs q with
  | some c, some x =>
    let s := s.onTxq q (fun y => { y with flushed := bump y.flushed 1 (modSub 32 x.descProd x.descCons) })
    quietly s c.fn (fun s => txqDestroy s q)
  | _, _ => s

/-- The configuration without a tenant's objects: what a closing commit of function `vf` takes out (16 R454 step 4), and
for a detach its memory grants (17 R472). -/
def closedCfg (s : State) (vf : Nat) (grants : Bool) (c : Cfg) : Cfg :=
  let p := partOf vf
  let t := tenantOf vf
  let other := fun (q u : Nat) => q != p || u != t
  let gone := (c.acts.bindings.filter (fun e => !other e.2.part e.2.tenant)).map (·.1)
  let owned := fun (j : Nat) => unitOwner s c j == p
  { c with
    own := { c.own with
      windows := tfilter c.own.windows (fun _ w => w.fn != vf)
      windowBy := tfilter c.own.windowBy (fun k _ => match tget c.own.windows k with | some w => w.fn != vf | none => true)
      apertures := tfilter c.own.apertures (fun k _ => k / 4 != vf)
      hbmTenant := if grants then tfilter c.own.hbmTenant (fun g u => !(u == t && owned (g / 8))) else c.own.hbmTenant
      troupeTenant := if grants then tfilter c.own.troupeTenant (fun g u => !(u == t && owned g)) else c.own.troupeTenant }
    net := { c.net with
      txqs := tfilter c.net.txqs (fun _ x => other x.part x.tenant)
      rings := tfilter c.net.rings (fun _ x => other x.part x.tenant) }
    sess := { c.sess with sessions := tfilter c.sess.sessions (fun _ x => other x.part x.tenant) }
    acts := { c.acts with
      bindings := tfilter c.acts.bindings (fun _ x => other x.part x.tenant)
      timers := tfilter c.acts.timers (fun k x => !gone.contains (k / 64 * 64 + x.binding))
      doorbells := tfilter c.acts.doorbells (fun k n => !gone.contains (k / 64 * 64 + n)) }
    movers := tfilter c.movers (fun _ x => other x.part x.tenant)
    codec := { c.codec with streams := tfilter c.codec.streams (fun _ x => other x.part x.tenant) }
    stor := { c.stor with queues := tfilter c.stor.queues (fun _ x => other x.part x.tenant) } }

/-- The closing commit of a function's tenant: everything tagged with it is closed under one new epoch. -/
def closeCommit (s : State) (vf : Nat) (grants : Bool) : State :=
  let p := partOf vf
  let t := tenantOf vf
  let mine := fun (q u : Nat) => q == p && u == t
  let c := s.cfg
  let s := (tkeys c.sess.sessions (fun _ x => mine x.part x.tenant)).foldl sessClose s
  let s := (tkeys c.net.txqs (fun _ x => mine x.part x.tenant)).foldl txqClose s
  let s := commitEpoch s p (closedCfg s vf grants)
  let s := (tkeys c.gdp.conns (fun _ x => mine x.part x.tenant)).foldl (fun s n => gdpDrain (gdpCloseConn s n) n) s
  let s := (tkeys c.codec.streams (fun _ x => mine x.part x.tenant)).foldl streamClose s
  let s := (tkeys c.movers (fun _ x => mine x.part x.tenant)).foldl moverClose s
  let s := (tkeys c.stor.queues (fun _ x => mine x.part x.tenant)).foldl storClose s
  if grants then s.onFn vf (fun f => { f with caps := [] }) else s

/-- A function's own registers return to their reset values: MSI-X, FN_INFO's counters, configuration space and the booth
(16 R454 step 7). Commands past their commit still have to end. -/
def fnReset (s : State) (fn : Nat) : State :=
  s.onFn fn (fun f => { f with
    booth := if f.booth.outst.isEmpty then {} else { ready := true, stopping := true, outst := f.booth.outst }
    msix := []
    msixEnable := false
    fnMask := false
    roEnable := false
    idoReq := false
    idoComp := false
    ats := false
    pasidCap := false
    d3 := false
    accessDenied := 0
    dbDiscards := 0
    dbErrors := 0
    dbErrorAt := none
    actLast := []
    aer := [] })

/-- Steps 5 and 6 of R454: the tenant's key slots that nothing binds any more, and the function's translations. -/
def closeKeys (s : State) (vf : Nat) : State :=
  let p := partOf vf
  let slots := tkeys s.cipher.slots (fun n k => k.part == p && k.tenant == tenantOf vf && (bindingsOf s p n).isEmpty)
  (slots.foldl keyZeroise s).onHost (fun h => { h with atc := h.atc.filter (fun e => e.fn != vf) })

/-- Does a protected connection of the tenant still drain, with its key slots bound? -/
def drains (s : State) (vf : Nat) : Bool :=
  tany s.cfg.gdp.conns (fun _ c => c.part == partOf vf && c.tenant == tenantOf vf && c.blk.prot)

/-- A closing connection that is in ERROR is CLOSED (12 R328). -/
def closeFailed (s : State) (vf : Nat) : State :=
  (tkeys s.cfg.gdp.conns (fun n c => c.part == partOf vf && c.tenant == tenantOf vf && (connOf s n).state == .error)).foldl gdpCloseConn s

/-- The end of a detach: the block says so, the parley doorbells are released, and the command completes (17 R472). A
function that has ceased to exist keeps nothing but the doorbells of objects of the partition (16 R429). -/
def detachEnd (s : State) (d : Detach) : State :=
  let s := shareUpdate s d.vf false
  let s := dropDoorbells s d.vf (· == .parleyOfTenant)
  let s := dropDoorbells s 0 (· == .parleyOfManager d.vf)
  let s := s.onFn d.vf (fun f =>
    if d.removed then { doorbells := f.doorbells }
    else { f with attached := false, detaching := false, toManager := {}, toTenant := {} })
  match d.cmd with
  | some (fn, id) => finish s fn id .ok { epoch := some d.epoch }
  | none => s

/-- Does the booth still have commands of the tenant that were fetched before its detach (17 R472 stage 1)? -/
def tenantBusy (s : State) (vf : Nat) : Bool := (s.fn vf).booth.outst.any (fun c => c.group != 1)

/-- One step of one closing; the entry that goes on, or none when it has ended. -/
def closeStep (s : State) (d : Detach) : Option Detach × State :=
  let p := partOf d.vf
  match d.stage with
  | .commands => (some (if tenantBusy s d.vf then d else { d with stage := .commit }), s)
  | .commit =>
    if twoEpochs s p || resizing s p || (!d.flr && (s.fn d.vf).flr) then (some d, s)
    else
      let s := closeCommit s d.vf (!d.flr)
      (some { d with stage := .retire, epoch := (s.part p).epoch }, s)
  | .retire =>
    let s := closeFailed s d.vf
    if twoEpochs s p || drains s d.vf then (some d, s)
    else
      let s := closeKeys s d.vf
      if d.flr then (some { d with stage := .ready }, fnReset s d.vf) else (none, detachEnd s d)
  | .ready => (some d, s)

/-- Let every closing go as far as it can now. -/
def closeAdvance (s : State) : State :=
  let once := fun (s : State) =>
    s.detaches.foldl (fun s d =>
      let r := closeStep { s with detaches := s.detaches.filter (fun x => x != d) } d
      { r.2 with detaches := match r.1 with | some e => r.2.detaches ++ [e] | none => r.2.detaches }) s
  once (once s)

/-! Resets of functions. -/

/-- Steps 1 to 3 of a function-level reset, and the closing that follows (16 R454). -/
def flrStart (s : State) (vf : Nat) (removed : Bool) : State :=
  if (s.fn vf).flr then
    { s with detaches := s.detaches.map (fun d => if d.vf == vf && d.flr then { d with removed := d.removed || removed } else d) }
  else
    let s := s.onFn vf (fun f => { f with flr := true })
    let s := readsDrop s (fun r => r.fn == vf)
    let s := releasePosts (s.onHost (fun h => { h with heldPosts := h.heldPosts.filter (fun p => p.fn != vf) }))
    let s := boothStop s vf
    closeAdvance { s with detaches := s.detaches ++ [{ vf := vf, flr := true, removed := removed, cmd := none, stage := .commit }] }

/-- FUNCTION_LEVEL_RESET of a tenant function (16 R454). -/
def execFunctionLevelReset (vf : Nat) (s : State) : Host.Outcome State Fault Refusal :=
  if !ingress s || !vfExists s vf || (s.fn vf).flr then .next s else .next (flrStart s vf false)

/-- FLR_READY: step 8 (16 R454, 17 R473). A function that ceases to exist is then detached. -/
def execFlrReady (vf : Nat) (s : State) : Host.Outcome State Fault Refusal :=
  match s.detaches.find? (fun d => d.vf == vf && d.flr && d.stage == .ready) with
  | none => .next s
  | some d =>
    let s := { s with detaches := s.detaches.filter (fun x => x != d) }
    let s := raiseEvent (s.onFn vf (fun f => { f with flr := false })) 0 0x0015 (partOf vf) (tenantOf vf) (le 2 vf)
    if d.removed then
      let s := s.onFn vf (fun f => { f with detaching := true })
      .next (closeAdvance { s with detaches := s.detaches ++ [{ vf := vf, flr := false, removed := true, cmd := none, stage := .commit }] })
    else .next (closeAdvance (shareUpdate s vf))

/-- VF_ENABLE_CHANGE (16 R429): NumVFs stands while VF Enable is 1; clearing it removes every function. -/
def execVfEnableChange (enable : Bool) (n : Nat) (s : State) : Host.Outcome State Fault Refusal :=
  if !ingress s || (s.host.vfEnable && enable) then .next s
  else
    let gone := ((List.range 1008).map (· + 1)).filter (vfExists s)
    let s := s.onHost (fun h => { h with vfEnable := enable, numVfs := min n 1008 })
    .next (gone.foldl (fun s vf => flrStart s vf true) s)

/-- MANAGER_FLR (16 R455). -/
def execManagerFlr (s : State) : Host.Outcome State Fault Refusal :=
  if !ingress s then .next s
  else
    let s := readsDrop s (fun r => r.fn == 0)
    let s := releasePosts (s.onHost (fun h => { h with
      heldPosts := h.heldPosts.filter (fun p => p.fn != 0)
      atc := h.atc.filter (fun e => e.fn != 0) }))
    let s := boothStop s 0
    .next (fnReset ((s.press.jobs.map (·.1)).foldl pressCancel s) 0)

/-! The TENANT group (19 R510, R664). -/

/-- The check of a VF field. -/
def vfBad (s : State) (vf : Nat) : Bool := !vfExists s vf

/-- Is a caps block in order: 25 words, all ones where the code has no cap (19 R510)? -/
def capsBad (l : List Nat) : Bool :=
  l.length != 25 || (List.range 25).any (fun c => !capCode c && listGet l c 0 != 0xFFFFFFFF)

/-- The caps of a block. -/
def capsOf (l : List Nat) : Tbl Nat := ((List.range 25).filter (fun c => listGet l c 0xFFFFFFFF != 0xFFFFFFFF)).map (fun c => (c, listGet l c 0))

/-- TENANT_ATTACH (17 R471). `caps` is none where BLK is 0; `writable` says whether the region can be written. -/
def execTenantAttach (h : Hdr) (vf addr pasid : Nat) (pasidEn : Bool) (caps : Option (HostBlk (List Nat))) (writable : Bool) (s : State) :
    Host.Outcome State Fault Refusal :=
  let l := (caps.getD none).getD []
  boothStep (info 0x03 0x01) h
    (fun s =>
      [(vfBad s vf || addr % 16384 != 0 || (pasidEn && !(s.fn vf).pasidCap), .badRequest), ((s.fn vf).attached, .alreadyAttached),
       (caps == some none, .hostAbort), (caps.isSome && capsBad l, .badRequest),
       (!doorbellsFree s vf 1 || !doorbellsFree s 0 1, .noDoorbells), (!writable || !issuable s vf, .hostAbort)])
    (fun s =>
      let s := s.onFn vf (fun f => { f with
        attached := true
        parleyAddr := addr
        parleyPasid := if pasidEn then some pasid else none
        caps := if caps.isSome then capsOf l else f.caps })
      let s := shareUpdate s vf
      let t := giveDoorbells s vf [.parleyOfTenant]
      let m := giveDoorbells t.2 0 [.parleyOfManager vf]
      let dt := listGet t.1 0 0
      let dm := listGet m.1 0 0
      .done (m.2.onFn vf (fun f => { f with parleyDbTenant := dt, parleyDbManager := dm })) .ok (le 2 dt ++ le 2 dm)) s

/-- TENANT_DETACH (17 R472). It never meets BUSY_EPOCH: its commit waits. -/
def execTenantDetach (h : Hdr) (vf : Nat) (s : State) : Host.Outcome State Fault Refusal :=
  boothStep { info 0x03 0x02 with ep := .none_ } h
    (fun s => [(vfBad s vf, .badRequest), (!(s.fn vf).attached || (s.fn vf).detaching, .notAttached)])
    (fun s =>
      let s := s.onFn vf (fun f => { f with detaching := true })
      .long (closeAdvance { s with detaches := s.detaches ++
        [{ vf := vf, flr := false, removed := false, cmd := some (h.fn, h.id), stage := .commands }] })) s

/-- TENANT_LIMITS_SET (17 R462). -/
def execTenantLimitsSet (h : Hdr) (vf code cap : Nat) (s : State) : Host.Outcome State Fault Refusal :=
  boothStep (info 0x03 0x03) h (fun s => [(vfBad s vf || !capCode code, .badRequest)])
    (fun s => .done (shareUpdate (s.onFn vf (fun f => { f with
      caps := if cap == 0xFFFFFFFF then tdel f.caps code else tset f.caps code cap })) vf) .ok []) s

/-- TENANT_MEMORY_SET (17 R464): owner tenants of a range of granules. -/
def execTenantMemorySet (h : Hdr) (code first count tenant : Nat) (s : State) : Host.Outcome State Fault Refusal :=
  let range := (List.range count).map (· + first)
  let unit := fun (g : Nat) => if code == 0 then g / 8 else g
  boothStep (info 0x03 0x04) h
    (fun s =>
      [((code != 0 && code != 2) || 63 < tenant || (if code == 0 then 2048 else 256) < first + count
          || range.any (fun g => unitOwner s s.cfg (unit g) != hp h), .badRequest)])
    (fun s =>
      let put := fun (t : Tbl Nat) => range.foldl (fun t g => if tenant == 0 then tdel t g else tset t g tenant) t
      let s := commitEpoch s (hp h) (fun c => { c with own :=
        if code == 0 then { c.own with hbmTenant := put c.own.hbmTenant } else { c.own with troupeTenant := put c.own.troupeTenant } })
      .epoch (if tenant == 0 then s else shareUpdate s (vfOf (hp h) tenant)) (hp h) []) s

/-! The BOOTH group (19 R508). -/

/-- NOP. -/
def execNop (h : Hdr) (s : State) : Host.Outcome State Fault Refusal :=
  boothStep (info 0x01 0x01) h (fun _ => []) (fun s => .done s .ok []) s

/-- A CANCEL waits for its target's end (18 R498). -/
def addCanceller (s : State) (fn target id : Nat) : State :=
  s.onBooth fn (fun b => { b with outst := b.outst.map (fun c => if c.id == target then { c with cancellers := c.cancellers ++ [id] } else c) })

/-- What CANCEL does to an applied command (18 R497, 19 R506, 17 R469, R472, 20 R551). -/
def cancelApplied (s : State) (h : Hdr) (c : OutCmd) : Applied :=
  let fn := h.fn
  let wait := addCanceller s fn c.id h.id
  if committed s fn c.id then .long wait
  else if c.group == 0x04 && c.code == 0x02 then .done (finish s fn c.id .cancelled) .ok []
  else if c.group == 0x0D && c.code == 0x06 then
    let isIt := fun (o : SumOp) => o.use == .command fn c.id
    let s := if (match s.tp.sumOpen with | some o => isIt o | none => false) then sumClear s
      else s.onTrapeze (fun t => { t with sumWaiting := t.sumWaiting.filter (fun o => !isIt o) })
    .done (finish s fn c.id .cancelled) .ok []
  else if c.group == 0x0D && c.code == 0x01 then
    .done (tpOff (finish s fn c.id .cancelledAtStage { result := tpResult (s.tport c.arg), stage := 1 }) c.arg .portDown .partnerStalled .portDown) .ok []
  else if c.group == 0x0C && c.code == 0x0A then .done (finish (initGiveUp s fn c.id) fn c.id .cancelled) .ok []
  else if resizeOpen s fn c.id then .long (resizeCancel wait)
  else if s.detaches.any (fun d => d.cmd == some (fn, c.id) && d.stage == .commands) then
    .done (finish (detachGiveUp s fn c.id) fn c.id .cancelled) .ok []
  else match pressOf s fn c.id with
    | some j => .long (pressCancel wait j)
    | none => .long wait

/-- CANCEL (18 R497, R498). -/
def execCancel (h : Hdr) (target : Nat) (s : State) : Host.Outcome State Fault Refusal :=
  boothStep (info 0x01 0x02) h
    (fun s => match outCmd s h.fn target with
      | none => [(true, .notFound)]
      | some c => [(c.group == 1 && c.code == 2, .badRequest)])
    (fun s => match outCmd s h.fn target with
      | none => .done s .notFound []
      | some c =>
        match c.state with
        | .applied => cancelApplied s h c
        | _ => .done (finish s h.fn target .cancelled) .ok []) s

/-- BOOTH_INFO. -/
def execBoothInfo (h : Hdr) (s : State) : Host.Outcome State Fault Refusal :=
  boothStep (info 0x01 0x03) h (fun _ => [])
    (fun s =>
      let b := (s.fn h.fn).booth
      .done s .ok (le 4 b.lostTotal ++ le 4 b.subCons ++ le 2 b.outst.length ++ le 2 (256 + b.minor))) s

/-- MSIX_HOLDOFF_SET (16 R440). -/
def execMsixHoldoffSet (h : Hdr) (v us : Nat) (s : State) : Host.Outcome State Fault Refusal :=
  boothStep (info 0x01 0x04) h (fun _ => [(decide (vectorsOf h.fn ≤ v) || decide (1023 < us), .badRequest)])
    (fun s => .done (s.onFn h.fn (fun f => { f with msix := tupd f.msix v {} (fun e => { e with holdoffUs := us }) })) .ok []) s

end Sys2Proof.Machine
end

