-- ==== Sys2Proof/Machine/BoothRows.lean ====
section
/-! DEFINITION. Machine/BoothRows.lean: enabling and disabling a booth (18 R484 to R487), fetching (18 R492, R494), and the
firmware components (18 R479 to R481). -/

namespace Sys2Proof.Machine

/-- The feature bits offered: those of interface 1.2 that the device configuration block does not disable (18 R487). -/
def featuresOffered (s : State) : Nat := 127 - (127 &&& s.mgmt.config.featureDisable)

/-- The error a booth's enable ends with: 0 none, 1 BAD_RING, 2 VERSION_MISMATCH, 3 FEATURE_MISSING (18 R484, R486, R487). -/
def enableError (s : State) (fn : Nat) (b : Booth) (negotiating : Bool) : Nat :=
  let size := fun (n : Nat) => n < 4 || 12 < n
  if b.subBase % 4096 != 0 || b.cmpBase % 4096 != 0 || b.evtBase % 4096 != 0 || size b.subLog2 || size b.cmpLog2 || size b.evtLog2
    || vectorsOf fn ≤ b.cmpVector || vectorsOf fn ≤ b.evtVector then 1
  else if b.reqMajor != 1 || (if negotiating then decide (2 < b.reqMinor) else b.reqMinor != 2) then 2
  else if !negotiating && (b.featReq &&& featuresOffered s) != b.featReq then 3
  else 0

/-- The manager booth is READY for the first time since the power-on reset: the alarms missed are told (21 R573). -/
def alarmsMissed (s : State) : State :=
  let s := (s.mgmt.alarms.filter (fun e => e.2.onBackup)).foldl (fun s e =>
    raiseEvent s 0 0x0018 0 0 ([byteOf e.1] ++ zeros 7 ++ le 8 (e.2.first.getD 0) ++ le 4 e.2.count)) s
  s.onMgmt (fun m => { m with bootReady := true, alarms := tmap m.alarms (fun _ a => { a with onBackup := false }) })

/-- BOOTH_ENABLE: BOOTH_CTRL is written with ENABLE 1 (18 R483 to R487). -/
def execBoothEnable (fn : Nat) (negotiating : Bool) (s : State) : Host.Outcome State Fault Refusal :=
  let b := (s.fn fn).booth
  if !fnAnswers s fn then .next s
  else if b.enable then .next (s.onBooth fn (fun b => { b with negotiating := negotiating }))
  else if b.stopping then .next s
  else
    let e := enableError s fn b negotiating
    if e != 0 then .next (s.onBooth fn (fun b => { b with negotiating := negotiating, error := e }))
    else
      let s := s.onBooth fn (fun b => { b with
        enable := true
        negotiating := negotiating
        ready := true
        error := 0
        featEn := b.featReq &&& featuresOffered s
        minor := b.reqMinor
        subProd := 0
        subCons := 0
        cmpProd := 0
        cmpCons := 0
        evtProd := 0
        evtCons := 0
        lost := 0
        lostTotal := 0
        reading := 0
        readFailed := false
        outst := []
        done := []
        held := [] })
      .next (if fn == 0 && !s.mgmt.bootReady && (tgetD s.comps 8 {}).state == .running then alarmsMissed s else s)

/-- BOOTH_DISABLE: BOOTH_CTRL is written with ENABLE 0 (18 R485). -/
def execBoothDisable (fn : Nat) (s : State) : Host.Outcome State Fault Refusal :=
  if !fnAnswers s fn then .next s else .next (boothStop s fn)

/-- BOOTH_STOP_COMPLETE (18 R485). -/
def execBoothStopComplete (fn : Nat) (s : State) : Host.Outcome State Fault Refusal :=
  let b := (s.fn fn).booth
  if !b.stopping || !b.outst.isEmpty then .next s
  else .next (s.onBooth fn (fun b => { b with stopping := false, ready := false, featEn := 0 }))

/-- Has a booth entries that a visit may read (18 R492)? -/
def visitable (s : State) (fn : Nat) : Bool :=
  let b := (s.fn fn).booth
  fnExists s fn && mayFetch s fn && b.subProd != b.subCons && b.reading == 0 && !b.readFailed

/-- How many entries a visit reads: up to 8, up to the ring's end, and no more than there are completion entries to promise
(04 R100, 18 R492). -/
def visitCount (b : Booth) : Nat :=
  let n := 2 ^ b.subLog2
  min (min 8 (modSub 32 b.subProd b.subCons)) (min (n - b.subCons % n) (2 ^ b.cmpLog2 - (modSub 32 b.cmpProd b.cmpCons + b.outst.length)))

/-- BOOTH_FETCH_VISIT (18 R492): the next booth in round robin that has entries to fetch. -/
def execBoothFetchVisit (s : State) : Host.Outcome State Fault Refusal :=
  match ((List.range 1009).map (fun i => (s.host.boothNext + i) % 1009)).find? (visitable s) with
  | none => .next s
  | some fn =>
    let b := (s.fn fn).booth
    let k := visitCount b
    let s := (s.onHost (fun h => { h with boothNext := (fn + 1) % 1009 })).onBooth fn (fun b => { b with reading := k })
    .next (hostRead s fn (if b.pasidEn then some b.pasid else none) (b.subBase + 64 * (b.subCons % 2 ^ b.subLog2)) (64 * k) (.submission fn))

/-- May a command that waits in booth service be handed over now (18 R479, R494)? -/
def mayHand (s : State) (fn : Nat) (c : OutCmd) : Bool :=
  let earlier := (s.fn fn).booth.outst.takeWhile (fun k => k.id != c.id)
  c.state == .waiting && (!c.fence || earlier.isEmpty) && (tgetD s.comps (componentOf c.group) {}).state == .running
    && (tgetD s.comps 1 {}).state == .running
    && !earlier.any (fun k => k.state == .waiting && componentOf k.group == componentOf c.group)

/-- COMMAND_HANDOFF. -/
def execCommandHandoff (fn id : Nat) (s : State) : Host.Outcome State Fault Refusal :=
  match outCmd s fn id with
  | none => .next s
  | some c => if mayHand s fn c then .next (markCmd s fn id .handed) else .next s

/-- COMPONENT_FAULT (18 R479 to R481): a component breaks its memory protection or fails a consistency check. -/
def execComponentFault (c : Nat) (s : State) : Host.Outcome State Fault Refusal :=
  .next (if s.power.st == .run then componentFault s c else s)

/-- SUPERVISOR_TIMEOUT (18 R479): a component has not answered its core's supervisor for 20 ms. -/
def execSupervisorTimeout (c : Nat) (s : State) : Host.Outcome State Fault Refusal :=
  .next (if s.power.st == .run then componentFault s c else s)

/-- COMPONENT_RESUME (18 R479): the component runs again; booth service writes the records it held, management answers what
waited. -/
def execComponentResume (c : Nat) (s : State) : Host.Outcome State Fault Refusal :=
  if (tgetD s.comps c {}).state != .restarting then .next s
  else
    let s := s.onComp c (fun k => { k with state := .running })
    if c == 1 then .next ((s.fns.map (·.1)).foldl writeHeld s)
    else if c == 8 then
      let w := s.mgmt.mctpWait
      .next (w.foldl mgmtServe (s.onMgmt (fun m => { m with mctpWait := [] })))
    else .next s

end Sys2Proof.Machine
end

