-- ==== Sys2Proof/Machine/StorCmds.lean ====
section
/-! DEFINITION. Machine/StorCmds.lean: the commands of the STORAGE group (15, 19 R525, R526). -/

namespace Sys2Proof.Machine

/-- Is a drive, or a namespace of it, backing a volume (19 R526)? -/
def driveInUse (s : State) (drive : Nat) (nsid : Option Nat) : Bool :=
  (volumesOn s 0 drive).any (fun e => match nsid with | some n => e.2.v.nsid == n | none => true)

/-- STORAGE_PORT_SET (15 R400). Retraining ends the drives on the port's links until they come up again. -/
def execStoragePortSet (h : Hdr) (port mode : Nat) (s : State) : Host.Outcome State Fault Refusal :=
  boothStep (info 0x0C 0x01) h
    (fun s => [(decide (1 < port) || decide (1 < mode), .badRequest),
               (mode == 0 && s.cfg.stor.x4.contains port && driveInUse s (2 * port + 1) none, .driveInUse)])
    (fun s =>
      let change := s.cfg.stor.x4.contains port != (mode == 1)
      let s := commitAll s (fun c => { c with stor := { c.stor with
        x4 := c.stor.x4.filter (· != port) ++ (if mode == 1 then [port] else []) } })
      .device (if change then driveLost (driveLost s (2 * port)) (2 * port + 1) else s)) s

/-- DRIVE_ADMIN (19 R526): a 64-octet NVMe admin command, and what the drive answers. Its data goes to the buffer in the
manager's host space. -/
def execDriveAdmin (h : Hdr) (drive : Nat) (blk : HostBlk (List Byte)) (buf len : Nat) (answer : DriveAnswer) (s : State) :
    Host.Outcome State Fault Refusal :=
  let c := fit 64 (blk.getD [])
  let op := o8 c 0
  let nsid := ofLe ((c.drop 4).take 4)
  boothStep (info 0x0C 0x02) h
    (fun s => [(decide (3 < drive), .badRequest), (blk.isNone, .hostAbort),
               (! [0x06, 0x02, 0x0A, 0x80, 0x11, 0x10].contains op, .notPermitted),
               ((op == 0x80 && driveInUse s drive (if nsid == 0xFFFFFFFF then none else some nsid))
                 || (op == 0x10 && driveInUse s drive none), .driveInUse),
               ((tgetD s.stor.drives drive {}).st != .up, .driveLost)])
    (fun s =>
      let s := s.send (.driveAdmin drive c)
      match answer with
      | .lost => .done s .driveLost []
      | .entry cqe data =>
        let b := (s.fn h.fn).booth
        let s := if data.isEmpty || len == 0 then s
                 else hostPost s h.fn (if b.pasidEn then some b.pasid else none) buf (data.take len)
        let cqe := fit 16 cqe
        .done s (if ofLe ((cqe.drop 14).take 2) / 2 == 0 then .ok else .driveError) cqe) s

/-- The namespaces of a backing. -/
def spacesOf (s : State) (backing source : Nat) : List NamespaceInfo :=
  if backing == 0 then (tgetD s.stor.drives source {}).spaces else (tgetD s.stor.inits source {}).spaces

/-- Is a backing up? -/
def backingUp (s : State) (backing source : Nat) : Bool :=
  if backing == 0 then (tgetD s.stor.drives source {}).st == .up else (tgetD s.stor.inits source {}).up

/-- Does the backing exist for the partition: a drive, or an initiator controller of it? -/
def backingBad (s : State) (h : Hdr) (v : VolumeCreate) : Bool :=
  if v.backing == 0 then decide (3 < v.source)
  else match tget s.cfg.stor.initiators v.source with | some i => i.part != hp h | none => true

/-- VOLUME_CREATE (15 R404, R405). -/
def execVolumeCreate (h : Hdr) (v : VolumeCreate) (s : State) : Host.Outcome State Fault Refusal :=
  let pick := fun (s : State) => pickNumber s.stor.volumes s.fixedMode (hp h) 64 1024 v.volume
  boothStep (info 0x0C 0x03) h
    (fun s =>
      let n := pick s
      [((!choose16 v.volume && decide (1023 < v.volume)) || decide (1 < v.backing) || backingBad s h v || v.blocks == 0
          || (match (spacesOf s v.backing v.source).find? (fun x => x.nsid == v.nsid) with
              | some x => decide (x.blocks < v.startLba + v.blocks)
              | none => true), .badRequest),
       ((volumesOn s v.backing v.source).any (fun e => e.2.v.nsid == v.nsid && decide (e.2.v.startLba < v.startLba + v.blocks)
          && decide (v.startLba < e.2.v.startLba + e.2.v.blocks)), .volumeOverlap),
       ((match n with | some k => thas s.stor.volumes k || (s.fixedMode && k / 64 != hp h) | none => true), .noVolumes)]
      ++ roomChecks s (hp h) (hcharge h) 22 1 .noVolumes
      ++ (if v.keySlot == 0xFFFF then [] else keyChecks s (hp h) h.tenant v.keySlot 3 3 [7]))
    (fun s =>
      let n := (pick s).getD 0
      let spaces := spacesOf s v.backing v.source
      let bs := match spaces.find? (fun x => x.nsid == v.nsid) with | some x => x.blockSize | none => 512
      let c : VolumeCfg := { part := hp h, tenant := h.tenant, fn := h.fn, v := { v with volume := n }, blockSize := bs }
      let s := s.onStor (fun x => { x with volumes := tset x.volumes n {} })
      let s := commitEpoch s (hp h) (fun g => { g with stor := { g.stor with volumes := tset g.stor.volumes n c } })
      let s := volState s n c .creating 0
      let up := backingUp s v.backing v.source
      let s := if v.preserve then
          (if up then volState s n c .ready 0
           else volState s n c .offline (if v.backing == 0 then Status.driveLost.code else Status.remoteLost.code))
        else if up then volScrub s c spaces else s
      .epoch s (hp h) (le 2 n)) s

/-- The volume a command names. -/
def volNamed (s : State) (h : Hdr) (n : Nat) (none_ : Status) : List (Bool × Status) :=
  match tget s.cfg.stor.volumes n with
  | none => [(true, none_)]
  | some v => [(notMine h v.part v.tenant, .notPermitted)]

/-- VOLUME_DESTROY (15 R406). -/
def execVolumeDestroy (h : Hdr) (n : Nat) (s : State) : Host.Outcome State Fault Refusal :=
  boothStep (info 0x0C 0x04) h (fun s => volNamed s h n .volumeUnknown)
    (fun s => .epoch (commitEpoch s (hp h) (fun g => { g with stor := { g.stor with volumes := tdel g.stor.volumes n } })) (hp h) []) s

/-- Volumes of no live epoch are forgotten when an epoch retires (15 R406). -/
def storRetire (s : State) : State :=
  s.onStor (fun x => { x with
    volumes := tfilter x.volumes (fun n _ => (live s (·.stor.volumes) n).isSome)
    inits := tfilter x.inits (fun n i => i.waiter.isSome || (live s (·.stor.initiators) n).isSome) })

/-- STOR_QUEUE_CREATE (15 R408). -/
def execStorQueueCreate (h : Hdr) (q : QueueCreate) (s : State) : Host.Outcome State Fault Refusal :=
  let pick := fun (s : State) => pickNumber s.stor.queues s.fixedMode (hp h) 64 1024 q.queue
  boothStep (info 0x0C 0x05) h
    (fun s =>
      let n := pick s
      [(q.log2 < 4 || 12 < q.log2 || vectorsOf h.fn ≤ q.vector || !baseOk q.descBase 64 || !baseOk q.compBase 16
          || (q.pasidEn && !(s.fn h.fn).pasidCap) || (!choose16 q.queue && 1024 ≤ q.queue)
          || (q.bounceCells != 0 && (q.bounceCells < 64 || 4096 < q.bounceCells)), .badRequest),
       ((match n with | some k => thas s.stor.queues k || (s.fixedMode && k / 64 != hp h) | none => true), .noResource)]
      ++ roomChecks s (hp h) (hcharge h) 21 1 .noResource
      ++ [(decide ((freeCells s (hp h) q.bounceCells).length < q.bounceCells), .noCells), (!doorbellsFree s h.fn 2, .noDoorbells)])
    (fun s =>
      let n := (pick s).getD 0
      let own : QueueCfg := { part := hp h, tenant := h.tenant, fn := h.fn, q := { q with queue := n } }
      let cells := freeCells s (hp h) q.bounceCells
      let d := giveDoorbells s h.fn [.storProd n, .storComp n]
      let s := (takeCells d.2 (hp h) h.tenant cells).onStor (fun x => { x with
        queues := tset x.queues n { own := own, cells := cells, freeCells := cells } })
      .epoch (commitEpoch s (hp h) (fun c => { c with stor := { c.stor with queues := tset c.stor.queues n own } })) (hp h)
        (le 2 n ++ d.1.flatMap (le 2))) s

/-- The storage queue a command names. -/
def storNamed (s : State) (h : Hdr) (q : Nat) : List (Bool × Status) :=
  match tget s.cfg.stor.queues q with
  | none => [(true, .badRequest)]
  | some o => [(notMine h o.part o.tenant, .notPermitted)]

/-- STOR_QUEUE_FLUSH (15 R413). -/
def execStorQueueFlush (h : Hdr) (q : Nat) (s : State) : Host.Outcome State Fault Refusal :=
  boothStep (info 0x0C 0x06) h (fun s => storNamed s h q)
    (fun s => let r := storFlush s q; .done r.1 .ok (le 4 r.2)) s

/-- A storage queue is destroyed (15 R413). -/
def storDestroy (s : State) (q : Nat) : State :=
  storRelease ((storFlush s q).1.onStq q (fun x => { x with closing := true })) q

/-- STOR_QUEUE_DESTROY (15 R413). -/
def execStorQueueDestroy (h : Hdr) (q : Nat) (s : State) : Host.Outcome State Fault Refusal :=
  boothStep (info 0x0C 0x07) h (fun s => storNamed s h q)
    (fun s => .epoch (storDestroy (commitEpoch s (hp h) (fun c => { c with
      stor := { c.stor with queues := tdel c.stor.queues q } })) q) (hp h) []) s

/-- NVMET_SUBSYSTEM_SET (15 R418). -/
def execNvmetSubsystemSet (h : Hdr) (sub valid : Nat) (blk : HostBlk SubsystemBlock) (s : State) : Host.Outcome State Fault Refusal :=
  let b := blk.getD { nqn := [], hosts := [], namespaces := [] }
  boothStep (info 0x0C 0x08) h
    (fun s => [(decide (3 < sub) || decide (1 < valid), .badRequest), (valid == 1 && blk.isNone, .hostAbort),
               (valid == 1 && b.namespaces.any (fun v => v != 0xFFFF && (match tget s.cfg.stor.volumes v with
                  | some c => c.part != hp h
                  | none => true)), .volumeUnknown)])
    (fun s =>
      let k := 4 * hp h + sub
      .epoch (commitEpoch s (hp h) (fun c => { c with stor := { c.stor with
        subsystems := if valid == 1 then tset c.stor.subsystems k b else tdel c.stor.subsystems k } })) (hp h) []) s

/-- The transmit queue of the partition on the logical port that NVMe/TCP segments leave through (15 R417). -/
def storTxqBad (s : State) (h : Hdr) (q lport : Nat) : Bool :=
  match tget s.cfg.net.txqs q with | some c => notMine h c.part c.tenant || c.lport != lport | none => true

/-- NVMET_LISTENER_SET (15 R418). -/
def execNvmetListenerSet (h : Hdr) (l : ListenerSet) (s : State) : Host.Outcome State Fault Refusal :=
  let remove := l.subsystem == 0xFF
  boothStep (info 0x0C 0x09) h
    (fun s => [(decide (3 < l.listener) || (!remove && (decide (3 < l.subsystem) || (l.ipVersion != 4 && l.ipVersion != 6)
                  || !lportExists s.cfg l.lport || storTxqBad s h l.txq l.lport || meterBad s h l.meter)), .badRequest)])
    (fun s =>
      let k := 4 * hp h + l.listener
      .epoch (commitEpoch s (hp h) (fun c => { c with stor := { c.stor with
        listeners := if remove then tdel c.stor.listeners k else tset c.stor.listeners k { part := hp h, l := l } } })) (hp h) []) s

/-- NVMEI_CONNECT (15 R419). The command stays outstanding until the controller is connected; its epoch commits then, so
that one that fails with REMOTE_LOST changes nothing (log entry 36, PRESUMED). -/
def execNvmeiConnect (h : Hdr) (blk : HostBlk InitiatorBlock) (s : State) : Host.Outcome State Fault Refusal :=
  let b := blk.getD { addr := 0, tcpPort := 0, ipVersion := 4, lport := 0, txq := 0, ioQueues := 1, digests := 0, ctrlLossTmo := 0,
                      subNqn := [], hostNqn := [] }
  let b := { b with ctrlLossTmo := if b.ctrlLossTmo == 0 then 600 else b.ctrlLossTmo }
  boothStep (info 0x0C 0x0A) h
    (fun s => [(blk.isNone, .hostAbort),
               ((b.ipVersion != 4 && b.ipVersion != 6) || !lportExists s.cfg b.lport || storTxqBad s h b.txq b.lport
                  || b.ioQueues == 0 || decide (16 < b.ioQueues) || b.digests % 2 != 0 || decide (7 < b.digests)
                  || decide (b.ctrlLossTmo < 10) || decide (3600 < b.ctrlLossTmo), .badRequest),
               ((tfreeIn s.stor.inits 0 256).isNone || decide (1024 < s.stor.tcps.length + 1 + b.ioQueues), .noResource)]
              ++ roomChecks s (hp h) (hcharge h) 23 (1 + b.ioQueues) .noResource)
    (fun s =>
      let c := (tfreeIn s.stor.inits 0 256).getD 0
      let own : InitCfg := { part := hp h, tenant := h.tenant, blk := b }
      .long (initStart (s.onStor (fun x => { x with
        inits := tset x.inits c { own := some own, waiter := some (h.fn, h.id) } })) c own)) s

/-- NVMEI_DISCONNECT (19 R525). -/
def execNvmeiDisconnect (h : Hdr) (c : Nat) (s : State) : Host.Outcome State Fault Refusal :=
  boothStep (info 0x0C 0x0B) h
    (fun s =>
      match tget s.cfg.stor.initiators c with
      | none => [(true, .badRequest)]
      | some i => [(i.part != hp h, .notPermitted), (!(volumesOn s 1 c).isEmpty, .driveInUse)])
    (fun s =>
      let s := onInit (initReset s c) c (fun i => { i with up := false, lost := false })
      .epoch (commitEpoch s (hp h) (fun g => { g with stor := { g.stor with initiators := tdel g.stor.initiators c } })) (hp h) []) s

/-- STORAGE_TIMEOUT_SET (15 R420). -/
def execStorageTimeoutSet (h : Hdr) (seconds : Nat) (s : State) : Host.Outcome State Fault Refusal :=
  boothStep (info 0x0C 0x0C) h (fun _ => [(seconds == 0 || decide (255 < seconds), .badRequest)])
    (fun s => .done (s.onStor (fun x => { x with timeoutS := seconds })) .ok []) s

/-- STORAGE_STATS (15 R424). -/
def execStorageStats (h : Hdr) (kind n : Nat) (blk : OutBlk) (s : State) : Host.Outcome State Fault Refusal :=
  boothStep (info 0x0C 0x0D) h
    (fun s => [(decide (1 < kind) || (kind == 1 && decide (3 < n)), .badRequest), (kind == 1 && h.fn != 0, .notPermitted)]
              ++ (if kind == 0 then volNamed s h n .badRequest else []))
    (fun s =>
      let d := tgetD s.stor.drives n {}
      let c := if kind == 0 then counters (match tget s.stor.volumes n with | some v => v.counts | none => []) 27
               else [d.dmaDenied, d.resets, d.timeouts]
      writeOut h blk (statsBlock s n c []) s) s

end Sys2Proof.Machine
end

