-- ==== Sys2Proof/Machine/EpochRows.lean ====
section
/-! DEFINITION. Machine/EpochRows.lean: adoption and retirement of epochs (02 R59 to R61), the EPOCH group (19 R511, R512),
the ledger auditor (02 R45 to R56, R661), handshake channels (02 R40 to R43) and the share-status block's own updates (17
R477). -/

namespace Sys2Proof.Machine

/-! Adoption and retirement. -/

/-- Does the object a doorbell drives exist under a configuration? -/
def dbObject (c : Cfg) (t : DbTarget) : Bool :=
  match t with
  | .rxBuf r => thas c.net.rings r
  | .rxComp r => thas c.net.rings r
  | .txProd q => thas c.net.txqs q
  | .txComp q => thas c.net.txqs q
  | .sample q => thas c.net.txqs q
  | .gdpOp n => thas c.gdp.conns n
  | .gdpRecv n => thas c.gdp.conns n
  | .gdpComp n => thas c.gdp.conns n
  | .moverProd q => thas c.movers q
  | .moverComp q => thas c.movers q
  | .codecDesc n => thas c.codec.streams n
  | .codecComp n => thas c.codec.streams n
  | .storProd q => thas c.stor.queues q
  | .storComp q => thas c.stor.queues q
  | .telem _ => true
  | .parleyOfTenant => true
  | .parleyOfManager _ => true

/-- Does the host port still know the object: under the current configuration, or one it has not left yet? -/
def dbLive (s : State) (t : DbTarget) : Bool :=
  dbObject s.cfg t || s.parts.any (fun e => match e.2.old with
    | some (_, c) => e.2.remaining.contains 129 && dbObject c t
    | none => false)

/-- The doorbells of destroyed objects are gone once the host port has adopted (16 R436). -/
def doorbellsSync (s : State) : State :=
  { s with fns := tmap s.fns (fun _ f => { f with doorbells := tfilter f.doorbells (fun _ d => dbLive s d.target) }) }

/-- What an island does on adopting an epoch of a partition. -/
def islandAdopt (s : State) (p i : Nat) : State :=
  if i == 129 then doorbellsSync s
  else if 130 ≤ i && i < 134 then netAdopt s
  else if i == 138 then actAdopt (sessAdopt s) p
  else if i == 140 then gdpAdopt s
  else s

/-- EPOCH_ADOPT (02 R59): an island adopts at its local boundary; a tumbler's is between invocations. The last adoption
completes the command. -/
def execEpochAdopt (p i : Nat) (s : State) : Host.Outcome State Fault Refusal :=
  if !(s.part p).remaining.contains i || quarantined s i || (i < 128 && (tgetD s.acts.tumblers i {}).run.isSome) then .next s
  else .next (closeAdvance (releaseDeferred (islandAdopt (leaveSet s p i) p i)))

/-- Is work of a partition tagged with an epoch still on its way (02 R60)? -/
def oldWork (s : State) (p e : Nat) : Bool :=
  tany s.acts.tumblers (fun _ t => match t.run with | some r => r.part == p && r.epoch == e | none => false)
    || (tgetD s.acts.queues p []).any (fun x => x.epoch == e)
    || s.sess.requests.any (fun r => r.part == p && r.epoch == e)
    || tany s.sess.feeds (fun _ f => f.inflight.any (fun r => r.part == p && r.epoch == e))
    || tany s.cipher.pkts (fun _ x => x.part == p && x.epoch == e)
    || s.net.held.any (fun h => h.part == p && h.epoch == e)
    || tany s.mover.engines (fun _ x => x.runs.any (fun r => r.epoch == e
        && (match tget s.mover.queues r.queue with | some q => q.own.part == p | none => false)))
    || tany s.codec.streams (fun _ x => x.own.part == p && x.pics.any (fun y => y.epoch == e))
    || tany s.stor.queues (fun _ x => x.own.part == p && x.runs.any (fun r => r.epoch == e))
    || tany s.mem.targets (fun _ t => t.heads.any (fun h => !h.req.priv && h.req.part == p && h.req.epoch == e))

/-- Does an EPOCH_WAIT for an epoch hold now (19 R512)? -/
def waitOver (s : State) (p e : Nat) : Bool := !twoEpochs s p && (e == (s.part p).epoch || newer 16 (s.part p).epoch e)

/-- Complete the EPOCH_WAITs of a partition that hold now. -/
def waitsDone (s : State) (p : Nat) : State :=
  let beyond := fun (fn : Nat) (c : OutCmd) =>
    c.group == 4 && c.code == 2 && c.state == .applied && (if fn == 0 then c.part else partOf fn) == p && waitOver s p c.arg
  (s.fns.flatMap (fun f => (f.2.booth.outst.filter (beyond f.1)).map (fun c => (f.1, c.id)))).foldl
    (fun s k => finish s k.1 k.2 .ok { result := le 2 (s.part p).epoch }) s

/-- The old bank of a partition is released. -/
def retirePart (s : State) (p : Nat) : State :=
  let s := s.onPart p (fun q => { q with old := none })
  waitsDone (storRetire (netRetire (ringsRetire (sessRetire s p)))) p

/-- EPOCH_RETIRE (02 R59): every island has adopted and no work tagged with the old epoch is left. -/
def execEpochRetire (p : Nat) (s : State) : Host.Outcome State Fault Refusal :=
  match (s.part p).old with
  | none => .next s
  | some (e, _) =>
    if !(s.part p).remaining.isEmpty || oldWork s p e then .next s
    else .next (closeAdvance (retirePart s p))

/-- RESIZE_SCRUB_DONE (17 R467, R469). -/
def execResizeScrubDone (s : State) : Host.Outcome State Fault Refusal := .next (closeAdvance (resizeScrubbed s))

/-- SHARE_STATUS_UPDATE (17 R477): a usage count has changed, and 100 µs have passed since the last update. -/
def execShareStatusUpdate (vf : Nat) (s : State) : Host.Outcome State Fault Refusal :=
  if !shareStale s vf || s.clock.cadence < (s.fn vf).ssUpdatedAt + 100000 then .next s else .next (shareUpdate s vf)

/-! The EPOCH group (19 R511, R512). -/

/-- EPOCH_INFO. -/
def execEpochInfo (h : Hdr) (s : State) : Host.Outcome State Fault Refusal :=
  boothStep (info 0x04 0x01) h (fun _ => [])
    (fun s =>
      let q := s.part (hp h)
      let old := match q.old with | some (e, _) => e | none => 0
      .done s .ok (le 2 q.epoch ++ le 2 old ++ [byteOf (1 + b2n q.old.isSome)])) s

/-- EPOCH_WAIT. -/
def execEpochWait (h : Hdr) (e : Nat) (s : State) : Host.Outcome State Fault Refusal :=
  boothStep (info 0x04 0x02) h (fun s => [(newer 16 e (s.part (hp h)).epoch, .badRequest)])
    (fun s => if waitOver s (hp h) e then .done s .ok (le 2 (s.part (hp h)).epoch) else .long (setArg s h.fn h.id e)) s

/-! Handshake channels (02 R40 to R44). -/

/-- The number of a channel: receiver, sender, traffic (0 request, 1 response, 2 control) and its place among such channels
(02 R661). -/
def chanKey (receiver sender traffic i : Nat) : Nat := receiver * 65536 + sender * 256 + traffic * 64 + i

/-- A channel's depth, 2 to 256 (02 R42). -/
def chanDepth (k : Nat) : Nat := 2 + Config.channelDepth k % 255

/-- The tickets a sender holds, modulo the counters' wrap (02 R41). -/
def chanHeld (k : Nat) (c : Channel) : Nat := chanDepth k - modSub 16 c.launched c.freedSeen
/-- The occupied slots of a receiver. -/
def chanOccupied (c : Channel) : Nat := modSub 16 c.accepted c.freed

/-- The group of an island (02 R38). -/
def islandGroup (i : Nat) : Nat :=
  if i < 128 then 0 else if i < 130 then i else if i < 134 then 130 else if i < 138 then 134 else if i < 142 then i
  else if i < 144 then 142 else if i == 144 then 144 else if i < 147 then 145 else 147

/-- The transit depth of a channel's class (02 R43). -/
def transitDepth (sender receiver : Nat) : Nat :=
  let port := fun (i : Nat) => [129, 130, 134, 144, 145].contains (islandGroup i)
  if islandGroup sender == islandGroup receiver then 2 else if port sender || port receiver then 4 else 3

/-- HANDSHAKE_TRANSFER (02 R40, R41): the receiver has freed slots and the sender has seen ticket returns, as many as given
and possible; then one transfer, where the channel is open and the sender holds a ticket. -/
def execHandshakeTransfer (receiver sender traffic i freed returned : Nat) (s : State) : Host.Outcome State Fault Refusal :=
  let k := chanKey receiver sender traffic i
  let c := tgetD s.chans k {}
  if quarantined s sender || quarantined s receiver then .next s
  else
    let c := { c with freed := modAdd 16 c.freed (min freed (chanOccupied c)) }
    let c := { c with freedSeen := modAdd 16 c.freedSeen (min returned (modSub 16 c.freed c.freedSeen)) }
    let c := if chanHeld k c == 0 then c else { c with launched := modAdd 16 c.launched 1, accepted := modAdd 16 c.accepted 1 }
    .next { s with chans := tset s.chans k c }

/-! The ledger auditor (02 R45 to R52, R661). -/

/-- One audited instance. -/
structure Audit where
  kind : Nat
  island : Nat
  index : Nat
  held : Nat
  inUse : Nat
  total : Nat
  slack : Nat
  deriving DecidableEq, Repr, Inhabited

/-- A pool's instances: each partition's, then the device's. `moving` of the used units are in motion and seen nowhere. -/
def poolAudits (s : State) (kind island code total slack : Nat) (used moving : Option Nat → Nat) : List Audit :=
  ((List.range 16).map (fun p =>
      let lim := limitOf s p code
      { kind := kind, island := island, index := p, held := lim - used (some p) - moving (some p), inUse := used (some p), total := lim,
        slack := slack : Audit }))
    ++ [{ kind := kind, island := island, index := 0xFFFF, held := total - used none - moving none, inUse := used none, total := total,
          slack := slack }]

/-- Is an object of a partition, where one is named? -/
def inPart (p : Option Nat) (q : Nat) : Bool := match p with | some n => n == q | none => true

/-- The instances of a kind (02 R45, R51, R661). -/
def auditsOf (s : State) (kind : Nat) : List Audit :=
  match kind with
  | 1 => Config.channels.map (fun k =>
      let c := tgetD s.chans k {}
      { kind := 1, island := k / 65536, index := k % 65536, held := chanHeld k c, inUse := chanOccupied c, total := chanDepth k,
        slack := transitDepth (k / 256 % 256) (k / 65536) })
  | 2 => poolAudits s 2 147 1 131072 64 (fun p => tcount s.mem.cells (fun _ u => inPart p u.part && !u.released))
      (fun p => tcount s.mem.cells (fun _ u => inPart p u.part && u.released))
  | 3 => poolAudits s 3 128 4 16384 0 (fun p => tcount s.sess.sess (fun _ x => inPart p x.part)) (fun _ => 0)
  | 4 => poolAudits s 4 128 5 32768 0 (fun p => tcount s.cipher.slots (fun _ x => inPart p x.part)) (fun _ => 0)
  | 5 => poolAudits s 5 139 6 32768 16
      (fun p => sumIn s.cipher.pkts (fun _ x => if inPart p x.part && x.state != .intake then x.granules else 0)) (fun _ => 0)
  | 6 => s.gdp.conns.map (fun e =>
      { kind := 6, island := 140, index := e.1, held := e.2.window - e.2.outstanding, inUse := e.2.outstanding, total := e.2.window, slack := 0 })
  | 7 =>
    let n := (List.range 256).countP (fun j => decide (unitOwner s s.cfg j < 16))
    [{ kind := 7, island := 128, index := 0, held := 256 - n, inUse := n, total := 256, slack := 0 }]
  | 8 => ((List.range 1009).filter (fnExists s)).map (fun fn =>
      let b := (s.fn fn).booth
      let n := b.outst.length + b.done.countP (· < 65536)
      { kind := 8, island := 128, index := fn, held := 65536 - n, inUse := n, total := 65536, slack := 0 })
  | _ => []

/-- The counts of an instance as they are reported: those latched where its keeper is quarantined (02 R53). -/
def auditLatched (s : State) (a : Audit) : Audit :=
  if !quarantined s a.island then a
  else match s.audits.find? (fun r => r.kind == a.kind && r.island == a.island && r.index == a.index) with
    | some r => { a with held := r.held, inUse := r.inUse, total := r.total }
    | none => a

/-- The verdict of counts (02 R52). -/
def verdict (kind held inUse total slack : Nat) : Nat :=
  if kind == 6 && held == 0 && total ≤ inUse then 0
  else if held + inUse == total then 0
  else if total < held + inUse then 2
  else if total ≤ held + inUse + slack then 1
  else 3

/-- One audit record (02 R51). -/
def auditRecord (s : State) (a : Audit) : List Byte :=
  let a := auditLatched s a
  let v := if quarantined s a.island then 4 else verdict a.kind a.held a.inUse a.total a.slack
  [byteOf a.kind, 0, byteOf v, 0, 0, byteOf a.island] ++ le 2 a.index ++ le 4 a.total ++ le 4 a.held ++ le 4 a.inUse ++ le 4 a.slack
    ++ le 8 s.clock.now

/-- May a function audit an instance (02 R661)? -/
def mayAudit (s : State) (h : Hdr) (a : Audit) : Bool :=
  h.fn == 0 || (2 ≤ a.kind && a.kind ≤ 5 && a.index == hp h) || (a.kind == 6 && (connKey s a.index).1 == hp h)
    || (a.kind == 8 && a.index == h.fn)

/-- The instances a request names: every kind for 0, every index for 0xFFFF. -/
def auditsNamed (s : State) (kind index : Nat) : List Audit :=
  ((if kind == 0 then (List.range 8).map (· + 1) else [kind]).flatMap (auditsOf s)).filter (fun a => index == 0xFFFF || a.index == index)

/-- LEDGER_AUDIT (02 R48 to R52, 19 R512). -/
def execLedgerAudit (h : Hdr) (blk : OutBlk) (kind index : Nat) (s : State) : Host.Outcome State Fault Refusal :=
  boothStep (ledgerInfo h.fn) h
    (fun s =>
      [(decide (8 < kind), .badRequest), (h.fn != 0 && (kind == 1 || kind == 7), .notPermitted),
       (index != 0xFFFF && (auditsNamed s kind index).isEmpty, .badRequest),
       (index != 0xFFFF && !(auditsNamed s kind index).any (mayAudit s h), .notPermitted)])
    (fun s =>
      let l := (auditsNamed s kind index).filter (mayAudit s h)
      match writeOut h blk (l.flatMap (auditRecord s)) s with
      | .done s .ok r => .done s .ok (r ++ le 4 l.length)
      | x => x) s

/-- Does the auditor leave a sample out (02 R50)? -/
def auditIgnored (s : State) (kind island index : Nat) : Bool :=
  s.power.gated.contains (if island < 128 then island else if island == 142 || island == 143 then island + 72 else 65536)
    || quarantined s island
    || (match s.resize with
        | some r => (kind == 7 || (2 ≤ kind && kind ≤ 5)) && (resizeParts r).any (fun p =>
            (kind == 7 || index == 0xFFFF || index == p) && !(s.part p).remaining.isEmpty)
        | none => false)

/-- LEDGER_AUDIT_SAMPLE (02 R48, R49): what the strobe latched of an instance; the twelfth imbalanced sample in a row is a
ledger fault, and one balanced sample ends the run. -/
def execLedgerAuditSample (kind island index held inUse : Nat) (s : State) : Host.Outcome State Fault Refusal :=
  match (auditsNamed s kind index).find? (fun a => a.island == island && a.index == index) with
  | none => .next s
  | some a =>
    let mine := fun (r : AuditRun) => r.kind == kind && r.island == island && r.index == index
    let run := match s.audits.find? mine with | some r => r.run | none => 0
    let v := verdict kind held inUse a.total a.slack
    let without := { s with audits := s.audits.filter (fun r => !mine r) }
    let latch := fun (n : Nat) => { without with audits := without.audits ++
      [{ kind := kind, island := island, index := index, run := n, held := held, inUse := inUse, total := a.total }] }
    if auditIgnored s kind island index then .next s
    else if v < 2 then .next without
    else if run + 1 < 12 then .next (latch (run + 1))
    else .next (ledgerFault (latch 0) kind island index held inUse a.total)

end Sys2Proof.Machine
end

