-- ==== Sys2Proof/Machine/MidwayRows.lean ====
section
/-! DEFINITION. Machine/MidwayRows.lean: arbitration, locks and the transactions of Midway's targets (03 R84 to R90, 04 R113),
and the patrol scrubber (03 R80 to R82). The blocks' own rows access memory directly, as if granted at once (log entry
48); these rows are the transactions that a master issues one by one. -/

namespace Sys2Proof.Machine

/-- The slot of fixed-equal-share mode that serves a request: its partition's, or the seventeenth for PRIV traffic. -/
def mwSlot (r : MwReq) : Nat := if r.priv then 16 else r.part

/-- The configuration a target checks and ranks a request by (03 R88, R94). -/
def mwCfg (s : State) (r : MwReq) : Cfg := if r.priv then s.cfg else cfgOf s r.part r.epoch

/-- A request's effective priority (03 R86). -/
def mwEffective (s : State) (t : Nat) (h : MwHead) : Nat := min 15 (mwPriority (mwCfg s h.req) t h.req.master + h.others / 16)

/-- Latch head requests that have come to a target, one per master, in their order of arrival. -/
def mwLatch (t : Nat) (g : MwTarget) (rs : List MwReq) : MwTarget :=
  rs.foldl (fun g r =>
    if targetOf r.addr != t || g.heads.any (fun h => h.req.master == r.master) then g
    else { g with heads := g.heads ++ [{ req := r, arrival := g.arrivals, others := 0 }], arrivals := g.arrivals + 1 }) g

/-- The better of two heads: the higher effective priority, among equals the one that arrived first. -/
def mwBetter (s : State) (t : Nat) (a b : MwHead) : MwHead :=
  if mwEffective s t a < mwEffective s t b || (mwEffective s t a == mwEffective s t b && b.arrival < a.arrival) then b else a

/-- The head that a target grants among the eligible ones (03 R86). -/
def mwChoose (s : State) (t : Nat) (eligible : List MwHead) : Option MwHead :=
  match eligible with
  | [] => none
  | h :: hs => some (hs.foldl (mwBetter s t) h)

/-- Is a head eligible: the target's lock, and in fixed-equal-share mode the slot? -/
def mwEligible (s : State) (g : MwTarget) (slot : Nat) (h : MwHead) : Bool :=
  (match g.lock with | some l => l.master == h.req.master | none => true) && (!s.fixedMode || mwSlot h.req == slot)

/-- The target at which a master holds a lock. -/
def lockOf (s : State) (m : Nat) : Option Nat :=
  (tkeys s.mem.targets (fun _ g => match g.lock with | some l => l.master == m | none => false)).head?

/-- The watchdog breaks the sequence that is open at a target (03 R90): the target is released, and the rest of the sequence,
unless it has ended, completes LOCK_BROKEN. -/
def lockBreak (s : State) (t master addr : Nat) (ended : Bool) : State :=
  let s := s.onTarget t (fun g => latchFault { g with
    lock := none
    lockbrk := modAdd 64 g.lockbrk 1
    brokenBy := if ended then g.brokenBy else g.brokenBy ++ [master] } 3 master addr)
  rindLog (rindMinute (rindCount s 0x13) 20) 0x0004 128 [byteOf master, byteOf t]

/-- Count a corrected error at an address (03 R80). -/
def correctedCount (s : State) (a : Nat) : State :=
  let s := s.onTarget (targetOf a) (fun g => { g with corr := modAdd 64 g.corr 1 })
  match region a with
  | .hbm _ => rindMinute (rindCount s 0x0F) 18
  | _ => rindMinute (rindCount s 0x11) 19

/-- Is an address in a protected memory: HBM, stage, troupe or instruction memory? -/
def protectedMem (a : Nat) : Bool :=
  match region a with
  | .hbm _ => true
  | .stage _ => true
  | .octet _ _ => true
  | .raw _ _ => true
  | .instr _ _ => true
  | _ => false

/-- What the error code finds in the units a transaction reads. -/
def mwErrors (s : State) (r : MwReq) (n : Nat) : State :=
  if !protectedMem r.addr then s
  else
    let found := (unitsTouched r.addr n).filter r.uncorrectable.contains
    let s := s.onMem (fun m => { m with bad := m.bad ++ found.filter (fun u => !m.bad.contains u) })
    if r.corrected then correctedCount s r.addr else s

/-- The actor of a request; PRIV is honoured on M0 to M5 only (03 R91). -/
def mwActor (s : State) (r : MwReq) : Actor :=
  { part := r.part, tenant := r.tenant, priv := r.priv && r.master ≤ 5, cfg := mwCfg s r }

/-- An atomic of a request as a Trapeze message, and as a function of the old value. -/
def mwAtomic (s : State) (t : Nat) (r : MwReq) (f : Nat → Nat) (m : Nat → TpMsg) : State :=
  let w := mwActor s r
  match accessCheck s w r.addr 8 .atomic with
  | .ok =>
    match region r.addr with
    | .trapeze p o =>
      (match outWindow w.cfg p o with
       | some e => tpEnqueue s p (m (accAddr e o)) (.midway t r.master)
       | none => s)
    | _ => let x := atomicAt (mwErrors s r 8) r.master w r.addr f; mwAnswer x.2.2 t r.master x.1 (if x.1 == .ok then le 8 x.2.1 else [])
  | st => mwAnswer (refuseCount s r.master w r.addr st) t r.master st []

/-- A read. -/
def mwRead (s : State) (t : Nat) (r : MwReq) (n : Nat) : State :=
  let w := mwActor s r
  match accessCheck s w r.addr n .read with
  | .ok =>
    match region r.addr with
    | .trapeze p o =>
      (match outWindow w.cfg p o with
       | some e => tpEnqueue s p (.read 0 w.part w.tenant (accAddr e o) n) (.midway t r.master)
       | none => s)
    | .hostWin o =>
      (match hostWindowAt w.cfg o with
       | some e => hostRead s e.fn (if e.pasidEn then some e.pasid else none) (e.hostBase + (o - e.offset * 65536)) n (.window r.master)
       | none => s)
    | .control o => let x := controlRead s o n; mwAnswer x.2 t r.master .ok x.1
    | _ => let x := memLoad (mwErrors s r n) r.addr n r.master; mwAnswer x.2.2 t r.master x.1 x.2.1
  | st => mwAnswer (refuseCount s r.master w r.addr st) t r.master st []

/-- The words of a write to control space, each to its register. The reading of a conversion it starts is not the
transaction's to say (log entry 4, DESIGN CHOICE). -/
def mwControl (s : State) (o : Nat) (d : List Byte) : State :=
  (List.range (d.length / 4)).foldl (fun s i =>
    let x := draw s
    regWrite x.2 (o + 4 * i) (ofLe ((d.drop (4 * i)).take 4)) x.1) s

/-- A write. Units it covers only in part are read, so the error code counts for it too. -/
def mwWrite (s : State) (t : Nat) (r : MwReq) (d : List Byte) : State :=
  let w := mwActor s r
  match region r.addr, accessCheck s w r.addr d.length .write with
  | .control o, .ok => mwAnswer (if o % 4 == 0 && d.length % 4 == 0 then mwControl s o d else s) t r.master .ok []
  | _, .ok => let x := storeOne (mwErrors s r d.length) r.master w r.addr d .other; mwAnswer x.2.1 t r.master x.1 []
  | _, st => mwAnswer (refuseCount s r.master w r.addr st) t r.master st []

/-- A granted transaction that its lock rules let through is performed, or completes with the status of its target's checks. -/
def mwPerform (s : State) (t : Nat) (r : MwReq) : State :=
  match r.kind with
  | .read n => mwRead s t r n
  | .write d => mwWrite s t r d
  | .fadd x => mwAtomic s t r (fun old => (old + x) % 2 ^ 64) (fun a => .fadd 0 r.part r.tenant a x)
  | .cas x y => mwAtomic s t r (fun old => if old == x then y else old) (fun a => .cas 0 r.part r.tenant a x y)

/-- The lock rules of a granted transaction (03 R89, R90). -/
def mwGranted (s : State) (t : Nat) (r : MwReq) : State :=
  let g := tgetD s.mem.targets t {}
  let fail := fun (s : State) (st : Status) => mwAnswer s t r.master st []
  if g.brokenBy.contains r.master then
    fail (if r.unlock then s.onTarget t (fun g => { g with brokenBy := g.brokenBy.filter (· != r.master) }) else s) .lockBroken
  else match g.lock with
    | some l =>
      if 8 ≤ l.count then fail (lockBreak s t r.master r.addr r.unlock) .lockBroken
      else mwPerform (s.onTarget t (fun g => { g with
        lock := if r.unlock then none else some { l with count := l.count + 1, addr := r.addr } })) t r
    | none =>
      if !r.lock then mwPerform s t r
      else if 4 < r.master || 17 ≤ t then fail s .lockDenied
      else if (lockOf s r.master).isSome then fail s .lockNested
      else mwPerform (s.onTarget t (fun g => { g with
        lock := if r.unlock then none else some { master := r.master, count := 1, addr := r.addr } })) t r

/-- MIDWAY_GRANT (03 R84 to R90, 04 R113): the requests `rs` reach target `t`, and it grants one head request. In
fixed-equal-share mode it serves the next slot of the rotation, and a slot without work passes idle. -/
def execMidwayGrant (t : Nat) (rs : List MwReq) (s : State) : Host.Outcome State Fault Refusal :=
  if 21 < t then .next s
  else
    let s := s.onTarget t (fun g => mwLatch t { g with slot := if s.fixedMode then (g.slot + 1) % 17 else g.slot } rs)
    let g := tgetD s.mem.targets t {}
    match mwChoose s t (g.heads.filter (mwEligible s g g.slot)) with
    | none => .next s
    | some h =>
      let counts := fun (x : MwHead) => !s.fixedMode || mwSlot x.req == mwSlot h.req
      let s := s.onTarget t (fun g => { g with
        heads := (g.heads.filter (fun x => x.req.master != h.req.master)).map
          (fun x => if counts x then { x with others := x.others + 1 } else x) })
      .next (mwGranted s t h.req)

/-- LOCK_WATCHDOG (03 R90): a sequence has lasted more than 2 µs. -/
def execLockWatchdog (t : Nat) (s : State) : Host.Outcome State Fault Refusal :=
  match (tgetD s.mem.targets t {}).lock with
  | none => .next s
  | some l => .next (lockBreak s t l.master l.addr false)

/-- PATROL_SCRUB (03 R82): one unit is read; a single error is corrected, an uncorrectable one reported. -/
def execPatrolScrub (a : Nat) (corrected uncorrectable : Bool) (s : State) : Host.Outcome State Fault Refusal :=
  if !protectedMem a || !s.power.vmain || s.power.st == .faulted then .next s
  else
    let u := (unitAt a).1
    if uncorrectable || s.mem.bad.contains u then
      .next (memError (s.onMem (fun m => { m with bad := if m.bad.contains u then m.bad else m.bad ++ [u] })) u)
    else .next (if corrected then correctedCount s a else s)

end Sys2Proof.Machine
end

