-- ==== Sys2Proof/Machine/PressCmds.lean ====
section
/-! DEFINITION. Machine/PressCmds.lean: the PRESS group of booth commands (19 R528; 20 R534, R535, R548, R552) and the
events of a checkpoint or restore (20 R536 to R550). -/

namespace Sys2Proof.Machine

/-- Do two ranges meet? -/
def rangesMeet (a n b m : Nat) : Bool := decide (a < b + m) && decide (b < a + n)

/-- Do two elements of a list, at different places, satisfy a relation? -/
def somePair {α : Type} (f : α → α → Bool) : List α → Bool
  | [] => false
  | x :: xs => xs.any (f x) || somePair f xs

/-- Does a range lie in a partition's HBM? -/
def inPartHbm (s : State) (p a n : Nat) : Bool :=
  (match region a, region (a + n - 1) with | .hbm _, .hbm _ => true | _, _ => false) && rangeOwned s s.cfg p a n

/-- Is a region of an arm block outside its source (20 R535 check 4, R539)? -/
def regionBroken (s : State) (a : ArmBlock) (r : PressRegion) : Bool :=
  1 < r.kind || r.length == 0 || 2 ^ 40 < r.length
    || (if r.kind == 0 then !bit a.members r.member || 3 < r.member || 2 ^ 48 < r.source + r.length
        else !inPartHbm s a.partition r.source r.length)

/-- Do two regions overlap in their source? -/
def regionsMeet (x y : PressRegion) : Bool :=
  x.region == y.region || (x.kind == y.kind && (x.kind == 1 || x.member == y.member) && rangesMeet x.source x.length y.source y.length)

/-- Is a shard entry outside its region (20 R535 check 6)? -/
def shardBroken (rs : List PressRegion) (x : PressShard) : Bool :=
  match rs.find? (fun r => r.region == x.region) with
  | some r => r.length < x.regionOffset + x.length
  | none => true

/-- Do two shard entries of one object overlap? -/
def shardsMeet (x y : PressShard) : Bool := x.object == y.object && rangesMeet x.objectOffset x.length y.objectOffset y.length

/-- Is a connection fit to be a peer or held connection: OPEN, of the partition, owned by tenant 0? -/
def pressConnOk (s : State) (p n : Nat) : Bool :=
  match tget s.cfg.gdp.conns n, tget s.gdp.conns n with
  | some c, some g => c.part == p && c.tenant == 0 && g.state == .open_
  | _, _ => false

/-- The header fields of an arm block out of range (20 R535 check 3). -/
def armFieldsBad (s : State) (a : ArmBlock) : Bool :=
  let entries := if a.mode == 0 then a.regions.length else a.targets.length
  1 < a.mode || 15 < a.partition || a.members == 0 || 15 < a.members || 15 < a.peers.length || entries == 0 || 4096 < entries
    || 65536 < a.shards.length || (a.mode == 1 && !a.shards.isEmpty) || 256 < a.held.length || 60000 < a.setTimeoutMs
    || a.staging % 4096 != 0 || 2 < a.flushKind || !a.rsvZero
    || !(a.peers ++ a.held).all (pressConnOk s a.partition) || (a.peers ++ a.held).eraseDups.length != (a.peers ++ a.held).length
    || a.peers.any (fun n => match tget s.gdp.conns n with | some g => !g.ops.isEmpty | none => true)
    || (a.flushKind == 1 && !(match tget s.cfg.stor.volumes a.flushTarget with | some v => v.part == a.partition | none => false))
    || (a.flushKind == 2 && !(match tget s.cfg.gdp.conns a.flushTarget with | some c => c.part == a.partition | none => false))

/-- Does an operation run on some job? -/
def pressBusy (s : State) : Bool := tany s.press.jobs (fun _ j => j.op.isSome)

/-- PRESS_ARM (20 R534, R535). -/
def execPressArm (h : Hdr) (jn : Nat) (blk : HostBlk ArmBlock) (s : State) : Host.Outcome State Fault Refusal :=
  let a := blk.getD default
  boothStep (info 0x0E 0x01) h
    (fun s =>
      [(blk.isNone, .hostAbort), (s.resize.isSome, .resizeBusy),
       (thas s.press.jobs jn || 4 ≤ s.press.jobs.length
          || tany s.press.jobs (fun _ j => (membersOf a.members).any (bit j.arm.members)), .pressState),
       (armFieldsBad s a, .badRequest),
       (a.mode == 0 && (a.regions.any (regionBroken s a) || somePair regionsMeet a.regions), .badRequest)])
    (fun s =>
      if a.stagingLen < (if a.mode == 0 then wheelBytes a else 4096) then .done s .bufferSmall (le 4 (wheelBytes a))
      else if a.mode == 0 && (a.shards.any (shardBroken a.regions) || somePair shardsMeet a.shards) then .done s .pressShardMap []
      else
        let a := { a with setTimeoutMs := if a.setTimeoutMs == 0 then 1000 else a.setTimeoutMs }
        .done { s with press := { s.press with jobs := tset s.press.jobs jn { arm := a, generation := a.generation } } } .ok []) s

/-- Is a job armed in a mode, with no operation on the device (20 R534)? -/
def pressReadyFor (s : State) (jn mode : Nat) : Bool :=
  (match tget s.press.jobs jn with | some j => j.arm.mode == mode | none => false) && !pressBusy s

/-- Start an operation: the messages kept for it apply, then its Set (20 R538, R540). -/
def pressStart (s : State) (jn : Nat) (o : PressOp) : State :=
  match tget s.press.jobs jn with
  | none => s
  | some j =>
    let fits := fun (k : PressKept) => k.msg.step == o.step && k.msg.generation == o.generation
    let mine := j.kept.filter fits
    let of_ := fun (t : PressType) => (mine.filter (fun k => k.typ == t)).map (·.msg.conn)
    let o := { o with ready := of_ .ready, drained := of_ .drained, copied := of_ .copied }
    let s := s.onJob jn (fun j => { j with op := some o, kept := j.kept.filter (fun k => !fits k) })
    match mine.find? (fun k => k.typ == .abandon) with
    | some k => pressAbort s jn k.msg.status .pressSetTimeout
    | none => sumStart s { use := .press jn, scalar := false, op := 0, members := j.arm.members, value := 0, stepNo := o.step,
                           job := jn, boundaries := [], reached := false, won := false }

/-- A new operation of a job. -/
def pressOp (s : State) (h : Hdr) (restore flush : Bool) (step generation : Nat) (m : Manifest) : PressOp :=
  { restore := restore, cmd := some (h.fn, h.id), step := step, generation := generation, flush := flush, stage := .set
    startedAt := s.clock.cadence, begun := false, unitOn := false, ready := [], drained := [], copied := [], sentReady := false
    sentDrained := false, setTime := 0, crcs := [], cancel := false, manifest := m, copying := false, writes := 0 }

/-- PRESS_CHECKPOINT (20 R540). -/
def execPressCheckpoint (h : Hdr) (jn : Nat) (flush : Bool) (step : Nat) (s : State) : Host.Outcome State Fault Refusal :=
  boothStep (info 0x0E 0x02) h
    (fun s =>
      [(!pressReadyFor s jn 0, .pressState),
       (flush && (match tget s.press.jobs jn with | some j => j.arm.flushKind == 0 | none => true), .badRequest)])
    (fun s =>
      let g := match tget s.press.jobs jn with | some j => j.generation | none => 0
      .long (pressStart s jn (pressOp s h false flush step (modAdd 64 g 1) default))) s

/-- The parts of a target that its object's shard entries feed: offset in the wheel, target address, length; none where a
byte is covered by no entry (20 R548, R549). -/
def targetPieces (m : Manifest) (t : PressTarget) : Nat → Nat → Option (List (Nat × Nat × Nat))
  | _, 0 => some []
  | x, fuel + 1 =>
    if t.objectOffset + t.length ≤ x then some []
    else
      match m.shards.find? (fun e => e.object == t.object && e.objectOffset ≤ x && x < e.objectOffset + e.length) with
      | none => none
      | some e =>
        match m.regions.find? (fun r => r.region == e.region) with
        | none => none
        | some r =>
          let last := min (e.objectOffset + e.length) (t.objectOffset + t.length)
          (targetPieces m t last fuel).map (fun ps =>
            (r.wheelOffset + e.regionOffset + (x - e.objectOffset), t.target + (x - t.objectOffset), last - x) :: ps)

/-- Do two targets overlap? -/
def targetsMeet (x y : PressTarget) : Bool :=
  x.kind == y.kind && (x.kind == 1 || x.member == y.member) && rangesMeet x.target x.length y.target y.length

/-- PRESS_RESTORE (20 R548). -/
def execPressRestore (h : Hdr) (jn : Nat) (blk : HostBlk Manifest) (s : State) : Host.Outcome State Fault Refusal :=
  let m := blk.getD default
  boothStep (info 0x0E 0x03) h
    (fun s =>
      let a := match tget s.press.jobs jn with | some j => j.arm | none => default
      [(blk.isNone, .hostAbort), (!pressReadyFor s jn 1, .pressState),
       (m.magic != 0x57484C31 || m.version != 1 || !m.crcOk || m.verified != 1 || a.stagingLen < m.wheelBytes, .pressImageBad),
       (a.targets.any (fun t => (targetPieces m t t.objectOffset (m.shards.length + 1)).isNone
            || (t.kind == 0 && !bit a.members t.member) || (t.kind != 0 && !inPartHbm s a.partition t.target t.length))
          || somePair targetsMeet a.targets, .pressShardMap)])
    (fun s => .long (pressStart s jn (pressOp s h true false m.step m.generation m))) s

/-- PRESS_DISARM (20 R536). -/
def execPressDisarm (h : Hdr) (jn : Nat) (s : State) : Host.Outcome State Fault Refusal :=
  boothStep (info 0x0E 0x04) h
    (fun s => [(match tget s.press.jobs jn with | some j => j.op.isSome | none => true, .pressState)])
    (fun s =>
      let peers := match tget s.press.jobs jn with | some j => j.arm.peers | none => []
      .done (peers.foldl gdpFetch { s with press := { s.press with jobs := tdel s.press.jobs jn } }) .ok []) s

/-- PRESS_STATUS (20 R552). -/
def execPressStatus (h : Hdr) (jn : Nat) (s : State) : Host.Outcome State Fault Refusal :=
  boothStep (info 0x0E 0x05) h (fun _ => [])
    (fun s =>
      let r := fun (state stage step gen : Nat) => [byteOf state, byteOf stage] ++ zeros 6 ++ le 8 step ++ le 8 gen
      .done s .ok (match tget s.press.jobs jn with
        | none => r 0 0 0 0
        | some j => match j.op with
          | none => r 1 0 0 j.generation
          | some o => r (if o.restore then 3 else 2) (stageNo o.stage) o.step j.generation)) s

/-! Messages of the peers (20 R538). -/

/-- A received message: discarded, kept for a later operation, or given to the running one. -/
def pressMsg (s : State) (typ : PressType) (m : PressMsg) (f : State → PressOp → State) : State :=
  match tget s.press.jobs m.job with
  | none => s
  | some j =>
    if !m.magicOk || !j.arm.peers.contains m.conn then s
    else
      match j.op with
      | none => s.onJob m.job (fun j => { j with
          kept := j.kept.filter (fun k => !(k.typ == typ && k.msg.conn == m.conn)) ++ [{ typ := typ, msg := m }] })
      | some o => if m.step != o.step || m.generation != o.generation then s else f s o

/-- Add a peer to a list once. -/
def addPeer (l : List Nat) (n : Nat) : List Nat := if l.contains n then l else l ++ [n]

/-- PRESS_READY. -/
def execPressReady (m : PressMsg) (s : State) : Host.Outcome State Fault Refusal :=
  .next (pressMsg s .ready m (fun s _ => pressReadyCheck (onOp s m.job (fun o => { o with ready := addPeer o.ready m.conn })) m.job))

/-- PRESS_DRAINED. -/
def execPressDrained (m : PressMsg) (s : State) : Host.Outcome State Fault Refusal :=
  .next (pressMsg s .drained m (fun s _ => pressDrainCheck (onOp s m.job (fun o => { o with drained := addPeer o.drained m.conn })) m.job))

/-- PRESS_COPIED. -/
def execPressCopied (m : PressMsg) (s : State) : Host.Outcome State Fault Refusal :=
  .next (pressMsg s .copied m (fun s _ => pressReleaseCheck (onOp s m.job (fun o => { o with copied := addPeer o.copied m.conn })) m.job))

/-- PRESS_ABANDON. An operation that has released is past it. -/
def execPressAbandon (m : PressMsg) (s : State) : Host.Outcome State Fault Refusal :=
  .next (pressMsg s .abandon m (fun s o => if o.stage == .flush then s else pressAbort s m.job m.status .pressSetTimeout))

/-! The stages. -/

/-- Run a stage's event on a job whose operation is in that stage. -/
def pressAt (s : State) (jn : Nat) (f : PressJob → PressOp → State) : State :=
  match tget s.press.jobs jn with
  | none => s
  | some j => match j.op with
    | none => s
    | some o => f j o

/-- Are the local conditions of Drain met (20 R541)? -/
def pressDrained (s : State) (j : PressJob) (o : PressOp) : Bool :=
  j.arm.held.all (fun n => match tget s.gdp.conns n with | some g => g.ops.isEmpty | none => true)
    && (membersOf j.arm.members).all (fun p =>
      !((s.tport p).writes ++ (s.tport p).queue.filter (fun r => isWrite r.msg)).any (fun r => decide (r.issuedAt ≤ o.startedAt)))

/-- PRESS_DRAIN_DONE: DRAINED goes to every peer. -/
def execPressDrainDone (jn : Nat) (s : State) : Host.Outcome State Fault Refusal :=
  .next (pressAt s jn (fun j o =>
    if o.stage != .drain || o.sentDrained || !pressDrained s j o then s
    else pressDrainCheck (onOp (pressSend s jn j o .drained 0 (fun _ => true)) jn (fun o => { o with sentDrained := true })) jn))

/-- PRESS_SET_TIMEOUT: Set and Drain have taken longer than SET_TIMEOUT (20 R541). -/
def execPressSetTimeout (jn : Nat) (s : State) : Host.Outcome State Fault Refusal :=
  .next (pressAt s jn (fun _ o => if o.stage == .set || o.stage == .drain then pressFail s jn .pressSetTimeout else s))

/-- The status of an access of the Press to a member port. -/
def memberStatus (s : State) (p : Nat) : Status :=
  match (s.tport p).st with | .down => .portDown | .stalled => .partnerStalled | _ => .ok

/-- Read the regions of a checkpoint: HBM itself, accelerator memory as the accelerators returned it. -/
def readRegions (s : State) (rs : List (PressRegion × List Byte)) : Status × List (List Byte) × State :=
  rs.foldl (fun acc x =>
    if acc.1 != .ok then acc
    else if x.1.kind == 1 then
      let r := memLoad acc.2.2 x.1.source x.1.length
      (r.1, acc.2.1 ++ [r.2.1], r.2.2)
    else (memberStatus acc.2.2 x.1.member, acc.2.1 ++ [fit x.1.length x.2], acc.2.2)) (.ok, [], s)

/-- Copy of a checkpoint: regions and manifest go to the staging buffer (20 R543, R547). -/
def copyOut (s : State) (jn : Nat) (j : PressJob) (o : PressOp) (data : List (List Byte)) : State :=
  let a := j.arm
  let placed := placedRegions a
  let r := readRegions s (placed.zipIdx.map (fun x => (x.1, listGet data x.2 [])))
  if r.1 != .ok then pressFail r.2.2 jn r.1
  else
    let crcs := r.2.1.map crc64
    let regions := (placed.zip crcs).map (fun x => { x.1 with crc := x.2 })
    let s := (placed.zip r.2.1).foldl (fun s x => stageWrite s a x.1.wheelOffset x.2) r.2.2
    let m := manifestAtCopy jn a o regions
    let s := stageWrite s a 0 (fit (pageUp m.length) m)
    let s := onOp s jn (fun o => { o with crcs := crcs })
    pressNext s jn o .verify

/-- The octets of a region that start at an offset in the wheel. -/
def wheelSlice (rs : List (PressRegion × List Byte)) (off n : Nat) : List Byte :=
  match rs.find? (fun x => x.1.wheelOffset ≤ off && off < x.1.wheelOffset + x.1.length) with
  | some x => fit n (x.2.drop (off - x.1.wheelOffset))
  | none => zeros n

/-- Write one piece of a target: the status and the state. Writes to an accelerator wait for its answers. -/
def writeTarget (s : State) (jn : Nat) (a : ArmBlock) (t : PressTarget) (addr : Nat) (d : List Byte) : Status × State :=
  if t.kind == 1 then memStore s addr d
  else
    match memberStatus s t.member with
    | .ok =>
      (.ok, (pieces (d.length + 1) addr d.length).foldl (fun s pc =>
        tpEnqueue (onOp s jn (fun o => { o with writes := o.writes + 1 })) t.member
          (.write 0 a.partition 0 pc.1 ((d.drop (pc.1 - addr)).take pc.2)) (.press jn)) s)
    | st => (st, s)

/-- Copy of a restore: every piece of every target, then the CRCs again (20 R549). -/
def copyIn (s : State) (jn : Nat) (j : PressJob) (o : PressOp) (data : List (List Byte)) : State :=
  let m := o.manifest
  let rs := m.regions.zipIdx.map (fun x => (x.1, fit x.1.length (listGet data x.2 [])))
  let parts := j.arm.targets.flatMap (fun t =>
    ((targetPieces m t t.objectOffset (m.shards.length + 1)).getD []).map (fun pc => (t, pc)))
  let r := parts.foldl (fun acc x =>
    if acc.1 != .ok then acc else writeTarget acc.2 jn j.arm x.1 x.2.2.1 (wheelSlice rs x.2.1 x.2.2.2)) (Status.ok, s)
  if r.1 != .ok then pressFail r.2 jn r.1
  else if rs.any (fun x => crc64 x.2 != x.1.crc) then pressFail r.2 jn .pressVerifyFail
  else
    let s := onOp r.2 jn (fun o => { o with copying := true })
    pressAt s jn (fun _ o => if o.writes == 0 then pressCopiedOut (pressRecord s jn 4 0) jn else s)

/-- PRESS_COPY_DONE. `data` is what the members, or the staging buffer, returned for each region; `fail` the status of an
access that failed outside the device. -/
def execPressCopyDone (jn : Nat) (data : List (List Byte)) (fail : Option Status) (s : State) : Host.Outcome State Fault Refusal :=
  .next (pressAt s jn (fun j o =>
    if o.stage != .copy || o.copying then s
    else match fail with
      | some st => pressFail s jn (if st == .ok then .hostAbort else st)
      | none => if o.restore then copyIn s jn j o data else copyOut s jn j o data))

/-- The lowest identifier of the regions whose CRC as read back is not the one expected. -/
def lowestBad (rs : List PressRegion) (want got : List Nat) : Option Nat :=
  ((rs.zipIdx.filter (fun x => listGet want x.2 0 != listGet got x.2 0)).map (fun x => x.1.region)).min?

/-- PRESS_VERIFY_DONE. `crcs` are the CRCs of the regions as read back from host memory, `manifestOk` says that the
manifest's CRC matches, `fail` is the status of a read that failed. -/
def execPressVerifyDone (jn : Nat) (crcs : List Nat) (manifestOk : Bool) (fail : Option Status) (s : State) :
    Host.Outcome State Fault Refusal :=
  .next (pressAt s jn (fun j o =>
    if o.stage != .verify then s
    else match fail with
      | some st => pressFail s jn (if st == .ok then .hostAbort else st)
      | none =>
        if o.restore then
          match lowestBad o.manifest.regions (o.manifest.regions.map (·.crc)) crcs with
          | some _ => pressFail s jn .pressVerifyFail
          | none => pressNext s jn o .copy
        else
          let bad := lowestBad j.arm.regions o.crcs crcs
          if bad.isSome || !manifestOk then
            let n := bad.getD 0xFFFFFFFF
            pressAbort (rindCount (stageWrite s j.arm 52 (le 4 n)) 0x1F) jn Status.pressVerifyFail.code .pressVerifyFail n
          else
            let s := stageWrite (stageWrite s j.arm 42 [1]) j.arm 52 (le 4 0xFFFFFFFF)
            let s := s.onJob jn (fun j => { j with generation := modAdd 64 j.generation 1 })
            let s := pressRecord s jn 5 0
            if o.cancel then pressCancelled s jn 7 else pressCopiedOut s jn))

/-- The Rind's entry of an operation that failed after its wheel was verified. -/
def pressFailLog (s : State) (jn stage : Nat) (st : Status) : State :=
  rindLog s 0x000D 128 (le 2 jn ++ [byteOf stage, 0] ++ le 2 st.code ++ zeros 2 ++ le 4 0xFFFFFFFF)

/-- PRESS_RELEASE_TIMEOUT: ABANDON to the peers whose COPIED is late, and the node releases without them (20 R545, R550). -/
def execPressReleaseTimeout (jn : Nat) (s : State) : Host.Outcome State Fault Refusal :=
  .next (pressAt s jn (fun _ o => if o.stage == .release then pressFail s jn .pressSetTimeout else s))

/-- PRESS_FLUSH_DONE: the wheel has been written to its volume or its connection, or the transfer has failed (20 R546). -/
def execPressFlushDone (jn : Nat) (st : Status) (s : State) : Host.Outcome State Fault Refusal :=
  .next (pressAt s jn (fun j o =>
    if o.stage != .flush then s
    else
      let st := if j.arm.flushKind == 1 && !thas s.cfg.stor.volumes j.arm.flushTarget then .volumeUnknown else st
      let s := pressRecord s jn 7 st.code
      let s := if st == .ok then s else pressFailLog s jn 7 st
      pressEnd s jn o st (if st == .ok then 7 else 6) 0))

end Sys2Proof.Machine
end

