-- ==== Sys2Proof/Machine/Dispatch.lean ====
section
/-! DEFINITION. Machine/Dispatch.lean: the meaning of each command and event, one call for each row of the table. -/

namespace Sys2Proof.Machine

/-- What a command or event does to everything but the queue of commands that wait. -/
def exec (i : Instr) (s : State) : Host.Outcome State Fault Refusal :=
  match i with
  | .nop h => Sys2Proof.Machine.execNop h s
  | .cancel h target => Sys2Proof.Machine.execCancel h target s
  | .boothInfo h => Sys2Proof.Machine.execBoothInfo h s
  | .msixHoldoffSet h v us => Sys2Proof.Machine.execMsixHoldoffSet h v us s
  | .partitionSharesSet h blk => Sys2Proof.Machine.execPartitionSharesSet h blk s
  | .partitionInfo h blk => Sys2Proof.Machine.execPartitionInfo h blk s
  | .midwayPrioritySet h blk => Sys2Proof.Machine.execMidwayPrioritySet h blk s
  | .hostWindowSet h n w rsvZero => Sys2Proof.Machine.execHostWindowSet h n w rsvZero s
  | .apertureSet h vf entry mapped base => Sys2Proof.Machine.execApertureSet h vf entry mapped base s
  | .hostTimeoutSet h us => Sys2Proof.Machine.execHostTimeoutSet h us s
  | .islandRelease h island passes => Sys2Proof.Machine.execIslandRelease h island passes s
  | .tenantAttach h vf addr pasid pasidEn caps writable => Sys2Proof.Machine.execTenantAttach h vf addr pasid pasidEn caps writable s
  | .tenantDetach h vf => Sys2Proof.Machine.execTenantDetach h vf s
  | .tenantLimitsSet h vf code cap => Sys2Proof.Machine.execTenantLimitsSet h vf code cap s
  | .tenantMemorySet h code first count tenant => Sys2Proof.Machine.execTenantMemorySet h code first count tenant s
  | .epochInfo h => Sys2Proof.Machine.execEpochInfo h s
  | .epochWait h e => Sys2Proof.Machine.execEpochWait h e s
  | .ledgerAudit h blk kind index => Sys2Proof.Machine.execLedgerAudit h blk kind index s
  | .sessionOpen h n blk => Sys2Proof.Machine.execSessionOpen h n blk s
  | .sessionModify h n blk => Sys2Proof.Machine.execSessionModify h n blk s
  | .sessionClose h n => Sys2Proof.Machine.execSessionClose h n s
  | .sessionStats h n blk => Sys2Proof.Machine.execSessionStats h n blk s
  | .feedRingBind h r => Sys2Proof.Machine.execFeedRingBind h r s
  | .returnRingBind h r binding => Sys2Proof.Machine.execReturnRingBind h r binding s
  | .feedRingReset h n => Sys2Proof.Machine.execFeedRingReset h n s
  | .returnRingReset h n => Sys2Proof.Machine.execReturnRingReset h n s
  | .feedRingUnbind h n => Sys2Proof.Machine.execFeedRingUnbind h n s
  | .returnRingUnbind h n => Sys2Proof.Machine.execReturnRingUnbind h n s
  | .feedSeed h seed => Sys2Proof.Machine.execFeedSeed h seed s
  | .keyLoad h slot blk => Sys2Proof.Machine.execKeyLoad h slot blk s
  | .keyInfo h slot => Sys2Proof.Machine.execKeyInfo h slot s
  | .keyDestroy h slot => Sys2Proof.Machine.execKeyDestroy h slot s
  | .cipherSelftest h failing => Sys2Proof.Machine.execCipherSelftest h failing s
  | .actLoad h act image => Sys2Proof.Machine.execActLoad h act image s
  | .actUnload h act => Sys2Proof.Machine.execActUnload h act s
  | .actBind h b => Sys2Proof.Machine.execActBind h b s
  | .actRebind h b => Sys2Proof.Machine.execActRebind h b s
  | .actUnbind h n => Sys2Proof.Machine.execActUnbind h n s
  | .actTimerSet h timer binding period first => Sys2Proof.Machine.execActTimerSet h timer binding period first s
  | .actDoorbellSet h doorbell binding => Sys2Proof.Machine.execActDoorbellSet h doorbell binding s
  | .actStats h n clear blk => Sys2Proof.Machine.execActStats h n clear blk s
  | .portModeSet h port mode => Sys2Proof.Machine.execPortModeSet h port mode s
  | .portConfigSet h p => Sys2Proof.Machine.execPortConfigSet h p s
  | .vlanMapSet h lport vid part => Sys2Proof.Machine.execVlanMapSet h lport vid part s
  | .macFilterSet h lport list_ index valid mac => Sys2Proof.Machine.execMacFilterSet h lport list_ index valid mac s
  | .rxringCreate h r => Sys2Proof.Machine.execRxringCreate h r s
  | .rxringDestroy h ring => Sys2Proof.Machine.execRxringDestroy h ring s
  | .rxruleSet h rule valid blk => Sys2Proof.Machine.execRxruleSet h rule valid blk s
  | .txqCreate h q => Sys2Proof.Machine.execTxqCreate h q s
  | .txqDestroy h q => Sys2Proof.Machine.execTxqDestroy h q s
  | .txCancel h q count => Sys2Proof.Machine.execTxCancel h q count s
  | .queueFlush h q => Sys2Proof.Machine.execQueueFlush h q s
  | .meterSet h m => Sys2Proof.Machine.execMeterSet h m s
  | .shaperSet h shaper mode rate size => Sys2Proof.Machine.execShaperSet h shaper mode rate size s
  | .classSet h lport ws => Sys2Proof.Machine.execClassSet h lport ws s
  | .gclSet h port n cycle base blk => Sys2Proof.Machine.execGclSet h port n cycle base blk s
  | .queueSampleSet h x => Sys2Proof.Machine.execQueueSampleSet h x s
  | .queueStats h q clear blk => Sys2Proof.Machine.execQueueStats h q clear blk s
  | .portStats h n clear blk => Sys2Proof.Machine.execPortStats h n clear blk s
  | .gdpPortSet h port meter => Sys2Proof.Machine.execGdpPortSet h port meter s
  | .gdpRegionSet h r => Sys2Proof.Machine.execGdpRegionSet h r s
  | .gdpConnect h blk => Sys2Proof.Machine.execGdpConnect h blk s
  | .gdpModify h m => Sys2Proof.Machine.execGdpModify h m s
  | .gdpClose h n => Sys2Proof.Machine.execGdpClose h n s
  | .gdpStats h n blk => Sys2Proof.Machine.execGdpStats h n blk s
  | .moverQueueCreate h q => Sys2Proof.Machine.execMoverQueueCreate h q s
  | .moverQueueFlush h q => Sys2Proof.Machine.execMoverQueueFlush h q s
  | .moverQueueDestroy h q => Sys2Proof.Machine.execMoverQueueDestroy h q s
  | .moverStats h q blk => Sys2Proof.Machine.execMoverStats h q blk s
  | .codecModeSet h inst mode age idle watchdog => Sys2Proof.Machine.execCodecModeSet h inst mode age idle watchdog s
  | .codecStreamOpen h n blk => Sys2Proof.Machine.execCodecStreamOpen h n blk s
  | .codecStreamModify h m => Sys2Proof.Machine.execCodecStreamModify h m s
  | .codecStreamFlush h n => Sys2Proof.Machine.execCodecStreamFlush h n s
  | .codecStreamClose h n => Sys2Proof.Machine.execCodecStreamClose h n s
  | .codecBufferRegister h x => Sys2Proof.Machine.execCodecBufferRegister h x s
  | .codecStats h n blk => Sys2Proof.Machine.execCodecStats h n blk s
  | .storagePortSet h port mode => Sys2Proof.Machine.execStoragePortSet h port mode s
  | .driveAdmin h drive blk buf len answer => Sys2Proof.Machine.execDriveAdmin h drive blk buf len answer s
  | .volumeCreate h v => Sys2Proof.Machine.execVolumeCreate h v s
  | .volumeDestroy h n => Sys2Proof.Machine.execVolumeDestroy h n s
  | .storQueueCreate h q => Sys2Proof.Machine.execStorQueueCreate h q s
  | .storQueueFlush h q => Sys2Proof.Machine.execStorQueueFlush h q s
  | .storQueueDestroy h q => Sys2Proof.Machine.execStorQueueDestroy h q s
  | .nvmetSubsystemSet h sub valid blk => Sys2Proof.Machine.execNvmetSubsystemSet h sub valid blk s
  | .nvmetListenerSet h l => Sys2Proof.Machine.execNvmetListenerSet h l s
  | .nvmeiConnect h blk => Sys2Proof.Machine.execNvmeiConnect h blk s
  | .nvmeiDisconnect h c => Sys2Proof.Machine.execNvmeiDisconnect h c s
  | .storageTimeoutSet h seconds => Sys2Proof.Machine.execStorageTimeoutSet h seconds s
  | .storageStats h kind n blk => Sys2Proof.Machine.execStorageStats h kind n blk s
  | .trapezeEnable h p => Sys2Proof.Machine.execTrapezeEnable h p s
  | .trapezeDisable h p => Sys2Proof.Machine.execTrapezeDisable h p s
  | .trapezeWindowSet h p k e rsvZero => Sys2Proof.Machine.execTrapezeWindowSet h p k e rsvZero s
  | .trapezeInwindowSet h p k e rsvZero => Sys2Proof.Machine.execTrapezeInwindowSet h p k e rsvZero s
  | .trapezeTelemSet h p base log2 vector => Sys2Proof.Machine.execTrapezeTelemSet h p base log2 vector s
  | .trapezeSum h c => Sys2Proof.Machine.execTrapezeSum h c s
  | .trapezeWatchdogSet h p creditUs readUs => Sys2Proof.Machine.execTrapezeWatchdogSet h p creditUs readUs s
  | .trapezeStats h p blk => Sys2Proof.Machine.execTrapezeStats h p blk s
  | .pressArm h jn blk => Sys2Proof.Machine.execPressArm h jn blk s
  | .pressCheckpoint h jn flush step => Sys2Proof.Machine.execPressCheckpoint h jn flush step s
  | .pressRestore h jn blk => Sys2Proof.Machine.execPressRestore h jn blk s
  | .pressDisarm h jn => Sys2Proof.Machine.execPressDisarm h jn s
  | .pressStatus h jn => Sys2Proof.Machine.execPressStatus h jn s
  | .deviceInfo h => Sys2Proof.Machine.execDeviceInfo h s
  | .deviceConfigSet h blk len => Sys2Proof.Machine.execDeviceConfigSet h blk len s
  | .timeSet h time => Sys2Proof.Machine.execTimeSet h time s
  | .timeAdjust h ppb => Sys2Proof.Machine.execTimeAdjust h ppb s
  | .alarmSet h n flags time period => Sys2Proof.Machine.execAlarmSet h n flags time period s
  | .playbillUpdate h blk => Sys2Proof.Machine.execPlaybillUpdate h blk s
  | .rindRead h section_ blk => Sys2Proof.Machine.execRindRead h section_ blk s
  | .rindCommit h => Sys2Proof.Machine.execRindCommit h s
  | .boothEnable fn negotiating => Sys2Proof.Machine.execBoothEnable fn negotiating s
  | .boothDisable fn => Sys2Proof.Machine.execBoothDisable fn s
  | .boothStopComplete fn => Sys2Proof.Machine.execBoothStopComplete fn s
  | .boothFetchVisit => Sys2Proof.Machine.execBoothFetchVisit s
  | .submissionReadDone fn x => Sys2Proof.Machine.execSubmissionReadDone fn x s
  | .commandHandoff fn id => Sys2Proof.Machine.execCommandHandoff fn id s
  | .componentFault c => Sys2Proof.Machine.execComponentFault c s
  | .supervisorTimeout c => Sys2Proof.Machine.execSupervisorTimeout c s
  | .componentResume c => Sys2Proof.Machine.execComponentResume c s
  | .boothSubmissionDoorbell fn size v => Sys2Proof.Machine.execBoothSubmissionDoorbell fn size v s
  | .boothCompletionDoorbell fn size v => Sys2Proof.Machine.execBoothCompletionDoorbell fn size v s
  | .boothEventDoorbell fn size v => Sys2Proof.Machine.execBoothEventDoorbell fn size v s
  | .ringProducerDoorbell fn off size v => Sys2Proof.Machine.execRingProducerDoorbell fn off size v s
  | .ringConsumerDoorbell fn off size v => Sys2Proof.Machine.execRingConsumerDoorbell fn off size v s
  | .actDoorbellWrite fn k size v => Sys2Proof.Machine.execActDoorbellWrite fn k size v s
  | .parleyDoorbell fn off size v => Sys2Proof.Machine.execParleyDoorbell fn off size v s
  | .parleyIntervalEnd vf up => Sys2Proof.Machine.execParleyIntervalEnd vf up s
  | .hostBar0Access fn off x => Sys2Proof.Machine.execHostBar0Access fn off x s
  | .hostBar2Access fn off x => Sys2Proof.Machine.execHostBar2Access fn off x s
  | .msixTableWrite fn w => Sys2Proof.Machine.execMsixTableWrite fn w s
  | .msixHoldoffEnd fn v => Sys2Proof.Machine.execMsixHoldoffEnd fn v s
  | .vfEnableChange enable n => Sys2Proof.Machine.execVfEnableChange enable n s
  | .functionLevelReset vf => Sys2Proof.Machine.execFunctionLevelReset vf s
  | .flrReady vf => Sys2Proof.Machine.execFlrReady vf s
  | .managerFlr => Sys2Proof.Machine.execManagerFlr s
  | .dStateChange fn d3 => Sys2Proof.Machine.execDStateChange fn d3 s
  | .hostReadCompletion fn tag x => Sys2Proof.Machine.execHostReadCompletion fn tag x s
  | .hostDmaTimeout tag => Sys2Proof.Machine.execHostDmaTimeout tag s
  | .translationCompletion fn pasid addr x => Sys2Proof.Machine.execTranslationCompletion fn pasid addr x s
  | .invalidateRequest fn pasid base size tag => Sys2Proof.Machine.execInvalidateRequest fn pasid base size tag s
  | .hostLinkUp rate width => Sys2Proof.Machine.execHostLinkUp rate width s
  | .hostLinkFatal down => Sys2Proof.Machine.execHostLinkFatal down s
  | .midwayGrant t rs => Sys2Proof.Machine.execMidwayGrant t rs s
  | .lockWatchdog t => Sys2Proof.Machine.execLockWatchdog t s
  | .patrolScrub a corrected uncorrectable => Sys2Proof.Machine.execPatrolScrub a corrected uncorrectable s
  | .handshakeTransfer receiver sender traffic inst freed returned => Sys2Proof.Machine.execHandshakeTransfer receiver sender traffic inst freed returned s
  | .ledgerAuditSample kind island index held inUse => Sys2Proof.Machine.execLedgerAuditSample kind island index held inUse s
  | .epochAdopt p inst => Sys2Proof.Machine.execEpochAdopt p inst s
  | .epochRetire p => Sys2Proof.Machine.execEpochRetire p s
  | .resizeScrubDone => Sys2Proof.Machine.execResizeScrubDone s
  | .rxFrame lport d fcsOk fecOk corrected => Sys2Proof.Machine.execRxFrame lport d fcsOk fecOk corrected s
  | .rxPfcFrame lport quanta => Sys2Proof.Machine.execRxPfcFrame lport quanta s
  | .pfcPauseExpire lport prio => Sys2Proof.Machine.execPfcPauseExpire lport prio s
  | .pfcRefresh lport prio => Sys2Proof.Machine.execPfcRefresh lport prio s
  | .pauseWatchdog lport prio => Sys2Proof.Machine.execPauseWatchdog lport prio s
  | .pauseQuietExpire lport prio => Sys2Proof.Machine.execPauseQuietExpire lport prio s
  | .rxHoldRelease lport prio => Sys2Proof.Machine.execRxHoldRelease lport prio s
  | .rxHoldMaxExpire lport prio => Sys2Proof.Machine.execRxHoldMaxExpire lport prio s
  | .carouselSelect lport => Sys2Proof.Machine.execCarouselSelect lport s
  | .txFrameEnd lport time => Sys2Proof.Machine.execTxFrameEnd lport time s
  | .linkDown lport => Sys2Proof.Machine.execLinkDown lport s
  | .linkUp lport => Sys2Proof.Machine.execLinkUp lport s
  | .gclCycleStart port => Sys2Proof.Machine.execGclCycleStart port s
  | .bucketTick => Sys2Proof.Machine.execBucketTick s
  | .queueSampleTick q => Sys2Proof.Machine.execQueueSampleTick q s
  | .cipherIntake p => Sys2Proof.Machine.execCipherIntake p s
  | .tagVerify k => Sys2Proof.Machine.execTagVerify k s
  | .releaseComplete k => Sys2Proof.Machine.execReleaseComplete k s
  | .granuleScrubDone k => Sys2Proof.Machine.execGranuleScrubDone k s
  | .frameTick n => Sys2Proof.Machine.execFrameTick n s
  | .sendRequest => Sys2Proof.Machine.execSendRequest s
  | .shiftRequest => Sys2Proof.Machine.execShiftRequest s
  | .feedRequest => Sys2Proof.Machine.execFeedRequest s
  | .feedEntryWrite ring => Sys2Proof.Machine.execFeedEntryWrite ring s
  | .returnReadRequest entry data fail => Sys2Proof.Machine.execReturnReadRequest entry data fail s
  | .returnReleaseRequest => Sys2Proof.Machine.execReturnReleaseRequest s
  | .noteRequest => Sys2Proof.Machine.execNoteRequest s
  | .returnProdPoll ring sessions => Sys2Proof.Machine.execReturnProdPoll ring sessions s
  | .tumblerDispatch n => Sys2Proof.Machine.execTumblerDispatch n s
  | .actTimerExpire p k => Sys2Proof.Machine.execActTimerExpire p k s
  | .allowanceOverrun n => Sys2Proof.Machine.execAllowanceOverrun n s
  | .portReply n port stall => Sys2Proof.Machine.execPortReply n port stall s
  | .loadReturn n stall => Sys2Proof.Machine.execLoadReturn n stall s
  | .storeFailure n => Sys2Proof.Machine.execStoreFailure n s
  | .add n => Sys2Proof.Machine.execAdd n s
  | .adc n => Sys2Proof.Machine.execAdc n s
  | .sub n => Sys2Proof.Machine.execSub n s
  | .sbc n => Sys2Proof.Machine.execSbc n s
  | .cmp n => Sys2Proof.Machine.execCmp n s
  | .neg n => Sys2Proof.Machine.execNeg n s
  | .adds n => Sys2Proof.Machine.execAdds n s
  | .subs n => Sys2Proof.Machine.execSubs n s
  | .and n => Sys2Proof.Machine.execAnd n s
  | .or n => Sys2Proof.Machine.execOr n s
  | .xor n => Sys2Proof.Machine.execXor n s
  | .andn n => Sys2Proof.Machine.execAndn n s
  | .shl n => Sys2Proof.Machine.execShl n s
  | .shr n => Sys2Proof.Machine.execShr n s
  | .sar n => Sys2Proof.Machine.execSar n s
  | .ror n => Sys2Proof.Machine.execRor n s
  | .bfx n => Sys2Proof.Machine.execBfx n s
  | .bfxs n => Sys2Proof.Machine.execBfxs n s
  | .bfi n => Sys2Proof.Machine.execBfi n s
  | .cnt n => Sys2Proof.Machine.execCnt n s
  | .nperm n => Sys2Proof.Machine.execNperm n s
  | .addp n => Sys2Proof.Machine.execAddp n s
  | .subp n => Sys2Proof.Machine.execSubp n s
  | .addps n => Sys2Proof.Machine.execAddps n s
  | .subps n => Sys2Proof.Machine.execSubps n s
  | .mul n => Sys2Proof.Machine.execMul n s
  | .mulhs n => Sys2Proof.Machine.execMulhs n s
  | .mulhu n => Sys2Proof.Machine.execMulhu n s
  | .mac n => Sys2Proof.Machine.execMac n s
  | .macs n => Sys2Proof.Machine.execMacs n s
  | .macp n => Sys2Proof.Machine.execMacp n s
  | .sat n => Sys2Proof.Machine.execSat n s
  | .addi n => Sys2Proof.Machine.execAddi n s
  | .cmpi n => Sys2Proof.Machine.execCmpi n s
  | .andi n => Sys2Proof.Machine.execAndi n s
  | .ori n => Sys2Proof.Machine.execOri n s
  | .xori n => Sys2Proof.Machine.execXori n s
  | .seth n => Sys2Proof.Machine.execSeth n s
  | .setl n => Sys2Proof.Machine.execSetl n s
  | .ldw n => Sys2Proof.Machine.execLdw n s
  | .stw n => Sys2Proof.Machine.execStw n s
  | .ldh n => Sys2Proof.Machine.execLdh n s
  | .ldhs n => Sys2Proof.Machine.execLdhs n s
  | .sth n => Sys2Proof.Machine.execSth n s
  | .ldn n => Sys2Proof.Machine.execLdn n s
  | .stn n => Sys2Proof.Machine.execStn n s
  | .aadd n => Sys2Proof.Machine.execAadd n s
  | .acas n => Sys2Proof.Machine.execAcas n s
  | .b n => Sys2Proof.Machine.execB n s
  | .br n => Sys2Proof.Machine.execBr n s
  | .call n => Sys2Proof.Machine.execCall n s
  | .callr n => Sys2Proof.Machine.execCallr n s
  | .ret n => Sys2Proof.Machine.execRet n s
  | .loopi n => Sys2Proof.Machine.execLoopi n s
  | .loopr n => Sys2Proof.Machine.execLoopr n s
  | .lexit n => Sys2Proof.Machine.execLexit n s
  | .post n => Sys2Proof.Machine.execPost n s
  | .take n => Sys2Proof.Machine.execTake n s
  | .poll n => Sys2Proof.Machine.execPoll n s
  | .mfs n => Sys2Proof.Machine.execMfs n s
  | .mts n => Sys2Proof.Machine.execMts n s
  | .endact n => Sys2Proof.Machine.execEndact n s
  | .brk n => Sys2Proof.Machine.execBrk n s
  | .flitRx p f => Sys2Proof.Machine.execFlitRx p f s
  | .ackTimer p => Sys2Proof.Machine.execAckTimer p s
  | .tpWrite x data => Sys2Proof.Machine.execTpWrite x data s
  | .tpRead x len => Sys2Proof.Machine.execTpRead x len s
  | .tpFadd x addend => Sys2Proof.Machine.execTpFadd x addend s
  | .tpCas x compare swap => Sys2Proof.Machine.execTpCas x compare swap s
  | .rdcomp p tag data => Sys2Proof.Machine.execRdcomp p tag data s
  | .wcomp p tag => Sys2Proof.Machine.execWcomp p tag s
  | .atcomp p tag old => Sys2Proof.Machine.execAtcomp p tag old s
  | .tpErr p tag code => Sys2Proof.Machine.execTpErr p tag code s
  | .param p d => Sys2Proof.Machine.execParam p d s
  | .ringSignal p ring prod sessions => Sys2Proof.Machine.execRingSignal p ring prod sessions s
  | .boundary p job stepNo => Sys2Proof.Machine.execBoundary p job stepNo s
  | .spareReq p fibre lane => Sys2Proof.Machine.execSpareReq p fibre lane s
  | .spareAck p fibre lane fs => Sys2Proof.Machine.execSpareAck p fibre lane fs s
  | .telemetry p seq data => Sys2Proof.Machine.execTelemetry p seq data s
  | .laneSwap p => Sys2Proof.Machine.execLaneSwap p s
  | .ringLockLoss p fibre lane => Sys2Proof.Machine.execRingLockLoss p fibre lane s
  | .laneBerFault p fibre lane => Sys2Proof.Machine.execLaneBerFault p fibre lane s
  | .spareAckTimeout p fibre lane => Sys2Proof.Machine.execSpareAckTimeout p fibre lane s
  | .combLoss p => Sys2Proof.Machine.execCombLoss p s
  | .trainingStep p ok delay => Sys2Proof.Machine.execTrainingStep p ok delay s
  | .trainingRetry p => Sys2Proof.Machine.execTrainingRetry p s
  | .creditWatchdog p => Sys2Proof.Machine.execCreditWatchdog p s
  | .trapezeReadTimeout p tag => Sys2Proof.Machine.execTrapezeReadTimeout p tag s
  | .sumWindow light => Sys2Proof.Machine.execSumWindow light s
  | .sumConfirmTimeout => Sys2Proof.Machine.execSumConfirmTimeout s
  | .sumCalibration delays => Sys2Proof.Machine.execSumCalibration delays s
  | .gdpOpStart n ext => Sys2Proof.Machine.execGdpOpStart n ext s
  | .gdpWrite h pay => Sys2Proof.Machine.execGdpWrite h pay s
  | .readReq h pay ext fail => Sys2Proof.Machine.execReadReq h pay ext fail s
  | .readResp h pay => Sys2Proof.Machine.execReadResp h pay s
  | .gdpFadd h pay => Sys2Proof.Machine.execGdpFadd h pay s
  | .gdpCas h pay => Sys2Proof.Machine.execGdpCas h pay s
  | .atomicResp h pay => Sys2Proof.Machine.execAtomicResp h pay s
  | .gdpSend h pay => Sys2Proof.Machine.execGdpSend h pay s
  | .gdpAck h b => Sys2Proof.Machine.execGdpAck h b s
  | .hello h localConn log2Payload alg prot => Sys2Proof.Machine.execHello h localConn log2Payload alg prot s
  | .gdpClosePacket h => Sys2Proof.Machine.execGdpClosePacket h s
  | .helloTimer n => Sys2Proof.Machine.execHelloTimer n s
  | .closeResendTimer n => Sys2Proof.Machine.execCloseResendTimer n s
  | .ackDelayTimer n => Sys2Proof.Machine.execAckDelayTimer n s
  | .gdpRto n psn => Sys2Proof.Machine.execGdpRto n psn s
  | .gdpProgressTimeout n => Sys2Proof.Machine.execGdpProgressTimeout n s
  | .gdpMessageComplete n msn => Sys2Proof.Machine.execGdpMessageComplete n msn s
  | .pressReady m => Sys2Proof.Machine.execPressReady m s
  | .pressDrained m => Sys2Proof.Machine.execPressDrained m s
  | .pressCopied m => Sys2Proof.Machine.execPressCopied m s
  | .pressAbandon m => Sys2Proof.Machine.execPressAbandon m s
  | .pressDrainDone jn => Sys2Proof.Machine.execPressDrainDone jn s
  | .pressCopyDone jn data fail => Sys2Proof.Machine.execPressCopyDone jn data fail s
  | .pressVerifyDone jn crcs manifestOk fail => Sys2Proof.Machine.execPressVerifyDone jn crcs manifestOk fail s
  | .pressFlushDone jn st => Sys2Proof.Machine.execPressFlushDone jn st s
  | .pressSetTimeout jn => Sys2Proof.Machine.execPressSetTimeout jn s
  | .pressReleaseTimeout jn => Sys2Proof.Machine.execPressReleaseTimeout jn s
  | .moverStart engine => Sys2Proof.Machine.execMoverStart engine s
  | .moverComplete engine inst ext srcFail => Sys2Proof.Machine.execMoverComplete engine inst ext srcFail s
  | .codecDescriptorTake n => Sys2Proof.Machine.execCodecDescriptorTake n s
  | .codecPictureGrant inst => Sys2Proof.Machine.execCodecPictureGrant inst s
  | .codecTakeoverPoint inst => Sys2Proof.Machine.execCodecTakeoverPoint inst s
  | .codecPictureEnd inst r => Sys2Proof.Machine.execCodecPictureEnd inst r s
  | .streamWatchdog inst => Sys2Proof.Machine.execStreamWatchdog inst s
  | .codecSlotEnd inst => Sys2Proof.Machine.execCodecSlotEnd inst s
  | .exclIdleExpire inst => Sys2Proof.Machine.execExclIdleExpire inst s
  | .storStart q ext fail => Sys2Proof.Machine.execStorStart q ext fail s
  | .driveCompletion drive id nvme ext fail => Sys2Proof.Machine.execDriveCompletion drive id nvme ext fail s
  | .storageTimeout drive id => Sys2Proof.Machine.execStorageTimeout drive id s
  | .abortConfirmTimeout drive id => Sys2Proof.Machine.execAbortConfirmTimeout drive id s
  | .driveReinitDone drive => Sys2Proof.Machine.execDriveReinitDone drive s
  | .driveLoss drive => Sys2Proof.Machine.execDriveLoss drive s
  | .driveLinkUp drive inst => Sys2Proof.Machine.execDriveLinkUp drive inst s
  | .driveDmaRequest drive id off len write data => Sys2Proof.Machine.execDriveDmaRequest drive id off len write data s
  | .driveAsyncEvent drive bits => Sys2Proof.Machine.execDriveAsyncEvent drive bits s
  | .volumeScrubDone n => Sys2Proof.Machine.execVolumeScrubDone n s
  | .tcpSegment part lport d pdus => Sys2Proof.Machine.execTcpSegment part lport d pdus s
  | .tcpRto n => Sys2Proof.Machine.execTcpRto n s
  | .nvmeiReconnectTimer c => Sys2Proof.Machine.execNvmeiReconnectTimer c s
  | .ctrlLossTmoExpire c => Sys2Proof.Machine.execCtrlLossTmoExpire c s
  | .mctpMessage m => Sys2Proof.Machine.execMctpMessage m s
  | .pldmSensorRead sensor reading => Sys2Proof.Machine.execPldmSensorRead sensor reading s
  | .pldmFwUpdate u => Sys2Proof.Machine.execPldmFwUpdate u s
  | .activateFirmware => Sys2Proof.Machine.execActivateFirmware s
  | .spiWriteFrame d clocks x => Sys2Proof.Machine.execSpiWriteFrame d clocks x s
  | .spiReadFrame d clocks => Sys2Proof.Machine.execSpiReadFrame d clocks s
  | .rtcSet v => Sys2Proof.Machine.execRtcSet v s
  | .alarmTHiWrite n v => Sys2Proof.Machine.execAlarmTHiWrite n v s
  | .alarmCtrlWrite n period v => Sys2Proof.Machine.execAlarmCtrlWrite n period v s
  | .alarmStatusRead n => Sys2Proof.Machine.execAlarmStatusRead n s
  | .rtcLoRead => Sys2Proof.Machine.execRtcLoRead s
  | .devtLoRead => Sys2Proof.Machine.execDevtLoRead s
  | .rindCounterRead id => Sys2Proof.Machine.execRindCounterRead id s
  | .rindLogData0Read => Sys2Proof.Machine.execRindLogData0Read s
  | .msStatusRead => Sys2Proof.Machine.execMsStatusRead s
  | .mwFirstFaultRead target high => Sys2Proof.Machine.execMwFirstFaultRead target high s
  | .msControlReset v => Sys2Proof.Machine.execMsControlReset v s
  | .atbAdcStart v x => Sys2Proof.Machine.execAtbAdcStart v x s
  | .atbCaptureSample x => Sys2Proof.Machine.execAtbCaptureSample x s
  | .registerWrite r v x => Sys2Proof.Machine.execRegisterWrite r v x s
  | .alarmFire n => Sys2Proof.Machine.execAlarmFire n s
  | .rtcWriteback => Sys2Proof.Machine.execRtcWriteback s
  | .playbillPhaseEnd => Sys2Proof.Machine.execPlaybillPhaseEnd s
  | .playbillPanelTimeout => Sys2Proof.Machine.execPlaybillPanelTimeout s
  | .playbillIntervalEnd => Sys2Proof.Machine.execPlaybillIntervalEnd s
  | .rindCommitTimer => Sys2Proof.Machine.execRindCommitTimer s
  | .rindRecordDone ok => Sys2Proof.Machine.execRindRecordDone ok s
  | .rindSecondTick x => Sys2Proof.Machine.execRindSecondTick x s
  | .rindMinuteTick vbat20 => Sys2Proof.Machine.execRindMinuteTick vbat20 s
  | .vmainGood => Sys2Proof.Machine.execVmainGood s
  | .brownout => Sys2Proof.Machine.execBrownout s
  | .vstbyLoss => Sys2Proof.Machine.execVstbyLoss s
  | .vstbyReturn => Sys2Proof.Machine.execVstbyReturn s
  | .vbatLow => Sys2Proof.Machine.execVbatLow s
  | .alwaysOnPowerOn onVstby => Sys2Proof.Machine.execAlwaysOnPowerOn onVstby s
  | .perstNAssert => Sys2Proof.Machine.execPerstNAssert s
  | .perstNDeassert => Sys2Proof.Machine.execPerstNDeassert s
  | .hotReset => Sys2Proof.Machine.execHotReset s
  | .quiesced => Sys2Proof.Machine.execQuiesced s
  | .islandBringUp passes kat => Sys2Proof.Machine.execIslandBringUp passes kat s
  | .trialTimeout => Sys2Proof.Machine.execTrialTimeout s
  | .thermalSample hot => Sys2Proof.Machine.execThermalSample hot s
  | .thermalTrip island temp => Sys2Proof.Machine.execThermalTrip island temp s
  | .currentSensorSample second milli => Sys2Proof.Machine.execCurrentSensorSample second milli s
  | .domainGate d => Sys2Proof.Machine.execDomainGate d s
  | .erefLoss => Sys2Proof.Machine.execErefLoss s
  | .hrefLoss => Sys2Proof.Machine.execHrefLoss s
  | .xtal32Loss => Sys2Proof.Machine.execXtal32Loss s
  | .idcode => Sys2Proof.Machine.execIdcode s
  | .samplePreload => Sys2Proof.Machine.execSamplePreload s
  | .extest => Sys2Proof.Machine.execExtest s
  | .highz => Sys2Proof.Machine.execHighz s
  | .clamp => Sys2Proof.Machine.execClamp s
  | .extestPulse => Sys2Proof.Machine.execExtestPulse s
  | .extestTrain => Sys2Proof.Machine.execExtestTrain s
  | .hbm1500 stack => Sys2Proof.Machine.execHbm1500 stack s
  | .atbJtag v => Sys2Proof.Machine.execAtbJtag v s
  | .bypass => Sys2Proof.Machine.execBypass s
  | .tapReset => Sys2Proof.Machine.execTapReset s
  | .keySlotScrubComplete slot => Sys2Proof.Machine.execKeySlotScrubComplete slot s
  | .freeListTakesCell c => Sys2Proof.Machine.execFreeListTakesCell c s
  | .trapezeSumTimeout => Sys2Proof.Machine.execTrapezeSumTimeout s
  | .erefReturn => Sys2Proof.Machine.execErefReturn s
  | .shareStatusUpdate vf => Sys2Proof.Machine.execShareStatusUpdate vf s
  | .gdpPacedSend n => Sys2Proof.Machine.execGdpPacedSend n s

end Sys2Proof.Machine
end

