-- ==== Sys2Proof/Machine/Tick.lean ====
section
/-! DEFINITION. Machine/Tick.lean: the nanosecond that passes when no command waits (21 R565, R566, R569). -/

namespace Sys2Proof.Machine

/-- Device Time and the cadence clock advance by one nanosecond scaled by the frequency offset (21 R565, R566), and by the
error of the internal oscillator while EREF is lost (25 R645). -/
def deviceTick (c : Clock) : Clock :=
  let t := c.frac + 1000000000 + c.ppb + c.oscPpb
  let d := (t / 1000000000).toNat
  { c with
    now := modAdd 64 c.now d
    cadence := c.cadence + d
    frac := t % 1000000000 }

/-- The RTC runs for one nanosecond at 32.768 kHz (21 R569). -/
def rtcTick (c : Clock) : Clock :=
  let t := c.rtcFrac + 32768
  if t < 1000000000 then { c with rtcFrac := t }
  else { c with
    rtc := modAdd 63 c.rtc 1
    rtcFrac := t - 1000000000 }

/-- One nanosecond: Device Time runs while VMAIN is good, the RTC while its crystal runs on any supply; closing sequences
whose waits have ended go on (16 R454, 17 R472). -/
def idleTick (s : State) : State :=
  let s := if s.power.vmain then s.onClock deviceTick else s
  let s := if s.clock.xtal && s.power.st != .off then s.onClock rtcTick else s
  closeAdvance s

end Sys2Proof.Machine
end

