-- ==== Sys2Proof/Safety.lean ====
section
/-! DEFINITION. Safety.lean: what a safe step is, and how a command of a booth ends, in the terms that claims use. -/

namespace Sys2Proof.Safety

open Machine

/-- The step goes on: neither a fault nor a refusal. -/
def goesOn (s : State) : Prop := ∃ t, step s = .next t

/-- The command goes on in the state. -/
def runs (i : Instr) (s : State) : Prop := ∃ t, exec i s = .next t

/-- The command of a header stands handed to its component and it is its turn, with the octets of PARAMS that it does not
use clean: its checks come next (18 R493, R494, 19 R504). -/
def handed (s : State) (h : Hdr) (group code : Nat) : Prop :=
  ∃ c, outCmd s h.fn h.id = some c ∧ c.group = group ∧ c.code = code ∧ inTurn (s.fn h.fn).booth c = true ∧ h.paramsClean = true

/-- The state in which its component applies the command of a header: the command is marked as applied. -/
def applied (s : State) (h : Hdr) : State := markCmd s h.fn h.id .applied

/-- None of a list of checks fails. -/
def allClear (l : List (Bool × Status)) : Prop := ∀ c ∈ l, c.1 = false

/-- A commit of an epoch of the command's partition is open to it (02 R58, R62, 17 R468). -/
def epochFree (s : State) (h : Hdr) : Prop := twoEpochs s (hp h) = false ∧ resizing s (hp h) = false

/-- A device-wide commit is open: no partition has two epochs or is being resized. -/
def allFree (s : State) : Prop := ∀ p, p < 16 → twoEpochs s p = false ∧ resizing s p = false

/-- The command has its whole effect `e` and completes OK with a result, in one step. -/
def completes (i : Instr) (h : Hdr) (s e : State) (r : List Byte) : Prop :=
  exec i s = .next (finish e h.fn h.id .ok { result := r })

/-- The command has its effect `e`, a commit of an epoch of a partition, and completes OK with a result when every island
has adopted it (19 R501). -/
def commits (i : Instr) (h : Hdr) (s e : State) (p : Nat) (r : List Byte) : Prop :=
  exec i s = .next (releaseDeferred { e with
    deferred := e.deferred ++ [{ fn := h.fn, id := h.id, parts := [p], status := .ok, result := r, epochOf := some p }] })

/-- The command has its effect `e`, a device-wide change, and completes OK when every island has adopted it in every
partition. -/
def commitsAll (i : Instr) (h : Hdr) (s e : State) : Prop :=
  exec i s = .next (releaseDeferred { e with
    deferred := e.deferred ++ [{ fn := h.fn, id := h.id, parts := List.range 16, status := .ok, result := [], epochOf := none }] })

/-- The device has written octets to the host memory of the command's function, in the address space its booth uses (19 R503). -/
def wrote (s : State) (h : Hdr) (a : Nat) (d : List Byte) : State :=
  let b := (s.fn h.fn).booth
  hostPost s h.fn (if b.pasidEn then some b.pasid else none) a d

/-- Every memory of the machine is in its canonical form: addresses strictly rising, and no entry that equals what an
unlisted address reads as. -/
def memoriesWf (s : State) : Prop :=
  memWf s.mem.bytes = true ∧ wordWf s.mem.troupe = true ∧ wordWf s.mem.im = true

/-- A tumbler of the machine. -/
def tum (s : State) (n : Nat) : Tumbler := tgetD s.acts.tumblers n {}

/-- Tumbler `n` runs an invocation, waits for nothing, and its next instruction is the word `w` of the operation `o`. -/
def issues (n : Nat) (o : Op) (s : State) (inv : Invocation) (w : Word) : Prop :=
  (tum s n).run = some inv ∧ (tum s n).stall = .none ∧ fetchOp s n (tum s n) = .inr (o, w)

/-- An instruction of `c` cycles keeps its invocation within its allowance (08 R232). -/
def inTime (s : State) (n : Nat) (inv : Invocation) (c : Nat) : Prop := (tum s n).cyc + c ≤ inv.allowance

/-- The state after an instruction of tumbler `n` in state `s` that leaves the machine as `e` and the tumbler as `t` and goes
on to the next instruction, by the end action of the loops (09 R253). -/
def goesNext (n : Nat) (s e : State) (t : Tumbler) (c : Nat) : State :=
  let x := endAction (tum s n).pc 4 t
  e.onTumbler n (fun _ => { x.1 with pc := x.2, cyc := (tum s n).cyc + c, stall := .none })

/-- The state after an instruction of tumbler `n` that transfers control to `a`. -/
def goesTo (n : Nat) (s e : State) (t : Tumbler) (c a : Nat) : State :=
  e.onTumbler n (fun _ => { t with pc := a % 1048576, cyc := (tum s n).cyc + c, stall := .none })

/-- An instruction of `c` cycles puts a word into Wd, sets the flags it names, and goes on. -/
def gives (i : Instr) (n : Nat) (o : Op) (c : Nat) (s : State) (f : Tumbler → Word → Word × Flags) : Prop :=
  ∀ inv w, issues n o s inv w → inTime s n inv c →
    exec i s = .next (goesNext n s s { (tum s n).put (fRd w) (f (tum s n) w).1 with
      fl := setFlags (tum s n).fl (f (tum s n) w).2 } c)

/-- The flags of an exact sum or difference `x` whose word is `r`, with its carry (10 R263). -/
def sumFlags (r : Word) (c : Bool) (x : Int) : Flags :=
  { c := some c, z := some (decide (r = 0)), n := some r.msb, v := some (decide (x < -2 ^ 35 ∨ 2 ^ 35 ≤ x)) }

/-- The flags of a result whose entry names Z and N only. -/
def zAndN (r : Word) : Flags := { z := some (decide (r = 0)), n := some r.msb }

/-- Between the two states the security version that the fuses demand of an image does not fall (22 R601). -/
def svnKept (s t : State) : Prop := s.fuses.svnMin ≤ t.fuses.svnMin

/-- An instruction raises an exception of its code in machine `e` and ends its invocation with ACT_FAULT (09 R257). -/
def raises (i : Instr) (n : Nat) (s e : State) (inv : Invocation) (code : Nat) : Prop :=
  exec i s = .next (endInv e n { tum s n with cyc := (tum s n).cyc + 1 } inv .actFault code false)

/-- The command with which tumbler `n` executes an instruction of an operation. -/
def executes (n : Nat) (i : Instr) : Op → Prop
  | .add => i = .add n
  | .adc => i = .adc n
  | .sub => i = .sub n
  | .sbc => i = .sbc n
  | .cmp => i = .cmp n
  | .neg => i = .neg n
  | .addi => i = .addi n
  | .cmpi => i = .cmpi n
  | .adds => i = .adds n
  | .subs => i = .subs n
  | .sat => i = .sat n
  | .macs => i = .macs n
  | .macp => i = .macp n
  | .and_ => i = .and n
  | .or_ => i = .or n
  | .xor_ => i = .xor n
  | .andn => i = .andn n
  | .andi => i = .andi n
  | .ori => i = .ori n
  | .xori => i = .xori n
  | .shl => i = .shl n
  | .shr => i = .shr n
  | .sar => i = .sar n
  | .ror => i = .ror n
  | .mul => i = .mul n
  | .mac => i = .mac n
  | .mulhs => i = .mulhs n
  | .mulhu => i = .mulhu n
  | .bfx => i = .bfx n
  | .bfxs => i = .bfxs n
  | .bfi => i = .bfi n
  | .cnt => i = .cnt n
  | .nperm => i = .nperm n
  | .addp => i = .addp n
  | .subp => i = .subp n
  | .addps => i = .addps n
  | .subps => i = .subps n
  | .seth => i = .seth n
  | .setl => i = .setl n
  | .ldw => i = .ldw n
  | .ldh => i = .ldh n
  | .ldhs => i = .ldhs n
  | .ldn => i = .ldn n
  | .stw => i = .stw n
  | .sth => i = .sth n
  | .stn => i = .stn n
  | .aadd => i = .aadd n
  | .acas => i = .acas n
  | .b => i = .b n
  | .br => i = .br n
  | .call => i = .call n
  | .callr => i = .callr n
  | .ret => i = .ret n
  | .loopi => i = .loopi n
  | .loopr => i = .loopr n
  | .lexit => i = .lexit n
  | .post => i = .post n
  | .take => i = .take n
  | .poll => i = .poll n
  | .mfs => i = .mfs n
  | .mts => i = .mts n
  | .endact => i = .endact n
  | .brk => i = .brk n

/-- The operations that put a result of their operands into Wd and set flags, with their cycles (10 R284). -/
def resultCycles : Op → Option Nat
  | .macs | .macp | .mul | .mac | .mulhs | .mulhu => some 2
  | .ldw | .ldh | .ldhs | .ldn | .stw | .sth | .stn | .aadd | .acas | .b | .br | .call | .callr | .ret | .loopi | .loopr | .lexit | .post | .take | .poll | .mfs | .mts | .endact | .brk => none
  | _ => some 1

/-- The two machines differ in nothing but tumbler `n`. -/
def onlyTumbler (n : Nat) (s t : State) : Prop :=
  { t with acts := s.acts } = s ∧ { t.acts with tumblers := s.acts.tumblers } = s.acts ∧ ∀ m, m ≠ n → tum t m = tum s m

/-- The two machines differ in nothing but tumbler `n` and the troupe memories. -/
def onlyTumblerAndTroupe (n : Nat) (s t : State) : Prop :=
  { t with acts := s.acts, mem := s.mem } = s ∧ { t.acts with tumblers := s.acts.tumblers } = s.acts ∧ (∀ m, m ≠ n → tum t m = tum s m)
  ∧ t.mem.bytes = s.mem.bytes ∧ t.mem.im = s.mem.im

end Sys2Proof.Safety
end

