-- ==== Sys2Proof/Certificates/Slice0/Obligations.lean ====
section
/-! DEFINITION. Certificates/Slice0/Obligations.lean: the statements about this model. The statements of the commands say, for
each row of the table, on which state and operands alone it completes and the whole next state that it leaves; the frames,
exceptions and invariants stand beside them. -/

open Sys2Proof Sys2Proof.Machine Sys2Proof.Safety

/-- The step of the model: the block takes its commands first in, first out (the order in which a component takes its commands, 18 R493). -/
def Obligations.StepRunsFrontCommand : Prop :=
  ∀ (c : Instr) (q : List Instr) (s : State), step { s with pending := c :: q } = exec c { s with pending := q }

/-- The idle step, a design choice of the model (log entry 1); the clocks are those of 21 R566 and R569. -/
def Obligations.EmptyQueueTicks : Prop :=
  ∀ (s : State), s.pending = [] → step s = .next (idleTick s)
    ∧ (s.detaches = [] → ∀ t, step s = .next t → { t with clock := s.clock } = s)
    ∧ (s.detaches = [] → s.power.vmain = false → s.clock.xtal = false → step s = .next s)

/-- The reset values that the rules state (17 R456, 02 R57, R40, 18 R483, 16 R438, 22 R604, 11 R309, 21 R565, R570). -/
def Obligations.ResetHolds : Prop :=
  State.reset.fixedMode = true ∧ (∀ p, (State.reset.part p).epoch = 1 ∧ (State.reset.part p).old = none)
    ∧ (∀ i, quarantined State.reset i = false) ∧ (∀ f, (State.reset.fn f).booth.enable = false ∧ ∀ v, (tgetD (State.reset.fn f).msix v {}).masked = true)
    ∧ (∀ a, wordGet State.reset.mem.troupe a = 0 ∧ wordGet State.reset.mem.im a = 0 ∧ memGet State.reset.mem.bytes a = 0)
    ∧ (∀ c, tgetD State.reset.chans c {} = { launched := 0, accepted := 0, freed := 0, freedSeen := 0 })
    ∧ (∀ p, (tgetD State.reset.tp.ports p {}).st = .down) ∧ State.reset.clock.timeInvalid = true ∧ State.reset.clock.ppb = 0
    ∧ State.reset.pending = []

/-- The rule of this model that the manual gives every row an effect, a status or a discard (19 R504, 18 R494). -/
def Obligations.EveryCommandGoesOn : Prop :=
  ∀ (i : Instr) (s : State), ∃ t, exec i s = .next t

/-- The device takes commands from outside only, in their order (18 R493, R495). -/
def Obligations.QueueLosesOnlyItsFront : Prop :=
  ∀ (c : Instr) (q : List Instr) (s t : State), step { s with pending := c :: q } = .next t → t.pending = q

/-- The canonical form of HBM, stage, troupe and instruction memory (03 R66, R76, 22 R604). -/
def Obligations.MemoriesStayCanonical : Prop :=
  ∀ (s t : State), memoriesWf s → step s = .next t → memoriesWf t

/-- The invariant of the memories at reset (22 R604). -/
def Obligations.ResetMemoriesCanonical : Prop :=
  memoriesWf State.reset

/-- The part of 22 R601 that says that the device never lowers SVN_MIN. -/
def Obligations.SvnMinNeverFalls : Prop :=
  ∀ (s t : State), step s = .next t → svnKept s t

/-- The rule of CALL and RET (09 R260), for an instruction that completes: it stands at no loop end (09 R255). -/
def Obligations.CallAndReturn : Prop :=
  ∀ (s : State) (n : Nat),
    (∀ inv w, issues n .call s inv w → inTime s n inv 2 → condHolds (tum s n).fl (fCond w) = true → atLoopEnd (tum s n) = false →
        ∃ t, exec (.call n) s = .next t ∧ (tum t n).get 31 = word ((tum s n).pc + 1) ∧ (tum t n).pc = fTarget w % 2 ^ 20
          ∧ (∀ r, r ≠ 31 → (tum t n).get r = (tum s n).get r) ∧ (tum t n).fl = (tum s n).fl ∧ (tum t n).bk = (tum s n).bk
          ∧ (tum t n).ls = (tum s n).ls ∧ (tum t n).le = (tum s n).le ∧ (tum t n).lc = (tum s n).lc ∧ onlyTumbler n s t)
    ∧ (∀ inv w, issues n .ret s inv w → inTime s n inv 2 → condHolds (tum s n).fl (fCond w) = true → atLoopEnd (tum s n) = false →
        ∃ t, exec (.ret n) s = .next t ∧ (tum t n).pc = ((tum s n).get 31).toNat % 2 ^ 20
          ∧ (∀ r, (tum t n).get r = (tum s n).get r) ∧ (tum t n).fl = (tum s n).fl ∧ (tum t n).bk = (tum s n).bk
          ∧ (tum t n).ls = (tum s n).ls ∧ (tum t n).le = (tum s n).le ∧ (tum t n).lc = (tum s n).lc ∧ onlyTumbler n s t)

/-- The rule of the pair instructions (10 R269). -/
def Obligations.PairsAreTwoLanes : Prop :=
  ∀ (s : State) (n : Nat),
    (gives (.addp n) n .addp 1 s (fun t w => (BitVec.ofNat 36 (((half (wa t w) 1 + half (wb t w) 1) % 2 ^ 18) * 2 ^ 18 + ((half (wa t w) 0 + half (wb t w) 0) % 2 ^ 18)),
        { z := some (decide (((half (wa t w) 1 + half (wb t w) 1) % 2 ^ 18) = 0 ∧ ((half (wa t w) 0 + half (wb t w) 0) % 2 ^ 18) = 0)), n := some (decide (2 ^ 17 ≤ ((half (wa t w) 1 + half (wb t w) 1) % 2 ^ 18))) })))
    ∧ (gives (.subp n) n .subp 1 s (fun t w => (BitVec.ofNat 36 (((half (wa t w) 1 + 2 ^ 18 - half (wb t w) 1) % 2 ^ 18) * 2 ^ 18 + ((half (wa t w) 0 + 2 ^ 18 - half (wb t w) 0) % 2 ^ 18)),
        { z := some (decide (((half (wa t w) 1 + 2 ^ 18 - half (wb t w) 1) % 2 ^ 18) = 0 ∧ ((half (wa t w) 0 + 2 ^ 18 - half (wb t w) 0) % 2 ^ 18) = 0)), n := some (decide (2 ^ 17 ≤ ((half (wa t w) 1 + 2 ^ 18 - half (wb t w) 1) % 2 ^ 18))) })))
    ∧ (gives (.addps n) n .addps 1 s (fun t w => (BitVec.ofNat 36 (unsigned 18 (satInt 18 (signed 18 (half (wa t w) 1) + signed 18 (half (wb t w) 1))) * 2 ^ 18 + unsigned 18 (satInt 18 (signed 18 (half (wa t w) 0) + signed 18 (half (wb t w) 0)))),
        { z := some (decide (unsigned 18 (satInt 18 (signed 18 (half (wa t w) 1) + signed 18 (half (wb t w) 1))) = 0 ∧ unsigned 18 (satInt 18 (signed 18 (half (wa t w) 0) + signed 18 (half (wb t w) 0))) = 0)), n := some (decide (2 ^ 17 ≤ unsigned 18 (satInt 18 (signed 18 (half (wa t w) 1) + signed 18 (half (wb t w) 1)))))
          q := decide (satInt 18 (signed 18 (half (wa t w) 1) + signed 18 (half (wb t w) 1)) ≠ signed 18 (half (wa t w) 1) + signed 18 (half (wb t w) 1) ∨ satInt 18 (signed 18 (half (wa t w) 0) + signed 18 (half (wb t w) 0)) ≠ signed 18 (half (wa t w) 0) + signed 18 (half (wb t w) 0)) })))
    ∧ (gives (.subps n) n .subps 1 s (fun t w => (BitVec.ofNat 36 (unsigned 18 (satInt 18 (signed 18 (half (wa t w) 1) - signed 18 (half (wb t w) 1))) * 2 ^ 18 + unsigned 18 (satInt 18 (signed 18 (half (wa t w) 0) - signed 18 (half (wb t w) 0)))),
        { z := some (decide (unsigned 18 (satInt 18 (signed 18 (half (wa t w) 1) - signed 18 (half (wb t w) 1))) = 0 ∧ unsigned 18 (satInt 18 (signed 18 (half (wa t w) 0) - signed 18 (half (wb t w) 0))) = 0)), n := some (decide (2 ^ 17 ≤ unsigned 18 (satInt 18 (signed 18 (half (wa t w) 1) - signed 18 (half (wb t w) 1)))))
          q := decide (satInt 18 (signed 18 (half (wa t w) 1) - signed 18 (half (wb t w) 1)) ≠ signed 18 (half (wa t w) 1) - signed 18 (half (wb t w) 1) ∨ satInt 18 (signed 18 (half (wa t w) 0) - signed 18 (half (wb t w) 0)) ≠ signed 18 (half (wa t w) 0) - signed 18 (half (wb t w) 0)) })))

/-- The rule of SAT (10 R271). -/
def Obligations.SatClipsToItsWidth : Prop :=
  ∀ (s : State) (n : Nat),
    (∀ inv w, issues n .sat s inv w → inTime s n inv 1 → 1 ≤ fFn w ∧ fFn w ≤ 36 ∧
        exec (.sat n) s = .next (goesNext n s s { (tum s n).put (fRd w) (BitVec.ofInt 36 (satInt (fFn w) (wa (tum s n) w).toInt)) with
          fl := setFlags (tum s n).fl { zAndN (BitVec.ofInt 36 (satInt (fFn w) (wa (tum s n) w).toInt)) with
            q := satInt (fFn w) (wa (tum s n) w).toInt != (wa (tum s n) w).toInt } } 1))
    ∧ (∀ w, opOf (fOp w) = some .sat → (fFn w = 0 ∨ 36 < fFn w) → belporDecode w = none)
    ∧ (∀ (a : Word), BitVec.ofInt 36 (satInt 36 a.toInt) = a ∧ (satInt 36 a.toInt != a.toInt) = false)
    ∧ (∀ (a : Word) (k : Nat), 1 ≤ k → k ≤ 36 → (BitVec.ofInt 36 (satInt k a.toInt)).toNat / 2 ^ 0 % 2 ^ k = (satInt k a.toInt % (2 ^ k : Nat)).toNat)

/-- The commands of the GENERAL and EPOCH groups have their effect (18 R497, 19 R508, R511, R512, 02 R51, R57, 16 R440). -/
def Obligations.GeneralAndEpochCommands : Prop :=
  ∀ (s : State) (h : Hdr),
    (handed s h 1 1 → completes (.nop h) h s (applied s h) [])
    ∧ (∀ target c, handed s h 1 2 → outCmd s h.fn target = some c → ¬ (c.group = 1 ∧ c.code = 2) → c.state ≠ .applied →
        completes (.cancel h target) h s (finish (applied s h) h.fn target .cancelled) [])
    ∧ (handed s h 1 3 → completes (.boothInfo h) h s (applied s h)
        (le 4 (s.fn h.fn).booth.lostTotal ++ le 4 (s.fn h.fn).booth.subCons ++ le 2 (s.fn h.fn).booth.outst.length
          ++ le 2 (256 + (s.fn h.fn).booth.minor)))
    ∧ (∀ v us, handed s h 1 4 → v < vectorsOf h.fn → us ≤ 1023 →
        completes (.msixHoldoffSet h v us) h s
          ((applied s h).onFn h.fn (fun f => { f with msix := tupd f.msix v {} (fun e => { e with holdoffUs := us }) })) [])
    ∧ (handed s h 4 1 → completes (.epochInfo h) h s (applied s h)
        (le 2 (s.part (hp h)).epoch ++ le 2 (match (s.part (hp h)).old with | some (e, _) => e | none => 0)
          ++ [byteOf (1 + b2n (twoEpochs s (hp h)))]))
    ∧ (∀ e, handed s h 4 2 → newer 16 e (s.part (hp h)).epoch = false → waitOver s (hp h) e = true →
        completes (.epochWait h e) h s (applied s h) (le 2 (s.part (hp h)).epoch))
    ∧ (∀ e, handed s h 4 2 → newer 16 e (s.part (hp h)).epoch = false → waitOver s (hp h) e = false →
        exec (.epochWait h e) s = .next (setArg (applied s h) h.fn h.id e))
    ∧ (∀ blk kind, handed s h 4 3 → kind ≤ 8 → (h.fn ≠ 0 → kind ≠ 1 ∧ kind ≠ 7) →
        let l := (auditsNamed (applied s h) kind 0xFFFF).filter (mayAudit (applied s h) h)
        let d := l.flatMap (auditRecord (applied s h))
        d.length ≤ blk.len →
        completes (.ledgerAudit h blk kind 0xFFFF) h s
          (wrote (applied s h) h blk.addr d)
          (le 4 d.length ++ le 4 l.length))

/-- The commands of the PARTITION group have their effect (19 R509, R663, 17 R467, 03 R88, 16 R433, R445, R453, 02 R54). -/
def Obligations.PartitionCommands : Prop :=
  ∀ (s : State) (h : Hdr),
    (∀ m : List Nat, let r : Resize := { fn := h.fn, id := h.id, stage := .shrink, moves := mapMoves s m, cancelled := false }
        handed s h 2 1 → s.fixedMode = false → m.length = 256 → (∀ b ∈ m, b ≤ 15 ∨ b = 255) → s.resize = none →
        tany s.press.jobs (fun _ j => (resizeParts r).contains j.arm.partition) = false → (∀ p ∈ resizeParts r, twoEpochs s p = false) →
        (losers r).findSome? (fun p => shrinkFault (applied s h) p (leavingOf r p)) = none →
        exec (.partitionSharesSet h (some m)) s =
          .next ((resizeParts r).foldl shareResize ((losers r).foldl (shrinkCommit r) { applied s h with resize := some r })))
    ∧ (∀ blk, handed s h 2 2 →
        let d := partitionBlock (applied s h) (hp h) ++ (if h.fn == 0 then (List.range 256).map (fun j => byteOf (unitOwner (applied s h) (applied s h).cfg j)) else [])
        d.length ≤ blk.len → completes (.partitionInfo h blk) h s
          (wrote (applied s h) h blk.addr d) (le 4 d.length))
    ∧ (∀ l : List Nat, handed s h 2 3 → allFree s → l.length = 616 → (∀ b ∈ l, b ≤ 15) →
        commitsAll (.midwayPrioritySet h (some l)) h s
          (commitAll (applied s h) (fun c => { c with own := { c.own with priority := l.zipIdx.map (fun e => (e.2, e.1)) } })))
    ∧ (∀ n w old, handed s h 2 4 → epochFree s h → n < 4096 → w.valid = true → tget s.cfg.own.windows n = some old → old.valid = true →
        old.part = hp h → notMine h old.part old.tenant = false → hostWindowBroken s h w = false →
        tany s.cfg.own.windows (fun j o => j != n && o.valid && hostWindowsMeet w o) = false →
        commits (.hostWindowSet h n w true) h s
          (commitEpoch (applied s h) (hp h) (fun c => { c with own := { c.own with
            windows := tset c.own.windows n w
            windowBy := tset c.own.windowBy n h.fn } })) (hp h) (le 2 n))
    ∧ (∀ vf base entry, handed s h 2 5 → epochFree s h → h.fn = 0 → vfExists s vf = true → h.part = partOf vf → entry ≤ 3 → base % 0x1000000 = 0 →
        inHbmOrStage base 0x1000000 = true →
        commits (.apertureSet h vf entry 1 base) h s (commitEpoch (applied s h) (hp h) (fun c => { c with own := { c.own with
          apertures := tset c.own.apertures (4 * vf + entry) base } })) (hp h) [])
    ∧ (∀ base entry, handed s h 2 5 → epochFree s h → h.fn ≠ 0 → entry ≤ 3 →
        commits (.apertureSet h 0 entry 0 base) h s (commitEpoch (applied s h) (hp h) (fun c => { c with own := { c.own with
          apertures := tdel c.own.apertures (4 * h.fn + entry) } })) (hp h) [])
    ∧ (∀ us, handed s h 2 6 → 1000 ≤ us → us ≤ 1000000 →
        completes (.hostTimeoutSet h us) h s ((applied s h).onHost (fun x => { x with dmaTimeoutUs := us })) [])
    ∧ (∀ island, handed s h 2 7 → island ≤ 127 → quarantined s island = true → (tgetD s.islands island {}).faults ≤ 3 →
        completes (.islandRelease h island true) h s
          (starvedCheck ((applied s h).onIsland island (fun x => { x with quarantined := false }))) [])

/-- The commands of the TENANT group have their effect (19 R510, R664, 17 R462, R464, R471, R472). -/
def Obligations.TenantCommands : Prop :=
  ∀ (s : State) (h : Hdr),
    (∀ vf addr, handed s h 3 1 → vfExists s vf = true → addr % 16384 = 0 → (s.fn vf).attached = false → doorbellsFree s vf 1 = true →
        doorbellsFree s 0 1 = true → issuable s vf = true →
        let s1 := (applied s h).onFn vf (fun f => { f with attached := true, parleyAddr := addr, parleyPasid := none })
        let t := giveDoorbells (shareUpdate s1 vf) vf [.parleyOfTenant]
        let m := giveDoorbells t.2 0 [.parleyOfManager vf]
        let dt := listGet t.1 0 0
        let dm := listGet m.1 0 0
        completes (.tenantAttach h vf addr 0 false none true) h s
          (m.2.onFn vf (fun f => { f with parleyDbTenant := dt, parleyDbManager := dm })) (le 2 dt ++ le 2 dm))
    ∧ (∀ vf, handed s h 3 2 → vfExists s vf = true → (s.fn vf).attached = true → (s.fn vf).detaching = false →
        let e := (applied s h).onFn vf (fun f => { f with detaching := true })
        exec (.tenantDetach h vf) s = .next (closeAdvance { e with
          detaches := s.detaches ++ [{ vf := vf, flr := false, removed := false, cmd := some (h.fn, h.id), stage := .commands }] }))
    ∧ (∀ vf code cap, handed s h 3 3 → vfExists s vf = true → capCode code = true → cap ≠ 0xFFFFFFFF →
        completes (.tenantLimitsSet h vf code cap) h s
          (shareUpdate ((applied s h).onFn vf (fun f => { f with caps := tset f.caps code cap })) vf) [])
    ∧ (∀ first count tenant, handed s h 3 4 → epochFree s h → 0 < tenant → tenant ≤ 63 → first + count ≤ 256 →
        (∀ g, first ≤ g → g < first + count → unitOwner s s.cfg g = hp h) →
        commits (.tenantMemorySet h 2 first count tenant) h s
          (shareUpdate (commitEpoch (applied s h) (hp h) (fun c => { c with own := { c.own with
            troupeTenant := ((List.range count).map (fun g => g + first)).foldl (fun t g => tset t g tenant) c.own.troupeTenant } }))
            (vfOf (hp h) tenant)) (hp h) [])

/-- The commands of the SESSION group have their effect (19 R513, R514, 06 R154 to R157, R174, R181, R188). -/
def Obligations.SessionCommands : Prop :=
  ∀ (s : State) (h : Hdr),
    (∀ n k b, handed s h 5 1 → epochFree s h → (n = 0xFFFF ∨ n < 16384) → sessFieldsBad s h b = false →
        pickNumber s.sess.sess s.fixedMode (hp h) 1024 16384 n = some k → thas s.sess.sess k = false → (s.fixedMode = true → k / 1024 = hp h) →
        allClear (roomChecks s (hp h) (hcharge h) 4 1 .noSessions) → sessCells b ≤ (freeCells s (hp h) (sessCells b)).length →
        allClear (sessKeyChecks s h b none) → sessBindingBad s h b = false →
        let cells := freeCells (applied s h) (hp h) (sessCells b)
        let x : Sess := { part := hp h, charge := hcharge h, outIndex := b.rocOutInit * 65536, outTs := (draw s).1 % 2 ^ 32,
                          delay := b.delay, seedNext := some b.seed, cells := cells }
        let e := (takeCells (draw (applied s h)).2 (hp h) h.tenant cells).onSess (fun z => { z with sess := tset z.sess k x })
        commits (.sessionOpen h n (some b)) h s (commitEpoch e (hp h) (fun g => { g with sess := { g.sess with
          sessions := tset g.sess.sessions k { part := hp h, tenant := h.tenant, fn := h.fn, blk := b } } })) (hp h) (le 2 k))
    ∧ (∀ n c b, handed s h 5 2 → epochFree s h → allClear (sessNamed s h n) → tget s.cfg.sess.sessions n = some c → sessFieldsBad s h b = false →
        sessFixed c.blk b = true → allClear (sessKeyChecks s h b (some c.blk)) → sessBindingBad s h b = false →
        let e := if c.blk.keyTx != b.keyTx then keySpend (applied s h) c.blk.keyTx else applied s h
        commits (.sessionModify h n (some b)) h s (commitEpoch (e.onSession n (fun x => { x with seedNext := some b.seed })) (hp h)
          (fun g => { g with sess := { g.sess with sessions := tmod g.sess.sessions n (fun c => { c with blk := b }) } })) (hp h) [])
    ∧ (∀ n, handed s h 5 3 → epochFree s h → allClear (sessNamed s h n) →
        commits (.sessionClose h n) h s (commitEpoch (sessClose (applied s h) n) (hp h)
          (fun g => { g with sess := { g.sess with sessions := tdel g.sess.sessions n } })) (hp h) [])
    ∧ (∀ n x blk, handed s h 5 4 → allClear (sessNamed s h n) → tget s.sess.sess n = some x →
        let d := statsBlock s n (counters x.counts 17) []
        d.length ≤ blk.len → completes (.sessionStats h n blk) h s (wrote (applied s h) h blk.addr d) (le 4 d.length))
    ∧ (∀ (r : RingBind) k, handed s h 5 5 → epochFree s h → bindFieldsBad r = false → (r.ring = 0xFFFF ∨ r.ring < 4096) →
        pickNumber s.cfg.sess.feeds s.fixedMode (hp h) 256 4096 r.ring = some k → thas s.sess.feeds k = false → (s.fixedMode = true → k / 256 = hp h) →
        allClear (roomChecks s (hp h) (hcharge h) 15 1 .noResource) → bindRangesBad s (hp h) r = false →
        let e := (zeroArray (applied s h) (hp h) h.tenant r false).onSess (fun x => { x with feeds := tset x.feeds k {} })
        commits (.feedRingBind h r) h s (commitEpoch e (hp h) (fun g => { g with sess := { g.sess with
          feeds := tset g.sess.feeds k { part := hp h, tenant := h.tenant, fn := h.fn, bind := { r with ring := k }, binding := 0 } } })) (hp h) (le 2 k))
    ∧ (∀ (r : RingBind) k binding, handed s h 5 6 → epochFree s h → bindFieldsBad r = false → (r.ring = 0xFFFF ∨ r.ring < 4096) →
        pickNumber s.cfg.sess.returns s.fixedMode (hp h) 256 4096 r.ring = some k → thas s.sess.returns k = false → (s.fixedMode = true → k / 256 = hp h) →
        allClear (roomChecks s (hp h) (hcharge h) 16 1 .noResource) → bindRangesBad s (hp h) r = false → binding ≤ 63 →
        (∃ x, tget s.cfg.acts.bindings (64 * hp h + binding) = some x ∧ (x.tenant != 0 && h.tenant != 0 && x.tenant != h.tenant) = false) →
        let e := (zeroArray (applied s h) (hp h) h.tenant r false).onSess (fun x => { x with returns := tset x.returns k {} })
        commits (.returnRingBind h r binding) h s (commitEpoch e (hp h) (fun g => { g with sess := { g.sess with
          returns := tset g.sess.returns k { part := hp h, tenant := h.tenant, fn := h.fn, bind := { r with ring := k }, binding := binding } } })) (hp h) (le 2 k))
    ∧ (∀ n c f, handed s h 5 7 → epochFree s h → allClear (ringNamed h s.cfg.sess.feeds n) → tget s.cfg.sess.feeds n = some c → tget s.sess.feeds n = some f →
        let e := f.inflight.foldl (fun s r => reply s r.reply 6 r.tag 0 0) (applied s h)
        commits (.feedRingReset h n) h s (commitEpoch (onFeed (zeroArray e c.part c.tenant c.bind true) n (fun _ => {})) (hp h) id) (hp h) [])
    ∧ (∀ n c, handed s h 5 8 → epochFree s h → allClear (ringNamed h s.cfg.sess.returns n) → tget s.cfg.sess.returns n = some c →
        commits (.returnRingReset h n) h s (commitEpoch (onRet (zeroArray (applied s h) c.part c.tenant c.bind true) n (fun _ => {})) (hp h) id) (hp h) [])
    ∧ (∀ n, handed s h 5 9 → epochFree s h → allClear (ringNamed h s.cfg.sess.feeds n) →
        commits (.feedRingUnbind h n) h s (commitEpoch (applied s h) (hp h) (fun g => { g with sess := { g.sess with feeds := tdel g.sess.feeds n } })) (hp h) [])
    ∧ (∀ n, handed s h 5 10 → epochFree s h → allClear (ringNamed h s.cfg.sess.returns n) →
        commits (.returnRingUnbind h n) h s (commitEpoch (applied s h) (hp h) (fun g => { g with sess := { g.sess with returns := tdel g.sess.returns n } })) (hp h) [])
    ∧ (∀ seed, handed s h 5 11 → epochFree s h → commits (.feedSeed h seed) h s
        (commitEpoch ((applied s h).onSess (fun x => { x with gensNext := tset x.gensNext (hp h) seed })) (hp h) id) (hp h) [])

/-- The commands of the KEY group have their effect (19 R515, 07 R196, R197, R199, R203, R210). -/
def Obligations.KeyCommands : Prop :=
  ∀ (s : State) (h : Hdr),
    (∀ slot n (b : KeyBlock), handed s h 6 1 → (slot = 0xFFFF ∨ (slot < 32768 ∧ slotDenied s h slot = false)) → b.rsvZero = true → b.tenant = h.tenant →
        keyTypeOk b.alg b.use b.dir = true → materialOk b.alg b.material = true → pickNumber s.cipher.slots s.fixedMode (hp h) 2048 32768 slot = some n →
        thas s.cipher.slots n = false → allClear (roomChecks s (hp h) (hcharge h) 5 1 .noResource) →
        completes (.keyLoad h slot (some b)) h s ((applied s h).onCipher (fun c => { c with
          slots := tset c.slots n { state := .loaded, part := hp h, tenant := h.tenant, charge := hcharge h, alg := b.alg, use := b.use, dir := b.dir, material := b.material, spent := false, counter := 0 } })) (le 2 n ++ Config.kcv b.alg b.material))
    ∧ (∀ slot k, handed s h 6 2 → slot < 32768 → slotDenied s h slot = false → tget s.cipher.slots slot = some k → k.state = .loaded →
        completes (.keyInfo h slot) h s (applied s h) ([1, byteOf k.alg, byteOf k.use, byteOf k.dir, byteOf k.tenant, byteOf (b2n k.spent)]
          ++ le 2 (bindingsOf (applied s h) k.part slot).length ++ Config.kcv k.alg k.material))
    ∧ (∀ slot, handed s h 6 2 → slot < 32768 → slotDenied s h slot = false → tget s.cipher.slots slot = none →
        completes (.keyInfo h slot) h s (applied s h) [0])
    ∧ (∀ slot k, handed s h 6 3 → slot < 32768 → slotDenied s h slot = false → tget s.cipher.slots slot = some k → k.state = .loaded →
        bindingsOf s (hp h) slot = [] → completes (.keyDestroy h slot) h s (keyZeroise (applied s h) slot) [])
    ∧ (handed s h 6 4 → completes (.cipherSelftest h 0) h s (applied s h) [0])

/-- The commands of the ACT group have their effect (19 R516, 08 R219 to R226, R234). -/
def Obligations.ActCommands : Prop :=
  ∀ (s : State) (h : Hdr),
    (∀ (act : Nat) (image : HostBlk (List Byte)) (g : ActImage) (k : Nat), handed s h 7 1 →
        allClear ([(63 < act && act != 255, .badRequest), (image.isNone, .hostAbort)]) →
        parseImage (image.getD []) (fun a n => (troupesOf (applied s h) (hp h)).all (fun t => troupeRange (applied s h) (hp h) t a n)) = .inr g →
        pick8 s.acts.acts (hp h) act = some k →
        (act != 255 && thas s.acts.acts (64 * hp h + k)) = false →
        (tfilter s.acts.acts (fun j _ => j / 64 == hp h)).any (fun e => e.2.imBase < g.imBase + g.code.length && g.imBase < e.2.imBase + e.2.codeWords) = false →
        completes (.actLoad h act image) h s ((imageWrite (applied s h) (hp h) g).onActs (fun x => { x with
          acts := tset x.acts (64 * hp h + k) ({ imBase := g.imBase, code := g.code, entries := g.entries, segments := g.segments.map (fun e => (e.1, e.2.length)) } : Act) })) (if act == 255 then [byteOf k] else []))
    ∧ (∀ (act : Nat) (a : Act), handed s h 7 2 →
        allClear ([(63 < act || !thas s.acts.acts (64 * hp h + act), .badRequest), (actNamed s (hp h) act, .actInUse)]) →
        tget s.acts.acts (64 * hp h + act) = some a →
        completes (.actUnload h act) h s (((tumblersOf s s.cfg (hp h)).foldl (fun s n => s.onMem (fun m => { m with
          im := wordsZero m.im (n * 32768 + a.imBase) a.codeWords })) (applied s h)).onActs (fun x => { x with
          acts := tdel x.acts (64 * hp h + act) })) ([]))
    ∧ (∀ (b : ActBinding), handed s h 7 3 → epochFree s h →
        allClear ([(bindRangesOut b || (63 < b.binding && b.binding != 255), .badRequest), (b.binding != 255 && thas s.cfg.acts.bindings (64 * hp h + b.binding), .badRequest), (bindBad s (hp h) b [], .badBinding), ((pick8 s.cfg.acts.bindings (hp h) b.binding).isNone, .noBindings)]) →
        let k := (pick8 s.cfg.acts.bindings (hp h) b.binding).getD 0;
        commits (.actBind h b) h s (commitEpoch ((applied s h).onActs (fun a => { a with stats := tset a.stats (64 * hp h + k) {} })) (hp h) (fun g => { g with acts := { g.acts with
          bindings := tset g.acts.bindings (64 * hp h + k) { part := hp h, tenant := h.tenant, fn := h.fn, b := { b with binding := k } } } })) (hp h) ([byteOf k]))
    ∧ (∀ (b : ActBinding), handed s h 7 4 → epochFree s h →
        allClear ([(bindRangesOut b || 63 < b.binding, .badRequest)] ++ bindNamed s h b.binding ++ [((match tget s.cfg.acts.bindings (64 * hp h + b.binding) with | some o => o.tenant != h.tenant | none => false), .badRequest), (bindBad s (hp h) b (sessionsOf s.cfg (hp h) b.binding), .badBinding)]) →
        commits (.actRebind h b) h s (commitEpoch (applied s h) (hp h) (fun g => { g with acts := { g.acts with
          bindings := tmod g.acts.bindings (64 * hp h + b.binding) (fun o => { o with b := b }) } })) (hp h) ([]))
    ∧ (∀ (n : Nat), handed s h 7 5 → epochFree s h →
        allClear (bindNamed s h n ++ [(bindingNamed s.cfg (hp h) n, .actInUse)]) →
        commits (.actUnbind h n) h s (commitEpoch (applied s h) (hp h) (fun g => { g with acts := { g.acts with
          bindings := tdel g.acts.bindings (64 * hp h + n) } })) (hp h) ([]))
    ∧ (∀ (timer : Nat) (binding : Nat) (period : Nat) (first : Nat), handed s h 7 6 → epochFree s h →
        allClear ([(63 < timer || (binding != 255 && period < 10), .badRequest)] ++ refBad s h binding ++ (match tget s.cfg.acts.timers (64 * hp h + timer) with | some t => [(notMine h (hp h) t.tenant, .notPermitted)] | none => [])) →
        let t : TimerCfg := { binding := binding, tenant := (match tget s.cfg.acts.bindings (64 * hp h + binding) with | some b => b.tenant | none => 0), periodUs := period, first := (if first == 0 then none else some (s.clock.cadence + (first - s.clock.now))), epoch := modAdd 16 (s.part (hp h)).epoch 1 };
        commits (.actTimerSet h timer binding period first) h s (commitEpoch (applied s h) (hp h) (fun g => { g with acts := { g.acts with
          timers := if binding == 255 then tdel g.acts.timers (64 * hp h + timer) else tset g.acts.timers (64 * hp h + timer) t } })) (hp h) ([]))
    ∧ (∀ (doorbell : Nat) (binding : Nat), handed s h 7 7 → epochFree s h →
        allClear ([(decide (63 < doorbell), .badRequest)] ++ refBad s h binding ++ (match tget s.cfg.acts.doorbells (64 * hp h + doorbell) with | some b => (match tget s.cfg.acts.bindings (64 * hp h + b) with | some x => [(notMine h x.part x.tenant, .notPermitted)] | none => []) | none => [])) →
        commits (.actDoorbellSet h doorbell binding) h s (commitEpoch (applied s h) (hp h) (fun g => { g with acts := { g.acts with
          doorbells := if binding == 255 then tdel g.acts.doorbells (64 * hp h + doorbell) else tset g.acts.doorbells (64 * hp h + doorbell) binding } })) (hp h) ([]))
    ∧ (∀ (n : Nat) (clear : Nat) (blk : OutBlk), handed s h 7 8 →
        allClear ((1 < clear, .badRequest) :: bindNamed s h n) →
        let x := tgetD s.acts.stats (64 * hp h + n) {};
        let d := statsBlock s n [x.invocations, x.cycles, x.overruns, x.faults, x.eventsDropped, x.doorbellDenied, x.repliesDiscarded] [x.hwCycles];
        d.length ≤ blk.len →
        completes (.actStats h n clear blk) h s (if bit clear 0 then (wrote (applied s h) h blk.addr d).onStat (64 * hp h + n) (fun x => { x with hwCycles := 0 }) else wrote (applied s h) h blk.addr d) (le 4 d.length))

/-- The commands of the NETWORK group that configure ports, rings, rules and queues (19 R517, R518, 05 R120, R126, R135). -/
def Obligations.NetworkConfigCommands : Prop :=
  ∀ (s : State) (h : Hdr),
    (∀ (port : Nat) (mode : Nat),
        let old := fun (s : State) => modePorts port (tgetD s.cfg.net.portMode port 0);
         handed s h 8 1 → allFree s →
        allClear ([(decide (4 ≤ port) || decide (4 ≤ mode), .badRequest), ((old s).any (fun n => !(modePorts port mode).contains n && lportNamed s.cfg n), .portInUse)]) →
        let e := (modePorts port mode).foldl (fun s n => s.send (.linkTraining n)) ((modePorts port (tgetD s.cfg.net.portMode port 0)).foldl linkDown (applied s h));
        commitsAll (.portModeSet h port mode) h s (commitAll (e) (fun g => { g with net := { g.net with
          portMode := tset g.net.portMode port mode } })))
    ∧ (∀ (p : PortConfig), handed s h 8 2 → allFree s →
        allClear ([(!lportExists s.cfg p.lport || p.maxFrame < 64 || 9216 < p.maxFrame || 4095 < p.defaultVid || p.rxHoldMaxUs < 100 || 100000 < p.rxHoldMaxUs || p.pauseWatchdogMs < 10 || 2000 < p.pauseWatchdogMs, .badRequest), (rulesTooSmall s.cfg p.lport p.maxFrame, .bufferSmall)]) →
        commitsAll (.portConfigSet h p) h s (commitAll (applied s h) (fun c => setLport c p.lport (fun l => { l with
          maxFrame := p.maxFrame
          defaultVid := p.defaultVid
          promiscuous := p.promiscuous
          strip := p.strip
          lossless := p.lossless
          xoff := p.xoff
          xon := p.xon
          rxHoldMaxUs := p.rxHoldMaxUs
          pauseWatchdogMs := p.pauseWatchdogMs }))))
    ∧ (∀ (lport : Nat) (vid : Nat) (part : Nat), handed s h 8 3 → allFree s →
        allClear ([(!lportExists s.cfg lport || 4095 < vid || (15 < part && part != 0xFF), .badRequest)]) →
        commitsAll (.vlanMapSet h lport vid part) h s (commitAll (applied s h) (fun c => setLport c lport (fun l => { l with vlan := if part == 0xFF then tdel l.vlan vid else tset l.vlan vid part }))))
    ∧ (∀ (lport : Nat) (list_ : Nat) (index : Nat) (valid : Bool) (mac : Nat),
        let put := fun (t : Tbl Nat) => if valid then tset t index mac else tdel t index;
         handed s h 8 4 → allFree s →
        allClear ([(!lportExists s.cfg lport || 1 < list_ || 1023 < index, .badRequest)]) →
        commitsAll (.macFilterSet h lport list_ index valid mac) h s (commitAll (applied s h) (fun c => setLport c lport (fun l =>
          if list_ == 0 then { l with unicast := put l.unicast } else { l with multicast := put l.multicast }))))
    ∧ (∀ (r : RxRingCreate), handed s h 8 5 → epochFree s h →
        allClear ([(r.log2 < 4 || 12 < r.log2 || 1 < r.bufCode || vectorsOf h.fn ≤ r.vector || !lportExists s.cfg r.lport || !baseOk r.base 16, .badRequest), ((tfreeIn s.net.rings 0 65535).isNone, .noResource), (!doorbellsFree s h.fn 2, .noDoorbells)]) →
        let n := (tfreeIn s.net.rings 0 65535).getD 0;
        let d := giveDoorbells (applied s h) h.fn [.rxBuf n, .rxComp n];
        commits (.rxringCreate h r) h s (commitEpoch (d.2.onNet (fun x => { x with rings := tset x.rings n {} })) (hp h) (fun g => { g with net := { g.net with
          rings := tset g.net.rings n { part := hp h, tenant := h.tenant, fn := h.fn, base := r.base, log2 := r.log2, bufCode := r.bufCode, vector := r.vector, isDefault := r.isDefault, lport := r.lport } } })) (hp h) (le 2 n ++ d.1.flatMap (le 2)))
    ∧ (∀ (ring : Nat), handed s h 8 6 → epochFree s h →
        allClear (match tget s.cfg.net.rings ring with | none => [(true, .badRequest)] | some c => [(notMine h c.part c.tenant, .notPermitted)]) →
        commits (.rxringDestroy h ring) h s (commitEpoch (applied s h) (hp h) (fun c => dropRing c ring)) (hp h) ([]))
    ∧ (∀ (rule : Nat) (valid : Bool) (blk : HostBlk RxRule),
        let b := blk.getD { priority := 0, ring := 0, meter := 0xFFFF, etherType := 0, ipVersion := 4, protocol := 0, dscp := 0, matchBits := 0, srcPort := 0, dstPort := 0, srcAddr := 0, dstAddr := 0, srcPrefix := 0, dstPrefix := 0, lport := 0xFF, rsvZero := true };
        let pick := fun (s : State) => pickNumber s.cfg.net.rules s.fixedMode (hp h) 256 4096 rule;
         handed s h 8 7 → epochFree s h →
        allClear (let n := (pick s).getD 4096
          let old := tget s.cfg.net.rules n
          [(!choose16 rule && 4095 < rule, .badRequest), (!valid && choose16 rule, .badRequest),
           ((match old with | some c => notMine h c.part c.tenant | none => false), .notPermitted),
           (valid && blk.isNone, .hostAbort), (valid && ruleFieldsBad s b, .badRequest),
           (valid && (match tget s.cfg.net.rings b.ring with
              | some g => (g.fn != 0 && notMine h g.part g.tenant) | none => true), .badRequest),
           (valid && meterBad s h b.meter, .badRequest),
           (valid && (match tget s.cfg.net.rings b.ring with
              | some g => (List.range 32).any (fun p => (b.lport == 0xFF || b.lport == p) && lportExists s.cfg p
                  && decide (bufSize g < (lportCfg s.cfg p).maxFrame))
              | none => false), .bufferSmall),
           (valid && ((pick s).isNone || (s.fixedMode && n / 256 != hp h)), .noResource)]
          ++ (if valid && old.isNone then roomChecks s (hp h) (hcharge h) 13 1 .noResource else [])) →
        let n := (pick s).getD 0;
        commits (.rxruleSet h rule valid blk) h s (commitEpoch (applied s h) (hp h) (fun g => { g with net := { g.net with
          rules := if valid then tset g.net.rules n { part := hp h, tenant := h.tenant, fn := h.fn, rule := b } else tdel g.net.rules n } })) (hp h) (le 2 n))
    ∧ (∀ (q : TxqCreate),
        let pick := fun (s : State) => pickNumber s.net.txqs s.fixedMode (hp h) 512 8192 q.queue;
         handed s h 8 8 → epochFree s h →
        allClear ([((!choose16 q.queue && 8191 < q.queue) || !lportExists s.cfg q.lport || 7 < q.cls || 255 < q.share || meterBad s h q.meter || q.size == 0 || (if q.internal then q.base != 0 else (q.log2 < 4 || 12 < q.log2 || vectorsOf h.fn ≤ q.vector || !baseOk q.base 16)), .badRequest), ((match pick s with | some n => thas s.net.txqs n || (s.fixedMode && n / 512 != hp h) | none => true), .noResource)] ++ roomChecks s (hp h) (hcharge h) 12 1 .noResource ++ [(!q.internal && !doorbellsFree s h.fn 2, .noDoorbells)]) →
        let n := (pick s).getD 0;
        let sh : Shaper := { rate := q.rateKbps, size := q.size };
        let c : TxqCfg := { part := hp h, tenant := h.tenant, fn := h.fn, lport := q.lport, cls := q.cls, share := q.share, internal := q.internal, meter := q.meter, base := q.base, log2 := q.log2, vector := q.vector, frameLimit := q.frameLimit, shaper := sh };
        let d := if q.internal then ([], applied s h) else giveDoorbells (applied s h) h.fn [.txProd n, .txComp n];
        commits (.txqCreate h q) h s (commitEpoch (d.2.onNet (fun x => { x with txqs := tset x.txqs n { bucket := { cur := sh, tokens := bucketFull sh.size } } })) (hp h) (fun g => { g with net := { g.net with
          txqs := tset g.net.txqs n c } })) (hp h) (le 2 n ++ d.1.flatMap (le 2)))
    ∧ (∀ (q : Nat), handed s h 8 9 → epochFree s h →
        allClear (txqNamed h q s) →
        commits (.txqDestroy h q) h s (commitEpoch (txqDestroy (applied s h) q) (hp h) (fun c => dropTxq c q)) (hp h) ([]))
    ∧ (∀ (port : Nat) (meter : Nat), handed s h 8 19 → epochFree s h →
        allClear ([(port == 0 || meterBad s h meter, .badRequest)]) →
        commits (.gdpPortSet h port meter) h s (commitEpoch (applied s h) (hp h) (fun g => { g with net := { g.net with
          gdpPort := tset g.net.gdpPort (hp h) port
          gdpMeter := tset g.net.gdpMeter (hp h) meter } })) (hp h) ([]))

/-- The commands of the NETWORK group about traffic (19 R517, R519, 05 R131, R138, R140, R144, R145, R147 to R149). -/
def Obligations.NetworkTrafficCommands : Prop :=
  ∀ (s : State) (h : Hdr),
    (∀ (q : Nat) (count : Nat) (f : TxFrame), handed s h 8 10 →
        allClear (txqNamed h q s ++ [((descPlace s q count).isNone, .notFound)]) →
        descPlace s q count = some (.inl f) →
        completes (.txCancel h q count) h s (txFlushOne ((applied s h).onTxq q (fun x => { x with frames := x.frames.filter (fun g => g != f) })) q f 1) ([1]))
    ∧ (∀ (q : Nat), handed s h 8 11 →
        allClear (txqNamed h q s) →
        let a := txFlushAll (applied s h) q 1;
        let b := txFlushWaits a.1 q 1;
        completes (.queueFlush h q) h s (b.1) (le 4 (a.2 + b.2)))
    ∧ (∀ (m : MeterSet),
        let pick := fun (s : State) => pickNumber s.cfg.net.meters s.fixedMode (hp h) 1024 16384 m.meter;
         handed s h 8 12 → epochFree s h →
        allClear (let n := (pick s).getD 16384
          let old := tget s.cfg.net.meters n
          [((!choose16 m.meter && 16383 < m.meter) || 2 < m.algorithm || 2 < m.mode || 2 < m.actGreen || 2 < m.actYellow || 2 < m.actRed
              || m.cbs == 0 || (m.algorithm != 0 && m.ebs == 0) || 63 < m.dscp, .badRequest),
           ((match old with | some c => notMine h c.part c.tenant | none => false), .notPermitted),
           ((pick s).isNone || (s.fixedMode && n / 1024 != hp h), .noResource)]
          ++ (if old.isNone then roomChecks s (hp h) (hcharge h) 14 1 .noResource else [])) →
        let n := (pick s).getD 0;
        let c : MeterCfg := { part := hp h, tenant := h.tenant, fn := h.fn, algorithm := m.algorithm, colourAware := m.colourAware, actGreen := m.actGreen, actYellow := m.actYellow, actRed := m.actRed, cir := m.cir, pir := m.pir, cbs := m.cbs, ebs := m.ebs, dscp := m.dscp };
        let e := (commitEpoch (applied s h) (hp h) (fun g => { g with net := { g.net with meters := tset g.net.meters n c } })).onNet (fun x => { x with
          meters := tset x.meters n { (tgetD x.meters n { cur := c }) with adopt := some (c, m.mode) } });
        commits (.meterSet h m) h s (netAdopt e) (hp h) (le 2 n))
    ∧ (∀ shaper mode rate size, handed s h 8 13 → epochFree s h → shaper < 8192 → mode ≤ 2 → size ≠ 0 → allClear (txqNamed h shaper s) →
        let sh : Shaper := { rate := rate, size := size }
        let e := commitEpoch (applied s h) (hp h) (fun g => { g with net := { g.net with txqs := tmod g.net.txqs shaper (fun q => { q with shaper := sh }) } })
        commits (.shaperSet h shaper mode rate size) h s
          (netAdopt (e.onTxq shaper (fun x => { x with bucket := { x.bucket with adopt := some (sh, mode) } }))) (hp h) [])
    ∧ (∀ shaper mode rate size, handed s h 8 13 → allFree s → 8192 ≤ shaper → shaper ≤ 8447 → mode ≤ 2 → size ≠ 0 →
        lportExists s.cfg ((shaper - 8192) / 8) = true → s.fixedMode = false →
        let sh : Shaper := { rate := rate, size := size }
        let e := commitAll (applied s h) (fun g => { g with net := { g.net with classShapers := tset g.net.classShapers (shaper - 8192) sh } })
        commitsAll (.shaperSet h shaper mode rate size) h s
          (netAdopt (e.onNet (fun n => { n with classBuckets := tupd n.classBuckets (shaper - 8192) {} (fun b => { b with adopt := some (sh, mode) }) }))))
    ∧ (∀ (lport : Nat) (ws : List Nat), handed s h 8 14 → allFree s →
        allClear ([(!lportExists s.cfg lport, .badRequest), (s.fixedMode && (List.range 8).any (fun k => listGet ws k 1 == 0), .fixedMode), (strictOver s lport ws, .strictOvercommit)]) →
        commitsAll (.classSet h lport ws) h s (commitAll (applied s h) (fun c => setLport c lport (fun l => { l with classes := ws }))))
    ∧ (∀ (port : Nat) (n : Nat) (cycle : Nat) (base : Nat) (blk : HostBlk (List GclEntry)),
        let es := blk.getD [];
        let g : Gcl := { entries := es, cycle := cycle, base := base };
         handed s h 8 15 → allFree s →
        allClear ([(3 < port || 512 < n, .badRequest), (n != 0 && (cycle % 8 != 0 || cycle < 1000 || 4294967288 < cycle), .badRequest), (n != 0 && blk.isNone, .hostAbort), (n != 0 && (es.length != n || es.any (fun e => e.interval == 0 || 536870911 < e.interval)), .badRequest), (n != 0 && 8 * (es.map (·.interval)).sum != cycle, .gclCycleMismatch), (n != 0 && gateShort s port g, .gateWindowShort)]) →
        let e := commitAll (applied s h) (fun c => { c with net := { c.net with
          gcls := if n == 0 then tdel c.net.gcls port else tset c.net.gcls port g } });
        commitsAll (.gclSet h port n cycle base blk) h s (e.onNet (fun x => { x with gclPending := tset x.gclPending port (if n == 0 then none else some g) })))
    ∧ (∀ (x : SampleSet),
        let isIt := fun (d : DbTarget) => d == .sample x.queue;
        let unbind := fun (s : State) => match tget s.net.samplers x.queue with | some m => (dropDoorbells s m.fn isIt).onNet (fun n => { n with samplers := tdel n.samplers x.queue }) | none => s;
         handed s h 8 16 →
        allClear (txqNamed h x.queue s ++ [(1000000 < x.periodUs || (x.periodUs != 0 && (x.log2 < 4 || 12 < x.log2 || vectorsOf h.fn ≤ x.vector || !baseOk x.base 32)), .badRequest), (x.periodUs != 0 && 16000000 < sampleRate s x.queue + ceilDiv 1000000 x.periodUs, .sampleRate), (x.periodUs != 0 && !doorbellsFree (unbind s) h.fn 1, .noDoorbells)]) →
        x.periodUs ≠ 0 →
        let d := giveDoorbells (unbind (applied s h)) h.fn [.sample x.queue];
        let m : Sampler := { periodUs := x.periodUs, base := x.base, log2 := x.log2, vector := x.vector, fn := h.fn, prod := 0, cons := 0, seq := 0 };
        completes (.queueSampleSet h x) h s (d.2.onNet (fun n => { n with samplers := tset n.samplers x.queue m })) (d.1.flatMap (le 2)))
    ∧ (∀ (q : Nat) (clear : Bool) (blk : OutBlk), handed s h 8 17 →
        allClear (txqNamed h q s) →
        let x := tgetD s.net.txqs q {};
        let d := statsBlock s q (x.sent :: (List.range 7).map (fun k => tgetD x.flushed (k + 1) 0)) [x.hwDepth, x.hwSojourn];
        d.length ≤ blk.len →
        completes (.queueStats h q clear blk) h s (if clear then (wrote (applied s h) h blk.addr d).onTxq q (fun x => { x with hwDepth := 0, hwSojourn := 0 }) else wrote (applied s h) h blk.addr d) (le 4 d.length))
    ∧ (∀ (n : Nat) (clear : Bool) (blk : OutBlk), handed s h 8 18 →
        allClear ([(if n < 0x80 then !lportExists s.cfg n else decide (0x83 < n), .badRequest)]) →
        n < 0x80 →
        let l := lportOf s n;
        let d := statsBlock s n ([l.rxFrames, l.rxOctets, l.txFrames, l.txOctets] ++ counters l.rxPfc 8 ++ counters l.txPfc 8 ++ [l.rxPauseIgnored] ++ counters l.drops 12) [];
        d.length ≤ blk.len →
        completes (.portStats h n clear blk) h s (wrote (applied s h) h blk.addr d) (le 4 d.length))

/-- The commands of the GDP and MOVER groups (19 R520 to R522, 12 R325, R327, R328, R355, 13 R356, R370, R373). -/
def Obligations.GdpAndMoverCommands : Prop :=
  ∀ (s : State) (h : Hdr),
    (∀ (r : RegionSet),
        let pick := fun (s : State) => pickNumber s.cfg.gdp.regions s.fixedMode (hp h) 1024 16384 r.region;
         handed s h 9 1 → epochFree s h →
        allClear (let n := (pick s).getD 16384; let old := tget s.cfg.gdp.regions n; [((!choose16 r.region && 16383 < r.region) || (!r.valid && choose16 r.region), .badRequest), ((match old with | some c => notMine h c.part c.tenant | none => false), .notPermitted), (r.valid && regionBad s (hp h) r, .regionBad), (r.valid && ((pick s).isNone || (s.fixedMode && n / 1024 != hp h)), .noResource)] ++ (if r.valid && old.isNone then roomChecks s (hp h) (hcharge h) 9 1 .noResource else [])) →
        let n := (pick s).getD 0;
        commits (.gdpRegionSet h r) h s (commitEpoch (applied s h) (hp h) (fun g => { g with gdp := { g.gdp with
          regions := if r.valid then tset g.gdp.regions n { part := hp h, tenant := h.tenant, fn := h.fn, set := { r with region := n } } else tdel g.gdp.regions n } })) (hp h) (le 2 n))
    ∧ (∀ (blk : HostBlk ConnectBlock),
        let b := connDefaults (blk.getD noConnect);
        let pick := fun (s : State) => pickNumber s.gdp.conns s.fixedMode (hp h) 256 4096 b.localConn;
         handed s h 9 2 → epochFree s h →
        allClear ([(blk.isNone, .hostAbort), ((!choose16 b.localConn && 4095 < b.localConn) || connFieldsBad s h b, .badRequest), ((match pick s with | some n => thas s.gdp.conns n || (s.fixedMode && n / 256 != hp h) | none => true), .noConnections)] ++ roomChecks s (hp h) (hcharge h) 7 1 .noConnections ++ [(gdpLoop s b, .gdpCycle), (decide ((lportCfg s.cfg b.lport).maxFrame < fullPacket b), .tooLarge), (!doorbellsFree s h.fn 3, .noDoorbells)] ++ (if b.prot then keyChecks s (hp h) h.tenant b.keyTx 2 2 [b.alg] ++ keyChecks s (hp h) h.tenant b.keyRx 2 1 [b.alg] ++ [(!gdpAlgs.contains b.alg, .keyBadType)] else [])) →
        let n := (pick s).getD 0;
        let d := giveDoorbells (applied s h) h.fn [.gdpOp n, .gdpRecv n, .gdpComp n];
        let g : GdpConn := { progressAt := s.clock.cadence, window := b.initWindow, roundW := b.initWindow };
        commits (.gdpConnect h blk) h s (commitEpoch { d.2 with gdp := { d.2.gdp with conns := tset d.2.gdp.conns n g } } (hp h) (fun g => { g with gdp := { g.gdp with
          conns := tset g.gdp.conns n { part := hp h, tenant := h.tenant, fn := h.fn, blk := { b with localConn := n } } } })) (hp h) (le 2 n ++ d.1.flatMap (le 2)))
    ∧ (∀ (m : GdpModify),
        let next := fun (s : State) => connModified (match tget s.cfg.gdp.conns m.conn with | some c => c.blk | none => noConnect) m;
         handed s h 9 3 → epochFree s h →
        allClear (let b := next s; connNamed h m.conn s ++ [(64 ≤ m.mask || (bit m.mask 0 && gdpTxqBad s h b.txq b.lport) || b.paths < 1 || 64 < b.paths || gdpLimitsBad b.retryLimit b.targetUs b.winMin b.winMax (max b.winMin (min b.winMax b.initWindow)) b.progressMs, .badRequest)]) →
        commits (.gdpModify h m) h s (gdpAdopt (commitEpoch (applied s h) (hp h) (fun g => { g with gdp := { g.gdp with
          conns := tmod g.gdp.conns m.conn (fun c => { c with blk := connModified c.blk m }) } }))) (hp h) ([]))
    ∧ (∀ (n : Nat), handed s h 9 4 → epochFree s h →
        allClear (connNamed h n s ++ [((connOf s n).state == .draining, .badRequest)]) →
        commits (.gdpClose h n) h s (gdpDrain (gdpCloseConn (commitEpoch (applied s h) (hp h) id) n) n) (hp h) ([]))
    ∧ (∀ (n : Nat) (blk : OutBlk), handed s h 9 5 →
        allClear (connNamed h n s) →
        let g := connOf s n;
        let d := statsBlock s n (counters g.counts 12 ++ [g.hwOutstanding, g.window, g.srtt.getD 0, g.alpha]) [];
        d.length ≤ blk.len →
        completes (.gdpStats h n blk) h s (wrote (applied s h) h blk.addr d) (le 4 d.length))
    ∧ (∀ (q : QueueCreate), handed s h 10 1 → epochFree s h →
        allClear (let n := pickNumber s.mover.queues s.fixedMode (hp h) 64 1024 q.queue; [(q.log2 < 4 || 12 < q.log2 || vectorsOf h.fn ≤ q.vector || !baseOk q.descBase 64 || !baseOk q.compBase 16 || (q.pasidEn && !(s.fn h.fn).pasidCap) || (!choose16 q.queue && 1024 ≤ q.queue), .badRequest), (n.isNone || (match n with | some k => thas s.mover.queues k || (s.fixedMode && k / 64 != hp h) | none => true), .noResource)] ++ roomChecks s (hp h) (hcharge h) 20 1 .noResource ++ [(!doorbellsFree s h.fn 2, .noDoorbells)]) →
        let n := (pickNumber s.mover.queues s.fixedMode (hp h) 64 1024 q.queue).getD 0;
        let own : QueueCfg := { part := hp h, tenant := h.tenant, fn := h.fn, q := { q with queue := n } };
        let d := giveDoorbells (applied s h) h.fn [.moverProd n, .moverComp n];
        commits (.moverQueueCreate h q) h s (commitEpoch (d.2.onMover (fun x => { x with queues := tset x.queues n { own := own } })) (hp h) (fun c => { c with movers := tset c.movers n own })) (hp h) (le 2 n ++ d.1.flatMap (le 2)))
    ∧ (∀ (q : Nat), handed s h 10 2 →
        allClear (moverOf s h q) →
        completes (.moverQueueFlush h q) h s ((moverFlush (applied s h) q).1) (le 4 (moverFlush (applied s h) q).2))
    ∧ (∀ (q : Nat), handed s h 10 3 → epochFree s h →
        allClear (moverOf s h q) →
        let e := (moverFlush (applied s h) q).1.onMvq q (fun m => { m with closing := true });
        commits (.moverQueueDestroy h q) h s (moverRelease (commitEpoch e (hp h) (fun c => { c with movers := tdel c.movers q })) q) (hp h) ([]))
    ∧ (∀ (q : Nat) (blk : OutBlk), handed s h 10 4 →
        allClear (moverOf s h q) →
        let d := statsBlock s q (counters (match tget s.mover.queues q with | some m => m.counts | none => []) 16) [];
        d.length ≤ blk.len →
        completes (.moverStats h q blk) h s (wrote (applied s h) h blk.addr d) (le 4 d.length))

/-- The commands of the CODEC group (19 R523, R524, 14 R376, R378, R379, R382, R396, R398). -/
def Obligations.CodecCommands : Prop :=
  ∀ (s : State) (h : Hdr),
    (∀ (i : Nat) (mode : Nat) (age : Nat) (idle : Nat) (watchdog : Nat),
        let range := fun (v : Nat) => v != 0 && (v < 1000 || 1000000 < v);
         handed s h 11 1 → allFree s →
        allClear (let now := (instCfg s.cfg i).exclusive; [(1 < i || 1 < mode || range age || range idle || (watchdog != 0 && (watchdog < 10000 || 1000000 < watchdog)), .badRequest), ((mode == 1) != now && tany s.cfg.codec.streams (fun k _ => k / 256 == i), .codecBusy), (mode == 1 && s.fixedMode, .fixedMode)]) →
        commitsAll (.codecModeSet h i mode age idle watchdog) h s (commitAll (applied s h) (fun c => { c with codec := { c.codec with insts := tupd c.codec.insts i {} (fun x => {
          exclusive := mode == 1
          ageStepUs := if age == 0 then x.ageStepUs else age
          idleUs := if idle == 0 then x.idleUs else idle
          watchdogUs := if watchdog == 0 then x.watchdogUs else watchdog }) } })))
    ∧ (∀ (n : Nat) (blk : HostBlk CodecOpen),
        let b := blk.getD noCodec;
         handed s h 11 2 → epochFree s h →
        allClear ([(blk.isNone, .hostAbort), (codecFieldsBad s h b || (!choose16 n && 511 < n), .badRequest), (quarantined s (142 + b.unit), .islandQuarantined), ((streamPick s b.unit n).isNone || decide (limitOf s (hp h) 24 < streamsUsed s b.unit (hp h) none + 1) || ((instCfg s.cfg b.unit).exclusive && 64 ≤ tcount s.codec.streams (fun k _ => k / 256 == b.unit)), .noStreams), (hcharge h != 0 && (match capOf s (hp h) (hcharge h) 24 with | some c => decide (c < streamsUsed s b.unit (hp h) (some (hcharge h)) + 1) | none => false), .tenantLimit), (!doorbellsFree s h.fn 2, .noDoorbells)]) →
        workBytes b ≤ b.workLen →
        let k := (streamPick s b.unit n).getD 0;
        let own : StreamCfg := { part := hp h, tenant := h.tenant, fn := h.fn, blk := { b with sliceRows := if b.sliceRows == 0 then 4 else b.sliceRows } };
        let d := giveDoorbells (applied s h) h.fn [.codecDesc k, .codecComp k];
        let e := d.2.onCodec (fun c => { c with streams := tset c.streams k { own := own } });
        commits (.codecStreamOpen h n blk) h s (commitEpoch (e.onInst b.unit (fun i => { i with order := i.order ++ [k] })) (hp h) (fun c => { c with codec := { c.codec with streams := tset c.codec.streams k own } })) (hp h) (le 2 k ++ d.1.flatMap (le 2)))
    ∧ (∀ (m : CodecModify),
        let put := fun (b : CodecOpen) => { b with
          priority := if bit m.mask 0 then m.priority else b.priority
          rcMode := if bit m.mask 1 then m.rcMode else b.rcMode
          quantiser := if bit m.mask 1 then m.quantiser else b.quantiser
          rate := if bit m.mask 1 then m.rate else b.rate
          maxRate := if bit m.mask 1 then m.maxRate else b.maxRate };
        handed s h 11 3 → epochFree s h → allClear (streamNamed h m.stream s) → m.mask ≤ 3 → (bit m.mask 0 = true → m.priority ≤ 3) →
        (∀ c, tget s.cfg.codec.streams m.stream = some c → rateBad (put c.blk) = false) →
        commits (.codecStreamModify h m) h s (commitEpoch (applied s h) (hp h) (fun c => { c with codec := { c.codec with
          streams := tmod c.codec.streams m.stream (fun x => { x with blk := put x.blk }) } })) (hp h) [])
    ∧ (∀ (n : Nat), handed s h 11 4 →
        allClear (streamNamed h n s) →
        completes (.codecStreamFlush h n) h s ((codecFlush (applied s h) n).1) (le 4 (codecFlush (applied s h) n).2))
    ∧ (∀ (n : Nat), handed s h 11 5 → epochFree s h →
        allClear (streamNamed h n s) →
        commits (.codecStreamClose h n) h s (codecClose (commitEpoch (applied s h) (hp h) (fun c => { c with codec := { c.codec with streams := tdel c.codec.streams n } })) n) (hp h) ([]))
    ∧ (∀ (x : CodecBuffer), handed s h 11 6 →
        allClear (streamNamed h x.stream s ++ [(decide (31 < x.index), .badRequest), (match tget s.cfg.codec.streams x.stream with | some c => bufferBad s c x | none => false, .bufferBad), (match tget s.codec.streams x.stream with | some y => (match tget y.bufs x.index with | some b => b.held | none => false) | none => true, .bufferBusy)]) →
        let e := (applied s h).onStream x.stream (fun y => { y with bufs := tset y.bufs x.index { luma := x.luma, chroma := x.chroma, pitch := x.pitch, held := y.own.blk.dir == 0, busy := false, output := none, noRef := false } });
        completes (.codecBufferRegister h x) h s (codecKick e x.stream) ([]))
    ∧ (∀ (n : Nat) (blk : OutBlk), handed s h 11 7 →
        allClear (streamNamed h n s) →
        let d := statsBlock s n (counters (match tget s.codec.streams n with | some x => x.counts | none => []) 20) [];
        d.length ≤ blk.len →
        completes (.codecStats h n blk) h s (wrote (applied s h) h blk.addr d) (le 4 d.length))

/-- The commands of the STORAGE group (19 R525, R526, 15 R400, R404, R406, R408, R413, R418 to R420, R424). -/
def Obligations.StorageCommands : Prop :=
  ∀ (s : State) (h : Hdr),
    (∀ (port : Nat) (mode : Nat), handed s h 12 1 → allFree s →
        allClear ([(decide (1 < port) || decide (1 < mode), .badRequest), (mode == 0 && s.cfg.stor.x4.contains port && driveInUse s (2 * port + 1) none, .driveInUse)]) →
        let e := commitAll (applied s h) (fun c => { c with stor := { c.stor with
          x4 := c.stor.x4.filter (fun k => k != port) ++ (if mode == 1 then [port] else []) } });
        commitsAll (.storagePortSet h port mode) h s (if s.cfg.stor.x4.contains port != (mode == 1) then driveLost (driveLost e (2 * port)) (2 * port + 1) else e))
    ∧ (∀ drive blk buf len cqe data, handed s h 12 2 → drive ≤ 3 → [0x06, 0x02, 0x0A].contains (o8 (fit 64 blk) 0) = true → (tgetD s.stor.drives drive {}).st = .up →
        data ≠ [] → len ≠ 0 → ofLe (((fit 16 cqe).drop 14).take 2) / 2 = 0 →
        completes (.driveAdmin h drive (some blk) buf len (.entry cqe data)) h s
          (wrote ((applied s h).send (.driveAdmin drive (fit 64 blk))) h buf (data.take len)) (fit 16 cqe))
    ∧ (∀ (v : VolumeCreate),
        let pick := fun (s : State) => pickNumber s.stor.volumes s.fixedMode (hp h) 64 1024 v.volume;
         handed s h 12 3 → epochFree s h →
        allClear (let n := pick s; [((!choose16 v.volume && decide (1023 < v.volume)) || decide (1 < v.backing) || backingBad s h v || v.blocks == 0 || (match (spacesOf s v.backing v.source).find? (fun x => x.nsid == v.nsid) with | some x => decide (x.blocks < v.startLba + v.blocks) | none => true), .badRequest), ((volumesOn s v.backing v.source).any (fun e => e.2.v.nsid == v.nsid && decide (e.2.v.startLba < v.startLba + v.blocks) && decide (v.startLba < e.2.v.startLba + e.2.v.blocks)), .volumeOverlap), ((match n with | some k => thas s.stor.volumes k || (s.fixedMode && k / 64 != hp h) | none => true), .noVolumes)] ++ roomChecks s (hp h) (hcharge h) 22 1 .noVolumes ++ (if v.keySlot == 0xFFFF then [] else keyChecks s (hp h) h.tenant v.keySlot 3 3 [7])) →
        let n := (pick s).getD 0;
        let spaces := spacesOf s v.backing v.source;
        let c : VolumeCfg := { part := hp h, tenant := h.tenant, fn := h.fn, v := { v with volume := n }, blockSize := (match spaces.find? (fun x => x.nsid == v.nsid) with | some x => x.blockSize | none => 512) };
        let e := volState (commitEpoch ((applied s h).onStor (fun x => { x with volumes := tset x.volumes n {} })) (hp h) (fun g => { g with stor := { g.stor with volumes := tset g.stor.volumes n c } })) n c .creating 0;
        let up := backingUp e v.backing v.source;
        commits (.volumeCreate h v) h s (if v.preserve then (if up then volState e n c .ready 0 else volState e n c .offline (if v.backing == 0 then Status.driveLost.code else Status.remoteLost.code)) else if up then volScrub e c spaces else e) (hp h) (le 2 n))
    ∧ (∀ (n : Nat), handed s h 12 4 → epochFree s h →
        allClear (volNamed s h n .volumeUnknown) →
        commits (.volumeDestroy h n) h s (commitEpoch (applied s h) (hp h) (fun g => { g with stor := { g.stor with volumes := tdel g.stor.volumes n } })) (hp h) ([]))
    ∧ (∀ (q : QueueCreate),
        let pick := fun (s : State) => pickNumber s.stor.queues s.fixedMode (hp h) 64 1024 q.queue;
         handed s h 12 5 → epochFree s h →
        allClear (let n := pick s; [(q.log2 < 4 || 12 < q.log2 || vectorsOf h.fn ≤ q.vector || !baseOk q.descBase 64 || !baseOk q.compBase 16 || (q.pasidEn && !(s.fn h.fn).pasidCap) || (!choose16 q.queue && 1024 ≤ q.queue) || (q.bounceCells != 0 && (q.bounceCells < 64 || 4096 < q.bounceCells)), .badRequest), ((match n with | some k => thas s.stor.queues k || (s.fixedMode && k / 64 != hp h) | none => true), .noResource)] ++ roomChecks s (hp h) (hcharge h) 21 1 .noResource ++ [(decide ((freeCells s (hp h) q.bounceCells).length < q.bounceCells), .noCells), (!doorbellsFree s h.fn 2, .noDoorbells)]) →
        let n := (pick s).getD 0;
        let own : QueueCfg := { part := hp h, tenant := h.tenant, fn := h.fn, q := { q with queue := n } };
        let cells := freeCells (applied s h) (hp h) q.bounceCells;
        let d := giveDoorbells (applied s h) h.fn [.storProd n, .storComp n];
        let e := (takeCells d.2 (hp h) h.tenant cells).onStor (fun x => { x with queues := tset x.queues n { own := own, cells := cells, freeCells := cells } });
        commits (.storQueueCreate h q) h s (commitEpoch e (hp h) (fun c => { c with stor := { c.stor with queues := tset c.stor.queues n own } })) (hp h) (le 2 n ++ d.1.flatMap (le 2)))
    ∧ (∀ (q : Nat), handed s h 12 6 →
        allClear (storNamed s h q) →
        completes (.storQueueFlush h q) h s ((storFlush (applied s h) q).1) (le 4 (storFlush (applied s h) q).2))
    ∧ (∀ (q : Nat), handed s h 12 7 → epochFree s h →
        allClear (storNamed s h q) →
        commits (.storQueueDestroy h q) h s (storDestroy (commitEpoch (applied s h) (hp h) (fun c => { c with stor := { c.stor with queues := tdel c.stor.queues q } })) q) (hp h) ([]))
    ∧ (∀ (sub : Nat) (valid : Nat) (blk : HostBlk SubsystemBlock),
        let b := blk.getD { nqn := [], hosts := [], namespaces := [] };
         handed s h 12 8 → epochFree s h →
        allClear ([(decide (3 < sub) || decide (1 < valid), .badRequest), (valid == 1 && blk.isNone, .hostAbort), (valid == 1 && b.namespaces.any (fun v => v != 0xFFFF && (match tget s.cfg.stor.volumes v with | some c => c.part != hp h | none => true)), .volumeUnknown)]) →
        commits (.nvmetSubsystemSet h sub valid blk) h s (commitEpoch (applied s h) (hp h) (fun c => { c with stor := { c.stor with
          subsystems := if valid == 1 then tset c.stor.subsystems (4 * hp h + sub) b else tdel c.stor.subsystems (4 * hp h + sub) } })) (hp h) ([]))
    ∧ (∀ (l : ListenerSet),
        let remove := l.subsystem == 0xFF;
         handed s h 12 9 → epochFree s h →
        allClear ([(decide (3 < l.listener) || (!remove && (decide (3 < l.subsystem) || (l.ipVersion != 4 && l.ipVersion != 6) || !lportExists s.cfg l.lport || storTxqBad s h l.txq l.lport || meterBad s h l.meter)), .badRequest)]) →
        commits (.nvmetListenerSet h l) h s (commitEpoch (applied s h) (hp h) (fun c => { c with stor := { c.stor with
          listeners := if remove then tdel c.stor.listeners (4 * hp h + l.listener) else tset c.stor.listeners (4 * hp h + l.listener) { part := hp h, l := l } } })) (hp h) ([]))
    ∧ (∀ (blk : HostBlk InitiatorBlock),
        let b := blk.getD { addr := 0, tcpPort := 0, ipVersion := 4, lport := 0, txq := 0, ioQueues := 1, digests := 0, ctrlLossTmo := 0, subNqn := [], hostNqn := [] };
        let b := { b with ctrlLossTmo := if b.ctrlLossTmo == 0 then 600 else b.ctrlLossTmo };
         handed s h 12 10 → epochFree s h →
        allClear ([(blk.isNone, .hostAbort), ((b.ipVersion != 4 && b.ipVersion != 6) || !lportExists s.cfg b.lport || storTxqBad s h b.txq b.lport || b.ioQueues == 0 || decide (16 < b.ioQueues) || b.digests % 2 != 0 || decide (7 < b.digests) || decide (b.ctrlLossTmo < 10) || decide (3600 < b.ctrlLossTmo), .badRequest), ((tfreeIn s.stor.inits 0 256).isNone || decide (1024 < s.stor.tcps.length + 1 + b.ioQueues), .noResource)] ++ roomChecks s (hp h) (hcharge h) 23 (1 + b.ioQueues) .noResource) →
        let c := (tfreeIn s.stor.inits 0 256).getD 0;
        let own : InitCfg := { part := hp h, tenant := h.tenant, blk := b };
        exec (.nvmeiConnect h blk) s = .next (initStart ((applied s h).onStor (fun x => { x with inits := tset x.inits c { own := some own, waiter := some (h.fn, h.id) } })) c own))
    ∧ (∀ (c : Nat), handed s h 12 11 → epochFree s h →
        allClear (match tget s.cfg.stor.initiators c with | none => [(true, .badRequest)] | some i => [(i.part != hp h, .notPermitted), (!(volumesOn s 1 c).isEmpty, .driveInUse)]) →
        let e := onInit (initReset (applied s h) c) c (fun i => { i with up := false, lost := false });
        commits (.nvmeiDisconnect h c) h s (commitEpoch e (hp h) (fun g => { g with stor := { g.stor with initiators := tdel g.stor.initiators c } })) (hp h) ([]))
    ∧ (∀ (seconds : Nat), handed s h 12 12 →
        allClear ([(seconds == 0 || decide (255 < seconds), .badRequest)]) →
        completes (.storageTimeoutSet h seconds) h s ((applied s h).onStor (fun x => { x with timeoutS := seconds })) ([]))
    ∧ (∀ (kind : Nat) (n : Nat) (blk : OutBlk), handed s h 12 13 →
        allClear ([(decide (1 < kind) || (kind == 1 && decide (3 < n)), .badRequest), (kind == 1 && h.fn != 0, .notPermitted)] ++ (if kind == 0 then volNamed s h n .badRequest else [])) →
        let v := tgetD s.stor.drives n {};
        let d := statsBlock s n (if kind == 0 then counters (match tget s.stor.volumes n with | some v => v.counts | none => []) 27 else [v.dmaDenied, v.resets, v.timeouts]) [];
        d.length ≤ blk.len →
        completes (.storageStats h kind n blk) h s (wrote (applied s h) h blk.addr d) (le 4 d.length))

/-- The commands of the TRAPEZE group (19 R527, 11 R309, R312, R314, R316, R317, R322). -/
def Obligations.TrapezeCommands : Prop :=
  ∀ (s : State) (h : Hdr),
    (∀ (p : Nat), handed s h 13 1 →
        allClear ([(3 < p, .badRequest), (quarantined s (134 + p), .islandQuarantined)]) →
        tpUp (s.tport p) = true →
        completes (.trapezeEnable h p) h s (applied s h) (tpResult (s.tport p)))
    ∧ (∀ (p : Nat), handed s h 13 1 →
        allClear ([(3 < p, .badRequest), (quarantined s (134 + p), .islandQuarantined)]) →
        tpUp (s.tport p) = false →
        ((s.tport p).st == .training) = false →
        exec (.trapezeEnable h p) s = .next (tpTrain ((setArg (applied s h) h.fn h.id p).onTp p (fun t => { t with tries := 0, fails := 0 })) p false false))
    ∧ (∀ (p : Nat), handed s h 13 2 →
        allClear ([(decide (3 < p), .badRequest)]) →
        completes (.trapezeDisable h p) h s (tpOff (applied s h) p .portDown .partnerStalled .portDown) ([]))
    ∧ (∀ (p : Nat) (k : Nat) (e : TpWindow) (rsvZero : Bool), handed s h 13 3 → epochFree s h →
        allClear (let t := s.cfg.tp.outWin; let i := 1024 * p + (windowEntry t (1024 * p) 1024 k).getD 0; let fresh := e.valid && (match tget t i with | some x => !x.valid | none => true); [((decide (3 < p) || (!choose16 k && decide (1023 < k))), .badRequest), ((windowEntry t (1024 * p) 1024 k).isNone, .noResource)] ++ windowChecks h t (1024 * p) 1024 k e rsvZero false ++ [(fresh && decide (limitOf s (hp h) 18 < windowsUsed s p (hp h) none + 1), .noResource), (fresh && hcharge h != 0 && (match capOf s (hp h) (hcharge h) 18 with | some c => decide (c < windowsUsed s p (hp h) (some (hcharge h)) + 1) | none => false), .tenantLimit)]) →
        let n := (windowEntry s.cfg.tp.outWin (1024 * p) 1024 k).getD 0;
        commits (.trapezeWindowSet h p k e rsvZero) h s (commitEpoch (applied s h) (hp h) (fun c => { c with tp := { c.tp with
          outWin := if e.valid then tset c.tp.outWin (1024 * p + n) e else tdel c.tp.outWin (1024 * p + n)
          outBy := if e.valid then tset c.tp.outBy (1024 * p + n) h.fn else tdel c.tp.outBy (1024 * p + n) } })) (hp h) (le 2 n))
    ∧ (∀ (p : Nat) (k : Nat) (e : TpWindow) (rsvZero : Bool), handed s h 13 4 → epochFree s h →
        allClear (let t := s.cfg.tp.inWin; [((decide (3 < p) || (!choose16 k && decide (255 < k))), .badRequest), ((windowEntry t (256 * p) 256 k).isNone, .noResource)] ++ windowChecks h t (256 * p) 256 k e rsvZero (!inHbmOrStage e.accBase (2 ^ e.sizeLog2))) →
        let n := (windowEntry s.cfg.tp.inWin (256 * p) 256 k).getD 0;
        commits (.trapezeInwindowSet h p k e rsvZero) h s (commitEpoch (applied s h) (hp h) (fun c => { c with tp := { c.tp with
          inWin := if e.valid then tset c.tp.inWin (256 * p + n) e else tdel c.tp.inWin (256 * p + n) } })) (hp h) (le 2 n))
    ∧ (∀ (p : Nat) (base : Nat) (log2 : Nat) (vector : Nat), handed s h 13 5 →
        allClear ([(decide (3 < p) || (base != 0 && (log2 < 4 || 12 < log2 || vectorsOf h.fn ≤ vector || !baseOk base 64)), .badRequest), (base != 0 && (s.tport p).telemRing.isNone && !doorbellsFree s h.fn 1, .noDoorbells)]) →
        base ≠ 0 →
        let d := giveDoorbells (dropDoorbells (applied s h) h.fn (isTelem p)) h.fn [.telem p];
        completes (.trapezeTelemSet h p base log2 vector) h s (d.2.onTp p (fun t => { t with telemRing := some ({ base := base, log2 := log2 }, vector) })) (d.1.flatMap (le 2)))
    ∧ (∀ (c : SumCmd), handed s h 13 6 →
        allClear ([(15 < c.members || 51 < c.value || c.timeoutUs == 0 || 1000000 < c.timeoutUs, .badRequest), (c.scalar && !bit (s.fn h.fn).booth.featEn 6, .unsupported), (!(membersOf c.members).all (fun p => tpUp (s.tport p)), .portDown)]) →
        exec (.trapezeSum h c) s = .next (sumStart (applied s h) { use := .command h.fn h.id, scalar := c.scalar, op := 0, members := c.members, value := c.value, stepNo := c.stepNo, job := 0, boundaries := [], reached := false, won := false }))
    ∧ (∀ (p : Nat) (creditUs : Nat) (readUs : Nat), handed s h 13 7 →
        allClear ([(decide (3 < p) || creditUs < 100 || 100000 < creditUs || readUs < 50 || 50000 < readUs, .badRequest)]) →
        completes (.trapezeWatchdogSet h p creditUs readUs) h s ((applied s h).onTp p (fun t => { t with creditUs := creditUs, readUs := readUs })) ([]))
    ∧ (∀ (p : Nat) (blk : OutBlk), handed s h 13 8 →
        allClear ([(decide (3 < p), .badRequest)]) →
        let d := statsBlock s p (counters (s.tport p).counts 13) [];
        d.length ≤ blk.len →
        completes (.trapezeStats h p blk) h s (wrote (applied s h) h blk.addr d) (le 4 d.length))

/-- The commands of the PRESS group (19 R528, 20 R534 to R536, R540, R548, R552). -/
def Obligations.PressCommands : Prop :=
  ∀ (s : State) (h : Hdr),
    (∀ (jn : Nat) (blk : HostBlk ArmBlock),
        let a := blk.getD default;
         handed s h 14 1 →
        allClear ([(blk.isNone, .hostAbort), (s.resize.isSome, .resizeBusy), (thas s.press.jobs jn || 4 ≤ s.press.jobs.length || tany s.press.jobs (fun _ j => (membersOf a.members).any (bit j.arm.members)), .pressState), (armFieldsBad s a, .badRequest), (a.mode == 0 && (a.regions.any (regionBroken s a) || somePair regionsMeet a.regions), .badRequest)]) →
        (if a.mode == 0 then wheelBytes a else 4096) ≤ a.stagingLen →
        (a.mode == 0 && (a.shards.any (shardBroken a.regions) || somePair shardsMeet a.shards)) = false →
        let arm : ArmBlock := { a with setTimeoutMs := if a.setTimeoutMs == 0 then 1000 else a.setTimeoutMs };
        completes (.pressArm h jn blk) h s ({ applied s h with press := { s.press with jobs := tset s.press.jobs jn { arm := arm, generation := a.generation } } }) ([]))
    ∧ (∀ (jn : Nat) (flush : Bool) (step : Nat) (j : PressJob), handed s h 14 2 →
        allClear ([(!pressReadyFor s jn 0, .pressState), (flush && (match tget s.press.jobs jn with | some j => j.arm.flushKind == 0 | none => true), .badRequest)]) →
        tget s.press.jobs jn = some j →
        exec (.pressCheckpoint h jn flush step) s = .next (pressStart (applied s h) jn (pressOp (applied s h) h false flush step (modAdd 64 j.generation 1) default)))
    ∧ (∀ (jn : Nat) (blk : HostBlk Manifest),
        let m := blk.getD default;
         handed s h 14 3 →
        allClear (let a := match tget s.press.jobs jn with | some j => j.arm | none => default; [(blk.isNone, .hostAbort), (!pressReadyFor s jn 1, .pressState), (m.magic != 0x57484C31 || m.version != 1 || !m.crcOk || m.verified != 1 || a.stagingLen < m.wheelBytes, .pressImageBad), (a.targets.any (fun t => (targetPieces m t t.objectOffset (m.shards.length + 1)).isNone || (t.kind == 0 && !bit a.members t.member) || (t.kind != 0 && !inPartHbm s a.partition t.target t.length)) || somePair targetsMeet a.targets, .pressShardMap)]) →
        exec (.pressRestore h jn blk) s = .next (pressStart (applied s h) jn (pressOp (applied s h) h true false m.step m.generation m)))
    ∧ (∀ (jn : Nat) (j : PressJob), handed s h 14 4 →
        allClear ([(match tget s.press.jobs jn with | some j => j.op.isSome | none => true, .pressState)]) →
        tget s.press.jobs jn = some j →
        completes (.pressDisarm h jn) h s (j.arm.peers.foldl gdpFetch { applied s h with press := { s.press with jobs := tdel s.press.jobs jn } }) ([]))
    ∧ (∀ (jn : Nat), handed s h 14 5 →
        let r := fun (state stage step gen : Nat) => [byteOf state, byteOf stage] ++ zeros 6 ++ le 8 step ++ le 8 gen;
        completes (.pressStatus h jn) h s (applied s h) (match tget s.press.jobs jn with | none => r 0 0 0 0 | some j => (match j.op with | none => r 1 0 0 j.generation | some o => r (if o.restore then 3 else 2) (stageNo o.stage) o.step j.generation)))

/-- The commands of the MANAGEMENT group (19 R529, R665, 21 R559, R565, R567, R571, R576, 23 R611, R614). -/
def Obligations.ManagementCommands : Prop :=
  ∀ (s : State) (h : Hdr),
    (handed s h 15 1 →
        completes (.deviceInfo h) h s (applied s h) (le 8 Config.unitId ++ le 4 ((bootImage s).major * 65536 + (bootImage s).minor) ++ le 4 (bootImage s).imageId
          ++ [byteOf s.power.bootSlot, byteOf (b2n (!s.fixedMode)), 0x10]))
    ∧ (∀ (c : ConfigBlock), handed s h 15 2 → configOk c = true →
        completes (.deviceConfigSet h (some c) 256) h s ((applied s h).onFlash (fun f => configWrite f c true)) [])
    ∧ (∀ (time : Nat), handed s h 15 3 →
        completes (.timeSet h time) h s ((applied s h).onClock (fun c => { c with
          now := time
          rtc := timeToRtc time
          timeInvalid := false
          rtcWrite := some (c.cadence + 600000000000)
          steppedAt := some c.cadence })) (le 8 s.clock.now))
    ∧ (∀ (ppb : Nat),
        let v : Int := if ppb < 2 ^ 31 then ppb else (ppb : Int) - 2 ^ 32;
         handed s h 15 4 →
        allClear ([(decide (500000 < v) || decide (v < -500000), .badRequest)]) →
        completes (.timeAdjust h ppb) h s ((applied s h).onClock (fun c => { c with ppb := v })) ([]))
    ∧ (∀ (n : Nat) (flags : Nat) (time : Nat) (period : Nat), handed s h 15 5 →
        allClear ([(decide (3 < n) || decide (7 < flags) || decide (2 ^ 63 ≤ time) || period == 0, .badRequest), (s.clock.timeInvalid, .timeInvalid)]) →
        completes (.alarmSet h n flags time period) h s (onAlarm (applied s h) n (fun a => alarmClear { a with
          t := time
          period := period
          enable := bit flags 0
          periodic := bit flags 1
          wake := bit flags 2 })) ([]))
    ∧ (∀ (blk : HostBlk ContentBlock), handed s h 15 6 →
        allClear ([(blk.isNone, .hostAbort), ((match blk with | some c => contentBad c | none => false), .badRequest), (!s.power.vstby || s.mgmt.config.playbill == 0, .noStandby), (s.mgmt.playbill.interval || s.mgmt.playbill.phase != 0, .playbillRate)]) →
        exec (.playbillUpdate h blk) s = .next (playbillStart (((applied s h).onFlash (fun f => { f with content := blk })).onPlaybill (fun p => { p with cmd := some (h.fn, h.id) }))))
    ∧ (∀ (section_ : Nat) (blk : OutBlk), handed s h 15 7 →
        allClear ([(2 < section_, .badRequest)]) →
        let body := (match section_ with
          | 0 => (256, (List.range 256).flatMap (fun i => le 8 (tgetD s.rind.counters i 0)))
          | 1 => (64, (List.range 2048).flatMap (fun i => le 4 (tgetD s.rind.hists i 0)))
          | _ => (s.rind.log.length, s.rind.log.flatMap logBytes));
        let d := le 8 s.clock.now ++ le 4 body.1 ++ le 4 section_ ++ body.2;
        d.length ≤ blk.len →
        completes (.rindRead h section_ blk) h s (wrote (applied s h) h blk.addr d) (le 4 d.length))
    ∧ (handed s h 15 8 →
        exec (.rindCommit h) s = .next (rindTrigger ((applied s h).onRind (fun r => { r with nextWaiters := r.nextWaiters ++ [(h.fn, h.id)] }))))

/-- The rows of the Booth service take place as the rules say that each meaning of the model names (among them 18 R479, 18 R481, 18 R483, 18 R484, 18 R485, 18 R487, 18 R492, 18 R494). -/
def Obligations.BoothServiceEvents : Prop :=
  ∀ (s : State),
    (∀ (fn : Nat) (negotiating : Bool),
        let t := s.onBooth fn (fun b => { b with
            enable := true
            negotiating := negotiating
            ready := true
            error := 0
            featEn := b.featReq &&& featuresOffered s
            minor := b.reqMinor
            subProd := 0
            subCons := 0
            cmpProd := 0
            cmpCons := 0
            evtProd := 0
            evtCons := 0
            lost := 0
            lostTotal := 0
            reading := 0
            readFailed := false
            outst := []
            done := []
            held := [] });
        fnAnswers s fn = true →
        (s.fn fn).booth.enable = false →
        (s.fn fn).booth.stopping = false →
        enableError s fn (s.fn fn).booth negotiating = 0 →
        exec (.boothEnable fn negotiating) s = .next (if fn == 0 && !t.mgmt.bootReady && (tgetD t.comps 8 {}).state == .running then alarmsMissed t else t))
    ∧ (∀ (fn : Nat),
        fnAnswers s fn = true →
        exec (.boothDisable fn) s = .next (boothStop s fn))
    ∧ (∀ (fn : Nat),
        (s.fn fn).booth.stopping = true →
        (s.fn fn).booth.outst = [] →
        exec (.boothStopComplete fn) s = .next (s.onBooth fn (fun b => { b with stopping := false, ready := false, featEn := 0 })))
    ∧ (∀ (fn : Nat),
        ((List.range 1009).map (fun i => (s.host.boothNext + i) % 1009)).find? (visitable s) = some fn →
        exec (.boothFetchVisit) s = .next (hostRead ((s.onHost (fun h => { h with boothNext := (fn + 1) % 1009 })).onBooth fn (fun b => { b with reading := visitCount (s.fn fn).booth })) fn
          (if (s.fn fn).booth.pasidEn then some (s.fn fn).booth.pasid else none)
          ((s.fn fn).booth.subBase + 64 * ((s.fn fn).booth.subCons % 2 ^ (s.fn fn).booth.subLog2)) (64 * visitCount (s.fn fn).booth) (.submission fn)))
    ∧ (∀ (fn : Nat) (d : List Byte) (r : HostRd),
        s.host.reads.find? (fun r => r.use == .submission fn) = some r →
        s.host.reads.find? (fun x => x.tag == r.tag) = some r →
        exec (.submissionReadDone fn (.data d)) s = .next (submissionRead (readTake s r.tag) fn (some (fit r.len d))))
    ∧ (∀ (fn : Nat) (id : Nat) (c : OutCmd),
        outCmd s fn id = some c →
        mayHand s fn c = true →
        exec (.commandHandoff fn id) s = .next (markCmd s fn id .handed))
    ∧ (∀ (c : Nat),
        s.power.st = .run →
        exec (.componentFault c) s = .next (componentFault s c))
    ∧ (∀ (c : Nat),
        s.power.st = .run →
        exec (.supervisorTimeout c) s = .next (componentFault s c))
    ∧ (∀ (c : Nat),
        let t := s.onComp c (fun k => { k with state := .running });
        (tgetD s.comps c {}).state = .restarting →
        exec (.componentResume c) s = .next (if c = 1 then (s.fns.map (·.1)).foldl writeHeld t else if c = 8 then s.mgmt.mctpWait.foldl mgmtServe (t.onMgmt (fun m => { m with mctpWait := [] })) else t))

/-- The doorbell registers (16 R435 to R437, 18 R488, 08 R226, 17 R475). -/
def Obligations.DoorbellWrites : Prop :=
  ∀ (s : State),
    (∀ (fn : Nat) (v : Nat),
        ingress s = true →
        (fn = 0 ∨ vfExists s fn = true) →
        v < 2 ^ 32 →
        boothHeard s fn = true →
        prodOk v (s.fn fn).booth.subCons (2 ^ (s.fn fn).booth.subLog2) = true →
        exec (.boothSubmissionDoorbell fn 4 v) s = .next (s.onBooth fn (fun b => { b with subProd := v, readFailed := false })))
    ∧ (∀ (fn : Nat) (v : Nat),
        ingress s = true →
        (fn = 0 ∨ vfExists s fn = true) →
        v < 2 ^ 32 →
        boothHeard s fn = true →
        consOk v (s.fn fn).booth.cmpProd (2 ^ (s.fn fn).booth.cmpLog2) = true →
        exec (.boothCompletionDoorbell fn 4 v) s = .next (s.onBooth fn (fun b => { b with
            cmpCons := v
            done := b.done.drop (b.done.length - (modSub 32 b.cmpProd v + b.held.length)) })))
    ∧ (∀ (fn : Nat) (v : Nat),
        ingress s = true →
        (fn = 0 ∨ vfExists s fn = true) →
        v < 2 ^ 32 →
        boothHeard s fn = true →
        consOk v (s.fn fn).booth.evtProd (2 ^ (s.fn fn).booth.evtLog2) = true →
        exec (.boothEventDoorbell fn 4 v) s = .next (if newer 32 v (s.fn fn).booth.evtCons then eventsLost (s.onBooth fn (fun b => { b with evtCons := v })) fn else s.onBooth fn (fun b => { b with evtCons := v })))
    ∧ (∀ (fn : Nat) (off : Nat) (v : Nat) (d : Doorbell) (count entries : Nat),
        ingress s = true →
        (fn = 0 ∨ vfExists s fn = true) →
        v < 2 ^ 32 →
        off % 4 = 0 →
        0x200 ≤ off →
        off < (if fn = 0 then 0x10000 else 0x1000) →
        tget (s.fn fn).doorbells ((off - 0x200) / 4) = some d →
        dbHeard s fn = true →
        ringView s d.target = some (true, count, entries) →
        prodOk v count entries = true →
        exec (.ringProducerDoorbell fn off 4 v) s = .next (ringKick (ringSet (s.onFn fn (fun f => { f with doorbells := tmod f.doorbells ((off - 0x200) / 4) (fun d => { d with last := v }) })) d.target v) d.target))
    ∧ (∀ (fn : Nat) (off : Nat) (v : Nat) (d : Doorbell) (count entries : Nat),
        ingress s = true →
        (fn = 0 ∨ vfExists s fn = true) →
        v < 2 ^ 32 →
        off % 4 = 0 →
        0x200 ≤ off →
        off < (if fn = 0 then 0x10000 else 0x1000) →
        tget (s.fn fn).doorbells ((off - 0x200) / 4) = some d →
        dbHeard s fn = true →
        ringView s d.target = some (false, count, entries) →
        consOk v count entries = true →
        exec (.ringConsumerDoorbell fn off 4 v) s = .next (ringKick (ringSet (s.onFn fn (fun f => { f with doorbells := tmod f.doorbells ((off - 0x200) / 4) (fun d => { d with last := v }) })) d.target v) d.target))
    ∧ (∀ (fn : Nat) (k : Nat) (v : Nat) (n : Nat) (b : BindCfg),
        let ev : Event := {
            kind := 5
            binding := 64 * partOf fn + n
            session := 0
            epoch := epochAt s (partOf fn) 129
            words := [word (kindWord 5 + k % 64), word (tenantOf fn), 0, word v, 0]
            payload := []
            source := k % 64 };
        ingress s = true →
        fn ≠ 0 →
        vfExists s fn = true →
        v < 2 ^ 32 →
        dbHeard s fn = true →
        tget (cfgAt s (partOf fn) 129).acts.doorbells (64 * partOf fn + k % 64) = some n →
        tget (cfgAt s (partOf fn) 129).acts.bindings (64 * partOf fn + n) = some b →
        (b.tenant = 0 ∨ b.tenant = tenantOf fn) →
        exec (.actDoorbellWrite fn k 4 v) s = .next ((putAct (s.onFn fn (fun f => { f with actLast := tset f.actLast (k % 64) v })) (partOf fn) ev).2))
    ∧ (∀ (fn : Nat) (off : Nat) (v : Nat) (d : Doorbell) (w : Nat) (up : Bool),
        ingress s = true →
        (fn = 0 ∨ vfExists s fn = true) →
        v < 2 ^ 32 →
        off % 4 = 0 →
        0x200 ≤ off →
        off < (if fn = 0 then 0x10000 else 0x1000) →
        tget (s.fn fn).doorbells ((off - 0x200) / 4) = some d →
        dbHeard s fn = true →
        d.target = (if up then .parleyOfTenant else .parleyOfManager w) →
        (up = true → w = fn) →
        exec (.parleyDoorbell fn off 4 v) s = .next ((parleyWrite s w up v).onFn fn (fun f => { f with doorbells := tmod f.doorbells ((off - 0x200) / 4) (fun d => { d with last := v }) })))
    ∧ (∀ (vf : Nat) (up : Bool),
        (parleyOf s vf up).running = true →
        exec (.parleyIntervalEnd vf up) s = .next (match (parleyOf s vf up).pending with
          | some v => onParley (parleyRecord s vf up v) vf up (fun p => { p with pending := none })
          | none => onParley s vf up (fun p => { p with running := false })))

/-- The rows of the host port take place as the rules say that each meaning of the model names (among them 16 R425, 16 R429, 16 R434, 16 R439, 16 R440, 16 R448, 16 R449, 16 R451, 16 R453, 16 R454, 16 R455, 22 R591). -/
def Obligations.HostPortEvents : Prop :=
  ∀ (s : State),
    (∀ (fn : Nat) (off : Nat) (len : Nat) (r : Bar0),
        ingress s = true →
        fnExists s fn = true →
        bar0At fn off len = some r →
        exec (.hostBar0Access fn off (.read len)) s = .next (s.send (.hostAnswer fn (.data ((List.range len).map (bar0Byte s fn r off))))))
    ∧ (∀ (fn : Nat) (off : Nat) (d : List Byte),
        ingress s = true →
        fnExists s fn = true →
        bar0At fn off d.length = some .doorbells →
        exec (.hostBar0Access fn off (.write d false)) s = .next (doorbellWrite s fn off d.length (ofLe d)))
    ∧ (∀ (fn : Nat) (off : Nat) (d : List Byte) (o : Nat),
        ingress s = true →
        fnExists s fn = true →
        bar0At fn off d.length = some (.table o) →
        (s.fn fn).flr = false →
        exec (.hostBar0Access fn off (.write d false)) s = .next (msixTable s fn o d))
    ∧ (∀ (fn : Nat) (off : Nat) (len : Nat),
        ingress s = true →
        fnExists s fn = true →
        (let r : Status × List Byte × State := (pieces (len + 1) off len).foldl (fun acc pc =>
          if acc.1 != .ok then acc
          else let x := bar2ReadPiece acc.2.2 fn pc.1 pc.2; (x.1, acc.2.1 ++ x.2.1, x.2.2)) (.ok, [], s); r.1) = .ok →
        exec (.hostBar2Access fn off (.read len)) s = (let r : Status × List Byte × State := (pieces (len + 1) off len).foldl (fun acc pc =>
          if acc.1 != .ok then acc
          else let x := bar2ReadPiece acc.2.2 fn pc.1 pc.2; (x.1, acc.2.1 ++ x.2.1, x.2.2)) (.ok, [], s);
          .next (r.2.2.send (.hostAnswer fn (.data r.2.1)))))
    ∧ (∀ (fn : Nat) (off : Nat) (d : List Byte),
        let r : Status × State := (pieces (d.length + 1) off d.length).foldl (fun acc pc =>
          if acc.1 != .ok then acc else bar2WritePiece acc.2 fn pc.1 ((d.drop (pc.1 - off)).take pc.2)) (.ok, s);
        ingress s = true →
        fnExists s fn = true →
        r.1 = .ok →
        exec (.hostBar2Access fn off (.write d false)) s = .next (r.2))
    ∧ (∀ (fn : Nat) (off : Nat) (d : List Byte),
        ingress s = true →
        fnExists s fn = true →
        (s.fn fn).flr = false →
        off + d.length ≤ 16 * vectorsOf fn →
        exec (.msixTableWrite fn (.table off d)) s = .next (msixTable s fn off d))
    ∧ (∀ (fn : Nat) (enable mask : Bool),
        ingress s = true →
        fnExists s fn = true →
        (s.fn fn).flr = false →
        exec (.msixTableWrite fn (.control enable mask)) s = .next (msixFlush (s.onFn fn (fun f => { f with msixEnable := enable, fnMask := mask })) fn))
    ∧ (∀ (fn : Nat) (v : Nat),
        (tgetD (s.fn fn).msix v {}).held = true →
        exec (.msixHoldoffEnd fn v) s = .next (msixRelease (s.onFn fn (fun f => { f with msix := tupd f.msix v {} (fun e =>
          { e with held := false, raised := false, pending := e.pending || e.raised }) })) fn v))
    ∧ (∀ (enable : Bool) (n : Nat),
        ingress s = true →
        (s.host.vfEnable = false ∨ enable = false) →
        exec (.vfEnableChange enable n) s = .next ((((List.range 1008).map (· + 1)).filter (vfExists s)).foldl (fun s vf => flrStart s vf true)
          (s.onHost (fun h => { h with vfEnable := enable, numVfs := min n 1008 }))))
    ∧ (∀ (vf : Nat),
        ingress s = true →
        vfExists s vf = true →
        (s.fn vf).flr = false →
        exec (.functionLevelReset vf) s = .next (flrStart s vf false))
    ∧ (∀ (vf : Nat) (d : Detach),
        let e : State := { s with detaches := s.detaches.filter (fun x => x != d) };
        let t := raiseEvent (e.onFn vf (fun f => { f with flr := false })) 0 0x0015 (partOf vf) (tenantOf vf) (le 2 vf);
        s.detaches.find? (fun d => d.vf == vf && d.flr && d.stage == .ready) = some d →
        d.removed = false →
        exec (.flrReady vf) s = .next (closeAdvance (shareUpdate t vf)))
    ∧ (∀ (vf : Nat) (d : Detach),
        let e : State := { s with detaches := s.detaches.filter (fun x => x != d) };
        let t := (raiseEvent (e.onFn vf (fun f => { f with flr := false })) 0 0x0015 (partOf vf) (tenantOf vf) (le 2 vf)).onFn vf (fun f => { f with detaching := true });
        s.detaches.find? (fun d => d.vf == vf && d.flr && d.stage == .ready) = some d →
        d.removed = true →
        exec (.flrReady vf) s = .next (closeAdvance { t with detaches := t.detaches ++ [{ vf := vf, flr := false, removed := true, cmd := none, stage := .commit }] }))
    ∧ (let e := releasePosts ((readsDrop s (fun r => r.fn == 0)).onHost (fun h => { h with
          heldPosts := h.heldPosts.filter (fun p => p.fn != 0)
          atc := h.atc.filter (fun e => e.fn != 0) }));
        let b := boothStop e 0;
        ingress s = true →
        exec (.managerFlr) s = .next (fnReset ((b.press.jobs.map (·.1)).foldl pressCancel b) 0))
    ∧ (∀ (fn : Nat) (d3 : Bool),
        ingress s = true →
        fnExists s fn = true →
        (s.fn fn).flr = false →
        (s.fn fn).d3 ≠ d3 →
        exec (.dStateChange fn d3) s = .next (if d3 then s.onFn fn (fun f => { f with d3 := true }) else backToD0 s fn))
    ∧ (∀ (fn : Nat) (tag : Nat) (d : List Byte) (r : HostRd),
        s.host.reads.find? (fun r => r.tag == tag) = some r →
        exec (.hostReadCompletion fn tag (.data d)) s = .next (readDone (readTake s tag) r.use (some (fit r.len d))))
    ∧ (∀ (tag : Nat) (r : HostRd),
        let e := (readTake s tag).onHost (fun h => { h with deadTags := h.deadTags ++ [tag] });
        s.host.reads.find? (fun r => r.tag == tag) = some r →
        exec (.hostDmaTimeout tag) s = .next (readDone (hostAbortCount (aerLog e r.fn .completionTimeout)) r.use none))
    ∧ (∀ (fn : Nat) (pasid : Option Nat) (addr : Nat) (base size : Nat) (read write : Bool),
        let e := atcPut s { fn := fn, pasid := pasid, base := base, size := size, read := read, write := write };
        (s.host.heldPosts.any (fun p => p.msix.isNone && p.fn == fn && p.pasid == pasid && p.addr == addr)
          || s.host.heldReads.any (fun r => r.fn == fn && r.pasid == pasid && r.addr == addr)) = true →
        exec (.translationCompletion fn pasid addr (.page base size read write)) s = .next (releaseReads (releasePosts (transRefuse e fn pasid (fun a => base ≤ a && a < base + size)))))
    ∧ (∀ (fn : Nat) (pasid : Option Nat) (base : Nat) (size : Nat) (tag : Nat),
        let hit := fun (e : AtcEntry) => e.fn == fn && e.pasid == pasid && e.base < base + size && base < e.base + e.size;
        let used := fun (f : Nat) (ps : Option Nat) (a : Nat) => (s.host.atc.filter hit).any (fun e => e.fn == f && e.pasid == ps && e.base ≤ a && a < e.base + e.size);
        let waits := (s.host.reads.filter (fun r => used r.fn r.pasid r.addr)).map (·.tag);
        let e := (s.host.heldPosts.filter (fun p => p.msix.isNone && used p.fn p.pasid p.addr)).foldl
          (fun s p => s.send (.translationRequest p.fn p.pasid p.addr)) (s.onHost (fun h => { h with atc := h.atc.filter (fun e => !hit e) }));
        ingress s = true →
        s.host.invals.length < 32 →
        exec (.invalidateRequest fn pasid base size tag) s = .next (if waits.isEmpty then e.send (.invalidateCompletion tag)
          else e.onHost (fun h => { h with invals := h.invals ++ [{ tag := tag, waits := waits }] })))
    ∧ (∀ (rate : Nat) (width : Nat),
        let e := s.onHost (fun h => { h with linkUp := true, linkRate := rate, linkWidth := width, deadTags := [] });
        s.power.vmain = true →
        s.power.shutdown = false →
        exec (.hostLinkUp rate width) s = .next (if rate < 5 || width < 8 then raiseEvent e 0 0x0013 0 0 (le 1 rate ++ le 1 width) else e))
    ∧ (∀ (down : Bool),
        exec (.hostLinkFatal down) s = .next (if down then warmReset ((aerLog s 0 .fatal).onHost (fun h => { h with linkUp := false })) else aerLog s 0 .fatal))

/-- The rows of Midway, the ledgers and the epochs take place as the rules say that each meaning of the model names (among them 02 R40, 02 R46, 02 R48, 02 R59, 03 R82, 03 R84, 03 R86, 03 R90, 04 R113, 07 R200, 17 R467, 17 R477). -/
def Obligations.MidwayAndEpochEvents : Prop :=
  ∀ (s : State),
    (∀ (t : Nat) (rs : List MwReq) (hd : MwHead),
        let a := s.onTarget t (fun g => mwLatch t { g with slot := if s.fixedMode then (g.slot + 1) % 17 else g.slot } rs);
        t ≤ 21 →
        mwChoose a t ((tgetD a.mem.targets t {}).heads.filter (mwEligible a (tgetD a.mem.targets t {}) (tgetD a.mem.targets t {}).slot)) = some hd →
        exec (.midwayGrant t rs) s = .next (mwGranted (a.onTarget t (fun g => { g with
          heads := (g.heads.filter (fun x => x.req.master != hd.req.master)).map
            (fun x => if !s.fixedMode || mwSlot x.req == mwSlot hd.req then { x with others := x.others + 1 } else x) })) t hd.req))
    ∧ (∀ (t : Nat) (l : MwLock),
        (tgetD s.mem.targets t {}).lock = some l →
        exec (.lockWatchdog t) s = .next (lockBreak s t l.master l.addr false))
    ∧ (∀ (a : Nat) (corrected : Bool) (uncorrectable : Bool),
        let u := (unitAt a).1;
        protectedMem a = true →
        s.power.vmain = true →
        s.power.st ≠ .faulted →
        exec (.patrolScrub a corrected uncorrectable) s = .next (if uncorrectable || s.mem.bad.contains u then memError (s.onMem (fun m => { m with bad := if m.bad.contains u then m.bad else m.bad ++ [u] })) u
          else if corrected then correctedCount s a else s))
    ∧ (∀ (receiver : Nat) (sender : Nat) (traffic : Nat) (i : Nat) (freed : Nat) (returned : Nat),
        let k := chanKey receiver sender traffic i;
        let c := tgetD s.chans k {};
        let a := { c with freed := modAdd 16 c.freed (min freed (chanOccupied c)) };
        let b := { a with freedSeen := modAdd 16 a.freedSeen (min returned (modSub 16 a.freed a.freedSeen)) };
        quarantined s sender = false →
        quarantined s receiver = false →
        exec (.handshakeTransfer receiver sender traffic i freed returned) s = .next ({ s with chans := tset s.chans k (if chanHeld k b == 0 then b else { b with launched := modAdd 16 b.launched 1, accepted := modAdd 16 b.accepted 1 }) }))
    ∧ (∀ (kind : Nat) (island : Nat) (index : Nat) (held : Nat) (inUse : Nat) (a : Audit),
        let mine := fun (r : AuditRun) => r.kind == kind && r.island == island && r.index == index;
        let run := match s.audits.find? mine with | some r => r.run | none => 0;
        let v := verdict kind held inUse a.total a.slack;
        let without : State := { s with audits := s.audits.filter (fun r => !mine r) };
        let latch := fun (n : Nat) => { without with audits := without.audits ++
          [{ kind := kind, island := island, index := index, run := n, held := held, inUse := inUse, total := a.total }] };
        (auditsNamed s kind index).find? (fun a => a.island == island && a.index == index) = some a →
        auditIgnored s kind island index = false →
        exec (.ledgerAuditSample kind island index held inUse) s = .next (if v < 2 then without else if run + 1 < 12 then latch (run + 1) else ledgerFault (latch 0) kind island index held inUse a.total))
    ∧ (∀ (p : Nat) (i : Nat),
        (s.part p).remaining.contains i = true →
        quarantined s i = false →
        (i < 128 → (tgetD s.acts.tumblers i {}).run = none) →
        exec (.epochAdopt p i) s = .next (closeAdvance (releaseDeferred (islandAdopt (leaveSet s p i) p i))))
    ∧ (∀ (p : Nat) (e : Nat × Cfg),
        (s.part p).old = some e →
        (s.part p).remaining = [] →
        oldWork s p e.1 = false →
        exec (.epochRetire p) s = .next (closeAdvance (retirePart s p)))
    ∧ (exec (.resizeScrubDone) s = .next (closeAdvance (resizeScrubbed s)))
    ∧ (∀ (slot : Nat) (k : KeySlot),
        tget s.cipher.slots slot = some k →
        k.state = .zeroising →
        exec (.keySlotScrubComplete slot) s = .next (s.onCipher (fun c => { c with slots := tdel c.slots slot })))
    ∧ (∀ (c : Nat) (u : CellUse),
        tget s.mem.cells c = some u →
        u.released = true →
        exec (.freeListTakesCell c) s = .next (s.onMem (fun m => { m with cells := tdel m.cells c })))
    ∧ (∀ (vf : Nat),
        shareStale s vf = true →
        (s.fn vf).ssUpdatedAt + 100000 ≤ s.clock.cadence →
        exec (.shareStatusUpdate vf) s = .next (shareUpdate s vf))

/-- The rows of the network ports take place as the rules say that each meaning of the model names (among them 04 R102, 05 R123, 05 R124, 05 R128, 05 R132, 05 R133, 05 R134, 05 R136, 05 R137, 05 R140, 05 R146, 05 R147). -/
def Obligations.NetworkEvents : Prop :=
  ∀ (s : State),
    (∀ (lport : Nat) (d : List Byte) (corrected : Nat) (part : Nat) (dest : RxDest) (meter : Option Nat),
        let e := if corrected == 0 then s else rindMinute s (14 + lport / 8) corrected;
        let a := (ingressMark e (lport / 8) (d.length + 4)).onLPort lport (fun x => { x with
            rxFrames := modAdd 64 x.rxFrames 1
            rxOctets := modAdd 64 x.rxOctets (d.length + 4) });
        let m := match meter with
          | some k => meterFrame a k (d.length + 4) (tagged d && bit (tciOf d) 12)
          | none => (3, 0, none, a);
        ingress s = true →
        lportExists (portCfg s (lport / 8)) lport = true →
        (lportOf s lport).up = true →
        quarantined s (130 + lport / 8) = false →
        64 ≤ d.length + 4 →
        d.length + 4 ≤ (lportCfg (portCfg s (lport / 8)) lport).maxFrame →
        macControl d = none →
        macAccepts (lportCfg (portCfg s (lport / 8)) lport) d = true →
        tget (lportCfg (portCfg s (lport / 8)) lport).vlan (if tagged d then tciOf d % 4096 else (lportCfg (portCfg s (lport / 8)) lport).defaultVid) = some part →
        classify a (cfgAt a part (130 + lport / 8)) part lport d (parseFrame d) = .inr (dest, meter) →
        m.2.1 ≠ 2 →
        exec (.rxFrame lport d true true corrected) s = .next (rxSteer m.2.2.2 {
          lport := lport
          prio := prioOf d
          part := part
          epoch := epochAt a part (130 + lport / 8)
          dest := dest
          colour := m.1
          data := if m.2.1 == 1 then (match m.2.2.1 with | some g => remark d g.dscp | none => d) else d
          time := a.clock.now
          since := a.clock.now }))
    ∧ (∀ (lport : Nat) (quanta : List (Nat × Nat)),
        lportExists (portCfg s (lport / 8)) lport = true →
        (lportOf s lport).up = true →
        exec (.rxPfcFrame lport quanta) s = .next (quanta.foldl (fun s q => pauseRx s lport q.1 q.2) s))
    ∧ (∀ (lport : Nat) (prio : Nat),
        exec (.pfcPauseExpire lport prio) s = .next (s.onLPort lport (fun l => { l with pfc := tmod l.pfc prio (fun p => { p with paused := false }) })))
    ∧ (∀ (lport : Nat) (prio : Nat),
        (tgetD (lportOf s lport).pfc prio {}).sent = true →
        exec (.pfcRefresh lport prio) s = .next (pfcSend s lport prio true))
    ∧ (∀ (lport : Nat) (prio : Nat),
        (tgetD (lportOf s lport).pfc prio {}).paused = true →
        exec (.pauseWatchdog lport prio) s = .next (rindCount (raiseEvent (s.onLPort lport (fun l => { l with pfc := tmod l.pfc prio (fun p => { p with paused := false, ignored := true }) })) 0 0x0008 0 0 [byteOf lport, byteOf prio]) 0x1B))
    ∧ (∀ (lport : Nat) (prio : Nat),
        exec (.pauseQuietExpire lport prio) s = .next (s.onLPort lport (fun l => { l with pfc := tmod l.pfc prio (fun p => { p with ignored := false }) })))
    ∧ (∀ (lport : Nat) (prio : Nat) (f : Held) (t u : State),
        heldFirst s lport prio = some (f, t) →
        rxHand t f = some u →
        exec (.rxHoldRelease lport prio) s = .next (pfcXon u lport prio))
    ∧ (∀ (lport : Nat) (prio : Nat) (f : Held) (t : State),
        heldFirst s lport prio = some (f, t) →
        exec (.rxHoldMaxExpire lport prio) s = .next (pfcXon (dropCount t lport 10) lport prio))
    ∧ (∀ (lport : Nat) (cls : Nat) (deficits : Tbl Nat) (cls2 q : Nat) (qd : List (Nat × Nat)) (spare : Bool) (k : TxqCfg),
        let c := portCfg s (lport / 8);
        let lp := lportOf s lport;
        let t := (portQueues s lport).foldl (fun s e => flushNever s c e.1 e.2.1 e.2.2.frames.length) s;
        let qs := (portQueues t lport).filter (fun e => candidate t c e.2.1 e.2.2);
        let picks := (List.range 8).filterMap (fun k => (pickQueue lp k qs).map (fun r => (k, r)));
        let weights := (lportCfg c lport).classes;
        let strict := (picks.filter (fun x => listGet weights x.1 1 == 0)).getLast?;
        let lenOf := fun (q : Nat) => match qs.find? (fun e => e.1 == q) with
            | some e => (match e.2.2.frames with | f :: _ => f.data.length + 4 | [] => 0)
            | none => 0;
        let choice : Option (Nat × Tbl Nat) := match strict with
            | some x => some (x.1, lp.classDeficit)
            | none => drrPick (picks.map (fun x => (x.1, listGet weights x.1 1 * 64, lenOf x.2.1))) lp.classNext lp.classDeficit;
        let u := t.onLPort lport (fun l => { l with
            classDeficit := deficits
            classNext := if strict.isSome then l.classNext else cls
            drrNext := tset l.drrNext (if spare then cls + 8 else cls) q });
        (lportOf s lport).up = true →
        (lportOf s lport).wire = none →
        lportExists c lport = true →
        choice = some (cls, deficits) →
        picks.find? (fun x => x.1 == cls) = some (cls2, q, qd, spare) →
        txqCfg t q = some k →
        exec (.carouselSelect lport) s = .next (txDrain (grantFrame (qd.foldl (fun s e => s.onTxq e.1 (fun x => { x with deficit := e.2 })) u) q k) q 8192))
    ∧ (∀ (lport : Nat) (time : Nat) (w : OnWire),
        (lportOf s lport).wire = some w →
        exec (.txFrameEnd lport time) s = .next (txComplete (s.onLPort lport (fun l => { l with
          wire := none
          txFrames := modAdd 64 l.txFrames 1
          txOctets := modAdd 64 l.txOctets (w.frame.data.length + 4) })) w.queue w.frame.use true 0 time))
    ∧ (∀ (lport : Nat),
        exec (.linkDown lport) s = .next (linkDown s lport))
    ∧ (∀ (lport : Nat),
        ingress s = true →
        lportExists (portCfg s (lport / 8)) lport = true →
        s.clock.eref = true →
        quarantined s (130 + lport / 8) = false →
        exec (.linkUp lport) s = .next (linkUp s lport))
    ∧ (∀ (port : Nat),
        let e := s.onNet (fun n => { n with carTurn := tupd n.carTurn port 0 (fun t => modAdd 48 t 1) });
        ((tget s.net.gclActive port).isSome ∨ (tget s.net.gclPending port).isSome) →
        s.parts.any (fun e => e.2.remaining.contains (130 + port)) = false →
        exec (.gclCycleStart port) s = .next (match tget s.net.gclPending port with
          | some g => e.onNet (fun n => { n with
              gclPending := tdel n.gclPending port
              gclActive := match g with | some x => tset n.gclActive port x | none => tdel n.gclActive port })
          | none => e))
    ∧ (exec (.bucketTick) s = .next (s.onNet (fun n => { n with
          meters := tmap n.meters (fun _ m => meterTick m)
          txqs := tmap n.txqs (fun _ q => { q with bucket := bucketTick q.bucket })
          classBuckets := tmap n.classBuckets (fun _ b => bucketTick b) })))
    ∧ (∀ (q : Nat) (m : Sampler) (c : TxqCfg) (x : Txq),
        let a := s.onNet (fun n => { n with samplers := tmod n.samplers q (fun m => { m with seq := modAdd 32 m.seq 1 }) });
        let delay := match x.frames with | f :: _ => min (s.clock.now - f.enqueued) 0xFFFFFFFF | [] => 0;
        let neg := fun (b : Bucket) => b.cur.rate != 0xFFFFFFFF && decide (b.tokens < 0);
        let flags := b2n (gateOpen s c.lport c.cls) + 2 * b2n (tgetD (lportOf s c.lport).pfc c.cls {}).paused + 4 * b2n (neg x.bucket || neg (classBucket s c.lport c.cls)) + 8 * b2n (!(lportOf s c.lport).up);
        let rcd := le 9 q ++ [byteOf flags] ++ le 2 (min x.frames.length 65535) ++ le 4 (txDepth x) ++ le 4 delay ++ le 4 m.seq ++ le 8 s.clock.now;
        tget s.net.samplers q = some m →
        txqCfg s q = some c →
        tget s.net.txqs q = some x →
        modSub 32 m.prod m.cons < 2 ^ m.log2 →
        exec (.queueSampleTick q) s = .next (msixRaise ((hostPost a m.fn none (m.base + 32 * (m.prod % 2 ^ m.log2)) rcd).onNet (fun n => { n with samplers := tmod n.samplers q (fun m => { m with prod := modAdd 32 m.prod 1 }) })) m.fn m.vector))

/-- The rows of the Cipher Hall, the sessions and the ports of requests take place as the rules say that each meaning of the model names (among them 06 R158, 06 R165, 06 R167, 06 R170, 06 R172, 06 R178, 06 R179, 06 R180, 07 R205, 07 R206, 07 R207, 08 R235). -/
def Obligations.CipherAndSessionEvents : Prop :=
  ∀ (s : State),
    (∀ (p : Nat) (k : Nat) (x : VhPkt),
        tfind s.cipher.pkts (fun _ x => x.part == p && x.state == .intake) = some (k, x) →
        usedOf s p none 6 + x.granules ≤ limitOf s p 6 →
        quarantined s 139 = false →
        exec (.cipherIntake p) s = .next (s.onCipher (fun c => { c with pkts := tmod c.pkts k (fun y => { y with state := .decrypting }) })))
    ∧ (∀ (k : Nat) (x : VhPkt) (c : SessCfg) (key : KeySlot),
        let nonce := srtpNonce key (ofBe ((x.aad.drop 8).take 4)) x.index;
        let r := sessFinal s x.session c x.index x.aad (fit (x.body.length - tagLen key.alg) (Config.aeadOpen key.alg key.material nonce x.aad x.body));
        tget s.cipher.pkts k = some x →
        s.cipher.pkts.any (fun e => e.1 < k && e.2.session == x.session && (e.2.state == .intake || e.2.state == .decrypting)) = false →
        x.state = .decrypting →
        tget (cfgOf s x.part x.epoch).sess.sessions x.session = some c →
        tget s.cipher.slots c.blk.keyRx = some key →
        exec (.tagVerify k) s = .next (if Config.tagOk key.alg key.material nonce x.aad x.body then
            r.2.onCipher (fun z => { z with pkts := tmod z.pkts k (fun y => { y with state := if r.1 then .releasing else .scrubbing }) })
          else (authFail s x.session c).onCipher (fun z => { z with pkts := tmod z.pkts k (fun y => { y with state := .scrubbing }) })))
    ∧ (∀ (k : Nat) (x : VhPkt),
        tget s.cipher.pkts k = some x →
        x.state = .releasing →
        exec (.releaseComplete k) s = .next (s.onCipher (fun c => { c with pkts := tdel c.pkts k })))
    ∧ (∀ (k : Nat) (x : VhPkt),
        tget s.cipher.pkts k = some x →
        x.state = .scrubbing →
        exec (.granuleScrubDone k) s = .next (s.onCipher (fun c => { c with pkts := tdel c.pkts k })))
    ∧ (∀ (n : Nat) (x y : Sess) (c : SessCfg),
        let m := match x.shift with
            | some neg => s.onSession n (fun x => { x with shift := none, shifted := if neg then x.shifted - 1 else x.shifted + 1 })
            | none => s;
        let e := x.due + (x.delay - c.blk.delay);
        let a := (dropLate m n c.blk x.due (x.delay - c.blk.delay)).onSession n (fun y => { y with due := e, delay := c.blk.delay });
        let here := match tget y.slots (e % c.blk.depth) with | some g => if g.frame == e then some g else none | none => none;
        let ahead := tcount y.slots (fun _ g => e < g.frame);
        let read : Status × List Byte × State := match here with
            | some g => memLoad a (slotAddr y c.blk (e % c.blk.depth)) g.len
            | none => (.ok, [], a);
        let held := if read.1 == .ok then here else none;
        let free := draw read.2.2;
        let t := if held.isSome then read.2.2 else free.2;
        let g := held.getD { frame := e, marker := bit free.1 60, pt := field free.1 50 7, index := free.1 % 2 ^ 48, len := 0 };
        let words := [word (kindWord 1 + b2n g.marker * 2 ^ 20 + b2n held.isSome * 2 ^ 18 + n), word (g.index / 2 ^ 24),
            word (g.pt * 2 ^ 24 + g.index % 2 ^ 24), word t.clock.now, word (ahead * 2 ^ 18 + g.len)];
        tget s.sess.sess n = some x →
        sessCfg s n = some c →
        x.anchor.isSome = true →
        quarantined s 138 = false →
        c.blk.delay ≤ x.delay →
        tget a.sess.sess n = some y →
        exec (.frameTick n) s = .next ((if held.isNone && c.blk.suppress && 8 ≤ y.missing then t
          else (putAct t c.part { kind := 1, binding := sessBinding c, session := n, epoch := epochAt t c.part 138
                                  words := words, payload := read.2.1, source := 0 }).2).onSession n (fun x => { x with
          slots := tdel x.slots (e % c.blk.depth)
          due := e + 1
          missing := if held.isSome then 0 else x.missing + 1 })))
    ∧ (∀ (r : PortReq) (c : SessCfg) (x : Sess),
        let n := reqWord r 0 % 65536;
        let cfg := cfgOf s r.part r.epoch;
        let s0 := takeReq s r;
        let troupe := r.tumbler / 8;
        let addr := field (reqWord r 1) 0 30;
        let len := field (reqWord r 2) 0 16;
        let extra := 12 + profileTag c.blk.profile + 8 + (if c.blk.ipVersion == 4 then 20 else 40) + (if c.blk.tci == 0 then 14 else 18);
        let ts := if bit (reqWord r 0) 19 then reqWord r 3 % 2 ^ 32 else x.outTs;
        let hdr := [byteOf 0x80, byteOf (b2n (bit (reqWord r 0) 20) * 128 + c.blk.ptOut % 128)] ++ be 2 (x.outIndex % 65536) ++ be 4 ts ++ be 4 c.blk.ssrcOut;
        let pay := troupeOctets s troupe addr len;
        let body := match c.blk.profile, tget s.cipher.slots c.blk.keyTx with
            | 0, _ => pay
            | _, some key => fit (len + profileTag c.blk.profile) (Config.aeadSeal key.alg key.material (srtpNonce key c.blk.ssrcOut x.outIndex) hdr pay)
            | _, none => pay;
        let macs := drawBytes s0 12;
        let f := etherFrame macs.1 c.blk.tci c.blk.ipVersion (ipUdp c.blk.ipVersion c.blk.localAddr c.blk.remoteAddr c.blk.localPort c.blk.remotePort 0 0 (hdr ++ body));
        headReq s 0 = some r →
        reqOp r = 1 →
        quarantined s 138 = false →
        (field (reqWord r 0) 21 6 != 0 || field (reqWord r 0) 16 3 != 0 || reqWord r 1 / 2 ^ 30 != 0 || reqWord r 2 / 2 ^ 16 != 0 || reqWord r 3 / 2 ^ 32 != 0) = false →
        tget cfg.sess.sessions n = some c →
        tget s.sess.sess n = some x →
        seesTenant r c.part c.tenant = true →
        txFull s c.blk.txq = false →
        (decide (1048576 < addr + ceilDiv len 4) || !(List.range (ceilDiv len 4)).all (fun i => troupeOwned s cfg r.part r.tenant troupe (addr + i))) = false →
        len + extra + 4 ≤ (lportCfg cfg c.blk.lport).maxFrame →
        x.outIndex < 2 ^ 48 - 1 →
        exec (.sendRequest) s = .next (reply (((sessCount (txEnqueue macs.2 c.blk.txq (.session n) f) n 1)).onSession n (fun y => { y with outIndex := x.outIndex + 1, outTs := (ts + c.blk.spf) % 2 ^ 32 })) r.reply 0 0 0 0))
    ∧ (∀ (r : PortReq) (c : SessCfg) (x : Sess),
        headReq s 0 = some r →
        reqOp r = 2 →
        quarantined s 138 = false →
        (field (reqWord r 0) 16 11 != 0 || reqWord r 1 != 0 || reqWord r 2 / 2 != 0 || reqWord r 3 != 0) = false →
        tget (cfgOf s r.part r.epoch).sess.sessions (reqWord r 0 % 65536) = some c →
        tget s.sess.sess (reqWord r 0 % 65536) = some x →
        seesTenant r c.part c.tenant = true →
        x.shift = none →
        exec (.shiftRequest) s = .next (reply ((takeReq s r).onSession (reqWord r 0 % 65536) (fun x => { x with shift := some (bit (reqWord r 2) 0) })) r.reply 0 0 0 0))
    ∧ (∀ (r : PortReq) (c : FeedCfg) (f : Feed) (off used : Nat),
        let w0 := reqWord r 0;
        let session := field (reqWord r 2) 0 16;
        let ring := field (reqWord r 6) 0 12;
        let cfg := cfgOf s r.part r.epoch;
        let d := dims (reqWord r 3);
        let e := dims (reqWord r 4);
        let bytes := tensorBytes (field w0 21 3) (field w0 0 18);
        let cons := readCount (takeReq s r) c.bind.control;
        let x := feedSource cons.2.2 r cfg (field w0 24 3) (field w0 0 18);
        let k := signed 8 (field (reqWord r 2) 16 8);
        let t := convTensor (field w0 21 3) (bit w0 19) (bit w0 20) (x.2.1.map (fun v => (scaleFV v.1 k, v.2))) (genOf x.2.2 session r.part);
        let a := genPut x.2.2 session r.part t.2.gen;
        let entry := le 2 (1 - f.res / 2 ^ c.bind.log2 % 2) ++ zeros 16 ++ le 2 r.epoch ++ [byteOf (field w0 21 3), byteOf (field (reqWord r 2) 16 8)]
                      ++ le 2 session ++ le 4 off ++ le 4 bytes ++ le 4 (field w0 0 18) ++ le 2 d.1 ++ le 2 d.2 ++ le 2 e.1 ++ le 2 e.2
                      ++ le 4 (reqWord r 5 % 2 ^ 32) ++ le 6 r.index ++ le 2 0 ++ le 8 a.clock.now;
        let res : FeedRes := { count := f.res, reply := r.reply, dataOff := off, used := used, bytes := bytes, entry := entry, tumbler := r.tumbler, tag := reqWord r 5 % 2 ^ 32, beyond := t.2.beyond, nans := t.2.nans, epoch := r.epoch, part := r.part };
        let b := onFeed a ring (fun g => { g with
            res := modAdd 32 g.res 1
            inflight := g.inflight ++ [res]
            spans := liveSpans g cons.2.1 ++ [(g.res, off, used)]
            ptr := (off + ceilDiv bytes 64 * 64) % dataArea c.bind });
        let wr := storeAll b 11 { part := r.part, tenant := r.tenant, priv := false, cfg := cfg } (.feedData ring f.res) (c.bind.dataArea + off) t.1;
        headReq s 1 = some r →
        reqOp r = 1 →
        quarantined s 138 = false →
        formatBitsOk r = true →
        tget cfg.sess.feeds ring = some c →
        tget s.sess.feeds ring = some f →
        seesTenant r c.part c.tenant = true →
        sessionOk r cfg session = true →
        (field w0 24 3 == 7 && !bit w0 18) = false →
        field w0 0 18 ≠ 0 →
        d.1 * d.2 * e.1 * e.2 = field w0 0 18 →
        f.error = false →
        bytes ≤ dataArea c.bind →
        cons.1 = .ok →
        modSub 32 f.prod cons.2.1 ≤ 2 ^ c.bind.log2 →
        modSub 32 f.res cons.2.1 < 2 ^ c.bind.log2 →
        allocSpan f (dataArea c.bind) cons.2.1 bytes = some (off, used) →
        x.1 = .ok →
        wr.1 = .ok →
        exec (.feedRequest) s = .next (wr.2.2.1))
    ∧ (∀ (ring : Nat) (f : Feed) (r : FeedRes) (rest : List FeedRes) (c : FeedCfg),
        let x := storeOne s 11 { part := r.part, tenant := c.tenant, priv := false, cfg := cfgOf s r.part r.epoch } (c.bind.entryArray + 64 * (r.count % 2 ^ c.bind.log2)) r.entry (.feedEntry ring r.count);
        tget s.sess.feeds ring = some f →
        f.inflight = r :: rest →
        tget (cfgOf s r.part r.epoch).sess.feeds ring = some c →
        quarantined s 138 = false →
        x.1 = .ok →
        exec (.feedEntryWrite ring) s = .next (reply (writeCount (onFeed x.2.1 ring (fun g => { g with inflight := rest, prod := modAdd 32 r.count 1 })) (c.bind.control + 4) (modAdd 32 r.count 1)) r.reply 0 r.tag r.beyond r.nans))
    ∧ (∀ (entry : List Byte) (data : List Byte) (r : PortReq) (c : FeedCfg) (f : Ret) (e0 : State),
        let w0 := reqWord r 0;
        let dst := field w0 21 3;
        let count := field w0 0 18;
        let session := field (reqWord r 2) 0 16;
        let cfg := cfgOf s r.part r.epoch;
        let w : Actor := { part := r.part, tenant := r.tenant, priv := false, cfg := cfg };
        let en := loadAll e0 11 w (c.bind.entryArray + 64 * (reqWord r 7 % 2 ^ c.bind.log2)) 64 entry;
        let e := en.2.2.1;
        let at_ := fun (o n : Nat) => ofLe ((e.drop o).take n);
        let fmt := at_ 20 1;
        let off := at_ 24 4;
        let bytes := at_ 28 4;
        let troupe := r.tumbler / 8;
        let addr := field (reqWord r 1) 0 30;
        let k := troupeWords dst count;
        let x := loadAll en.2.2.2 11 w (c.bind.dataArea + off) bytes data;
        let sc := signed 8 (field (reqWord r 2) 16 8);
        let t := convElems dst (bit w0 19) (bit w0 20) ((readTensor fmt count x.2.2.1).map (fun v => (scaleFV v.1 sc, v.2))) (genOf x.2.2.2 session r.part);
        let z := genPut x.2.2.2 session r.part t.gen;
        let base := 0x030100000000 + troupe * 0x800000 + addr * 8;
        headReq s 1 = some r →
        reqOp r = 2 →
        quarantined s 138 = false →
        formatBitsOk r = true →
        returnReq (takeReq s r) r = .inr (c, f, e0) →
        dst ≠ 7 →
        count ≠ 0 →
        en.1 = .ok →
        (7 < fmt || bytes != tensorBytes fmt (at_ 32 4) || dataArea c.bind < off + bytes
          || !(at_ 22 2 == 0xFFFF || (match tget cfg.sess.sessions (at_ 22 2) with | some x => x.part == r.part | none => false))) = false →
        fmt = field (reqWord r 0) 24 3 →
        at_ 32 4 = count →
        (decide (1048576 < addr + k) || !(List.range k).all (fun i => troupeOwned en.2.2.2 cfg r.part r.tenant troupe (addr + i))) = false →
        x.1 = .ok →
        exec (.returnReadRequest entry data none) s = .next (reply (z.onMem (fun m => { m with
          troupe := wordsWrite m.troupe (troupe * 1048576 + addr) (packWords dst t.elems)
          bad := m.bad.filter (fun u => u < base || base + 8 * k ≤ u) })) r.reply 0 (reqWord r 5 % 2 ^ 32) t.beyond t.nans))
    ∧ (∀ (r : PortReq) (c : FeedCfg) (f : Ret) (e0 : State),
        let n := reqWord r 7 % 2 ^ 32;
        let ring := field (reqWord r 6) 0 12;
        let rel := if f.released.contains n then f.released else f.released ++ [n];
        let cons := modAdd 32 f.cons (((List.range rel.length).takeWhile (fun i => rel.contains (modAdd 32 f.cons i))).length);
        headReq s 1 = some r →
        reqOp r = 3 →
        quarantined s 138 = false →
        formatBitsOk r = true →
        returnReq (takeReq s r) r = .inr (c, f, e0) →
        exec (.returnReleaseRequest) s = .next (reply (writeCount (onRet e0 ring (fun g => { g with
          cons := cons
          raised := if newer 32 cons g.raised then cons else g.raised
          released := rel.filter (fun x => modSub 32 x cons < 2 ^ 31) })) (c.bind.control + 4) cons) r.reply 0 (reqWord r 5 % 2 ^ 32) 0 0))
    ∧ (∀ (r : PortReq),
        let e := takeReq s r;
        let fn := match tget (cfgOf e r.part r.epoch).acts.bindings r.binding with | some b => b.fn | none => 0;
        headReq s 2 = some r →
        exec (.noteRequest) s = .next (reply (raiseEvent e (ownerFn r.part r.tenant fn) 0x000A r.part r.tenant
          ([byteOf (r.binding % 64), byteOf r.tumbler] ++ zeros 14 ++ (r.words.take 4).flatMap (fun w => le 8 w.toNat))) r.reply 0 0 0 0))
    ∧ (∀ (ring : Nat) (sessions : List Nat),
        quarantined s 138 = false →
        exec (.returnProdPoll ring sessions) s = .next (returnPoll s ring sessions))

/-- The rows of the tumblers take place as the rules say that each meaning of the model names (among them 08 R216, 08 R225, 08 R227, 08 R228, 08 R229, 08 R232, 08 R236, 09 R259, 10 R282). -/
def Obligations.TumblerEvents : Prop :=
  ∀ (s : State),
    (∀ (n : Nat) (p i : Nat) (e : Event) (b : BindCfg) (pc : Nat),
        let present := e.kind == 1 && bit (listGet e.words 0 0).toNat 18;
        let area := inputArea b.b n;
        let ws := [listGet e.words 0 0, listGet e.words 1 0, listGet e.words 2 0, listGet e.words 3 0, listGet e.words 4 0,
            word b.b.arg, if present then word area else 0, word n];
        let inv : Invocation := { part := p, binding := e.binding, tenant := b.tenant, epoch := e.epoch, session := e.session, kind := e.kind, words := e.words, allowance := b.b.allowance };
        let a := s.onActs (fun a => { a with queues := tset a.queues p ((tgetD s.acts.queues p []).eraseIdx i) });
        let m := if present then a.onMem (fun m => { m with
            troupe := wordsWrite m.troupe (n / 8 * 1048576 + area) (payloadWords e.payload) }) else a;
        let t := m.onStat e.binding (fun x => { x with invocations := modAdd 64 x.invocations 1 });
        tumblerOwner s s.cfg n = some p →
        (tgetD s.acts.tumblers n {}).run = none →
        quarantined s n = false →
        quarantined s 138 = false →
        chooseEvent s p n = some (i, e) →
        bindingAt s p e.epoch e.binding = some b →
        entryOf s p b.b = some pc →
        exec (.tumblerDispatch n) s = .next ((t.onPower (fun x => { x with gated := x.gated.filter (fun d => d != n) })).onTumbler n (fun _ => { w := wordsWrite [] 1 ws, pc := pc, run := some inv })))
    ∧ (∀ (p : Nat) (k : Nat) (d : TimerDyn),
        let ev : Event := {
            kind := 4
            binding := 64 * p + d.cfg.binding
            session := 0
            epoch := epochAt s p 138
            words := [word (kindWord 4 + k), 0, 0, word (s.clock.now + d.due - s.clock.cadence), 0]
            payload := []
            source := k };
        tget s.acts.timers (64 * p + k) = some d →
        quarantined s 138 = false →
        k ≤ 63 →
        exec (.actTimerExpire p k) s = .next ((putAct (s.onActs (fun a => { a with
          timers := tset a.timers (64 * p + k) { d with due := d.due + d.cfg.periodUs * 1000 } })) p ev).2))
    ∧ (∀ (n : Nat) (inv : Invocation),
        (tgetD s.acts.tumblers n {}).run = some inv →
        exec (.allowanceOverrun n) s = .next (overrun s n (tgetD s.acts.tumblers n {}) inv))
    ∧ (∀ (n : Nat) (port : Nat) (stall : Nat) (r : PortRep) (w0 w1 w : Word) (inv : Invocation),
        let a := (s.onSess (fun x => { x with replies := x.replies.filter (fun y => y.id != r.id) })).onTumbler n (fun t => { t with arrived := t.arrived ++ [(port, w0, w1)] });
        s.sess.replies.find? (fun r => r.tumbler == n && r.port == port) = some r →
        r.words = some (w0, w1) →
        (tgetD a.acts.tumblers n {}).run = some inv →
        (tgetD a.acts.tumblers n {}).stall = .take w →
        exec (.portReply n port stall) s = .next (if fPort w == port then settle a n (tgetD a.acts.tumblers n {}) inv (takeDone a (tgetD a.acts.tumblers n {}) w stall) else a))
    ∧ (∀ (n : Nat) (stall : Nat) (inv : Invocation) (w : Word) (a : Nat),
        let t := tgetD s.acts.tumblers n {};
        let x := loadAll s (24 + n / 32) (tumblerActor s inv) a 4 [];
        let b := fun (i : Nat) => 256 + (listGet x.2.2.1 i 0).toNat;
        t.run = some inv →
        t.stall = .load w a →
        x.1 = .ok →
        exec (.loadReturn n stall) s = .next (settle x.2.2.2 n t inv (.done x.2.2.2 (t.put (fRd w) (loadPart ((opOf (fOp w)).getD .ldw) w (ofNonets (b 0) (b 1) (b 2) (b 3)))) (2 + stall) none)))
    ∧ (∀ (n : Nat) (inv : Invocation) (c : Nat) (cs : List Nat),
        (tgetD s.acts.tumblers n {}).run = some inv →
        (tgetD s.acts.tumblers n {}).stores = c :: cs →
        exec (.storeFailure n) s = .next ((s.onStat inv.binding (fun x => { x with faults := modAdd 64 x.faults 1 })).onTumbler n (fun t => { t with
          stores := cs
          storeFailed := some (match t.storeFailed with | some d => min c d | none => c) })))

/-- The sums of Belpor-36 (10 R263, R264, R270 to R272), with the flags of R263 and the cycles of R284. -/
def Obligations.BelporSums : Prop :=
  ∀ (s : State) (n : Nat),
    (gives (.add n) n .add 1 s (fun t w => (wa t w + wb t w, sumFlags (wa t w + wb t w) (decide (2 ^ 36 ≤ (wa t w).toNat + (wb t w).toNat)) ((wa t w).toInt + (wb t w).toInt))))
    ∧ (gives (.adc n) n .adc 1 s (fun t w => (wa t w + wb t w + BitVec.ofNat 36 ((carry t)), sumFlags (wa t w + wb t w + BitVec.ofNat 36 ((carry t))) (decide (2 ^ 36 ≤ (wa t w).toNat + (wb t w).toNat + ((carry t)))) ((wa t w).toInt + (wb t w).toInt + ((((carry t)) : Nat) : Int)))))
    ∧ (gives (.sub n) n .sub 1 s (fun t w => (wa t w - wb t w, sumFlags (wa t w - wb t w) (decide ((wb t w).toNat ≤ (wa t w).toNat)) ((wa t w).toInt - (wb t w).toInt))))
    ∧ (gives (.sbc n) n .sbc 1 s (fun t w => (wa t w - wb t w - BitVec.ofNat 36 (1 - carry t), sumFlags (wa t w - wb t w - BitVec.ofNat 36 (1 - carry t)) (decide ((wb t w).toNat + (1 - carry t) ≤ (wa t w).toNat)) ((wa t w).toInt - (wb t w).toInt - (((1 - carry t) : Nat) : Int)))))
    ∧ (gives (.cmp n) n .cmp 1 s (fun t w => (wa t w - wb t w, sumFlags (wa t w - wb t w) (decide ((wb t w).toNat ≤ (wa t w).toNat)) ((wa t w).toInt - (wb t w).toInt))))
    ∧ (gives (.neg n) n .neg 1 s (fun t w => ((0 : Word) - wa t w, sumFlags ((0 : Word) - wa t w) (decide ((wa t w).toNat ≤ ((0 : Word)).toNat)) (((0 : Word)).toInt - (wa t w).toInt))))
    ∧ (gives (.addi n) n .addi 1 s (fun t w => (wa t w + sextImm w, sumFlags (wa t w + sextImm w) (decide (2 ^ 36 ≤ (wa t w).toNat + (sextImm w).toNat)) ((wa t w).toInt + (sextImm w).toInt))))
    ∧ (gives (.cmpi n) n .cmpi 1 s (fun t w => (wa t w - sextImm w, sumFlags (wa t w - sextImm w) (decide ((sextImm w).toNat ≤ (wa t w).toNat)) ((wa t w).toInt - (sextImm w).toInt))))
    ∧ (gives (.adds n) n .adds 1 s (fun t w => (BitVec.ofInt 36 (satInt (36) ((wa t w).toInt + (wb t w).toInt)), { zAndN (BitVec.ofInt 36 (satInt (36) ((wa t w).toInt + (wb t w).toInt))) with q := satInt (36) ((wa t w).toInt + (wb t w).toInt) != ((wa t w).toInt + (wb t w).toInt) })))
    ∧ (gives (.subs n) n .subs 1 s (fun t w => (BitVec.ofInt 36 (satInt (36) ((wa t w).toInt - (wb t w).toInt)), { zAndN (BitVec.ofInt 36 (satInt (36) ((wa t w).toInt - (wb t w).toInt))) with q := satInt (36) ((wa t w).toInt - (wb t w).toInt) != ((wa t w).toInt - (wb t w).toInt) })))
    ∧ (gives (.sat n) n .sat 1 s (fun t w => (BitVec.ofInt 36 (satInt (fFn w) ((wa t w).toInt)), { zAndN (BitVec.ofInt 36 (satInt (fFn w) ((wa t w).toInt))) with q := satInt (fFn w) ((wa t w).toInt) != ((wa t w).toInt) })))
    ∧ (gives (.macs n) n .macs 2 s (fun t w => (BitVec.ofInt 36 (satInt (36) ((wd t w).toInt + (wa t w).toInt * (wb t w).toInt)), { zAndN (BitVec.ofInt 36 (satInt (36) ((wd t w).toInt + (wa t w).toInt * (wb t w).toInt))) with q := satInt (36) ((wd t w).toInt + (wa t w).toInt * (wb t w).toInt) != ((wd t w).toInt + (wa t w).toInt * (wb t w).toInt) })))
    ∧ (gives (.macp n) n .macp 2 s (fun t w => (BitVec.ofInt 36 (satInt (36) ((wd t w).toInt + halfProduct (wa t w) (wb t w) 1 + halfProduct (wa t w) (wb t w) 0)), { zAndN (BitVec.ofInt 36 (satInt (36) ((wd t w).toInt + halfProduct (wa t w) (wb t w) 1 + halfProduct (wa t w) (wb t w) 0))) with q := satInt (36) ((wd t w).toInt + halfProduct (wa t w) (wb t w) 1 + halfProduct (wa t w) (wb t w) 0) != ((wd t w).toInt + halfProduct (wa t w) (wb t w) 1 + halfProduct (wa t w) (wb t w) 0) })))

/-- The logic, shifts and products of Belpor-36 (10 R264, R265, R270, R272). -/
def Obligations.BelporLogicAndShifts : Prop :=
  ∀ (s : State) (n : Nat),
    (gives (.and n) n .and_ 1 s (fun t w => (wa t w &&& wb t w, zAndN (wa t w &&& wb t w))))
    ∧ (gives (.or n) n .or_ 1 s (fun t w => (wa t w ||| wb t w, zAndN (wa t w ||| wb t w))))
    ∧ (gives (.xor n) n .xor_ 1 s (fun t w => (wa t w ^^^ wb t w, zAndN (wa t w ^^^ wb t w))))
    ∧ (gives (.andn n) n .andn 1 s (fun t w => (wa t w &&& ~~~wb t w, zAndN (wa t w &&& ~~~wb t w))))
    ∧ (gives (.andi n) n .andi 1 s (fun t w => (wa t w &&& zextImm w, zAndN (wa t w &&& zextImm w))))
    ∧ (gives (.ori n) n .ori 1 s (fun t w => (wa t w ||| zextImm w, zAndN (wa t w ||| zextImm w))))
    ∧ (gives (.xori n) n .xori 1 s (fun t w => (wa t w ^^^ zextImm w, zAndN (wa t w ^^^ zextImm w))))
    ∧ (gives (.shl n) n .shl 1 s (fun t w => let k := shiftAmount t w; let r := wa t w <<< k; (r, if k = 0 then zAndN r else { zAndN r with c := some (decide (k ≤ 36) && (wa t w).getLsbD (36 - k)) })))
    ∧ (gives (.shr n) n .shr 1 s (fun t w => let k := shiftAmount t w; let r := wa t w >>> k; (r, if k = 0 then zAndN r else { zAndN r with c := some (decide (k ≤ 36) && (wa t w).getLsbD (k - 1)) })))
    ∧ (gives (.sar n) n .sar 1 s (fun t w => let k := shiftAmount t w; let r := (wa t w).sshiftRight k; (r, if k = 0 then zAndN r else { zAndN r with c := some ((wa t w).getLsbD (min k 36 - 1)) })))
    ∧ (gives (.ror n) n .ror 1 s (fun t w => let k := shiftAmount t w; let r := (wa t w).rotateRight k; (r, if k % 36 = 0 then zAndN r else { zAndN r with c := some r.msb })))
    ∧ (gives (.mul n) n .mul 2 s (fun t w => (wa t w * wb t w, zAndN (wa t w * wb t w))))
    ∧ (gives (.mac n) n .mac 2 s (fun t w => (wd t w + wa t w * wb t w, zAndN (wd t w + wa t w * wb t w))))
    ∧ (gives (.mulhs n) n .mulhs 2 s (fun t w => (BitVec.ofInt 36 ((wa t w).toInt * (wb t w).toInt / 2 ^ 36), zAndN (BitVec.ofInt 36 ((wa t w).toInt * (wb t w).toInt / 2 ^ 36)))))
    ∧ (gives (.mulhu n) n .mulhu 2 s (fun t w => (BitVec.ofNat 36 ((wa t w).toNat * (wb t w).toNat / 2 ^ 36), zAndN (BitVec.ofNat 36 ((wa t w).toNat * (wb t w).toNat / 2 ^ 36)))))

/-- The fields, counts, permutes and pairs of Belpor-36 (10 R266 to R269, R273). -/
def Obligations.BelporFieldsAndPairs : Prop :=
  ∀ (s : State) (n : Nat),
    (gives (.bfx n) n .bfx 1 s (fun t w => (BitVec.ofNat 36 ((wa t w).toNat / 2 ^ (fFn w / 64) % 2 ^ (fFn w % 64)), zAndN (BitVec.ofNat 36 ((wa t w).toNat / 2 ^ (fFn w / 64) % 2 ^ (fFn w % 64))))))
    ∧ (gives (.bfxs n) n .bfxs 1 s (fun t w => (BitVec.ofInt 36 (signed (fFn w % 64) (field (wa t w).toNat (fFn w / 64) (fFn w % 64))), zAndN (BitVec.ofInt 36 (signed (fFn w % 64) (field (wa t w).toNat (fFn w / 64) (fFn w % 64)))))))
    ∧ (gives (.bfi n) n .bfi 1 s (fun t w => (BitVec.ofNat 36 ((wd t w).toNat - field (wd t w).toNat (fFn w / 64) (fFn w % 64) * 2 ^ (fFn w / 64) + (wa t w).toNat % 2 ^ (fFn w % 64) * 2 ^ (fFn w / 64)), zAndN (BitVec.ofNat 36 ((wd t w).toNat - field (wd t w).toNat (fFn w / 64) (fFn w % 64) * 2 ^ (fFn w / 64) + (wa t w).toNat % 2 ^ (fFn w % 64) * 2 ^ (fFn w / 64))))))
    ∧ (gives (.cnt n) n .cnt 1 s (fun t w => (BitVec.ofNat 36 (match fFn w with | 0 => leading (wa t w).toNat false 36 | 1 => leading (wa t w).toNat true 36 | 2 => leadingMarks (wa t w) 4 | _ => trailing (wa t w).toNat 0 36), zAndN (BitVec.ofNat 36 (match fFn w with | 0 => leading (wa t w).toNat false 36 | 1 => leading (wa t w).toNat true 36 | 2 => leadingMarks (wa t w) 4 | _ => trailing (wa t w).toNat 0 36)))))
    ∧ (gives (.nperm n) n .nperm 1 s (fun t w => (ofNonets ((fun j => let v := field (fFn w) (3 * j) 3; if v < 4 then nonet (wa t w) v else nonet (wb t w) (v - 4)) 3) ((fun j => let v := field (fFn w) (3 * j) 3; if v < 4 then nonet (wa t w) v else nonet (wb t w) (v - 4)) 2) ((fun j => let v := field (fFn w) (3 * j) 3; if v < 4 then nonet (wa t w) v else nonet (wb t w) (v - 4)) 1) ((fun j => let v := field (fFn w) (3 * j) 3; if v < 4 then nonet (wa t w) v else nonet (wb t w) (v - 4)) 0), zAndN (ofNonets ((fun j => let v := field (fFn w) (3 * j) 3; if v < 4 then nonet (wa t w) v else nonet (wb t w) (v - 4)) 3) ((fun j => let v := field (fFn w) (3 * j) 3; if v < 4 then nonet (wa t w) v else nonet (wb t w) (v - 4)) 2) ((fun j => let v := field (fFn w) (3 * j) 3; if v < 4 then nonet (wa t w) v else nonet (wb t w) (v - 4)) 1) ((fun j => let v := field (fFn w) (3 * j) 3; if v < 4 then nonet (wa t w) v else nonet (wb t w) (v - 4)) 0)))))
    ∧ (gives (.addp n) n .addp 1 s (fun t w => (lanes (wa t w) (wb t w) (fun x y => (x : Int) + y), zAndN (lanes (wa t w) (wb t w) (fun x y => (x : Int) + y)))))
    ∧ (gives (.subp n) n .subp 1 s (fun t w => (lanes (wa t w) (wb t w) (fun x y => (x : Int) - y), zAndN (lanes (wa t w) (wb t w) (fun x y => (x : Int) - y)))))
    ∧ (gives (.addps n) n .addps 1 s (fun t w => let g := fun (x y : Nat) => signed 18 x + signed 18 y; let r := lanes (wa t w) (wb t w) (fun x y => satInt 18 (g x y)); (r, { zAndN r with q := satInt 18 (g (half (wa t w) 1) (half (wb t w) 1)) != g (half (wa t w) 1) (half (wb t w) 1) || satInt 18 (g (half (wa t w) 0) (half (wb t w) 0)) != g (half (wa t w) 0) (half (wb t w) 0) })))
    ∧ (gives (.subps n) n .subps 1 s (fun t w => let g := fun (x y : Nat) => signed 18 x - signed 18 y; let r := lanes (wa t w) (wb t w) (fun x y => satInt 18 (g x y)); (r, { zAndN r with q := satInt 18 (g (half (wa t w) 1) (half (wb t w) 1)) != g (half (wa t w) 1) (half (wb t w) 1) || satInt 18 (g (half (wa t w) 0) (half (wb t w) 0)) != g (half (wa t w) 0) (half (wb t w) 0) })))
    ∧ (gives (.seth n) n .seth 1 s (fun t w => (word (fImm18 w * 2 ^ 18), {})))
    ∧ (gives (.setl n) n .setl 1 s (fun t w => (setHalf (wd t w) 0 (fImm18 w), {})))

/-- The memory instructions of Belpor-36 (10 R274 to R276, 08 R213 to R216). -/
def Obligations.BelporLoadsAndStores : Prop :=
  ∀ (s : State) (n : Nat),
    (∀ inv w k, issues n .ldw s inv w → inTime s n inv 2 → 
        bankFor s inv (tum s n) w = .troupe k →
        troupeOk s inv n k = true →
        troupeBad s n k = false →
        exec (.ldw n) s = .next (goesNext n s s ((tum s n).put (fRd w) (troupeWord s n k)) 2))
    ∧ (∀ inv w k, issues n .ldh s inv w → inTime s n inv 2 → 
        bankFor s inv (tum s n) w = .troupe k →
        troupeOk s inv n k = true →
        troupeBad s n k = false →
        exec (.ldh n) s = .next (goesNext n s s ((tum s n).put (fRd w) (word (half (troupeWord s n k) (fPart w)))) 2))
    ∧ (∀ inv w k, issues n .ldhs s inv w → inTime s n inv 2 → 
        bankFor s inv (tum s n) w = .troupe k →
        troupeOk s inv n k = true →
        troupeBad s n k = false →
        exec (.ldhs n) s = .next (goesNext n s s ((tum s n).put (fRd w) (BitVec.ofInt 36 (signed 18 (half (troupeWord s n k) (fPart w))))) 2))
    ∧ (∀ inv w k, issues n .ldn s inv w → inTime s n inv 2 → 
        bankFor s inv (tum s n) w = .troupe k →
        troupeOk s inv n k = true →
        troupeBad s n k = false →
        exec (.ldn n) s = .next (goesNext n s s ((tum s n).put (fRd w) (word (nonet (troupeWord s n k) (fPart w)))) 2))
    ∧ (∀ inv w a, issues n .ldw s inv w → 
        bankFor s inv (tum s n) w = .midway a →
        exec (.ldw n) s = .next (s.onTumbler n (fun t => { t with stall := .load w a })))
    ∧ (∀ inv w a, issues n .ldh s inv w → 
        bankFor s inv (tum s n) w = .midway a →
        exec (.ldh n) s = .next (s.onTumbler n (fun t => { t with stall := .load w a })))
    ∧ (∀ inv w a, issues n .ldhs s inv w → 
        bankFor s inv (tum s n) w = .midway a →
        exec (.ldhs n) s = .next (s.onTumbler n (fun t => { t with stall := .load w a })))
    ∧ (∀ inv w a, issues n .ldn s inv w → 
        bankFor s inv (tum s n) w = .midway a →
        exec (.ldn n) s = .next (s.onTumbler n (fun t => { t with stall := .load w a })))
    ∧ (∀ inv w k, issues n .stw s inv w → inTime s n inv 1 → 
        bankFor s inv (tum s n) w = .troupe k →
        troupeOk s inv n k = true →
        exec (.stw n) s = .next (goesNext n s (troupePut s n k ((tum s n).get (fRd w))) (tum s n) 1))
    ∧ (∀ inv w k, issues n .sth s inv w → inTime s n inv 1 → 
        bankFor s inv (tum s n) w = .troupe k →
        troupeOk s inv n k = true →
        troupeBad s n k = false →
        exec (.sth n) s = .next (goesNext n s (troupePut s n k (storeWord (troupeWord s n k) (storeNonets .sth w ((tum s n).get (fRd w))))) (tum s n) 1))
    ∧ (∀ inv w k, issues n .stn s inv w → inTime s n inv 1 → 
        bankFor s inv (tum s n) w = .troupe k →
        troupeOk s inv n k = true →
        troupeBad s n k = false →
        exec (.stn n) s = .next (goesNext n s (troupePut s n k (storeWord (troupeWord s n k) (storeNonets .stn w ((tum s n).get (fRd w))))) (tum s n) 1))
    ∧ (∀ inv w k, issues n .aadd s inv w → inTime s n inv 3 → 
        bankFor s inv (tum s n) w = .troupe k →
        troupeOk s inv n k = true →
        troupeBad s n k = false →
        exec (.aadd n) s = .next (goesNext n s (troupePut s n k (troupeWord s n k + (tum s n).get (fRd w))) ((tum s n).put (fRd w) (troupeWord s n k)) 3))
    ∧ (∀ inv w k, issues n .acas s inv w → inTime s n inv 3 → 
        bankFor s inv (tum s n) w = .troupe k →
        troupeOk s inv n k = true →
        troupeBad s n k = false →
        exec (.acas n) s = .next (goesNext n s (if troupeWord s n k = (tum s n).get (fRd w) then troupePut s n k ((tum s n).get (fRd w + 1)) else s)
          { (tum s n).put (fRd w) (troupeWord s n k) with fl := setFlags (tum s n).fl { z := some (decide (troupeWord s n k = (tum s n).get (fRd w))) } } 3))

/-- The control transfers and loops of Belpor-36 (10 R277 to R279, 09 R249, R252, R255, R260). -/
def Obligations.BelporTransfers : Prop :=
  ∀ (s : State) (n : Nat),
    (∀ inv w, issues n .b s inv w → inTime s n inv 2 → 
        condHolds (tum s n).fl (fCond w) = true →
        atLoopEnd (tum s n) = false →
        (inBody (tum s n) (tum s n).pc = true → inBody (tum s n) (fTarget w) = true) →
        exec (.b n) s = .next (goesTo n s s (tum s n) 2 (fTarget w)))
    ∧ (∀ inv w, issues n .b s inv w → inTime s n inv 1 → 
        condHolds (tum s n).fl (fCond w) = false →
        exec (.b n) s = .next (goesNext n s s (tum s n) 1))
    ∧ (∀ inv w, issues n .br s inv w → inTime s n inv 2 → 
        condHolds (tum s n).fl (fCond w) = true →
        atLoopEnd (tum s n) = false →
        (inBody (tum s n) (tum s n).pc = true → inBody (tum s n) (regTarget (tum s n) w) = true) →
        exec (.br n) s = .next (goesTo n s s (tum s n) 2 (regTarget (tum s n) w)))
    ∧ (∀ inv w, issues n .br s inv w → inTime s n inv 1 → 
        condHolds (tum s n).fl (fCond w) = false →
        exec (.br n) s = .next (goesNext n s s (tum s n) 1))
    ∧ (∀ inv w, issues n .call s inv w → inTime s n inv 2 → 
        condHolds (tum s n).fl (fCond w) = true →
        atLoopEnd (tum s n) = false →
        exec (.call n) s = .next (goesTo n s s ((tum s n).put 31 (word ((tum s n).pc + 1))) 2 (fTarget w)))
    ∧ (∀ inv w, issues n .call s inv w → inTime s n inv 1 → 
        condHolds (tum s n).fl (fCond w) = false →
        atLoopEnd (tum s n) = false →
        exec (.call n) s = .next (goesNext n s s (tum s n) 1))
    ∧ (∀ inv w, issues n .callr s inv w → inTime s n inv 2 → 
        condHolds (tum s n).fl (fCond w) = true →
        atLoopEnd (tum s n) = false →
        exec (.callr n) s = .next (goesTo n s s ((tum s n).put 31 (word ((tum s n).pc + 1))) 2 (regTarget (tum s n) w)))
    ∧ (∀ inv w, issues n .callr s inv w → inTime s n inv 1 → 
        condHolds (tum s n).fl (fCond w) = false →
        atLoopEnd (tum s n) = false →
        exec (.callr n) s = .next (goesNext n s s (tum s n) 1))
    ∧ (∀ inv w, issues n .ret s inv w → inTime s n inv 2 → 
        condHolds (tum s n).fl (fCond w) = true →
        atLoopEnd (tum s n) = false →
        exec (.ret n) s = .next (goesTo n s s (tum s n) 2 (((tum s n).get 31).toNat % 1048576)))
    ∧ (∀ inv w, issues n .ret s inv w → inTime s n inv 1 → 
        condHolds (tum s n).fl (fCond w) = false →
        atLoopEnd (tum s n) = false →
        exec (.ret n) s = .next (goesNext n s s (tum s n) 1))
    ∧ (∀ inv w, issues n .loopi s inv w → inTime s n inv 1 → 
        depth (tum s n) < 4 →
        (tum s n).pc + 1 ≤ fTarget w →
        fCount w < 2 ^ 24 →
        (0 < depth (tum s n) → fTarget w ≤ listGet (tum s n).le (depth (tum s n) - 1) 0) →
        atLoopEnd (tum s n) = false →
        0 < fCount w →
        exec (.loopi n) s = .next (goesTo n s s { (tum s n) with
          ls := (tum s n).ls.set (depth (tum s n)) ((tum s n).pc + 1)
          le := (tum s n).le.set (depth (tum s n)) (fTarget w)
          lc := (tum s n).lc.set (depth (tum s n)) (fCount w) } 1 ((tum s n).pc + 1)))
    ∧ (∀ inv w, issues n .loopi s inv w → inTime s n inv 1 → 
        depth (tum s n) < 4 →
        (tum s n).pc + 1 ≤ fTarget w →
        fCount w < 2 ^ 24 →
        (0 < depth (tum s n) → fTarget w ≤ listGet (tum s n).le (depth (tum s n) - 1) 0) →
        atLoopEnd (tum s n) = false →
        fCount w = 0 →
        exec (.loopi n) s = .next (goesTo n s s (tum s n) 1 (fTarget w + 1)))
    ∧ (∀ inv w, issues n .loopr s inv w → inTime s n inv 1 → 
        depth (tum s n) < 4 →
        (tum s n).pc + 1 ≤ fTarget w →
        ((tum s n).get (fRd w)).toNat < 2 ^ 24 →
        (0 < depth (tum s n) → fTarget w ≤ listGet (tum s n).le (depth (tum s n) - 1) 0) →
        atLoopEnd (tum s n) = false →
        0 < ((tum s n).get (fRd w)).toNat →
        exec (.loopr n) s = .next (goesTo n s s { (tum s n) with
          ls := (tum s n).ls.set (depth (tum s n)) ((tum s n).pc + 1)
          le := (tum s n).le.set (depth (tum s n)) (fTarget w)
          lc := (tum s n).lc.set (depth (tum s n)) (((tum s n).get (fRd w)).toNat) } 1 ((tum s n).pc + 1)))
    ∧ (∀ inv w, issues n .loopr s inv w → inTime s n inv 1 → 
        depth (tum s n) < 4 →
        (tum s n).pc + 1 ≤ fTarget w →
        ((tum s n).get (fRd w)).toNat < 2 ^ 24 →
        (0 < depth (tum s n) → fTarget w ≤ listGet (tum s n).le (depth (tum s n) - 1) 0) →
        atLoopEnd (tum s n) = false →
        ((tum s n).get (fRd w)).toNat = 0 →
        exec (.loopr n) s = .next (goesTo n s s (tum s n) 1 (fTarget w + 1)))
    ∧ (∀ inv w, issues n .lexit s inv w → inTime s n inv 2 → 
        0 < depth (tum s n) →
        atLoopEnd (tum s n) = false →
        exec (.lexit n) s = .next (goesTo n s s { (tum s n) with lc := (tum s n).lc.set (depth (tum s n) - 1) 0 } 2 (fTarget w)))

/-- The P format of Belpor-36 (10 R280 to R283, 08 R231, R235 to R237, 09 R244). -/
def Obligations.BelporPortsAndEnds : Prop :=
  ∀ (s : State) (n : Nat),
    (∀ inv w, issues n .post s inv w → inTime s n inv (1 + portLen (fPort w)) → 
        fPort w ≤ 2 →
        untaken s n (tum s n) < 8 →
        (tum s n).stores = [] →
        (tum s n).storeFailed = none →
        (∀ i, i < portLen (fPort w) → ((tum s n).get (fRa w)).toNat % 1048576 + i < 1048576 ∧ troupeOk s inv n (((tum s n).get (fRa w)).toNat % 1048576 + i) = true ∧ troupeBad s n (((tum s n).get (fRa w)).toNat % 1048576 + i) = false) →
        exec (.post n) s = .next (goesNext n s (s.onSess (fun x => { x with
          requests := x.requests ++ [portReq s n inv (fPort w) ((List.range (portLen (fPort w))).map (fun i => troupeWord s n (((tum s n).get (fRa w)).toNat % 1048576 + i)))]
          replies := x.replies ++ [{ id := x.nextReply, tumbler := n, port := fPort w, words := none }]
          nextReply := x.nextReply + 1 })) (tum s n) (1 + portLen (fPort w))))
    ∧ (∀ inv w p w0 w1, issues n .take s inv w → inTime s n inv (1 + 0) → 
        fPort w ≤ 2 →
        (tum s n).arrived.find? (fun r => r.1 == fPort w) = some (p, w0, w1) →
        exec (.take n) s = .next (goesNext n s s { ((tum s n).put (fRd w) w0).put (fRa w) w1 with
          arrived := (tum s n).arrived.erase (fPort w, w0, w1)
          fl := setFlags (tum s n).fl { z := some (field w0.toNat 27 9 == 0), n := some false } } (1 + 0)))
    ∧ (∀ inv w, issues n .poll s inv w → inTime s n inv 1 → 
        fPort w ≤ 2 →
        exec (.poll n) s = .next (goesNext n s s { (tum s n).put (fRd w) (word ((tum s n).arrived.countP (fun r => r.1 == fPort w))) with fl := setFlags (tum s n).fl (zAndN (word ((tum s n).arrived.countP (fun r => r.1 == fPort w)))) } 1))
    ∧ (∀ inv w, issues n .mfs s inv w → inTime s n inv 1 → 
        exec (.mfs n) s = .next (goesNext n s s ((tum s n).put (fRd w) (word (specialGet s (tum s n) (fRa w)))) 1))
    ∧ (∀ inv w, issues n .mts s inv w → inTime s n inv 1 → 
        fRd w < 4 →
        exec (.mts n) s = .next (goesNext n s s { (tum s n) with bk := (tum s n).bk.set (fRd w) (((tum s n).get (fRa w)).toNat % 4096) } 1))
    ∧ (∀ inv w, issues n .mts s inv w → inTime s n inv 1 → 
        fRd w = 16 →
        exec (.mts n) s = .next (goesNext n s s { (tum s n) with fl := ((tum s n).get (fRa w)).toNat % 32 } 1))
    ∧ (∀ inv w, issues n .endact s inv w → inTime s n inv 1 → 
        (tum s n).stores = [] →
        (tum s n).storeFailed = none →
        exec (.endact n) s = .next (endInv s n { (tum s n) with cyc := (tum s n).cyc + 1 } inv .ok 0))
    ∧ (∀ inv w, issues n .brk s inv w → inTime s n inv 1 → 
        exec (.brk n) s = .next (endInv s n { (tum s n) with cyc := (tum s n).cyc + 1 } inv .actFault 7 false))

/-- The rows of the accesses of the Trapeze ports take place as the rules say that each meaning of the model names (among them 04 R102, 11 R303, 11 R304, 11 R305, 11 R308, 11 R309, 11 R314, 11 R315). -/
def Obligations.TrapezeAccesses : Prop :=
  ∀ (s : State),
    (∀ (x : TpAccess) (data : List Byte)  (e : TpWindow),
        let w := actor s e.part e.tenant (134 + x.port);
        let a := e.accBase + (x.addr - e.offset * 65536);
        let q := storeAll s (20 + x.port) w .other a data;
        let r : Status × TpMsg × State := (q.1, .wcomp x.tag, q.2.2.1);
        tpUp (s.tport x.port) = true →
        inWindow s x.port x.addr (data.length) = some e →
        e.write = true →
        exec (.tpWrite x data) s = .next (tpAnswer r.2.2 x.port (if r.1 == .ok then r.2.1 else .err x.tag (errCode r.1))))
    ∧ (∀ (x : TpAccess) (len : Nat)  (e : TpWindow),
        let w := actor s e.part e.tenant (134 + x.port);
        let a := e.accBase + (x.addr - e.offset * 65536);
        let q := loadAll s (20 + x.port) w a len [];
        let r : Status × TpMsg × State := (q.1, .rdcomp x.tag q.2.2.1, q.2.2.2);
        tpUp (s.tport x.port) = true →
        inWindow s x.port x.addr (len) = some e →
        e.read = true →
        exec (.tpRead x len) s = .next (tpAnswer r.2.2 x.port (if r.1 == .ok then r.2.1 else .err x.tag (errCode r.1))))
    ∧ (∀ (x : TpAccess) (addend : Nat)  (e : TpWindow),
        let w := actor s e.part e.tenant (134 + x.port);
        let a := e.accBase + (x.addr - e.offset * 65536);
        let q := atomicAt s (20 + x.port) w a (fun old => modAdd 64 old addend);
        let r : Status × TpMsg × State := (q.1, .atcomp x.tag q.2.1, q.2.2);
        tpUp (s.tport x.port) = true →
        inWindow s x.port x.addr (8) = some e →
        e.atomic = true →
        exec (.tpFadd x addend) s = .next (tpAnswer r.2.2 x.port (if r.1 == .ok then r.2.1 else .err x.tag (errCode r.1))))
    ∧ (∀ (x : TpAccess) (compare : Nat) (swap : Nat)  (e : TpWindow),
        let w := actor s e.part e.tenant (134 + x.port);
        let a := e.accBase + (x.addr - e.offset * 65536);
        let q := atomicAt s (20 + x.port) w a (fun old => if old == compare then swap else old);
        let r : Status × TpMsg × State := (q.1, .atcomp x.tag q.2.1, q.2.2);
        tpUp (s.tport x.port) = true →
        inWindow s x.port x.addr (8) = some e →
        e.atomic = true →
        exec (.tpCas x compare swap) s = .next (tpAnswer r.2.2 x.port (if r.1 == .ok then r.2.1 else .err x.tag (errCode r.1))))
    ∧ (∀ (p : Nat) (tag : Nat) (data : List Byte) (r : TpReq),
        tpUp (s.tport p) = true →
        (s.tport p).reads.find? (fun r => tagOf r.msg == tag && (match r.msg with | .read .. => true | _ => false)) = some r →
        exec (.rdcomp p tag data) s = .next (tpPump (tpEnd (s.onTp p (fun t => { t with reads := t.reads.filter (fun x => tagOf x.msg != tag) })) r .ok (match r.msg with | .read _ _ _ _ n => fit n data | _ => fit 8 data)) p))
    ∧ (∀ (p : Nat) (tag : Nat) (old : Nat) (r : TpReq),
        tpUp (s.tport p) = true →
        (s.tport p).reads.find? (fun r => tagOf r.msg == tag && (match r.msg with | .read .. => false | _ => true)) = some r →
        exec (.atcomp p tag old) s = .next (tpPump (tpEnd (s.onTp p (fun t => { t with reads := t.reads.filter (fun x => tagOf x.msg != tag) })) r .ok (match r.msg with | .read _ _ _ _ n => fit n (le 8 old) | _ => fit 8 (le 8 old))) p))
    ∧ (∀ (p : Nat) (tag : Nat),
        let covered := fun (r : TpReq) => decide (modSub 16 tag (tagOf r.msg) < 32768);
        tpUp (s.tport p) = true →
        (s.tport p).writes.any (fun r => tagOf r.msg == tag) = true →
        exec (.wcomp p tag) s = .next (tpPump (((s.tport p).writes.filter covered).foldl (fun s r => tpEnd s r .ok []) (s.onTp p (fun t => { t with writes := t.writes.filter (fun r => !covered r) }))) p))
    ∧ (∀ (p : Nat) (tag : Nat) (code : Nat) (st : Status) (r : TpReq),
        tpUp (s.tport p) = true →
        errStatus code = some st →
        (s.tport p).writes.find? (fun r => tagOf r.msg == tag) = some r →
        exec (.tpErr p tag code) s = .next (tpPump (tpEnd (s.onTp p (fun t => { t with writes := t.writes.filter (fun x => tagOf x.msg != tag) })) r st []) p))
    ∧ (∀ (p : Nat) (tag : Nat) (code : Nat) (st : Status) (r : TpReq),
        tpUp (s.tport p) = true →
        errStatus code = some st →
        (s.tport p).writes.find? (fun r => tagOf r.msg == tag) = none →
        (s.tport p).reads.find? (fun r => tagOf r.msg == tag) = some r →
        exec (.tpErr p tag code) s = .next (tpPump (tpEnd (s.onTp p (fun t => { t with reads := t.reads.filter (fun x => tagOf x.msg != tag) })) r st []) p))
    ∧ (∀ (p : Nat) (tag : Nat) (r : TpReq),
        (s.tport p).reads.find? (fun r => tagOf r.msg == tag) = some r →
        exec (.trapezeReadTimeout p tag) s = .next (tpPump (tpEnd (rindCount (s.onTp p (fun t => { t with
          reads := t.reads.filter (fun x => tagOf x.msg != tag), withheld := t.withheld ++ [tag] })) 0x18) r .partnerTimeout []) p))
    ∧ (∀ (p : Nat),
        tpUp (s.tport p) = true →
        ((s.tport p).queue.isEmpty && (s.tport p).responses.isEmpty && (s.tport p).controls.isEmpty) = false →
        exec (.creditWatchdog p) s = .next (tpTrain (tpLeavePort (rindCount s 0x17) p .stalled .partnerStalled) p true true))
    ∧ (∀ (p : Nat) (ring : Nat) (sessions : List Nat) (prod : Nat) (c : FeedCfg) (k : Nat),
        tpUp (s.tport p) = true →
        tget s.cfg.sess.returns ring = some c →
        region c.bind.entryArray = .trapeze p k →
        quarantined s 138 = false →
        exec (.ringSignal p ring prod sessions) s = .next (returnPoll s ring sessions))

/-- The rows of the Trapeze ports take place as the rules say that each meaning of the model names (among them 11 R290, 11 R292, 11 R293, 11 R299, 11 R300, 11 R306, 11 R309, 11 R316, 11 R323). -/
def Obligations.TrapezePortEvents : Prop :=
  ∀ (s : State),
    (∀ (p : Nat) (f : Flit),
        let a := (tpCount s p 1).onTp p (fun t => tpHeader t f);
        let b := if f.null then a else if f.fseq == (a.tport p).expected then tpAccept a p f else tpNak a p;
        ingress s = true →
        tpUp (s.tport p) = true →
        f.crcOk = true →
        f.nak = false →
        exec (.flitRx p f) s = .next (tpPump b p))
    ∧ (∀ (p : Nat) (f : Flit),
        ingress s = true →
        tpUp (s.tport p) = true →
        f.crcOk = false →
        f.null = false →
        exec (.flitRx p f) s = .next (tpNak (tpCount s p 2) p))
    ∧ (∀ (p : Nat),
        tpUp (s.tport p) = true →
        0 < (s.tport p).unacked →
        exec (.ackTimer p) s = .next ((s.onTp p (fun t => { t with unacked := 0 })).send (.tpAck p (s.tport p).ackedSeq false)))
    ∧ (∀ (p : Nat) (d : List Byte),
        let at_ := fun (o n : Nat) => ofBe ((d.drop o).take n);
        (s.tport p).st = .training →
        (s.tport p).step = 6 →
        at_ 0 2 = 1 →
        512 ≤ at_ 2 2 ∧ at_ 2 2 ≤ 2047 →
        512 ≤ at_ 4 2 ∧ at_ 4 2 ≤ 2047 →
        64 ≤ at_ 6 2 ∧ at_ 6 2 ≤ 2047 →
        at_ 12 4 = 0 →
        at_ 20 12 = 0 →
        exec (.param p d) s = .next (s.onTp p (fun t => { t with
          crAdvReq := at_ 2 2
          crAdvRsp := at_ 4 2
          crAdvCtl := at_ 6 2
          sumDelay := at_ 16 4 })))
    ∧ (∀ (p : Nat) (fibre : Nat) (lane : Nat),
        let fs := modAdd 12 (s.tport p).nextSeq 32;
        tpUp (s.tport p) = true →
        fibreBit (s.tport p).fibreDropped fibre = false →
        lastFibre (s.tport p) fibre = false →
        exec (.spareReq p fibre lane) s = .next (tpControl (s.onTp p (fun t => { t with swaps := t.swaps ++ [{ fibre := fibre, lane := lane, fs := some fs, dropFibre := fibreBit (s.tport p).spareUsed fibre }] })) p (.spareAck fibre lane fs)))
    ∧ (∀ (p : Nat) (fibre : Nat) (lane : Nat) (fs : Nat),
        exec (.spareAck p fibre lane fs) s = .next (s.onTp p (fun t => { t with swaps := t.swaps.map (fun w =>
          if w.fibre == fibre && w.lane == lane && w.fs.isNone then { w with fs := some fs } else w) })))
    ∧ (∀ (p : Nat) (seq : Nat) (data : List Byte),
        let a := s.onTp p (fun t => { t with telem := be 4 seq ++ fit 64 data, telemTime := s.clock.now, telemAt := some s.clock.cadence });
        tpUp (s.tport p) = true →
        (∀ x, (s.tport p).telemAt = some x → x + 10000 ≤ s.clock.cadence) →
        exec (.telemetry p seq data) s = .next (match (s.tport p).telemRing with
          | none => a
          | some (r, v) => if 2 ^ r.log2 ≤ modSub 32 r.prod r.cons then a
              else msixRaise ((hostPost a 0 none (r.base + 64 * (r.prod % 2 ^ r.log2)) (fit 64 data)).onTp p (fun t => { t with telemRing := some ({ r with prod := modAdd 32 r.prod 1 }, v) })) 0 v))
    ∧ (∀ (p : Nat) (w : TpSwap),
        let e := (s.onTp p (fun t => { t with swaps := t.swaps.erase w })).onTp p (fun t => { t with
          laneMap := tset t.laneMap (16 * w.fibre + w.lane) 16
          spareUsed := t.spareUsed ||| 2 ^ (3 - w.fibre)
          counts := bump t.counts 4 });
        (s.tport p).swaps.find? (fun w => w.fs.isSome) = some w →
        w.dropFibre = false →
        fibreBit (s.tport p).spareUsed w.fibre = false →
        exec (.laneSwap p) s = .next (tpEvent (rindLog (rindCount (rindMinute e (10 + p)) 0x19) 0x000E (134 + p) [byteOf p, byteOf w.fibre, byteOf w.lane]) p .ok false))
    ∧ (∀ (p : Nat) (w : TpSwap),
        let e := s.onTp p (fun t => { t with swaps := t.swaps.erase w });
        (s.tport p).swaps.find? (fun w => w.fs.isSome) = some w →
        (w.dropFibre || fibreBit (s.tport p).spareUsed w.fibre) = true →
        exec (.laneSwap p) s = .next (if lastFibre (s.tport p) w.fibre then tpLost e p else tpDrop (rindMinute e (10 + p)) p w.fibre))
    ∧ (∀ (p : Nat) (fibre : Nat) (lane : Nat),
        tpUp (s.tport p) = true →
        fibreBit (s.tport p).fibreDropped fibre = false →
        (s.tport p).swaps.any (fun w => w.fibre == fibre && w.lane == lane) = false →
        lastFibre (s.tport p) fibre = false →
        exec (.ringLockLoss p fibre lane) s = .next (tpControl (s.onTp p (fun t => { t with swaps := t.swaps ++ [{ fibre := fibre, lane := lane, fs := none, dropFibre := fibreBit (s.tport p).spareUsed fibre }] })) p (.spareReq fibre lane)))
    ∧ (∀ (p : Nat) (fibre : Nat) (lane : Nat),
        tpUp (s.tport p) = true →
        fibreBit (s.tport p).fibreDropped fibre = false →
        (s.tport p).swaps.any (fun w => w.fibre == fibre && w.lane == lane) = false →
        lastFibre (s.tport p) fibre = false →
        2 ≤ fibre →
        exec (.laneBerFault p fibre lane) s = .next (tpControl (s.onTp p (fun t => { t with swaps := t.swaps ++ [{ fibre := fibre, lane := lane, fs := none, dropFibre := fibreBit (s.tport p).spareUsed fibre }] })) p (.spareReq fibre lane)))
    ∧ (∀ (p : Nat) (fibre : Nat) (lane : Nat) (w : TpSwap),
        let e := s.onTp p (fun t => { t with swaps := t.swaps.erase w });
        (s.tport p).swaps.find? (fun w => w.fibre == fibre && w.lane == lane && w.fs.isNone) = some w →
        tpUp (s.tport p) = true →
        exec (.spareAckTimeout p fibre lane) s = .next (if (s.tport p).st == .degraded then tpLost e p else tpDrop (rindMinute e (10 + p)) p fibre))
    ∧ (∀ (p : Nat),
        tpUp (s.tport p) = true →
        exec (.combLoss p) s = .next (tpLeavePort (tpCount (s.onTp p (fun t => { t with combOk := false })) p 7) p .down .portDown))
    ∧ (∀ (p : Nat) (delay : Nat),
        let e := (s.onTp p (fun t => { t with step := t.step + 1, combOk := t.combOk || t.step == 2 })).send (.tpTrain p ((s.tport p).step + 1));
        (s.tport p).st = .training →
        (s.tport p).step < 6 →
        exec (.trainingStep p true delay) s = .next (if (s.tport p).step == 5 then e.send (.tpMsg p (.param deviceParam)) else e))
    ∧ (∀ (p : Nat) (delay : Nat),
        (s.tport p).st = .training →
        (s.tport p).step = 7 →
        s.tp.sumOpen = none →
        exec (.trainingStep p true delay) s = .next (tpPump (tpEnableDone (tpEvent ((s.send (.tpMsg p (.calPulse 51))).onTp p (fun t => { t with
          st := .active, step := 0, fails := 0, sumDelay := delay })) p .ok false) p .ok) p))
    ∧ (∀ (p : Nat),
        (s.tport p).st = .down →
        (s.tport p).retryWait = true →
        exec (.trainingRetry p) s = .next (tpTrain s p false false))

/-- The rows of the optical sums take place as the rules say that each meaning of the model names (among them 11 R318, 11 R319, 11 R321, 19 R527, 20 R540). -/
def Obligations.TrapezeSumEvents : Prop :=
  ∀ (s : State),
    (∀ (p : Nat) (job : Nat) (stepNo : Nat) (o : SumOp),
        let b : SumOp := { o with boundaries := if o.boundaries.contains p then o.boundaries else o.boundaries ++ [p] };
        let e := s.onTrapeze (fun t => { t with sumOpen := some b });
        s.tp.sumOpen = some o →
        o.scalar = false →
        o.won = false →
        bit o.members p = true →
        tpUp (s.tport p) = true →
        (∀ j, o.use = .press j → j = job) →
        stepNo = o.stepNo →
        exec (.boundary p job stepNo) s = .next (if o.reached && allBoundaries b then sumEnd e b .ok (sumCount b) else e))
    ∧ (∀ (light : Nat) (o : SumOp),
        s.tp.sumOpen = some o →
        o.won = false →
        (membersOf o.members).all (fun p => tpUp (s.tport p)) = true →
        o.scalar = true →
        exec (.sumWindow light) s = .next (sumEnd s o .ok (min 255 ((light + 500) / 1000 + min 51 o.value))))
    ∧ (∀ (light : Nat) (o : SumOp),
        let n := min 5 ((light + 1000 * b2n (unitOn s o) + 500) / 1000);
        s.tp.sumOpen = some o →
        o.won = false →
        (membersOf o.members).all (fun p => tpUp (s.tport p)) = true →
        o.scalar = false →
        sumCount o ≤ n →
        exec (.sumWindow light) s = .next (if sumCount o < n then sumEnd s o .sumExcess n
          else if allBoundaries o then sumEnd s o .ok n else s.onTrapeze (fun t => { t with sumOpen := some { o with reached := true } })))
    ∧ (∀ (o : SumOp),
        s.tp.sumOpen = some o →
        o.reached = true →
        o.won = false →
        allBoundaries o = false →
        exec (.sumConfirmTimeout) s = .next (sumEnd (((membersOf o.members).filter (fun p => !o.boundaries.contains p)).foldl (fun s p => tpCount s p 12) s) o .sumMismatch 0))
    ∧ (∀ (delays : List (Nat × Nat)),
        s.tp.sumOpen = none →
        exec (.sumCalibration delays) s = .next (calibrate s delays))
    ∧ (∀ (delays : List (Nat × Nat)) (o : SumOp),
        s.tp.sumOpen = some o →
        exec (.sumCalibration delays) s = .next (s.onTrapeze (fun t => { t with calDue := some delays })))
    ∧ (∀ (o : SumOp) (f k : Nat),
        s.tp.sumOpen = some o →
        o.use = .command f k →
        o.scalar = false →
        o.reached = false →
        exec (.trapezeSumTimeout) s = .next (sumEnd s o .partnerTimeout 0))

/-- The rows of Direct Placement take place as the rules say that each meaning of the model names (among them 04 R102, 12 R328, 12 R333, 12 R335, 12 R337, 12 R339, 12 R342, 12 R343, 12 R344, 12 R346, 12 R348, 24 R627). -/
def Obligations.GdpEvents : Prop :=
  ∀ (s : State),
    (∀ (n : Nat) (ext : List Byte) (c : ConnCfg) (g : GdpConn) (d : GdpDesc) (ds : List GdpDesc),
        let e := s.onConn n (fun g => { g with waiting := ds });
        connCfg s n = some c →
        tget s.gdp.conns n = some g →
        g.waiting = d :: ds →
        usedOf s c.part none 8 + 1 ≤ limitOf s c.part 8 →
        g.state = .open_ →
        (d.fence = true → g.ops = []) →
        mayStart s g = true →
        g.sent.any (·.lost) = false →
        pressOwns s n = false →
        pressHolds s n = false →
        gdpOpBad s c d = none →
        d.op = 2 →
        exec (.gdpOpStart n ext) s = .next (gdpStart e n c d false (be 2 d.localRegion ++ be 2 0 ++ be 4 (match tget (cfgAt e c.part 140).gdp.regions d.localRegion with | some r => r.set.key | none => 0) ++ be 8 d.localOffset) d.remoteRegion d.remoteKey d.length d.remoteOffset))
    ∧ (∀ (n : Nat) (ext : List Byte) (c : ConnCfg) (g : GdpConn) (d : GdpDesc) (ds : List GdpDesc),
        let e := s.onConn n (fun g => { g with waiting := ds });
        connCfg s n = some c →
        tget s.gdp.conns n = some g →
        g.waiting = d :: ds →
        usedOf s c.part none 8 + 1 ≤ limitOf s c.part 8 →
        g.state = .open_ →
        (d.fence = true → g.ops = []) →
        mayStart s g = true →
        g.sent.any (·.lost) = false →
        pressOwns s n = false →
        pressHolds s n = false →
        gdpOpBad s c d = none →
        d.op = 4 →
        exec (.gdpOpStart n ext) s = .next (gdpStart e n c d false (le 8 d.operand0) d.remoteRegion d.remoteKey 8 d.remoteOffset))
    ∧ (∀ (n : Nat) (ext : List Byte) (c : ConnCfg) (g : GdpConn) (d : GdpDesc) (ds : List GdpDesc),
        let e := s.onConn n (fun g => { g with waiting := ds });
        connCfg s n = some c →
        tget s.gdp.conns n = some g →
        g.waiting = d :: ds →
        usedOf s c.part none 8 + 1 ≤ limitOf s c.part 8 →
        g.state = .open_ →
        (d.fence = true → g.ops = []) →
        mayStart s g = true →
        g.sent.any (·.lost) = false →
        pressOwns s n = false →
        pressHolds s n = false →
        gdpOpBad s c d = none →
        d.op = 5 →
        exec (.gdpOpStart n ext) s = .next (gdpStart e n c d false (le 8 d.operand0 ++ le 8 d.operand1) d.remoteRegion d.remoteKey 8 d.remoteOffset))
    ∧ (∀ (n : Nat) (ext : List Byte) (c : ConnCfg) (g : GdpConn) (d : GdpDesc) (ds : List GdpDesc),
        let e := s.onConn n (fun g => { g with waiting := ds });
        let here := (regionUse e c d.localRegion d.localOffset d.length none (·.loc)).getD 0;
        let r := if d.length == 0 then (Status.ok, [], e) else gdpRead e c here d.length ext;
        connCfg s n = some c →
        tget s.gdp.conns n = some g →
        g.waiting = d :: ds →
        usedOf s c.part none 8 + 1 ≤ limitOf s c.part 8 →
        g.state = .open_ →
        (d.fence = true → g.ops = []) →
        mayStart s g = true →
        g.sent.any (·.lost) = false →
        pressOwns s n = false →
        pressHolds s n = false →
        gdpOpBad s c d = none →
        d.op = 1 →
        r.1 = .ok →
        exec (.gdpOpStart n ext) s = .next (gdpStart r.2.2 n c d false r.2.1 d.remoteRegion d.remoteKey d.length d.remoteOffset))
    ∧ (∀ (n : Nat) (ext : List Byte) (c : ConnCfg) (g : GdpConn) (d : GdpDesc) (ds : List GdpDesc),
        let e := s.onConn n (fun g => { g with waiting := ds });
        let here := (regionUse e c d.localRegion d.localOffset d.length none (·.loc)).getD 0;
        let r := if d.length == 0 then (Status.ok, [], e) else gdpRead e c here d.length ext;
        connCfg s n = some c →
        tget s.gdp.conns n = some g →
        g.waiting = d :: ds →
        usedOf s c.part none 8 + 1 ≤ limitOf s c.part 8 →
        g.state = .open_ →
        (d.fence = true → g.ops = []) →
        mayStart s g = true →
        g.sent.any (·.lost) = false →
        pressOwns s n = false →
        pressHolds s n = false →
        gdpOpBad s c d = none →
        d.op = 7 →
        r.1 = .ok →
        exec (.gdpOpStart n ext) s = .next (gdpStart r.2.2 n c d false r.2.1 0 g.nextSsn d.length 0))
    ∧ (∀ (h : GdpHdr) (pay : List Byte) (c : ConnCfg) (d : List Byte) (e : State) (a : Nat),
        let r := gdpPlace e h.dstConn c 0 h.msn a (fit h.len d);
        gdpData s h pay = .inl (c, d, e) →
        bitmapFree e c h 1 = true →
        msgStatus e h.dstConn 1 h.msn = .ok →
        regionUse e c h.region h.offset h.len (some h.rkey) (·.rWrite) = some a →
        exec (.gdpWrite h pay) s = .next (gdpDrain (gdpPlaced r.2.2 h c 1 r.1 r.2.1) h.dstConn))
    ∧ (∀ (h : GdpHdr) (pay : List Byte) (ext : List Byte) (c : ConnCfg) (d : List Byte) (e : State) (a : Nat),
        let r := if h.msgLen == 0 then (Status.ok, [], e) else gdpRead e c a h.msgLen ext;
        gdpData s h pay = .inl (c, d, e) →
        bitmapFree e c h 2 = true →
        serviceFull e c = false →
        regionUse e c h.region h.offset h.msgLen (some h.rkey) (·.rRead) = some a →
        r.1 = .ok →
        exec (.readReq h pay ext none) s = .next (gdpDrain ((gdpSingle r.2.2 h false).onConn h.dstConn (fun g => { g with jobs := g.jobs ++ [{ op := 3, msn := h.msn, data := some r.2.1, msgLen := h.msgLen, region := ofBe (d.take 2), rkey := ofBe ((d.drop 4).take 4), offset := ofBe ((d.drop 8).take 8) % 2 ^ 48, nextK := 0, service := true }] })) h.dstConn))
    ∧ (∀ (h : GdpHdr) (pay : List Byte) (c : ConnCfg) (d : List Byte) (e : State) (a : Nat),
        let r := gdpPlace e h.dstConn c 1 h.msn a (fit h.len d);
        gdpData s h pay = .inl (c, d, e) →
        bitmapFree e c h 3 = true →
        (connOf e h.dstConn).ops.any (fun o => o.msn == h.msn && o.desc.op == 2) = true →
        msgStatus e h.dstConn 3 h.msn = .ok →
        regionUse e c h.region h.offset h.len (some h.rkey) (·.loc) = some a →
        exec (.readResp h pay) s = .next (gdpDrain (gdpReadDone (gdpPlaced r.2.2 h c 3 r.1 r.2.1) h.dstConn c h.msn) h.dstConn))
    ∧ (∀ (h : GdpHdr) (pay : List Byte) (c : ConnCfg) (d : List Byte) (e : State) (a : Nat),
        let r := atomicAt e 13 (gdpActor e c) a (fun old => modAdd 64 old (ofLe (d.take 8)));
        gdpData s h pay = .inl (c, d, e) →
        bitmapFree e c h 4 = true →
        serviceFull e c = false →
        regionUse e c h.region h.offset 8 (some h.rkey) (·.rAtomic) = some a →
        (∀ p o, region a ≠ .trapeze p o) →
        r.1 = .ok →
        exec (.gdpFadd h pay) s = .next (gdpDrain ((gdpSingle r.2.2 h false).onConn h.dstConn (fun g => { g with
          jobs := g.jobs ++ [{ op := 6, msn := h.msn, data := some (le 8 r.2.1), msgLen := 8, region := 0, rkey := 0, offset := 0, nextK := 0, service := true }] })) h.dstConn))
    ∧ (∀ (h : GdpHdr) (pay : List Byte) (c : ConnCfg) (d : List Byte) (e : State) (a p o : Nat) (w : TpWindow),
        gdpData s h pay = .inl (c, d, e) → bitmapFree e c h 4 = true → serviceFull e c = false → regionUse e c h.region h.offset 8 (some h.rkey) (·.rAtomic) = some a →
        region a = .trapeze p o → accessCheck e (gdpActor e c) a 8 .atomic = .ok → outWindow (gdpActor e c).cfg p o = some w →
        exec (.gdpFadd h pay) s = .next (gdpDrain ((gdpSingle (tpEnqueue e p (.fadd 0 (gdpActor e c).part (gdpActor e c).tenant (accAddr w o) (ofLe (d.take 8))) (.gdp h.dstConn 2 h.msn)) h false).onConn h.dstConn (fun g => { g with
          jobs := g.jobs ++ [{ op := 6, msn := h.msn, data := none, msgLen := 8, region := 0, rkey := 0, offset := 0, nextK := 0, service := true }] })) h.dstConn))
    ∧ (∀ (h : GdpHdr) (pay : List Byte) (c : ConnCfg) (d : List Byte) (e : State) (a p o : Nat) (w : TpWindow),
        gdpData s h pay = .inl (c, d, e) → bitmapFree e c h 4 = true → serviceFull e c = false → regionUse e c h.region h.offset 8 (some h.rkey) (·.rAtomic) = some a →
        region a = .trapeze p o → accessCheck e (gdpActor e c) a 8 .atomic = .ok → outWindow (gdpActor e c).cfg p o = some w →
        exec (.gdpCas h pay) s = .next (gdpDrain ((gdpSingle (tpEnqueue e p (.cas 0 (gdpActor e c).part (gdpActor e c).tenant (accAddr w o) (ofLe (d.take 8)) (ofLe ((d.drop 8).take 8))) (.gdp h.dstConn 2 h.msn)) h false).onConn h.dstConn (fun g => { g with
          jobs := g.jobs ++ [{ op := 6, msn := h.msn, data := none, msgLen := 8, region := 0, rkey := 0, offset := 0, nextK := 0, service := true }] })) h.dstConn))
    ∧ (∀ (h : GdpHdr) (pay : List Byte) (c : ConnCfg) (d : List Byte) (e : State) (a : Nat),
        let r := atomicAt e 13 (gdpActor e c) a (fun old => if old == ofLe (d.take 8) then ofLe ((d.drop 8).take 8) else old);
        gdpData s h pay = .inl (c, d, e) →
        bitmapFree e c h 4 = true →
        serviceFull e c = false →
        regionUse e c h.region h.offset 8 (some h.rkey) (·.rAtomic) = some a →
        (∀ p o, region a ≠ .trapeze p o) →
        r.1 = .ok →
        exec (.gdpCas h pay) s = .next (gdpDrain ((gdpSingle r.2.2 h false).onConn h.dstConn (fun g => { g with
          jobs := g.jobs ++ [{ op := 6, msn := h.msn, data := some (le 8 r.2.1), msgLen := 8, region := 0, rkey := 0, offset := 0, nextK := 0, service := true }] })) h.dstConn))
    ∧ (∀ (h : GdpHdr) (pay : List Byte) (c : ConnCfg) (d : List Byte) (e : State) (o : GdpOp),
        gdpData s h pay = .inl (c, d, e) →
        bitmapFree e c h 6 = true →
        (connOf (gdpSingle e h false) h.dstConn).ops.find? (fun o => o.msn == h.msn && (o.desc.op == 4 || o.desc.op == 5)) = some o →
        exec (.atomicResp h pay) s = .next (gdpDrain (gdpFinish (gdpSingle e h false) h.dstConn o .ok (ofLe (d.take 8))) h.dstConn))
    ∧ (∀ (h : GdpHdr) (pay : List Byte) (c : ConnCfg) (d : List Byte) (e : State) (b : GdpRecv) (a : Nat),
        let r := gdpPlace e h.dstConn c 0 h.msn a (fit h.len d);
        gdpData s h pay = .inl (c, d, e) →
        bitmapFree e c h 7 = true →
        pressOwns e h.dstConn = false →
        tget (connOf e h.dstConn).recvs h.rkey = some b →
        msgStatus e h.dstConn 7 h.msn = .ok →
        h.offset + h.len ≤ b.length →
        regionUse e c b.region (b.offset + h.offset) h.len none (·.loc) = some a →
        exec (.gdpSend h pay) s = .next (gdpDrain (gdpPlaced r.2.2 h c 7 (if r.1 == .ok then (if b.length < h.msgLen then Status.gdpLength else .ok) else r.1) r.2.1) h.dstConn))
    ∧ (∀ (h : GdpHdr) (b : GdpAckBody) (x : ConnCfg × List Byte) (e : State),
        gdpAdmit s h false [] = (some x, e) →
        exec (.gdpAck h b) s = .next (gdpDrain (ackComps (ackSender e h.dstConn x.1 b) h.dstConn b) h.dstConn))
    ∧ (∀ (h : GdpHdr) (localConn : Nat) (log2Payload : Nat) (alg : Nat) (prot : Bool) (x : ConnCfg × List Byte) (e : State),
        gdpAdmit s h false [] = (some x, e) →
        (connOf e h.dstConn).state = .connecting →
        localConn = x.1.blk.peerConn →
        log2Payload = x.1.blk.log2Payload →
        alg = x.1.blk.alg →
        prot = x.1.blk.prot →
        helloUnlike s h = false →
        exec (.hello h localConn log2Payload alg prot) s = .next (gdpDrain (gdpOpen e h.dstConn x.1) h.dstConn))
    ∧ (∀ (h : GdpHdr) (x : ConnCfg × List Byte) (e : State),
        gdpAdmit s h false [] = (some x, e) →
        ((connOf e h.dstConn).state = .open_ ∨ (connOf e h.dstConn).state = .draining) →
        exec (.gdpClosePacket h) s = .next (gdpFail e h.dstConn .gdpPeerClosed))
    ∧ (∀ (n : Nat) (c : ConnCfg) (g : GdpConn),
        connCfg s n = some c →
        tget s.gdp.conns n = some g →
        g.state = .connecting →
        exec (.helloTimer n) s = .next (gdpEmit s n c 0 .plain (gdpHeader c 3 0 0 0 s.clock.now 0 0 0 8 0 0 0 0 false)
          (be 2 n ++ [byteOf c.blk.log2Payload, byteOf (b2n c.blk.prot), byteOf c.blk.alg, byteOf c.blk.paths] ++ zeros 2) false))
    ∧ (∀ (n : Nat) (c : ConnCfg) (g : GdpConn),
        connCfg s n = some c →
        tget s.gdp.conns n = some g →
        g.state = .draining →
        1 ≤ g.closes →
        exec (.closeResendTimer n) s = .next (gdpSendClose s n c))
    ∧ (∀ (n : Nat) (g : GdpConn) (d : Nat),
        tget s.gdp.conns n = some g →
        g.ackDueAt = some d →
        exec (.ackDelayTimer n) s = .next (gdpAck s n g.echo))
    ∧ (∀ (n : Nat) (psn : Nat) (c : ConnCfg) (g : GdpConn) (x : GdpSent),
        connCfg s n = some c →
        tget s.gdp.conns n = some g →
        g.sent.find? (fun x => x.psn == psn) = some x →
        x.lost = false →
        x.at_ + rtoOf g x.retries ≤ s.clock.cadence →
        exec (.gdpRto n psn) s = .next (gdpDrain (gdpMarkLost (s.onConn n (fun g => { g with window := max c.blk.winMin (g.window / 2), slowStart := false })) n psn) n))
    ∧ (∀ (n : Nat) (g : GdpConn),
        tget s.gdp.conns n = some g →
        g.state ≠ .error →
        (g.state = .open_ → g.ops ≠ []) →
        exec (.gdpProgressTimeout n) s = .next (gdpFail s n .gdpTimeout))
    ∧ (∀ (n : Nat) (msn : Nat) (c : ConnCfg) (m : GdpMsg),
        connCfg s n = some c →
        (connOf s n).msgs.find? (sameMsg 1 msn) = some m →
        gdpWhole c m = true →
        m.writes = 0 →
        m.op ≠ 7 →
        exec (.gdpMessageComplete n msn) s = .next (gdpDrain (gdpComp (s.onConn n (fun g => { g with msgs := g.msgs.filter (fun x => !sameMsg 1 msn x) })) n msn (compStatus m.status)) n))
    ∧ (∀ (n : Nat) (g : GdpConn),
        tget s.gdp.conns n = some g →
        g.paced = true →
        exec (.gdpPacedSend n) s = .next (gdpDrain (s.onConn n (fun g => { g with paceAt := min g.paceAt s.clock.cadence })) n))

/-- The rows of the Press take place as the rules say that each meaning of the model names (among them 18 R497, 18 R498, 20 R540, 20 R541, 20 R543, 20 R544, 20 R545, 20 R546, 20 R550). -/
def Obligations.PressEvents : Prop :=
  ∀ (s : State),
    (∀ (m : PressMsg) (j : PressJob) (o : PressOp),
        tget s.press.jobs m.job = some j →
        j.op = some o →
        m.magicOk = true →
        j.arm.peers.contains m.conn = true →
        m.step = o.step →
        m.generation = o.generation →
        exec (.pressReady m) s = .next (pressReadyCheck (onOp s m.job (fun o => { o with ready := addPeer o.ready m.conn })) m.job))
    ∧ (∀ (m : PressMsg) (j : PressJob) (o : PressOp),
        tget s.press.jobs m.job = some j →
        j.op = some o →
        m.magicOk = true →
        j.arm.peers.contains m.conn = true →
        m.step = o.step →
        m.generation = o.generation →
        exec (.pressDrained m) s = .next (pressDrainCheck (onOp s m.job (fun o => { o with drained := addPeer o.drained m.conn })) m.job))
    ∧ (∀ (m : PressMsg) (j : PressJob) (o : PressOp),
        tget s.press.jobs m.job = some j →
        j.op = some o →
        m.magicOk = true →
        j.arm.peers.contains m.conn = true →
        m.step = o.step →
        m.generation = o.generation →
        exec (.pressCopied m) s = .next (pressReleaseCheck (onOp s m.job (fun o => { o with copied := addPeer o.copied m.conn })) m.job))
    ∧ (∀ (m : PressMsg) (j : PressJob) (o : PressOp),
        tget s.press.jobs m.job = some j →
        j.op = some o →
        m.magicOk = true →
        j.arm.peers.contains m.conn = true →
        m.step = o.step →
        m.generation = o.generation →
        o.stage ≠ .flush →
        exec (.pressAbandon m) s = .next (pressAbort s m.job m.status .pressSetTimeout))
    ∧ (∀ (jn : Nat) (j : PressJob) (o : PressOp) ,
        tget s.press.jobs jn = some j →
        j.op = some o →
        o.stage = .drain →
        o.sentDrained = false →
        pressDrained s j o = true →
        exec (.pressDrainDone jn) s = .next (pressDrainCheck (onOp (pressSend s jn j o .drained 0 (fun _ => true)) jn (fun o => { o with sentDrained := true })) jn))
    ∧ (∀ (jn : Nat) (data : List (List Byte)) (j : PressJob) (o : PressOp) ,
        tget s.press.jobs jn = some j →
        j.op = some o →
        o.stage = .copy →
        o.copying = false →
        o.restore = true →
        exec (.pressCopyDone jn data none) s = .next (copyIn s jn j o data))
    ∧ (∀ (jn : Nat) (data : List (List Byte)) (j : PressJob) (o : PressOp) ,
        tget s.press.jobs jn = some j →
        j.op = some o →
        o.stage = .copy →
        o.copying = false →
        o.restore = false →
        exec (.pressCopyDone jn data none) s = .next (copyOut s jn j o data))
    ∧ (∀ (jn : Nat) (crcs : List Nat) (manifestOk : Bool) (j : PressJob) (o : PressOp) ,
        tget s.press.jobs jn = some j →
        j.op = some o →
        o.stage = .verify →
        o.restore = true →
        lowestBad o.manifest.regions (o.manifest.regions.map (·.crc)) crcs = none →
        exec (.pressVerifyDone jn crcs manifestOk none) s = .next (pressNext s jn o .copy))
    ∧ (∀ (jn : Nat) (crcs : List Nat) (j : PressJob) (o : PressOp) ,
        let a := (stageWrite (stageWrite s j.arm 42 [1]) j.arm 52 (le 4 0xFFFFFFFF)).onJob jn (fun j => { j with generation := modAdd 64 j.generation 1 });
        let b := pressRecord a jn 5 0;
        tget s.press.jobs jn = some j →
        j.op = some o →
        o.stage = .verify →
        o.restore = false →
        lowestBad j.arm.regions o.crcs crcs = none →
        exec (.pressVerifyDone jn crcs true none) s = .next (if o.cancel then pressCancelled b jn 7 else pressCopiedOut b jn))
    ∧ (∀ (jn : Nat) (st : Status) (j : PressJob) (o : PressOp) ,
        let st2 := if j.arm.flushKind == 1 && !thas s.cfg.stor.volumes j.arm.flushTarget then .volumeUnknown else st;
        let a := pressRecord s jn 7 st2.code;
        tget s.press.jobs jn = some j →
        j.op = some o →
        o.stage = .flush →
        exec (.pressFlushDone jn st) s = .next (pressEnd (if st2 == .ok then a else pressFailLog a jn 7 st2) jn o st2 (if st2 == .ok then 7 else 6) 0))
    ∧ (∀ (jn : Nat) (j : PressJob) (o : PressOp),
        tget s.press.jobs jn = some j →
        j.op = some o →
        (o.stage = .set ∨ o.stage = .drain) →
        exec (.pressSetTimeout jn) s = .next (pressFail s jn .pressSetTimeout))
    ∧ (∀ (jn : Nat) (j : PressJob) (o : PressOp) ,
        tget s.press.jobs jn = some j →
        j.op = some o →
        o.stage = .release →
        exec (.pressReleaseTimeout jn) s = .next (pressFail s jn .pressSetTimeout))

/-- The rows of the mover and the codec take place as the rules say that each meaning of the model names (among them 13 R357, 13 R358, 13 R362, 13 R363, 13 R364, 14 R382, 14 R384, 14 R385, 14 R387, 14 R388, 14 R389, 14 R393). -/
def Obligations.MoverAndCodecEvents : Prop :=
  ∀ (s : State),
    (∀ (engine : Nat) (p q : Nat) (m : MvQueue) (d : MvDesc) (ds : List MvDesc),
        let e := tgetD s.mover.engines engine {};
        let qs := (s.mover.queues.filter (fun x => moverEligible s x.1 x.2)).map (fun x => (x.1, x.2.own.part));
        let parts := ((List.range 16).filter (fun p => qs.any (fun x => x.2 == p) && (!s.fixedMode || p == engine)));
        let a := (s.onMvq q (fun m => { m with waiting := ds })).onMover (fun x => { x with
            lastQueue := tset x.lastQueue p q
            engines := tupd x.engines engine {} (fun e => { e with lastPart := p }) });
        let r : MvRun := { queue := q, desc := d, staged := stagedCopy d, epoch := epochAt a p 141, serial := a.mover.nextSerial };
        let b := a.onMover (fun x => { x with
            nextSerial := x.nextSerial + 1
            engines := tupd x.engines engine {} (fun e => { e with runs := e.runs ++ [r] }) });
        let f := if stagedCopy d then b.onMvq q (fun m => { m with counts := bump m.counts 2 }) else b;
        firstAfter parts e.lastPart = some p →
        firstAfter ((qs.filter (fun x => x.2 == p)).map (·.1)) (tgetD s.mover.lastQueue p 1024) = some q →
        e.runs.length < 4 →
        quarantined s 141 = false →
        tget s.mover.queues q = some m →
        m.waiting = d :: ds →
        moverChecks d = none →
        exec (.moverStart engine) s = .next (if bufferBusy (tgetD f.mover.engines engine {}) r then f else moverReads f (moverMaster engine) (runActor a m r) engine r))
    ∧ (∀ (engine : Nat) (i : Nat) (ext : List Byte) (srcFail : Option (Status × Nat)) (r : MvRun) (m : MvQueue),
        let d := r.desc;
        let w := runActor s m r;
        let dstRows := rowsOf d.dst d.dstPitchZ d.dstPitchY d.y d.z;
        let rd : Status × Nat × List (List Byte) × State :=
          if d.op == 2 then (.ok, 0, dstRows.map (fun _ => fillRow d.src d.x), s)
          else match r.fail, srcFail with
            | some f, _ => (f.1, f.2.1, [], s)
            | none, some f => (f.1, f.2, [], s)
            | none, none => readRows s (moverMaster engine) w d.srcHost d.x ext r.got (rowsOf d.src d.srcPitchZ d.srcPitchY d.y d.z);
        let wr := writeRows rd.2.2.2 (moverMaster engine) w engine r.serial m.own d.dstHost (roOf s m.own.fn d.roHint) (dstRows.zip rd.2.2.1);
        let x : MvRun := { r with
            moved := true
            writes := wr.2.2.2
            got := []
            fail := if wr.1 == .ok then none else some (wr.1, wr.2.1, true) };
        (tgetD s.mover.engines engine {}).runs[i]? = some r →
        tget s.mover.queues r.queue = some m →
        r.moved = false →
        (0 < r.reads → r.fail.isSome = true) →
        bufferBusy (tgetD s.mover.engines engine {}) r = false →
        rd.1 = .ok →
        exec (.moverComplete engine i ext srcFail) s = .next (if wr.2.2.2 == 0 then moverEnd wr.2.2.1 engine x else onMvRun wr.2.2.1 engine r.serial (fun _ => x)))
    ∧ (∀ (n : Nat) (x : Stream) (d : CdDesc) (ds : List CdDesc),
        let a := s.onStream n (fun x => { x with waiting := ds });
        let p : Picture := { stream := n, desc := d, epoch := epochAt a x.own.part (142 + n / 256), buf := if d.typ == 3 then some d.buf else none, chunk := none, ready := false, order := 0, waitFrom := 0 };
        let e := a.onStream n (fun x => { x with
            pics := x.pics ++ [p]
            bufs := if d.typ == 3 then tmod x.bufs d.buf (fun b => { b with held := true, busy := true }) else x.bufs });
        tget s.codec.streams n = some x →
        x.waiting = d :: ds →
        quarantined s (142 + n / 256) = false →
        d.rsvBad = false →
        (match d.typ with
          | 1 => x.own.blk.dir = 0 ∧ d.length ≠ 0 ∧ d.length ≤ 268435456
          | 3 => x.own.blk.dir ≠ 0 ∧ thas x.bufs d.buf = true
          | 5 => True
          | _ => False) →
        exec (.codecDescriptorTake n) s = .next (codecKick e n))
    ∧ (∀ (n : Nat) (x : Stream) (d : CdDesc) (ds : List CdDesc),
        let a := s.onStream n (fun x => { x with waiting := ds });
        tget s.codec.streams n = some x →
        x.waiting = d :: ds →
        quarantined s (142 + n / 256) = false →
        d.rsvBad = false →
        d.typ = 4 →
        x.own.blk.dir ≠ 0 →
        d.length ≠ 0 →
        d.length ≤ 268435456 →
        exec (.codecDescriptorTake n) s = .next (codecKick (a.onStream n (fun x => { x with chunks := x.chunks ++ [d] })) n))
    ∧ (∀ (n : Nat) (x : Stream) (d : CdDesc) (ds : List CdDesc),
        let a := s.onStream n (fun x => { x with waiting := ds });
        tget s.codec.streams n = some x →
        x.waiting = d :: ds →
        quarantined s (142 + n / 256) = false →
        d.rsvBad = false →
        d.typ = 2 →
        x.own.blk.dir = 0 →
        thas x.bufs d.buf = true →
        exec (.codecDescriptorTake n) s = .next (codecKick (a.onStream n (fun x => { x with bufs := tmod x.bufs d.buf (fun b =>
          if b.held then b else { b with held := true, busy := false, output := none, noRef := false }) })) n))
    ∧ (∀ (i : Nat) (e : Stream × Picture),
        (instOf s i).running = none →
        quarantined s (142 + i) = false →
        bestPic s (grantable s i) = some e →
        exec (.codecPictureGrant i) s = .next (s.onInst i (fun x => { x with running := some e.2.stream, grantedAt := s.clock.cadence })))
    ∧ (∀ (i : Nat) (n : Nat) (y : Stream) (p : Picture) (ps : List Picture) (e : Stream × Picture),
        (instOf s i).running = some n →
        tget s.codec.streams n = some y →
        y.pics = p :: ps →
        (instCfg s.cfg i).exclusive = false →
        bestPic s ((grantable s i).filter (fun e => e.2.stream != n)) = some e →
        effPriority s y p (instOf s i).grantedAt < effPriority s e.1 e.2 s.clock.cadence →
        exec (.codecTakeoverPoint i) s = .next ((codecSuspend s i).onInst i (fun x => { x with running := some e.2.stream, grantedAt := s.clock.cadence })))
    ∧ (∀ (i : Nat) (r : CdResult) (n : Nat) (y : Stream) (p : Picture) (ps : List Picture),
        (instOf s i).running = some n →
        tget s.codec.streams n = some y →
        y.pics = p :: ps →
        exec (.codecPictureEnd i r) s = .next (codecRelease (codecKick (codecSettled (if p.desc.typ == 5 then eosEnd s i n p r else if y.own.blk.dir == 0 then decodeEnd s i n y p r else encodeEnd s i n y p r) n) n) n))
    ∧ (∀ (i : Nat) (n : Nat) (y : Stream) (p : Picture) (ps : List Picture),
        let w : Actor := { part := y.own.part, tenant := y.own.tenant, priv := false, cfg := cfgOf s y.own.part p.epoch };
        let dec := y.own.blk.dir == 0;
        let k := p.buf.getD 0;
        let a := match tget y.bufs k with
          | some b => if dec && p.desc.typ == 1 then (planes y.own.blk b.luma b.chroma b.pitch).foldl (fun s x => spoilRows s w x.2 false [x.1]) s else s
          | none => s;
        let c := (codecTakeOff a i n).onStream n (fun y => { y with bufs := tmod y.bufs k (fun b => { b with busy := false, noRef := dec, held := dec }), forceKey := y.forceKey || !dec });
        (instOf s i).running = some n →
        tget s.codec.streams n = some y →
        y.pics = p :: ps →
        exec (.streamWatchdog i) s = .next (codecRelease (codecKick (codecSettled (codecRecord (rindCount c 0x1E) n { kind := kindOf y p.desc, status := 4, pts := p.desc.pts, tag := p.desc.tag, signal := p.desc.signal, picture := y.pictures, buf := k }) n) n) n))
    ∧ (∀ (i : Nat),
        s.fixedMode = true →
        exec (.codecSlotEnd i) s = .next ((codecSuspend s i).onInst i (fun x => { x with slot := (x.slot + 1) % 17 })))
    ∧ (∀ (i : Nat),
        (instCfg s.cfg i).exclusive = true →
        (instOf s i).running = none →
        grantable s i = [] →
        exec (.exclIdleExpire i) s = .next (exclNext s i))

/-- The rows of storage take place as the rules say that each meaning of the model names (among them 15 R401, 15 R402, 15 R405, 15 R409, 15 R410, 15 R412, 15 R417, 15 R419, 15 R420, 15 R421, 15 R422). -/
def Obligations.StorageEvents : Prop :=
  ∀ (s : State),
    (∀ (q : Nat) (ext : List Byte) (fail : Nat) (x0 : StQueue) (d : StDesc) (ds : List StDesc) (v : VolumeCfg),
        let vols := (cfgOf s x0.own.part (epochAt s x0.own.part 144)).stor.volumes;
        tget s.stor.queues q = some x0 →
        x0.waiting = d :: ds →
        quarantined s 144 = false →
        (d.fence = true → x0.runs = []) →
        x0.runs.length < 64 →
        storChecks s vols x0.own.part (fun _ => x0.own.tenant) (x0.own.q.bounceCells != 0) d = none →
        tget vols d.volume = some v →
        exec (.storStart q ext fail) s = .next (storKick ((s.onStq q (fun x => { x with waiting := ds })).onStq q (fun x => { x with nextCount := x.nextCount + 1, runs := x.runs ++ [{ count := x0.nextCount, desc := d, vol := v, epoch := epochAt s x0.own.part 144, parts := 0, next := 0, total := d.blocksM1 + 1, status := 0, nvme := 0 }] })) q ext fail))
    ∧ (∀ (drive : Nat) (id : Nat) (nvme : Nat) (ext : List Byte) (fail : Nat) (c : DriveCmd),
        let e := cmdEnd (onCmds s 0 drive (fun cs => cs.filter (fun x => x.id != id))) c (if c.aborted then 11 else if nvme == 0 then 0 else 10) nvme [];
        driveCmdOf s drive id = some c →
        exec (.driveCompletion drive id nvme ext fail) s = .next (tcpIssueAll (match c.use with | .queue q _ => storKick e q ext fail | .tcp _ _ => e)))
    ∧ (∀ (drive : Nat) (id : Nat) (c : DriveCmd),
        driveCmdOf s drive id = some c →
        c.aborted = false →
        exec (.storageTimeout drive id) s = .next ((rindCount (s.onDrive drive (fun d => { d with
          timeouts := modAdd 64 d.timeouts 1
          cmds := d.cmds.map (fun x => if x.id == id then { x with aborted := true } else x) })) 0x1C).send (.driveAbort drive id)))
    ∧ (∀ (drive : Nat) (id : Nat) (c : DriveCmd),
        let a := s.onDrive drive (fun d => { d with st := .resetting, resets := modAdd 64 d.resets 1 });
        let cause := draw (backingEnd (a.send (.driveReset drive)) 0 drive (fun c => if c.aborted then 11 else 12) 12);
        driveCmdOf s drive id = some c →
        c.aborted = true →
        exec (.abortConfirmTimeout drive id) s = .next (rindLog (driveEvent (volumesOffline cause.2 0 drive (cause.1 % 65536)) drive 4) 0x0010 144 [byteOf drive, 4]))
    ∧ (∀ (drive : Nat),
        (tgetD s.stor.drives drive {}).st = .resetting →
        exec (.driveReinitDone drive) s = .next (volumesReady (driveEvent (s.onDrive drive (fun d => { d with st := .up })) drive 0) 0 drive (tgetD s.stor.drives drive {}).spaces))
    ∧ (∀ (drive : Nat),
        exec (.driveLoss drive) s = .next (driveLost s drive))
    ∧ (∀ (drive : Nat) (i : DriveInfo),
        let d := tgetD s.stor.drives drive {};
        let e := driveEvent (s.onDrive drive (fun d => { d with st := .up, serial := i.serial, mdts := i.mdts, spaces := usedSpaces i.spaces, cmds := [] })) drive 0;
        ingress s = true →
        driveLink s.cfg drive = true →
        d.st ≠ .up →
        d.st ≠ .resetting →
        i.supported = true →
        exec (.driveLinkUp drive i) s = .next (if !d.spaces.isEmpty && !(d.serial == i.serial && sameSpaces d.spaces (usedSpaces i.spaces)) then volumesDead e 0 drive Status.driveLost.code else volumesReady e 0 drive (usedSpaces i.spaces)))
    ∧ (∀ (drive : Nat) (id : Nat) (off : Nat) (len : Nat) (data : List Byte) (c : DriveCmd) (a b : Nat),
        (tgetD s.stor.drives drive {}).st = .up →
        driveCmdOf s drive id = some c →
        c.use = .tcp a b →
        off + len ≤ c.data.length →
        exec (.driveDmaRequest drive id off len false data) s = .next (s.send (.driveAnswer drive ((c.data.drop off).take len))))
    ∧ (∀ (drive : Nat) (id : Nat) (off : Nat) (len : Nat) (data : List Byte) (c : DriveCmd) (a b : Nat),
        (tgetD s.stor.drives drive {}).st = .up →
        driveCmdOf s drive id = some c →
        c.use = .queue a b →
        ((bufsAt c.bufs off len).map (·.2)).sum = len →
        exec (.driveDmaRequest drive id off len true data) s = .next (dmaWrite s drive c (bufsAt c.bufs off len) (fit len data)))
    ∧ (∀ (drive : Nat) (id : Nat) (off : Nat) (len : Nat) (data : List Byte) (c : DriveCmd) (a b : Nat),
        (tgetD s.stor.drives drive {}).st = .up →
        driveCmdOf s drive id = some c →
        c.use = .queue a b →
        ((bufsAt c.bufs off len).map (·.2)).sum = len →
        (c.host = true → data ≠ []) →
        exec (.driveDmaRequest drive id off len false data) s = .next (if c.host then s.send (.driveAnswer drive (fit len data)) else (dmaRead s drive c data (bufsAt c.bufs off len)).2.send (.driveAnswer drive (dmaRead s drive c data (bufsAt c.bufs off len)).1)))
    ∧ (∀ (drive : Nat) (bits : Nat),
        (tgetD s.stor.drives drive {}).st = .up →
        exec (.driveAsyncEvent drive bits) s = .next (driveWarn (s.onDrive drive (fun d => { d with warnSince := d.warnSince + 1 })) drive bits))
    ∧ (∀ (n : Nat) (x : Volume) (v : VolumeCfg),
        tget s.stor.volumes n = some x →
        live s (·.stor.volumes) n = some v →
        x.st = .creating →
        x.dead = false →
        (if v.v.backing == 0 then (tgetD s.stor.drives v.v.source {}).st == .up else (tgetD s.stor.inits v.v.source {}).up) = true →
        exec (.volumeScrubDone n) s = .next (volState s n v .ready 0))
    ∧ (∀ (part : Nat) (lport : Nat) (d : List Byte) (pdus : List NvmePdu) (g : TcpIn) (n : Nat) (t : Tcp),
        parseTcp d (parseFrame d) = some g →
        ingress s = true →
        quarantined s 144 = false →
        tfind s.stor.tcps (fun _ t => t.part == part && t.lport == lport && t.ip == (parseFrame d).ip && t.localAddr == (parseFrame d).dst
          && t.remoteAddr == (parseFrame d).src && t.localPort == (parseFrame d).dport && t.remotePort == (parseFrame d).sport) = some (n, t) →
        exec (.tcpSegment part lport d pdus) s = .next (if t.st == .synSent then tcpSynSent s n t g else tcpOpen s n t g pdus))
    ∧ (∀ (n : Nat) (t : Tcp) (x : TcpSeg) (xs : List TcpSeg),
        tget s.stor.tcps n = some t →
        t.segs = x :: xs →
        exec (.tcpRto n) s = .next (if 100000000000 ≤ s.clock.cadence - x.sentAt then tcpAbort s n else tcpResend ((tcpHalve s n).onTcp n (fun t => { t with rtoNs := 2 * t.rtoNs, dups := 0 })) n))
    ∧ (∀ (c : Nat) (i : Initiator) (own : InitCfg),
        tget s.stor.inits c = some i →
        i.own = some own →
        i.lost = true →
        i.up = false →
        thas s.cfg.stor.initiators c = true →
        quarantined s 144 = false →
        tany s.stor.tcps (fun _ t => t.initiator == some c) = false →
        exec (.nvmeiReconnectTimer c) s = .next (initStart s c own))
    ∧ (∀ (c : Nat) (i : Initiator),
        tget s.stor.inits c = some i →
        i.lost = true →
        i.up = false →
        exec (.ctrlLossTmoExpire c) s = .next (onInit (initReset s c) c (fun i => { i with lost := false })))

/-- The rows of management take place as the rules say that each meaning of the model names (among them 03 R88, 05 R146, 21 R554, 21 R556, 21 R557, 21 R561, 21 R562, 21 R563, 21 R568, 21 R569, 21 R571, 23 R615). -/
def Obligations.ManagementEvents : Prop :=
  ∀ (s : State),
    (∀ (m : MctpReq),
        mgmtRuns s = true →
        (m.binding = 0 → s.host.linkUp = true) →
        (m.binding ≠ 0 → s.power.st ≠ .boot) →
        exec (.mctpMessage m) s = .next (mctpAnswer s m))
    ∧ (∀ (sensor : Nat) (reading : Option Nat),
        let p := s.mgmt.playbill;
        let v : Option Nat := match sensor with
          | 8 => some (deviceState s)
          | 9 =>
            if s.mgmt.config.playbill == 0 then none
            else if p.uip then some 2
            else if p.outcome == 1 then some 1
            else if p.outcome == 0 then none
            else some 2
          | 10 => some s.mgmt.alert
          | n => if 1 ≤ n && n ≤ 7 then reading else none;
        mgmtRuns s = true →
        exec (.pldmSensorRead sensor reading) s = .next (s.send (.pldm (match v with | some x => [sensor, 0, x] | none => [sensor, 1, 0]))))
    ∧ (∀ (c : ConfigBlock) (whole : Bool),
        mgmtRuns s = true →
        configOk c = true →
        exec (.pldmFwUpdate (.config c whole)) s = .next (s.onFlash (fun f => configWrite f c whole)))
    ∧ (∀ (i : Image) (whole : Bool),
        let k := 1 - s.power.bootSlot;
        let x := if whole then i else { i with readable := true, hashOk := false };
        mgmtRuns s = true →
        exec (.pldmFwUpdate (.image i whole)) s = .next (s.onFlash (fun f => { headerWrite f (slotSet (headerOf s.flash) k .empty 0) with
          imgA := if k == 0 then x else (headerWrite f (slotSet (headerOf s.flash) k .empty 0)).imgA
          imgB := if k == 1 then x else (headerWrite f (slotSet (headerOf s.flash) k .empty 0)).imgB
          written := if whole && imageVerifies s.fuses i then some k else none })))
    ∧ (∀ (k : Nat),
        mgmtRuns s = true →
        s.flash.written = some k →
        exec (.activateFirmware) s = .next (s.onFlash (fun f => { headerWrite f (slotSet (headerOf f) k .trial 0) with written := none })))
    ∧ (∀ (d : List Byte) (clocks : Nat) (x : Nat),
        let count := ofBe ((d.drop 4).take 1);
        let a := ofBe ((d.drop 1).take 3);
        s.power.vstby = true →
        spiBusy s = false →
        1 ≤ count ∧ count ≤ 64 →
        d.take 1 = [0x02] →
        clocks = 8 * (7 + 4 * count) →
        clocks ≤ d.length * 8 + 7 →
        crc16 (d.take (5 + 4 * count)) = ofBe ((d.drop (5 + 4 * count)).take 2) →
        (List.range count).all (fun i => a + i < 65536 && spiWritable s (spiOff (a + i))) = true →
        exec (.spiWriteFrame d clocks x) s = .next (spiLast (spiApply s a x (spiWords (d.drop 5) count)) 0))
    ∧ (∀ (d : List Byte) (clocks : Nat),
        let a := ofBe ((d.drop 1).take 3);
        let count := ofBe ((d.drop 4).take 1);
        let data := clocks - 64;
        let words := min count (ceilDiv data 32);
        let whole := min count (data / 32);
        let extra := data - 32 * (count + 1);
        let clean := data % 32 == 0;
        let r := spiRead s a words;
        let e := r.2.send (.spi (r.1.take whole) (if 32 * count < data then crc16 (r.1.flatMap (be 4)) * 65536 else 0));
        let b := if clean then spiClear e a (r.1.take whole) else e;
        s.power.vstby = true →
        spiBusy s = false →
        64 ≤ clocks →
        7 ≤ d.length →
        d.take 1 = [0x03] →
        1 ≤ count ∧ count ≤ 64 →
        crc16 (d.take 5) = ofBe ((d.drop 5).take 2) →
        a + count ≤ 65536 →
        exec (.spiReadFrame d clocks) s = .next (spiLast (b.onMgmt (fun m => { m with msExtra := min extra 255, msExtraSeen := m.msExtraSeen || 0 < extra })) (if clean then 0 else 6)))
    ∧ (∀ (v : Nat),
        s.power.vstby = true →
        spiBusy s = false →
        spiWritable s (0x40001C) = true →
        exec (.rtcSet v) s = .next (rtcSet s v))
    ∧ (∀ (n : Nat) (v : Nat),
        s.power.vstby = true →
        spiBusy s = false →
        spiWritable s (0x400048 + 0x20 * (n % 4)) = true →
        exec (.alarmTHiWrite n v) s = .next (onAlarm s (n % 4) (fun x => alarmTHi x v)))
    ∧ (∀ (n : Nat) (v : Nat),
        s.power.vstby = true →
        spiBusy s = false →
        spiWritable s (0x400040 + 0x20 * (n % 4) + 0) = true →
        exec (.alarmCtrlWrite n false v) s = .next (onAlarm s (n % 4) (fun x => alarmCtrl x v)))
    ∧ (∀ (n : Nat) (v : Nat),
        s.power.vstby = true →
        spiBusy s = false →
        spiWritable s (0x400040 + 0x20 * (n % 4) + 12) = true →
        exec (.alarmCtrlWrite n true v) s = .next (onAlarm s (n % 4) (fun x => alarmPeriod x v)))
    ∧ (∀ (n : Nat)  (v : Nat),
        regValue s (0x400050 + 0x20 * (n % 4)) = some v →
        exec (.alarmStatusRead n) s = .next ((regClear (regLatch s (0x400050 + 0x20 * (n % 4))) (0x400050 + 0x20 * (n % 4)) v).send (.register (0x400050 + 0x20 * (n % 4)) v)))
    ∧ (∀  (v : Nat),
        regValue s (0x400010) = some v →
        exec (.rtcLoRead) s = .next ((regClear (regLatch s (0x400010)) (0x400010) v).send (.register (0x400010) v)))
    ∧ (∀  (v : Nat),
        regValue s (0x4000C0) = some v →
        exec (.devtLoRead) s = .next ((regClear (regLatch s (0x4000C0)) (0x4000C0) v).send (.register (0x4000C0) v)))
    ∧ (∀ (id : Nat)  (v : Nat),
        regValue s (0x401000 + 8 * (id % 256)) = some v →
        exec (.rindCounterRead id) s = .next ((regClear (regLatch s (0x401000 + 8 * (id % 256))) (0x401000 + 8 * (id % 256)) v).send (.register (0x401000 + 8 * (id % 256)) v)))
    ∧ (∀  (v : Nat),
        regValue s (0x400140) = some v →
        exec (.rindLogData0Read) s = .next ((regClear (regLatch s (0x400140)) (0x400140) v).send (.register (0x400140) v)))
    ∧ (∀  (v : Nat),
        regValue s (0x410000) = some v →
        exec (.msStatusRead) s = .next ((regClear (regLatch s (0x410000)) (0x410000) v).send (.register (0x410000) v)))
    ∧ (∀ (target : Nat) (high : Bool)  (v : Nat),
        target ≤ 21 →
        regValue s (0x11020 + 0x40 * target + 4 * b2n high) = some v →
        exec (.mwFirstFaultRead target high) s = .next ((regClear (regLatch s (0x11020 + 0x40 * target + 4 * b2n high)) (0x11020 + 0x40 * target + 4 * b2n high) v).send (.register (0x11020 + 0x40 * target + 4 * b2n high) v)))
    ∧ (∀ (v : Nat),
        s.power.vstby = true →
        spiBusy s = false →
        v / 65536 % 65536 = 0x5253 →
        bit v 0 = true →
        s.power.vmain = true →
        exec (.msControlReset v) s = .next (warmReset s))
    ∧ (∀ (v : Nat) (x : Nat),
        s.power.vstby = true →
        spiBusy s = false →
        spiWritable s (0x430004) = true →
        exec (.atbAdcStart v x) s = .next (atbStart (atbAdcFields s (v % 2 ^ 31 + 2 ^ 31)) x))
    ∧ (∀ (x : Nat),
        s.test.busy = true →
        exec (.atbCaptureSample x) s = .next (s.onTest (fun t => { t with
          capture := tset t.capture t.taken (atbReading s.power.gated t x % 4096)
          taken := t.taken + 1
          busy := decide (t.taken + 1 < t.goal) })))
    ∧ (∀ (off v x : Nat),
        s.power.vstby = true →
        spiBusy s = false →
        exec (.registerWrite (.control off) v x) s = .next (regWrite s off v x))
    ∧ (∀ (fn off v x : Nat),
        fnAnswers s fn = true →
        (s.fn fn).booth.enable = false →
        exec (.registerWrite (.booth fn off) v x) s = .next (s.onBooth fn (fun b => boothReg b off v)))
    ∧ (∀ (fn v x : Nat),
        fnAnswers s fn = true →
        exec (.registerWrite (.config fn) v x) s = .next (s.onFn fn (fun f => { f with
          roEnable := bit v 0
          idoReq := bit v 1
          idoComp := bit v 2
          ats := bit v 3
          pasidCap := bit v 4 })))

/-- The rows of management that a time brings take place as the rules say that each meaning of the model names (among them 21 R569, 21 R571, 21 R572, 21 R577, 21 R578, 21 R580, 23 R606, 23 R607, 23 R611, 23 R612). -/
def Obligations.TimedManagementEvents : Prop :=
  ∀ (s : State),
    (∀ (n : Nat),
        let a0 := tgetD s.mgmt.alarms n {};
        let step := max a0.period 1 * 32768;
        let k := if a0.periodic then (s.clock.rtc - a0.t) / step + 1 else 1;
        let e := onAlarm s n (fun a => { a with
            enable := a.periodic
            t := if a.periodic then a.t + k * step else a.t
            count := satAdd 16 a.count k
            first := if a.fired then a.first else some a.t
            fired := true
            onBackup := a.onBackup || !s.power.vstby
            waking := a.waking || (a.wake && s.power.vstby) });
        n ≤ 3 →
        (tgetD s.mgmt.alarms n {}).enable = true →
        s.clock.timeInvalid = false →
        (tgetD s.mgmt.alarms n {}).t ≤ s.clock.rtc →
        (s.power.vstby || s.power.vbat) = true →
        exec (.alarmFire n) s = .next (if s.power.vstby then e else (List.range k).foldl (fun s _ => rindLog (rindCount s 0x21) 0x0011 255 [byteOf n]) e))
    ∧ (∀ (d : Nat),
        s.clock.rtcWrite = some d →
        d ≤ s.clock.cadence →
        mgmtRuns s = true →
        exec (.rtcWriteback) s = .next (s.onClock (fun c => { c with rtc := timeToRtc c.now, rtcWrite := some (c.cadence + 600000000000) })))
    ∧ (1 ≤ s.mgmt.playbill.phase →
        s.mgmt.playbill.phase < 3 →
        exec (.playbillPhaseEnd) s = .next ((s.onPlaybill (fun p => { p with phase := p.phase + 1 })).send (.panel (s.mgmt.playbill.phase + 1))))
    ∧ (3 ≤ s.mgmt.playbill.phase →
        exec (.playbillPhaseEnd) s = .next (playbillEnd (s.onPlaybill (fun p => { p with
          uip := false
          phase := 0
          updates := modAdd 16 p.updates 1
          outcome := 1
          check := Config.labelCrc (labelBytes p.label) % 65536 })) .ok))
    ∧ (s.mgmt.playbill.phase ≠ 0 →
        exec (.playbillPanelTimeout) s = .next (playbillEnd (s.onPlaybill (fun p => { p with phase := 0, outcome := 3 })) .partnerTimeout))
    ∧ (let e := s.onPlaybill (fun p => { p with interval := false });
        exec (.playbillIntervalEnd) s = .next (if s.mgmt.playbill.alertPending && playbillReady e && mgmtRuns e then playbillStart e else e))
    ∧ (exec (.rindCommitTimer) s = .next (rindTrigger s))
    ∧ (∀ (w : RindFlash),
        let p := rindPlace s.rind;
        let a := s.onRind (fun r => { r with
            flash := { w with deltas := p.2.2 }
            lastBlock := p.1
            nextBlock := p.2.1
            commitTime := w.rtc
            fails := 0
            writing := none
            committing := false
            waiters := []
            dirty := r.counters != w.counters || r.hists != w.hists || r.nextSeq != w.nextSeq });
        let e := s.rind.waiters.foldl (fun s x => finish s x.1 x.2 .ok) (rindCount a 0x23);
        s.rind.writing = some w →
        exec (.rindRecordDone true) s = .next (if e.rind.again && !e.rind.committing then rindStartRecord e else e))
    ∧ (∀ (w : RindFlash),
        let e := rindLog (rindCount (s.onRind (fun r => { r with nextBlock := (r.nextBlock + 1) % 63, fails := r.fails + 1 })) 0x24) 0x0012 255 (le 2 s.rind.nextBlock);
        s.rind.writing = some w →
        exec (.rindRecordDone false) s = .next (if 3 ≤ e.rind.fails then e.onRind (fun r => { r with flashFail := true, committing := false, writing := none, again := false }) else e))
    ∧ (∀ (x : SecondSample),
        let lin := fun (s : State) (h : Nat) (v low w : Int) => rindBin s h (linearBin v low w);
        let a := if s.power.vstby then lin s 2 x.vstby 3000 20 else s;
        let b := if a.power.st == .standby then rindCount a 0x05 else a;
        let c := halfCycle (lin (lin (rindCount b 0x04) 0 x.hot 0 32) 1 x.vmain 10800 100) x.hot;
        let d := (List.range 4).foldl (fun s p => if (s.tport p).st == .down then s else lin s (6 + p) ((listGet x.heaters p 0 : Nat) : Int) 0 150) (lin (lin c 4 x.power 0 20000) 5 x.droop 0 50);
        b.power.vmain = true →
        exec (.rindSecondTick x) s = .next (lin (lin (lin d 25 x.freq 1000 40) 26 x.tumblerCurrent 0 10000) 27 x.otherCurrent 0 5000))
    ∧ (∀ (vbat20 : Nat),
        let e := (rindBin s 3 (linearBin vbat20 100 3)).onPower (fun p => { p with vbat20 := vbat20, vbat := if p.vstby then decide (110 ≤ vbat20) else p.vbat });
        (s.power.vstby || s.power.vbat) = true →
        exec (.rindMinuteTick vbat20) s = .next (if e.power.vmain then ((List.range 15).foldl (fun s i => rindBin s (10 + i) (log2Bin (tgetD s.rind.minute (10 + i) 0))) e).onRind (fun r => { r with minute := [] }) else e))

/-- The rows of power, reset and clocks take place as the rules say that each meaning of the model names (among them 21 R570, 22 R583, 22 R584, 22 R585, 22 R586, 22 R587, 22 R588, 22 R592, 22 R595, 22 R600, 22 R604, 25 R645). -/
def Obligations.PowerEvents : Prop :=
  ∀ (s : State),
    (let e := s.onPower (fun p => { p with vmain := true });
        s.power.vmain = false →
        exec (.vmainGood) s = .next (if s.power.vstby then powerOn e else e))
    ∧ (let e := s.onPower (fun p => { p with
            vmain := false
            vmainOffAt := some s.clock.rtc
            st := if p.vstby then .standby else if p.vbat then .backup else .off });
        s.power.vmain = true →
        exec (.brownout) s = .next ((resetVmain (rindLog (rindCount e 0x06) 0x0008 255 []) false).onMgmt (fun m => { m with refused := false, quiesced := false })))
    ∧ (let a := (resetVmain s false).onMgmt (fun m => { m with refused := false, quiesced := false });
        let b := a.onRind (fun r => { r with committing := false, writing := none, again := false });
        let c := b.onPlaybill (fun p => if p.phase == 0 then p else { p with phase := 0, outcome := 2 });
        s.power.vstby = true →
        exec (.vstbyLoss) s = .next (c.onPower (fun p => { p with
          vstby := false
          st := restState false p.vbat
          vmainOffAt := if p.vmain then some c.clock.rtc else p.vmainOffAt })))
    ∧ (s.power.vstby = false →
        s.power.vbat = true →
        exec (.vstbyReturn) s = .next (vstbyBack s))
    ∧ (s.power.vstby = false →
        s.power.vbat = true →
        exec (.vbatLow) s = .next ((s.onPower (fun p => { p with vbat := false, st := .off })).onClock (fun c => { c with timeInvalid := true })))
    ∧ (∀ (onVstby : Bool),
        let a : State := { s with
            mgmt := { config := s.mgmt.config }
            clock := { s.clock with rtc := 0, timeInvalid := true }
            rind := { flash := s.rind.flash, nextBlock := s.rind.nextBlock, empty := true, idShown := false } };
        let e := rindCount (a.onPower (fun p => { p with vbat := !onVstby, st := .backup, vmainOffAt := none })) 0x02;
        s.power.vstby = false →
        s.power.vbat = false →
        exec (.alwaysOnPowerOn onVstby) s = .next (if onVstby then vstbyBack e else e))
    ∧ (s.power.perst = false →
        exec (.perstNAssert) s = .next (warmReset (s.onPower (fun p => { p with perst := true }))))
    ∧ (let e := s.onPower (fun p => { p with
            perst := false
            bootAt := if p.resetKind == some .warm && (p.shutdown || s.mgmt.quiesced) then s.clock.cadence else p.bootAt });
        s.power.perst = true →
        exec (.perstNDeassert) s = .next (warmStart (if e.power.vmain then e.onMgmt (fun m => { m with alarms := tmap m.alarms (fun _ a => { a with waking := false }) }) else e)))
    ∧ (exec (.hotReset) s = .next (warmReset (s.onHost (fun h => { h with linkUp := false }))))
    ∧ (s.power.shutdown = true →
        (s.rind.committing = true → newer 32 s.power.commitGoal s.rind.flash.recordSeq = false) →
        exec (.quiesced) s = .next (warmStart (((resetVmain s true).onPower (fun p => { p with st := .boot })).onMgmt (fun m => { m with quiesced := true, refused := false }))))
    ∧ (∀ (passes : Bool) (kat : Nat) (i : Nat),
        let a := s.onPower (fun p => { p with order := s.power.order + 1 });
        let b0 := if i == 128 then controlUp a else a;
        let b := if !passes then quarantine b0 i 0x0041 else b0;
        let c := if i == 128 && kat != 0 && b.power.st == .boot then katFault b kat else b;
        let d := if i == 144 && passes then (List.range 4).foldl (fun s d => if driveLink s.cfg d then s.send (.drivePerst d false) else s) c else c;
        bringOrder[s.power.order]? = some i →
        s.power.st = .boot →
        s.mgmt.quiesced = false →
        s.power.shutdown = false →
        (0 < s.power.order → s.power.tripWait = false) →
        exec (.islandBringUp passes kat) s = .next (if d.power.order == 148 && d.power.st == .boot then reachRun d else d))
    ∧ (s.power.trial = true →
        (s.power.st = .boot ∨ s.power.st = .run ∨ s.power.st = .faulted) →
        s.mgmt.quiesced = false →
        exec (.trialTimeout) s = .next (warmReset s))
    ∧ (∀ (hot : Int),
        s.power.vmain = true →
        800 ≤ hot →
        exec (.thermalSample hot) s = .next (throttle (if hot < 760 && s.power.st == .boot then s.onPower (fun p => { p with tripWait := false }) else s)))
    ∧ (∀ (hot : Int),
        let a := if hot < 760 && s.power.st == .boot then s.onPower (fun p => { p with tripWait := false }) else s;
        let e := a.onPower (fun p => { p with throttling := false });
        s.power.vmain = true →
        hot < 784 →
        exec (.thermalSample hot) s = .next (if hot < 760 then freqStep e 10000000 speedUp else e))
    ∧ (∀ (island : Nat) (temp : Nat),
        let r := rindLog (rindCount s 0x07) 0x0007 island (le 2 temp);
        let a := assertAlert (r.onMgmt (fun m => { m with alert := 0x0300, alertTime := r.clock.rtc }));
        let b := a.onPlaybill (fun p => { p with alertPending := true });
        s.power.vmain = true →
        s.power.st ≠ .tripped →
        s.power.vstby = true →
        exec (.thermalTrip island temp) s = .next ((resetVmain b true).onPower (fun p => { p with st := .tripped, tripWait := true })))
    ∧ (∀ (second : Nat) (milli : Nat),
        s.power.vmain = true →
        (440 ≤ second ∨ 520 ≤ milli) →
        exec (.currentSensorSample second milli) s = .next (throttle s))
    ∧ (∀ (d : Nat),
        s.power.st = .run →
        s.power.gated.contains d = false →
        mayGate s d = true →
        exec (.domainGate d) s = .next (gateOff s d))
    ∧ (∀ (d : Nat),
        s.power.st = .run →
        s.power.gated.contains d = true →
        mayGate s d = false →
        exec (.domainGate d) s = .next (s.onPower (fun p => { p with gated := p.gated.filter (fun x => x != d) })))
    ∧ (let d := draw s;
        s.clock.eref = true →
        exec (.erefLoss) s = .next ((List.range 32).foldl linkDown (d.2.onClock (fun c => { c with
          eref := false
          oscPpb := ((d.1 % 4000001 : Nat) : Int) - 2000000 }))))
    ∧ (exec (.hrefLoss) s = .next (warmReset (((List.range 4).foldl driveLost (s.onClock (fun c => { c with href := false }))).onHost (fun h => { h with linkUp := false }))))
    ∧ (exec (.xtal32Loss) s = .next (s.onClock (fun c => { c with xtal := false, timeInvalid := true })))
    ∧ (exec (.erefReturn) s = .next (s.onClock (fun c => { c with eref := true, oscPpb := 0 })))

/-- The rows of the JTAG port take place as the rules say that each meaning of the model names (among them 23 R619, 23 R620, 23 R621, 23 R622). -/
def Obligations.JtagInstructions : Prop :=
  ∀ (s : State),
    (let e := s.onTest (fun t => { t with ir := 0x02, restricted := false });
        s.power.vmain = true →
        exec (.samplePreload) s = .next (if s.test.bootWaits then warmStart e else e))
    ∧ (let e := s.onTest (fun t => { t with ir := 0xFF, restricted := false });
        s.power.vmain = true →
        exec (.bypass) s = .next (if s.test.bootWaits then warmStart e else e))
    ∧ (let e := s.onTest (fun t => { t with ir := 0x01, restricted := false });
        s.power.vmain = true →
        exec (.tapReset) s = .next (if s.test.bootWaits then warmStart e else e))
    ∧ (s.power.vmain = true →
        exec (.idcode) s = .next ((draw (jtagFree s 0x01)).2.send (.jtag (idcode (draw (jtagFree s 0x01)).1))))
    ∧ (∀ (v : Nat),
        s.power.vmain = true →
        exec (.atbJtag v) s = .next (atbCtrlSet (jtagFree s 0x21) v))
    ∧ (s.power.vmain = true →
        s.power.perst = true →
        exec (.extest) s = .next (s.onTest (fun t => { t with ir := 0x03, restricted := true })))
    ∧ (s.power.vmain = true →
        s.power.perst = true →
        exec (.highz) s = .next (s.onTest (fun t => { t with ir := 0x04, restricted := true })))
    ∧ (s.power.vmain = true →
        s.power.perst = true →
        exec (.clamp) s = .next (s.onTest (fun t => { t with ir := 0x05, restricted := true })))
    ∧ (s.power.vmain = true →
        s.power.perst = true →
        exec (.extestPulse) s = .next (s.onTest (fun t => { t with ir := 0x06, restricted := true })))
    ∧ (s.power.vmain = true →
        s.power.perst = true →
        exec (.extestTrain) s = .next (s.onTest (fun t => { t with ir := 0x07, restricted := true })))
    ∧ (∀ (stack : Nat),
        s.power.vmain = true →
        s.power.perst = true →
        exec (.hbm1500 stack) s = .next ((draw (s.onTest (fun t => { t with ir := 0x20, restricted := true, hbmStack := stack % 2 }))).2.onMem (fun m => { m with spoiled := tset m.spoiled (stack % 2) s.draws })))

/-- The exceptions of Belpor-36 (09 R244, R248, R255, R257, 08 R213, R215, R237) and the overrun (08 R232). -/
def Obligations.BelporExceptions : Prop :=
  ∀ (s : State) (n : Nat),
    (∀ i o inv code, executes n i o → (tum s n).run = some inv → (tum s n).stall = .none → fetchOp s n (tum s n) = .inl code →
        inTime s n inv 1 → raises i n s s inv code)
    ∧ (∀ i o c inv w, executes n i o → resultCycles o = some c → issues n o s inv w → ¬ inTime s n inv c → exec i s = .next (overrun s n (tum s n) inv))
    ∧ (∀ inv w, issues n .ldw s inv w → inTime s n inv 1 → 
        bankFor s inv (tum s n) w = .shut →
        raises (.ldw n) n s (s) inv 5)
    ∧ (∀ inv w k, issues n .ldw s inv w → inTime s n inv 1 → 
        bankFor s inv (tum s n) w = .troupe k →
        troupeOk s inv n k = false →
        raises (.ldw n) n s (s) inv 5)
    ∧ (∀ inv w k, issues n .ldw s inv w → inTime s n inv 1 → 
        bankFor s inv (tum s n) w = .troupe k →
        troupeOk s inv n k = true →
        troupeBad s n k = true →
        raises (.ldw n) n s (memError s (troupeUnit n k)) inv 6)
    ∧ (∀ inv w, issues n .ldh s inv w → inTime s n inv 1 → 
        bankFor s inv (tum s n) w = .shut →
        raises (.ldh n) n s (s) inv 5)
    ∧ (∀ inv w k, issues n .ldh s inv w → inTime s n inv 1 → 
        bankFor s inv (tum s n) w = .troupe k →
        troupeOk s inv n k = false →
        raises (.ldh n) n s (s) inv 5)
    ∧ (∀ inv w k, issues n .ldh s inv w → inTime s n inv 1 → 
        bankFor s inv (tum s n) w = .troupe k →
        troupeOk s inv n k = true →
        troupeBad s n k = true →
        raises (.ldh n) n s (memError s (troupeUnit n k)) inv 6)
    ∧ (∀ inv w, issues n .ldhs s inv w → inTime s n inv 1 → 
        bankFor s inv (tum s n) w = .shut →
        raises (.ldhs n) n s (s) inv 5)
    ∧ (∀ inv w k, issues n .ldhs s inv w → inTime s n inv 1 → 
        bankFor s inv (tum s n) w = .troupe k →
        troupeOk s inv n k = false →
        raises (.ldhs n) n s (s) inv 5)
    ∧ (∀ inv w k, issues n .ldhs s inv w → inTime s n inv 1 → 
        bankFor s inv (tum s n) w = .troupe k →
        troupeOk s inv n k = true →
        troupeBad s n k = true →
        raises (.ldhs n) n s (memError s (troupeUnit n k)) inv 6)
    ∧ (∀ inv w, issues n .ldn s inv w → inTime s n inv 1 → 
        bankFor s inv (tum s n) w = .shut →
        raises (.ldn n) n s (s) inv 5)
    ∧ (∀ inv w k, issues n .ldn s inv w → inTime s n inv 1 → 
        bankFor s inv (tum s n) w = .troupe k →
        troupeOk s inv n k = false →
        raises (.ldn n) n s (s) inv 5)
    ∧ (∀ inv w k, issues n .ldn s inv w → inTime s n inv 1 → 
        bankFor s inv (tum s n) w = .troupe k →
        troupeOk s inv n k = true →
        troupeBad s n k = true →
        raises (.ldn n) n s (memError s (troupeUnit n k)) inv 6)
    ∧ (∀ inv w, issues n .stw s inv w → inTime s n inv 1 → 
        bankFor s inv (tum s n) w = .shut →
        raises (.stw n) n s (s) inv 5)
    ∧ (∀ inv w k, issues n .stw s inv w → inTime s n inv 1 → 
        bankFor s inv (tum s n) w = .troupe k →
        troupeOk s inv n k = false →
        raises (.stw n) n s (s) inv 5)
    ∧ (∀ inv w, issues n .sth s inv w → inTime s n inv 1 → 
        bankFor s inv (tum s n) w = .shut →
        raises (.sth n) n s (s) inv 5)
    ∧ (∀ inv w k, issues n .sth s inv w → inTime s n inv 1 → 
        bankFor s inv (tum s n) w = .troupe k →
        troupeOk s inv n k = false →
        raises (.sth n) n s (s) inv 5)
    ∧ (∀ inv w, issues n .stn s inv w → inTime s n inv 1 → 
        bankFor s inv (tum s n) w = .shut →
        raises (.stn n) n s (s) inv 5)
    ∧ (∀ inv w k, issues n .stn s inv w → inTime s n inv 1 → 
        bankFor s inv (tum s n) w = .troupe k →
        troupeOk s inv n k = false →
        raises (.stn n) n s (s) inv 5)
    ∧ (∀ inv w, issues n .aadd s inv w → inTime s n inv 1 → 
        bankFor s inv (tum s n) w = .shut →
        raises (.aadd n) n s (s) inv 5)
    ∧ (∀ inv w k, issues n .aadd s inv w → inTime s n inv 1 → 
        bankFor s inv (tum s n) w = .troupe k →
        troupeOk s inv n k = false →
        raises (.aadd n) n s (s) inv 5)
    ∧ (∀ inv w k, issues n .aadd s inv w → inTime s n inv 1 → 
        bankFor s inv (tum s n) w = .troupe k →
        troupeOk s inv n k = true →
        troupeBad s n k = true →
        raises (.aadd n) n s (memError s (troupeUnit n k)) inv 6)
    ∧ (∀ inv w a, issues n .aadd s inv w → inTime s n inv 1 → 
        bankFor s inv (tum s n) w = .midway a →
        raises (.aadd n) n s (s) inv 5)
    ∧ (∀ inv w, issues n .acas s inv w → inTime s n inv 1 → 
        bankFor s inv (tum s n) w = .shut →
        raises (.acas n) n s (s) inv 5)
    ∧ (∀ inv w k, issues n .acas s inv w → inTime s n inv 1 → 
        bankFor s inv (tum s n) w = .troupe k →
        troupeOk s inv n k = false →
        raises (.acas n) n s (s) inv 5)
    ∧ (∀ inv w k, issues n .acas s inv w → inTime s n inv 1 → 
        bankFor s inv (tum s n) w = .troupe k →
        troupeOk s inv n k = true →
        troupeBad s n k = true →
        raises (.acas n) n s (memError s (troupeUnit n k)) inv 6)
    ∧ (∀ inv w a, issues n .acas s inv w → inTime s n inv 1 → 
        bankFor s inv (tum s n) w = .midway a →
        raises (.acas n) n s (s) inv 5)
    ∧ (∀ inv w, issues n .b s inv w → inTime s n inv 1 → 
        condHolds (tum s n).fl (fCond w) = true →
        (atLoopEnd (tum s n) = true ∨ inBody (tum s n) (tum s n).pc = true ∧ inBody (tum s n) (fTarget w) = false) →
        raises (.b n) n s (s) inv 3)
    ∧ (∀ inv w, issues n .br s inv w → inTime s n inv 1 → 
        condHolds (tum s n).fl (fCond w) = true →
        (atLoopEnd (tum s n) = true ∨ inBody (tum s n) (tum s n).pc = true ∧ inBody (tum s n) (regTarget (tum s n) w) = false) →
        raises (.br n) n s (s) inv 3)
    ∧ (∀ inv w, issues n .call s inv w → inTime s n inv 1 → 
        atLoopEnd (tum s n) = true →
        raises (.call n) n s (s) inv 3)
    ∧ (∀ inv w, issues n .callr s inv w → inTime s n inv 1 → 
        atLoopEnd (tum s n) = true →
        raises (.callr n) n s (s) inv 3)
    ∧ (∀ inv w, issues n .ret s inv w → inTime s n inv 1 → 
        atLoopEnd (tum s n) = true →
        raises (.ret n) n s (s) inv 3)
    ∧ (∀ inv w, issues n .loopi s inv w → inTime s n inv 1 → 
        (depth (tum s n) = 4 ∨ fTarget w < (tum s n).pc + 1 ∨ 2 ^ 24 ≤ fCount w ∨ (0 < depth (tum s n) ∧ listGet (tum s n).le (depth (tum s n) - 1) 0 < fTarget w) ∨ atLoopEnd (tum s n) = true) →
        raises (.loopi n) n s (s) inv 3)
    ∧ (∀ inv w, issues n .loopr s inv w → inTime s n inv 1 → 
        (depth (tum s n) = 4 ∨ fTarget w < (tum s n).pc + 1 ∨ 2 ^ 24 ≤ ((tum s n).get (fRd w)).toNat ∨ (0 < depth (tum s n) ∧ listGet (tum s n).le (depth (tum s n) - 1) 0 < fTarget w) ∨ atLoopEnd (tum s n) = true) →
        raises (.loopr n) n s (s) inv 3)
    ∧ (∀ inv w, issues n .lexit s inv w → inTime s n inv 1 → 
        (depth (tum s n) = 0 ∨ atLoopEnd (tum s n) = true) →
        raises (.lexit n) n s (s) inv 3)
    ∧ (∀ inv w, issues n .take s inv w → inTime s n inv 1 → 
        (2 < fPort w ∨ untakenOf s n (tum s n) (fPort w) = 0) →
        raises (.take n) n s (s) inv 4)
    ∧ (∀ inv w, issues n .poll s inv w → inTime s n inv 1 → 
        2 < fPort w →
        raises (.poll n) n s (s) inv 4)
    ∧ (∀ inv w, issues n .post s inv w → inTime s n inv 1 → 
        (tum s n).stores = [] →
        (tum s n).storeFailed = none →
        2 < fPort w →
        raises (.post n) n s (s) inv 4)
    ∧ (∀ inv w, issues n .mts s inv w → inTime s n inv 1 → 
        4 ≤ fRd w →
        fRd w < 16 →
        raises (.mts n) n s (s) inv 3)
    ∧ (∀ inv w, issues n .mts s inv w → inTime s n inv 1 → 
        16 < fRd w →
        raises (.mts n) n s (s) inv 2)

/-- Stores to the banks of the octet view (08 R216, R217), failed stores (09 R259) and TAKE (08 R235). -/
def Obligations.BelporStoresBehindMidway : Prop :=
  ∀ (s : State) (n : Nat),
    (∀ inv w a, issues n .stw s inv w → inTime s n inv 1 → 
        bankFor s inv (tum s n) w = .midway a →
        markedRuns 0 (storeNonets .stw w ((tum s n).get (fRd w))) = [] →
        exec (.stw n) s = .next (goesNext n s s (tum s n) 1))
    ∧ (∀ inv w a i d e, issues n .stw s inv w → inTime s n inv 1 → 
        bankFor s inv (tum s n) w = .midway a →
        markedRuns 0 (storeNonets .stw w ((tum s n).get (fRd w))) = [(i, d)] →
        storeOne s (24 + n / 32) (tumblerActor s inv) (a + i) d .other = (.ok, e) →
        exec (.stw n) s = .next (goesNext n s e.1 (tum s n) 1))
    ∧ (∀ inv w a, issues n .sth s inv w → inTime s n inv 1 → 
        bankFor s inv (tum s n) w = .midway a →
        markedRuns 0 (storeNonets .sth w ((tum s n).get (fRd w))) = [] →
        exec (.sth n) s = .next (goesNext n s s (tum s n) 1))
    ∧ (∀ inv w a i d e, issues n .sth s inv w → inTime s n inv 1 → 
        bankFor s inv (tum s n) w = .midway a →
        markedRuns 0 (storeNonets .sth w ((tum s n).get (fRd w))) = [(i, d)] →
        storeOne s (24 + n / 32) (tumblerActor s inv) (a + i) d .other = (.ok, e) →
        exec (.sth n) s = .next (goesNext n s e.1 (tum s n) 1))
    ∧ (∀ inv w a, issues n .stn s inv w → inTime s n inv 1 → 
        bankFor s inv (tum s n) w = .midway a →
        markedRuns 0 (storeNonets .stn w ((tum s n).get (fRd w))) = [] →
        exec (.stn n) s = .next (goesNext n s s (tum s n) 1))
    ∧ (∀ inv w a i d e, issues n .stn s inv w → inTime s n inv 1 → 
        bankFor s inv (tum s n) w = .midway a →
        markedRuns 0 (storeNonets .stn w ((tum s n).get (fRd w))) = [(i, d)] →
        storeOne s (24 + n / 32) (tumblerActor s inv) (a + i) d .other = (.ok, e) →
        exec (.stn n) s = .next (goesNext n s e.1 (tum s n) 1))
    ∧ (∀ inv w k, issues n .sth s inv w → inTime s n inv 1 → 
        bankFor s inv (tum s n) w = .troupe k →
        troupeOk s inv n k = true →
        troupeBad s n k = true →
        exec (.sth n) s = .next (goesNext n s (memError s (troupeUnit n k)) { (tum s n) with stores := (tum s n).stores ++ [6] } 1))
    ∧ (∀ inv w k, issues n .stn s inv w → inTime s n inv 1 → 
        bankFor s inv (tum s n) w = .troupe k →
        troupeOk s inv n k = true →
        troupeBad s n k = true →
        exec (.stn n) s = .next (goesNext n s (memError s (troupeUnit n k)) { (tum s n) with stores := (tum s n).stores ++ [6] } 1))
    ∧ (∀ inv w, issues n .take s inv w → 
        fPort w ≤ 2 →
        0 < untakenOf s n (tum s n) (fPort w) →
        (tum s n).arrived.find? (fun r => r.1 == fPort w) = none →
        exec (.take n) s = .next (s.onTumbler n (fun t => { t with stall := .take w })))

/-- The frame of the register instructions of Belpor-36 (09 R242, R243, R252, 10 R262). -/
def Obligations.BelporResultFrame : Prop :=
  ∀ (s : State) (n : Nat),
    (∀ i o c inv w t, executes n i o → resultCycles o = some c → issues n o s inv w → inTime s n inv c → exec i s = .next t →
        onlyTumbler n s t ∧ (∀ r, r ≠ fRd w → (tum t n).get r = (tum s n).get r) ∧ (tum t n).bk = (tum s n).bk ∧ (tum t n).ls = (tum s n).ls
        ∧ (tum t n).le = (tum s n).le ∧ (tum t n).stores = (tum s n).stores ∧ (tum t n).arrived = (tum s n).arrived ∧ (tum t n).run = (tum s n).run)

/-- The frame of the memory instructions of Belpor-36 (10 R274, R275, 08 R213, 03 R79). -/
def Obligations.BelporMemoryFrame : Prop :=
  ∀ (s : State) (n : Nat),
    (∀ inv w k t, issues n .ldw s inv w → inTime s n inv 2 → bankFor s inv (tum s n) w = .troupe k → troupeOk s inv n k = true → troupeBad s n k = false →
        exec (.ldw n) s = .next t → onlyTumbler n s t ∧ (∀ r, r ≠ fRd w → (tum t n).get r = (tum s n).get r) ∧ (tum t n).fl = (tum s n).fl ∧ (tum t n).bk = (tum s n).bk)
    ∧ (∀ inv w k t, issues n .ldh s inv w → inTime s n inv 2 → bankFor s inv (tum s n) w = .troupe k → troupeOk s inv n k = true → troupeBad s n k = false →
        exec (.ldh n) s = .next t → onlyTumbler n s t ∧ (∀ r, r ≠ fRd w → (tum t n).get r = (tum s n).get r) ∧ (tum t n).fl = (tum s n).fl ∧ (tum t n).bk = (tum s n).bk)
    ∧ (∀ inv w k t, issues n .ldhs s inv w → inTime s n inv 2 → bankFor s inv (tum s n) w = .troupe k → troupeOk s inv n k = true → troupeBad s n k = false →
        exec (.ldhs n) s = .next t → onlyTumbler n s t ∧ (∀ r, r ≠ fRd w → (tum t n).get r = (tum s n).get r) ∧ (tum t n).fl = (tum s n).fl ∧ (tum t n).bk = (tum s n).bk)
    ∧ (∀ inv w k t, issues n .ldn s inv w → inTime s n inv 2 → bankFor s inv (tum s n) w = .troupe k → troupeOk s inv n k = true → troupeBad s n k = false →
        exec (.ldn n) s = .next t → onlyTumbler n s t ∧ (∀ r, r ≠ fRd w → (tum t n).get r = (tum s n).get r) ∧ (tum t n).fl = (tum s n).fl ∧ (tum t n).bk = (tum s n).bk)
    ∧ (∀ inv w k t, issues n .stw s inv w → inTime s n inv 1 → bankFor s inv (tum s n) w = .troupe k → troupeOk s inv n k = true → 
        exec (.stw n) s = .next t → onlyTumblerAndTroupe n s t ∧ (∀ a, a ≠ n / 8 * 1048576 + k → wordGet t.mem.troupe a = wordGet s.mem.troupe a)
        ∧ (∀ r, (tum t n).get r = (tum s n).get r) ∧ (tum t n).fl = (tum s n).fl ∧ (tum t n).bk = (tum s n).bk)
    ∧ (∀ inv w k t, issues n .sth s inv w → inTime s n inv 1 → bankFor s inv (tum s n) w = .troupe k → troupeOk s inv n k = true → troupeBad s n k = false → 
        exec (.sth n) s = .next t → onlyTumblerAndTroupe n s t ∧ (∀ a, a ≠ n / 8 * 1048576 + k → wordGet t.mem.troupe a = wordGet s.mem.troupe a)
        ∧ (∀ r, (tum t n).get r = (tum s n).get r) ∧ (tum t n).fl = (tum s n).fl ∧ (tum t n).bk = (tum s n).bk)
    ∧ (∀ inv w k t, issues n .stn s inv w → inTime s n inv 1 → bankFor s inv (tum s n) w = .troupe k → troupeOk s inv n k = true → troupeBad s n k = false → 
        exec (.stn n) s = .next t → onlyTumblerAndTroupe n s t ∧ (∀ a, a ≠ n / 8 * 1048576 + k → wordGet t.mem.troupe a = wordGet s.mem.troupe a)
        ∧ (∀ r, (tum t n).get r = (tum s n).get r) ∧ (tum t n).fl = (tum s n).fl ∧ (tum t n).bk = (tum s n).bk)
    ∧ (∀ inv w k t, issues n .aadd s inv w → inTime s n inv 3 → bankFor s inv (tum s n) w = .troupe k → troupeOk s inv n k = true → troupeBad s n k = false →
        exec (.aadd n) s = .next t → onlyTumblerAndTroupe n s t ∧ (∀ a, a ≠ n / 8 * 1048576 + k → wordGet t.mem.troupe a = wordGet s.mem.troupe a)
        ∧ (∀ r, r ≠ fRd w → (tum t n).get r = (tum s n).get r) ∧ (tum t n).fl = (tum s n).fl ∧ (tum t n).bk = (tum s n).bk)
    ∧ (∀ inv w k t, issues n .acas s inv w → inTime s n inv 3 → bankFor s inv (tum s n) w = .troupe k → troupeOk s inv n k = true → troupeBad s n k = false →
        exec (.acas n) s = .next t → onlyTumblerAndTroupe n s t ∧ (∀ a, a ≠ n / 8 * 1048576 + k → wordGet t.mem.troupe a = wordGet s.mem.troupe a)
        ∧ (troupeWord s n k ≠ (tum s n).get (fRd w) → t.mem = s.mem)
        ∧ (∀ r, r ≠ fRd w → (tum t n).get r = (tum s n).get r) ∧ (tum t n).bk = (tum s n).bk)

/-- The frame of the commands that complete at once (18 R495): with the statements of the groups it is the frame of each of their commands. -/
def Obligations.CompletionFrame : Prop :=
  ∀ (i : Instr) (h : Hdr) (s e t : State) (r : List Byte), completes i h s e r → exec i s = .next t →
    { t with fns := e.fns, out := e.out, host := e.host } = e ∧ (∀ g, g ≠ h.fn → t.fn g = e.fn g) ∧ t.mem = e.mem ∧ t.cfg = e.cfg

/-- The frame of the JTAG instructions (23 R620, R621). -/
def Obligations.JtagFrame : Prop :=
  ∀ (s t : State), s.test.bootWaits = false →
    (exec .samplePreload s = .next t → { t with test := s.test } = s)
    ∧ (exec .bypass s = .next t → { t with test := s.test } = s)
    ∧ (exec .tapReset s = .next t → { t with test := s.test } = s)
    ∧ (exec .extest s = .next t → { t with test := s.test } = s)
    ∧ (exec .highz s = .next t → { t with test := s.test } = s)
    ∧ (exec .clamp s = .next t → { t with test := s.test } = s)
    ∧ (exec .extestPulse s = .next t → { t with test := s.test } = s)
    ∧ (exec .extestTrain s = .next t → { t with test := s.test } = s)
end

