-- ==== Sys2Proof/Laws/State.lean ====
section
/-! SUPPORT. Laws/State.lean: what each update of State leaves as it was, field by field, so that no proof unfolds a record
update. An update of a part of a part is rewritten to the update of its block. -/

namespace Sys2Proof.Machine

variable (s : State)

@[simp] theorem State.onBooth_eq (n : Nat) (f : Booth → Booth) : s.onBooth n f = s.onFn n (fun x => { x with booth := f x.booth }) := rfl
@[simp] theorem State.onTarget_eq (n : Nat) (f : MwTarget → MwTarget) : s.onTarget n f = s.onMem (fun m => { m with targets := tupd m.targets n {} f }) := rfl
@[simp] theorem State.onLPort_eq (n : Nat) (f : LPort → LPort) : s.onLPort n f = s.onNet (fun x => { x with lports := tupd x.lports n {} f }) := rfl
@[simp] theorem State.onTxq_eq (n : Nat) (f : Txq → Txq) : s.onTxq n f = s.onNet (fun x => { x with txqs := tmod x.txqs n f }) := rfl
@[simp] theorem State.onRing_eq (n : Nat) (f : RxRing → RxRing) : s.onRing n f = s.onNet (fun x => { x with rings := tmod x.rings n f }) := rfl
@[simp] theorem State.onSession_eq (n : Nat) (f : Sess → Sess) : s.onSession n f = s.onSess (fun x => { x with sess := tmod x.sess n f }) := rfl
@[simp] theorem State.onSlot_eq (n : Nat) (f : KeySlot → KeySlot) : s.onSlot n f = s.onCipher (fun x => { x with slots := tmod x.slots n f }) := rfl
@[simp] theorem State.onTumbler_eq (n : Nat) (f : Tumbler → Tumbler) : s.onTumbler n f = s.onActs (fun x => { x with tumblers := tupd x.tumblers n {} f }) := rfl
@[simp] theorem State.onStat_eq (n : Nat) (f : BindStat → BindStat) : s.onStat n f = s.onActs (fun x => { x with stats := tupd x.stats n {} f }) := rfl
@[simp] theorem State.onTp_eq (n : Nat) (f : Tp → Tp) : s.onTp n f = s.onTrapeze (fun x => { x with ports := tupd x.ports n {} f }) := rfl
@[simp] theorem State.onMvq_eq (n : Nat) (f : MvQueue → MvQueue) : s.onMvq n f = s.onMover (fun x => { x with queues := tmod x.queues n f }) := rfl
@[simp] theorem State.onStream_eq (n : Nat) (f : Stream → Stream) : s.onStream n f = s.onCodec (fun x => { x with streams := tmod x.streams n f }) := rfl
@[simp] theorem State.onInst_eq (n : Nat) (f : Inst → Inst) : s.onInst n f = s.onCodec (fun x => { x with insts := tupd x.insts n {} f }) := rfl
@[simp] theorem State.onDrive_eq (n : Nat) (f : Drive → Drive) : s.onDrive n f = s.onStor (fun x => { x with drives := tupd x.drives n {} f }) := rfl
@[simp] theorem State.onVol_eq (n : Nat) (f : Volume → Volume) : s.onVol n f = s.onStor (fun x => { x with volumes := tmod x.volumes n f }) := rfl
@[simp] theorem State.onStq_eq (n : Nat) (f : StQueue → StQueue) : s.onStq n f = s.onStor (fun x => { x with queues := tmod x.queues n f }) := rfl
@[simp] theorem State.onTcp_eq (n : Nat) (f : Tcp → Tcp) : s.onTcp n f = s.onStor (fun x => { x with tcps := tmod x.tcps n f }) := rfl
@[simp] theorem State.onPlaybill_eq (f : Playbill → Playbill) : s.onPlaybill f = s.onMgmt (fun x => { x with playbill := f x.playbill }) := rfl

@[simp] theorem State.onHost_fixedMode (f : HostPort → HostPort) : (s.onHost f).fixedMode = s.fixedMode := rfl
@[simp] theorem State.onHost_host (f : HostPort → HostPort) : (s.onHost f).host = f s.host := rfl
@[simp] theorem State.onHost_fns (f : HostPort → HostPort) : (s.onHost f).fns = s.fns := rfl
@[simp] theorem State.onHost_parts (f : HostPort → HostPort) : (s.onHost f).parts = s.parts := rfl
@[simp] theorem State.onHost_comps (f : HostPort → HostPort) : (s.onHost f).comps = s.comps := rfl
@[simp] theorem State.onHost_deferred (f : HostPort → HostPort) : (s.onHost f).deferred = s.deferred := rfl
@[simp] theorem State.onHost_resize (f : HostPort → HostPort) : (s.onHost f).resize = s.resize := rfl
@[simp] theorem State.onHost_detaches (f : HostPort → HostPort) : (s.onHost f).detaches = s.detaches := rfl
@[simp] theorem State.onHost_mem (f : HostPort → HostPort) : (s.onHost f).mem = s.mem := rfl
@[simp] theorem State.onHost_chans (f : HostPort → HostPort) : (s.onHost f).chans = s.chans := rfl
@[simp] theorem State.onHost_audits (f : HostPort → HostPort) : (s.onHost f).audits = s.audits := rfl
@[simp] theorem State.onHost_islands (f : HostPort → HostPort) : (s.onHost f).islands = s.islands := rfl
@[simp] theorem State.onHost_net (f : HostPort → HostPort) : (s.onHost f).net = s.net := rfl
@[simp] theorem State.onHost_sess (f : HostPort → HostPort) : (s.onHost f).sess = s.sess := rfl
@[simp] theorem State.onHost_cipher (f : HostPort → HostPort) : (s.onHost f).cipher = s.cipher := rfl
@[simp] theorem State.onHost_acts (f : HostPort → HostPort) : (s.onHost f).acts = s.acts := rfl
@[simp] theorem State.onHost_tp (f : HostPort → HostPort) : (s.onHost f).tp = s.tp := rfl
@[simp] theorem State.onHost_gdp (f : HostPort → HostPort) : (s.onHost f).gdp = s.gdp := rfl
@[simp] theorem State.onHost_mover (f : HostPort → HostPort) : (s.onHost f).mover = s.mover := rfl
@[simp] theorem State.onHost_codec (f : HostPort → HostPort) : (s.onHost f).codec = s.codec := rfl
@[simp] theorem State.onHost_stor (f : HostPort → HostPort) : (s.onHost f).stor = s.stor := rfl
@[simp] theorem State.onHost_press (f : HostPort → HostPort) : (s.onHost f).press = s.press := rfl
@[simp] theorem State.onHost_mgmt (f : HostPort → HostPort) : (s.onHost f).mgmt = s.mgmt := rfl
@[simp] theorem State.onHost_power (f : HostPort → HostPort) : (s.onHost f).power = s.power := rfl
@[simp] theorem State.onHost_rind (f : HostPort → HostPort) : (s.onHost f).rind = s.rind := rfl
@[simp] theorem State.onHost_test (f : HostPort → HostPort) : (s.onHost f).test = s.test := rfl
@[simp] theorem State.onHost_flash (f : HostPort → HostPort) : (s.onHost f).flash = s.flash := rfl
@[simp] theorem State.onHost_fuses (f : HostPort → HostPort) : (s.onHost f).fuses = s.fuses := rfl
@[simp] theorem State.onHost_clock (f : HostPort → HostPort) : (s.onHost f).clock = s.clock := rfl
@[simp] theorem State.onHost_cfg (f : HostPort → HostPort) : (s.onHost f).cfg = s.cfg := rfl
@[simp] theorem State.onHost_draws (f : HostPort → HostPort) : (s.onHost f).draws = s.draws := rfl
@[simp] theorem State.onHost_out (f : HostPort → HostPort) : (s.onHost f).out = s.out := rfl
@[simp] theorem State.onHost_pending (f : HostPort → HostPort) : (s.onHost f).pending = s.pending := rfl

@[simp] theorem State.onFn_fixedMode (n : Nat) (f : Fn → Fn) : (s.onFn n f).fixedMode = s.fixedMode := rfl
@[simp] theorem State.onFn_host (n : Nat) (f : Fn → Fn) : (s.onFn n f).host = s.host := rfl
@[simp] theorem State.onFn_fns (n : Nat) (f : Fn → Fn) : (s.onFn n f).fns = tupd s.fns n {} f := rfl
@[simp] theorem State.onFn_parts (n : Nat) (f : Fn → Fn) : (s.onFn n f).parts = s.parts := rfl
@[simp] theorem State.onFn_comps (n : Nat) (f : Fn → Fn) : (s.onFn n f).comps = s.comps := rfl
@[simp] theorem State.onFn_deferred (n : Nat) (f : Fn → Fn) : (s.onFn n f).deferred = s.deferred := rfl
@[simp] theorem State.onFn_resize (n : Nat) (f : Fn → Fn) : (s.onFn n f).resize = s.resize := rfl
@[simp] theorem State.onFn_detaches (n : Nat) (f : Fn → Fn) : (s.onFn n f).detaches = s.detaches := rfl
@[simp] theorem State.onFn_mem (n : Nat) (f : Fn → Fn) : (s.onFn n f).mem = s.mem := rfl
@[simp] theorem State.onFn_chans (n : Nat) (f : Fn → Fn) : (s.onFn n f).chans = s.chans := rfl
@[simp] theorem State.onFn_audits (n : Nat) (f : Fn → Fn) : (s.onFn n f).audits = s.audits := rfl
@[simp] theorem State.onFn_islands (n : Nat) (f : Fn → Fn) : (s.onFn n f).islands = s.islands := rfl
@[simp] theorem State.onFn_net (n : Nat) (f : Fn → Fn) : (s.onFn n f).net = s.net := rfl
@[simp] theorem State.onFn_sess (n : Nat) (f : Fn → Fn) : (s.onFn n f).sess = s.sess := rfl
@[simp] theorem State.onFn_cipher (n : Nat) (f : Fn → Fn) : (s.onFn n f).cipher = s.cipher := rfl
@[simp] theorem State.onFn_acts (n : Nat) (f : Fn → Fn) : (s.onFn n f).acts = s.acts := rfl
@[simp] theorem State.onFn_tp (n : Nat) (f : Fn → Fn) : (s.onFn n f).tp = s.tp := rfl
@[simp] theorem State.onFn_gdp (n : Nat) (f : Fn → Fn) : (s.onFn n f).gdp = s.gdp := rfl
@[simp] theorem State.onFn_mover (n : Nat) (f : Fn → Fn) : (s.onFn n f).mover = s.mover := rfl
@[simp] theorem State.onFn_codec (n : Nat) (f : Fn → Fn) : (s.onFn n f).codec = s.codec := rfl
@[simp] theorem State.onFn_stor (n : Nat) (f : Fn → Fn) : (s.onFn n f).stor = s.stor := rfl
@[simp] theorem State.onFn_press (n : Nat) (f : Fn → Fn) : (s.onFn n f).press = s.press := rfl
@[simp] theorem State.onFn_mgmt (n : Nat) (f : Fn → Fn) : (s.onFn n f).mgmt = s.mgmt := rfl
@[simp] theorem State.onFn_power (n : Nat) (f : Fn → Fn) : (s.onFn n f).power = s.power := rfl
@[simp] theorem State.onFn_rind (n : Nat) (f : Fn → Fn) : (s.onFn n f).rind = s.rind := rfl
@[simp] theorem State.onFn_test (n : Nat) (f : Fn → Fn) : (s.onFn n f).test = s.test := rfl
@[simp] theorem State.onFn_flash (n : Nat) (f : Fn → Fn) : (s.onFn n f).flash = s.flash := rfl
@[simp] theorem State.onFn_fuses (n : Nat) (f : Fn → Fn) : (s.onFn n f).fuses = s.fuses := rfl
@[simp] theorem State.onFn_clock (n : Nat) (f : Fn → Fn) : (s.onFn n f).clock = s.clock := rfl
@[simp] theorem State.onFn_cfg (n : Nat) (f : Fn → Fn) : (s.onFn n f).cfg = s.cfg := rfl
@[simp] theorem State.onFn_draws (n : Nat) (f : Fn → Fn) : (s.onFn n f).draws = s.draws := rfl
@[simp] theorem State.onFn_out (n : Nat) (f : Fn → Fn) : (s.onFn n f).out = s.out := rfl
@[simp] theorem State.onFn_pending (n : Nat) (f : Fn → Fn) : (s.onFn n f).pending = s.pending := rfl

@[simp] theorem State.onPart_fixedMode (n : Nat) (f : Part → Part) : (s.onPart n f).fixedMode = s.fixedMode := rfl
@[simp] theorem State.onPart_host (n : Nat) (f : Part → Part) : (s.onPart n f).host = s.host := rfl
@[simp] theorem State.onPart_fns (n : Nat) (f : Part → Part) : (s.onPart n f).fns = s.fns := rfl
@[simp] theorem State.onPart_parts (n : Nat) (f : Part → Part) : (s.onPart n f).parts = tupd s.parts n {} f := rfl
@[simp] theorem State.onPart_comps (n : Nat) (f : Part → Part) : (s.onPart n f).comps = s.comps := rfl
@[simp] theorem State.onPart_deferred (n : Nat) (f : Part → Part) : (s.onPart n f).deferred = s.deferred := rfl
@[simp] theorem State.onPart_resize (n : Nat) (f : Part → Part) : (s.onPart n f).resize = s.resize := rfl
@[simp] theorem State.onPart_detaches (n : Nat) (f : Part → Part) : (s.onPart n f).detaches = s.detaches := rfl
@[simp] theorem State.onPart_mem (n : Nat) (f : Part → Part) : (s.onPart n f).mem = s.mem := rfl
@[simp] theorem State.onPart_chans (n : Nat) (f : Part → Part) : (s.onPart n f).chans = s.chans := rfl
@[simp] theorem State.onPart_audits (n : Nat) (f : Part → Part) : (s.onPart n f).audits = s.audits := rfl
@[simp] theorem State.onPart_islands (n : Nat) (f : Part → Part) : (s.onPart n f).islands = s.islands := rfl
@[simp] theorem State.onPart_net (n : Nat) (f : Part → Part) : (s.onPart n f).net = s.net := rfl
@[simp] theorem State.onPart_sess (n : Nat) (f : Part → Part) : (s.onPart n f).sess = s.sess := rfl
@[simp] theorem State.onPart_cipher (n : Nat) (f : Part → Part) : (s.onPart n f).cipher = s.cipher := rfl
@[simp] theorem State.onPart_acts (n : Nat) (f : Part → Part) : (s.onPart n f).acts = s.acts := rfl
@[simp] theorem State.onPart_tp (n : Nat) (f : Part → Part) : (s.onPart n f).tp = s.tp := rfl
@[simp] theorem State.onPart_gdp (n : Nat) (f : Part → Part) : (s.onPart n f).gdp = s.gdp := rfl
@[simp] theorem State.onPart_mover (n : Nat) (f : Part → Part) : (s.onPart n f).mover = s.mover := rfl
@[simp] theorem State.onPart_codec (n : Nat) (f : Part → Part) : (s.onPart n f).codec = s.codec := rfl
@[simp] theorem State.onPart_stor (n : Nat) (f : Part → Part) : (s.onPart n f).stor = s.stor := rfl
@[simp] theorem State.onPart_press (n : Nat) (f : Part → Part) : (s.onPart n f).press = s.press := rfl
@[simp] theorem State.onPart_mgmt (n : Nat) (f : Part → Part) : (s.onPart n f).mgmt = s.mgmt := rfl
@[simp] theorem State.onPart_power (n : Nat) (f : Part → Part) : (s.onPart n f).power = s.power := rfl
@[simp] theorem State.onPart_rind (n : Nat) (f : Part → Part) : (s.onPart n f).rind = s.rind := rfl
@[simp] theorem State.onPart_test (n : Nat) (f : Part → Part) : (s.onPart n f).test = s.test := rfl
@[simp] theorem State.onPart_flash (n : Nat) (f : Part → Part) : (s.onPart n f).flash = s.flash := rfl
@[simp] theorem State.onPart_fuses (n : Nat) (f : Part → Part) : (s.onPart n f).fuses = s.fuses := rfl
@[simp] theorem State.onPart_clock (n : Nat) (f : Part → Part) : (s.onPart n f).clock = s.clock := rfl
@[simp] theorem State.onPart_cfg (n : Nat) (f : Part → Part) : (s.onPart n f).cfg = s.cfg := rfl
@[simp] theorem State.onPart_draws (n : Nat) (f : Part → Part) : (s.onPart n f).draws = s.draws := rfl
@[simp] theorem State.onPart_out (n : Nat) (f : Part → Part) : (s.onPart n f).out = s.out := rfl
@[simp] theorem State.onPart_pending (n : Nat) (f : Part → Part) : (s.onPart n f).pending = s.pending := rfl

@[simp] theorem State.onComp_fixedMode (n : Nat) (f : Comp → Comp) : (s.onComp n f).fixedMode = s.fixedMode := rfl
@[simp] theorem State.onComp_host (n : Nat) (f : Comp → Comp) : (s.onComp n f).host = s.host := rfl
@[simp] theorem State.onComp_fns (n : Nat) (f : Comp → Comp) : (s.onComp n f).fns = s.fns := rfl
@[simp] theorem State.onComp_parts (n : Nat) (f : Comp → Comp) : (s.onComp n f).parts = s.parts := rfl
@[simp] theorem State.onComp_comps (n : Nat) (f : Comp → Comp) : (s.onComp n f).comps = tupd s.comps n {} f := rfl
@[simp] theorem State.onComp_deferred (n : Nat) (f : Comp → Comp) : (s.onComp n f).deferred = s.deferred := rfl
@[simp] theorem State.onComp_resize (n : Nat) (f : Comp → Comp) : (s.onComp n f).resize = s.resize := rfl
@[simp] theorem State.onComp_detaches (n : Nat) (f : Comp → Comp) : (s.onComp n f).detaches = s.detaches := rfl
@[simp] theorem State.onComp_mem (n : Nat) (f : Comp → Comp) : (s.onComp n f).mem = s.mem := rfl
@[simp] theorem State.onComp_chans (n : Nat) (f : Comp → Comp) : (s.onComp n f).chans = s.chans := rfl
@[simp] theorem State.onComp_audits (n : Nat) (f : Comp → Comp) : (s.onComp n f).audits = s.audits := rfl
@[simp] theorem State.onComp_islands (n : Nat) (f : Comp → Comp) : (s.onComp n f).islands = s.islands := rfl
@[simp] theorem State.onComp_net (n : Nat) (f : Comp → Comp) : (s.onComp n f).net = s.net := rfl
@[simp] theorem State.onComp_sess (n : Nat) (f : Comp → Comp) : (s.onComp n f).sess = s.sess := rfl
@[simp] theorem State.onComp_cipher (n : Nat) (f : Comp → Comp) : (s.onComp n f).cipher = s.cipher := rfl
@[simp] theorem State.onComp_acts (n : Nat) (f : Comp → Comp) : (s.onComp n f).acts = s.acts := rfl
@[simp] theorem State.onComp_tp (n : Nat) (f : Comp → Comp) : (s.onComp n f).tp = s.tp := rfl
@[simp] theorem State.onComp_gdp (n : Nat) (f : Comp → Comp) : (s.onComp n f).gdp = s.gdp := rfl
@[simp] theorem State.onComp_mover (n : Nat) (f : Comp → Comp) : (s.onComp n f).mover = s.mover := rfl
@[simp] theorem State.onComp_codec (n : Nat) (f : Comp → Comp) : (s.onComp n f).codec = s.codec := rfl
@[simp] theorem State.onComp_stor (n : Nat) (f : Comp → Comp) : (s.onComp n f).stor = s.stor := rfl
@[simp] theorem State.onComp_press (n : Nat) (f : Comp → Comp) : (s.onComp n f).press = s.press := rfl
@[simp] theorem State.onComp_mgmt (n : Nat) (f : Comp → Comp) : (s.onComp n f).mgmt = s.mgmt := rfl
@[simp] theorem State.onComp_power (n : Nat) (f : Comp → Comp) : (s.onComp n f).power = s.power := rfl
@[simp] theorem State.onComp_rind (n : Nat) (f : Comp → Comp) : (s.onComp n f).rind = s.rind := rfl
@[simp] theorem State.onComp_test (n : Nat) (f : Comp → Comp) : (s.onComp n f).test = s.test := rfl
@[simp] theorem State.onComp_flash (n : Nat) (f : Comp → Comp) : (s.onComp n f).flash = s.flash := rfl
@[simp] theorem State.onComp_fuses (n : Nat) (f : Comp → Comp) : (s.onComp n f).fuses = s.fuses := rfl
@[simp] theorem State.onComp_clock (n : Nat) (f : Comp → Comp) : (s.onComp n f).clock = s.clock := rfl
@[simp] theorem State.onComp_cfg (n : Nat) (f : Comp → Comp) : (s.onComp n f).cfg = s.cfg := rfl
@[simp] theorem State.onComp_draws (n : Nat) (f : Comp → Comp) : (s.onComp n f).draws = s.draws := rfl
@[simp] theorem State.onComp_out (n : Nat) (f : Comp → Comp) : (s.onComp n f).out = s.out := rfl
@[simp] theorem State.onComp_pending (n : Nat) (f : Comp → Comp) : (s.onComp n f).pending = s.pending := rfl

@[simp] theorem State.onMem_fixedMode (f : MemSys → MemSys) : (s.onMem f).fixedMode = s.fixedMode := rfl
@[simp] theorem State.onMem_host (f : MemSys → MemSys) : (s.onMem f).host = s.host := rfl
@[simp] theorem State.onMem_fns (f : MemSys → MemSys) : (s.onMem f).fns = s.fns := rfl
@[simp] theorem State.onMem_parts (f : MemSys → MemSys) : (s.onMem f).parts = s.parts := rfl
@[simp] theorem State.onMem_comps (f : MemSys → MemSys) : (s.onMem f).comps = s.comps := rfl
@[simp] theorem State.onMem_deferred (f : MemSys → MemSys) : (s.onMem f).deferred = s.deferred := rfl
@[simp] theorem State.onMem_resize (f : MemSys → MemSys) : (s.onMem f).resize = s.resize := rfl
@[simp] theorem State.onMem_detaches (f : MemSys → MemSys) : (s.onMem f).detaches = s.detaches := rfl
@[simp] theorem State.onMem_mem (f : MemSys → MemSys) : (s.onMem f).mem = f s.mem := rfl
@[simp] theorem State.onMem_chans (f : MemSys → MemSys) : (s.onMem f).chans = s.chans := rfl
@[simp] theorem State.onMem_audits (f : MemSys → MemSys) : (s.onMem f).audits = s.audits := rfl
@[simp] theorem State.onMem_islands (f : MemSys → MemSys) : (s.onMem f).islands = s.islands := rfl
@[simp] theorem State.onMem_net (f : MemSys → MemSys) : (s.onMem f).net = s.net := rfl
@[simp] theorem State.onMem_sess (f : MemSys → MemSys) : (s.onMem f).sess = s.sess := rfl
@[simp] theorem State.onMem_cipher (f : MemSys → MemSys) : (s.onMem f).cipher = s.cipher := rfl
@[simp] theorem State.onMem_acts (f : MemSys → MemSys) : (s.onMem f).acts = s.acts := rfl
@[simp] theorem State.onMem_tp (f : MemSys → MemSys) : (s.onMem f).tp = s.tp := rfl
@[simp] theorem State.onMem_gdp (f : MemSys → MemSys) : (s.onMem f).gdp = s.gdp := rfl
@[simp] theorem State.onMem_mover (f : MemSys → MemSys) : (s.onMem f).mover = s.mover := rfl
@[simp] theorem State.onMem_codec (f : MemSys → MemSys) : (s.onMem f).codec = s.codec := rfl
@[simp] theorem State.onMem_stor (f : MemSys → MemSys) : (s.onMem f).stor = s.stor := rfl
@[simp] theorem State.onMem_press (f : MemSys → MemSys) : (s.onMem f).press = s.press := rfl
@[simp] theorem State.onMem_mgmt (f : MemSys → MemSys) : (s.onMem f).mgmt = s.mgmt := rfl
@[simp] theorem State.onMem_power (f : MemSys → MemSys) : (s.onMem f).power = s.power := rfl
@[simp] theorem State.onMem_rind (f : MemSys → MemSys) : (s.onMem f).rind = s.rind := rfl
@[simp] theorem State.onMem_test (f : MemSys → MemSys) : (s.onMem f).test = s.test := rfl
@[simp] theorem State.onMem_flash (f : MemSys → MemSys) : (s.onMem f).flash = s.flash := rfl
@[simp] theorem State.onMem_fuses (f : MemSys → MemSys) : (s.onMem f).fuses = s.fuses := rfl
@[simp] theorem State.onMem_clock (f : MemSys → MemSys) : (s.onMem f).clock = s.clock := rfl
@[simp] theorem State.onMem_cfg (f : MemSys → MemSys) : (s.onMem f).cfg = s.cfg := rfl
@[simp] theorem State.onMem_draws (f : MemSys → MemSys) : (s.onMem f).draws = s.draws := rfl
@[simp] theorem State.onMem_out (f : MemSys → MemSys) : (s.onMem f).out = s.out := rfl
@[simp] theorem State.onMem_pending (f : MemSys → MemSys) : (s.onMem f).pending = s.pending := rfl

@[simp] theorem State.onIsland_fixedMode (n : Nat) (f : Island → Island) : (s.onIsland n f).fixedMode = s.fixedMode := rfl
@[simp] theorem State.onIsland_host (n : Nat) (f : Island → Island) : (s.onIsland n f).host = s.host := rfl
@[simp] theorem State.onIsland_fns (n : Nat) (f : Island → Island) : (s.onIsland n f).fns = s.fns := rfl
@[simp] theorem State.onIsland_parts (n : Nat) (f : Island → Island) : (s.onIsland n f).parts = s.parts := rfl
@[simp] theorem State.onIsland_comps (n : Nat) (f : Island → Island) : (s.onIsland n f).comps = s.comps := rfl
@[simp] theorem State.onIsland_deferred (n : Nat) (f : Island → Island) : (s.onIsland n f).deferred = s.deferred := rfl
@[simp] theorem State.onIsland_resize (n : Nat) (f : Island → Island) : (s.onIsland n f).resize = s.resize := rfl
@[simp] theorem State.onIsland_detaches (n : Nat) (f : Island → Island) : (s.onIsland n f).detaches = s.detaches := rfl
@[simp] theorem State.onIsland_mem (n : Nat) (f : Island → Island) : (s.onIsland n f).mem = s.mem := rfl
@[simp] theorem State.onIsland_chans (n : Nat) (f : Island → Island) : (s.onIsland n f).chans = s.chans := rfl
@[simp] theorem State.onIsland_audits (n : Nat) (f : Island → Island) : (s.onIsland n f).audits = s.audits := rfl
@[simp] theorem State.onIsland_islands (n : Nat) (f : Island → Island) : (s.onIsland n f).islands = tupd s.islands n {} f := rfl
@[simp] theorem State.onIsland_net (n : Nat) (f : Island → Island) : (s.onIsland n f).net = s.net := rfl
@[simp] theorem State.onIsland_sess (n : Nat) (f : Island → Island) : (s.onIsland n f).sess = s.sess := rfl
@[simp] theorem State.onIsland_cipher (n : Nat) (f : Island → Island) : (s.onIsland n f).cipher = s.cipher := rfl
@[simp] theorem State.onIsland_acts (n : Nat) (f : Island → Island) : (s.onIsland n f).acts = s.acts := rfl
@[simp] theorem State.onIsland_tp (n : Nat) (f : Island → Island) : (s.onIsland n f).tp = s.tp := rfl
@[simp] theorem State.onIsland_gdp (n : Nat) (f : Island → Island) : (s.onIsland n f).gdp = s.gdp := rfl
@[simp] theorem State.onIsland_mover (n : Nat) (f : Island → Island) : (s.onIsland n f).mover = s.mover := rfl
@[simp] theorem State.onIsland_codec (n : Nat) (f : Island → Island) : (s.onIsland n f).codec = s.codec := rfl
@[simp] theorem State.onIsland_stor (n : Nat) (f : Island → Island) : (s.onIsland n f).stor = s.stor := rfl
@[simp] theorem State.onIsland_press (n : Nat) (f : Island → Island) : (s.onIsland n f).press = s.press := rfl
@[simp] theorem State.onIsland_mgmt (n : Nat) (f : Island → Island) : (s.onIsland n f).mgmt = s.mgmt := rfl
@[simp] theorem State.onIsland_power (n : Nat) (f : Island → Island) : (s.onIsland n f).power = s.power := rfl
@[simp] theorem State.onIsland_rind (n : Nat) (f : Island → Island) : (s.onIsland n f).rind = s.rind := rfl
@[simp] theorem State.onIsland_test (n : Nat) (f : Island → Island) : (s.onIsland n f).test = s.test := rfl
@[simp] theorem State.onIsland_flash (n : Nat) (f : Island → Island) : (s.onIsland n f).flash = s.flash := rfl
@[simp] theorem State.onIsland_fuses (n : Nat) (f : Island → Island) : (s.onIsland n f).fuses = s.fuses := rfl
@[simp] theorem State.onIsland_clock (n : Nat) (f : Island → Island) : (s.onIsland n f).clock = s.clock := rfl
@[simp] theorem State.onIsland_cfg (n : Nat) (f : Island → Island) : (s.onIsland n f).cfg = s.cfg := rfl
@[simp] theorem State.onIsland_draws (n : Nat) (f : Island → Island) : (s.onIsland n f).draws = s.draws := rfl
@[simp] theorem State.onIsland_out (n : Nat) (f : Island → Island) : (s.onIsland n f).out = s.out := rfl
@[simp] theorem State.onIsland_pending (n : Nat) (f : Island → Island) : (s.onIsland n f).pending = s.pending := rfl

@[simp] theorem State.onNet_fixedMode (f : Net → Net) : (s.onNet f).fixedMode = s.fixedMode := rfl
@[simp] theorem State.onNet_host (f : Net → Net) : (s.onNet f).host = s.host := rfl
@[simp] theorem State.onNet_fns (f : Net → Net) : (s.onNet f).fns = s.fns := rfl
@[simp] theorem State.onNet_parts (f : Net → Net) : (s.onNet f).parts = s.parts := rfl
@[simp] theorem State.onNet_comps (f : Net → Net) : (s.onNet f).comps = s.comps := rfl
@[simp] theorem State.onNet_deferred (f : Net → Net) : (s.onNet f).deferred = s.deferred := rfl
@[simp] theorem State.onNet_resize (f : Net → Net) : (s.onNet f).resize = s.resize := rfl
@[simp] theorem State.onNet_detaches (f : Net → Net) : (s.onNet f).detaches = s.detaches := rfl
@[simp] theorem State.onNet_mem (f : Net → Net) : (s.onNet f).mem = s.mem := rfl
@[simp] theorem State.onNet_chans (f : Net → Net) : (s.onNet f).chans = s.chans := rfl
@[simp] theorem State.onNet_audits (f : Net → Net) : (s.onNet f).audits = s.audits := rfl
@[simp] theorem State.onNet_islands (f : Net → Net) : (s.onNet f).islands = s.islands := rfl
@[simp] theorem State.onNet_net (f : Net → Net) : (s.onNet f).net = f s.net := rfl
@[simp] theorem State.onNet_sess (f : Net → Net) : (s.onNet f).sess = s.sess := rfl
@[simp] theorem State.onNet_cipher (f : Net → Net) : (s.onNet f).cipher = s.cipher := rfl
@[simp] theorem State.onNet_acts (f : Net → Net) : (s.onNet f).acts = s.acts := rfl
@[simp] theorem State.onNet_tp (f : Net → Net) : (s.onNet f).tp = s.tp := rfl
@[simp] theorem State.onNet_gdp (f : Net → Net) : (s.onNet f).gdp = s.gdp := rfl
@[simp] theorem State.onNet_mover (f : Net → Net) : (s.onNet f).mover = s.mover := rfl
@[simp] theorem State.onNet_codec (f : Net → Net) : (s.onNet f).codec = s.codec := rfl
@[simp] theorem State.onNet_stor (f : Net → Net) : (s.onNet f).stor = s.stor := rfl
@[simp] theorem State.onNet_press (f : Net → Net) : (s.onNet f).press = s.press := rfl
@[simp] theorem State.onNet_mgmt (f : Net → Net) : (s.onNet f).mgmt = s.mgmt := rfl
@[simp] theorem State.onNet_power (f : Net → Net) : (s.onNet f).power = s.power := rfl
@[simp] theorem State.onNet_rind (f : Net → Net) : (s.onNet f).rind = s.rind := rfl
@[simp] theorem State.onNet_test (f : Net → Net) : (s.onNet f).test = s.test := rfl
@[simp] theorem State.onNet_flash (f : Net → Net) : (s.onNet f).flash = s.flash := rfl
@[simp] theorem State.onNet_fuses (f : Net → Net) : (s.onNet f).fuses = s.fuses := rfl
@[simp] theorem State.onNet_clock (f : Net → Net) : (s.onNet f).clock = s.clock := rfl
@[simp] theorem State.onNet_cfg (f : Net → Net) : (s.onNet f).cfg = s.cfg := rfl
@[simp] theorem State.onNet_draws (f : Net → Net) : (s.onNet f).draws = s.draws := rfl
@[simp] theorem State.onNet_out (f : Net → Net) : (s.onNet f).out = s.out := rfl
@[simp] theorem State.onNet_pending (f : Net → Net) : (s.onNet f).pending = s.pending := rfl

@[simp] theorem State.onSess_fixedMode (f : Sessions → Sessions) : (s.onSess f).fixedMode = s.fixedMode := rfl
@[simp] theorem State.onSess_host (f : Sessions → Sessions) : (s.onSess f).host = s.host := rfl
@[simp] theorem State.onSess_fns (f : Sessions → Sessions) : (s.onSess f).fns = s.fns := rfl
@[simp] theorem State.onSess_parts (f : Sessions → Sessions) : (s.onSess f).parts = s.parts := rfl
@[simp] theorem State.onSess_comps (f : Sessions → Sessions) : (s.onSess f).comps = s.comps := rfl
@[simp] theorem State.onSess_deferred (f : Sessions → Sessions) : (s.onSess f).deferred = s.deferred := rfl
@[simp] theorem State.onSess_resize (f : Sessions → Sessions) : (s.onSess f).resize = s.resize := rfl
@[simp] theorem State.onSess_detaches (f : Sessions → Sessions) : (s.onSess f).detaches = s.detaches := rfl
@[simp] theorem State.onSess_mem (f : Sessions → Sessions) : (s.onSess f).mem = s.mem := rfl
@[simp] theorem State.onSess_chans (f : Sessions → Sessions) : (s.onSess f).chans = s.chans := rfl
@[simp] theorem State.onSess_audits (f : Sessions → Sessions) : (s.onSess f).audits = s.audits := rfl
@[simp] theorem State.onSess_islands (f : Sessions → Sessions) : (s.onSess f).islands = s.islands := rfl
@[simp] theorem State.onSess_net (f : Sessions → Sessions) : (s.onSess f).net = s.net := rfl
@[simp] theorem State.onSess_sess (f : Sessions → Sessions) : (s.onSess f).sess = f s.sess := rfl
@[simp] theorem State.onSess_cipher (f : Sessions → Sessions) : (s.onSess f).cipher = s.cipher := rfl
@[simp] theorem State.onSess_acts (f : Sessions → Sessions) : (s.onSess f).acts = s.acts := rfl
@[simp] theorem State.onSess_tp (f : Sessions → Sessions) : (s.onSess f).tp = s.tp := rfl
@[simp] theorem State.onSess_gdp (f : Sessions → Sessions) : (s.onSess f).gdp = s.gdp := rfl
@[simp] theorem State.onSess_mover (f : Sessions → Sessions) : (s.onSess f).mover = s.mover := rfl
@[simp] theorem State.onSess_codec (f : Sessions → Sessions) : (s.onSess f).codec = s.codec := rfl
@[simp] theorem State.onSess_stor (f : Sessions → Sessions) : (s.onSess f).stor = s.stor := rfl
@[simp] theorem State.onSess_press (f : Sessions → Sessions) : (s.onSess f).press = s.press := rfl
@[simp] theorem State.onSess_mgmt (f : Sessions → Sessions) : (s.onSess f).mgmt = s.mgmt := rfl
@[simp] theorem State.onSess_power (f : Sessions → Sessions) : (s.onSess f).power = s.power := rfl
@[simp] theorem State.onSess_rind (f : Sessions → Sessions) : (s.onSess f).rind = s.rind := rfl
@[simp] theorem State.onSess_test (f : Sessions → Sessions) : (s.onSess f).test = s.test := rfl
@[simp] theorem State.onSess_flash (f : Sessions → Sessions) : (s.onSess f).flash = s.flash := rfl
@[simp] theorem State.onSess_fuses (f : Sessions → Sessions) : (s.onSess f).fuses = s.fuses := rfl
@[simp] theorem State.onSess_clock (f : Sessions → Sessions) : (s.onSess f).clock = s.clock := rfl
@[simp] theorem State.onSess_cfg (f : Sessions → Sessions) : (s.onSess f).cfg = s.cfg := rfl
@[simp] theorem State.onSess_draws (f : Sessions → Sessions) : (s.onSess f).draws = s.draws := rfl
@[simp] theorem State.onSess_out (f : Sessions → Sessions) : (s.onSess f).out = s.out := rfl
@[simp] theorem State.onSess_pending (f : Sessions → Sessions) : (s.onSess f).pending = s.pending := rfl

@[simp] theorem State.onCipher_fixedMode (f : Cipher → Cipher) : (s.onCipher f).fixedMode = s.fixedMode := rfl
@[simp] theorem State.onCipher_host (f : Cipher → Cipher) : (s.onCipher f).host = s.host := rfl
@[simp] theorem State.onCipher_fns (f : Cipher → Cipher) : (s.onCipher f).fns = s.fns := rfl
@[simp] theorem State.onCipher_parts (f : Cipher → Cipher) : (s.onCipher f).parts = s.parts := rfl
@[simp] theorem State.onCipher_comps (f : Cipher → Cipher) : (s.onCipher f).comps = s.comps := rfl
@[simp] theorem State.onCipher_deferred (f : Cipher → Cipher) : (s.onCipher f).deferred = s.deferred := rfl
@[simp] theorem State.onCipher_resize (f : Cipher → Cipher) : (s.onCipher f).resize = s.resize := rfl
@[simp] theorem State.onCipher_detaches (f : Cipher → Cipher) : (s.onCipher f).detaches = s.detaches := rfl
@[simp] theorem State.onCipher_mem (f : Cipher → Cipher) : (s.onCipher f).mem = s.mem := rfl
@[simp] theorem State.onCipher_chans (f : Cipher → Cipher) : (s.onCipher f).chans = s.chans := rfl
@[simp] theorem State.onCipher_audits (f : Cipher → Cipher) : (s.onCipher f).audits = s.audits := rfl
@[simp] theorem State.onCipher_islands (f : Cipher → Cipher) : (s.onCipher f).islands = s.islands := rfl
@[simp] theorem State.onCipher_net (f : Cipher → Cipher) : (s.onCipher f).net = s.net := rfl
@[simp] theorem State.onCipher_sess (f : Cipher → Cipher) : (s.onCipher f).sess = s.sess := rfl
@[simp] theorem State.onCipher_cipher (f : Cipher → Cipher) : (s.onCipher f).cipher = f s.cipher := rfl
@[simp] theorem State.onCipher_acts (f : Cipher → Cipher) : (s.onCipher f).acts = s.acts := rfl
@[simp] theorem State.onCipher_tp (f : Cipher → Cipher) : (s.onCipher f).tp = s.tp := rfl
@[simp] theorem State.onCipher_gdp (f : Cipher → Cipher) : (s.onCipher f).gdp = s.gdp := rfl
@[simp] theorem State.onCipher_mover (f : Cipher → Cipher) : (s.onCipher f).mover = s.mover := rfl
@[simp] theorem State.onCipher_codec (f : Cipher → Cipher) : (s.onCipher f).codec = s.codec := rfl
@[simp] theorem State.onCipher_stor (f : Cipher → Cipher) : (s.onCipher f).stor = s.stor := rfl
@[simp] theorem State.onCipher_press (f : Cipher → Cipher) : (s.onCipher f).press = s.press := rfl
@[simp] theorem State.onCipher_mgmt (f : Cipher → Cipher) : (s.onCipher f).mgmt = s.mgmt := rfl
@[simp] theorem State.onCipher_power (f : Cipher → Cipher) : (s.onCipher f).power = s.power := rfl
@[simp] theorem State.onCipher_rind (f : Cipher → Cipher) : (s.onCipher f).rind = s.rind := rfl
@[simp] theorem State.onCipher_test (f : Cipher → Cipher) : (s.onCipher f).test = s.test := rfl
@[simp] theorem State.onCipher_flash (f : Cipher → Cipher) : (s.onCipher f).flash = s.flash := rfl
@[simp] theorem State.onCipher_fuses (f : Cipher → Cipher) : (s.onCipher f).fuses = s.fuses := rfl
@[simp] theorem State.onCipher_clock (f : Cipher → Cipher) : (s.onCipher f).clock = s.clock := rfl
@[simp] theorem State.onCipher_cfg (f : Cipher → Cipher) : (s.onCipher f).cfg = s.cfg := rfl
@[simp] theorem State.onCipher_draws (f : Cipher → Cipher) : (s.onCipher f).draws = s.draws := rfl
@[simp] theorem State.onCipher_out (f : Cipher → Cipher) : (s.onCipher f).out = s.out := rfl
@[simp] theorem State.onCipher_pending (f : Cipher → Cipher) : (s.onCipher f).pending = s.pending := rfl

@[simp] theorem State.onActs_fixedMode (f : Acts → Acts) : (s.onActs f).fixedMode = s.fixedMode := rfl
@[simp] theorem State.onActs_host (f : Acts → Acts) : (s.onActs f).host = s.host := rfl
@[simp] theorem State.onActs_fns (f : Acts → Acts) : (s.onActs f).fns = s.fns := rfl
@[simp] theorem State.onActs_parts (f : Acts → Acts) : (s.onActs f).parts = s.parts := rfl
@[simp] theorem State.onActs_comps (f : Acts → Acts) : (s.onActs f).comps = s.comps := rfl
@[simp] theorem State.onActs_deferred (f : Acts → Acts) : (s.onActs f).deferred = s.deferred := rfl
@[simp] theorem State.onActs_resize (f : Acts → Acts) : (s.onActs f).resize = s.resize := rfl
@[simp] theorem State.onActs_detaches (f : Acts → Acts) : (s.onActs f).detaches = s.detaches := rfl
@[simp] theorem State.onActs_mem (f : Acts → Acts) : (s.onActs f).mem = s.mem := rfl
@[simp] theorem State.onActs_chans (f : Acts → Acts) : (s.onActs f).chans = s.chans := rfl
@[simp] theorem State.onActs_audits (f : Acts → Acts) : (s.onActs f).audits = s.audits := rfl
@[simp] theorem State.onActs_islands (f : Acts → Acts) : (s.onActs f).islands = s.islands := rfl
@[simp] theorem State.onActs_net (f : Acts → Acts) : (s.onActs f).net = s.net := rfl
@[simp] theorem State.onActs_sess (f : Acts → Acts) : (s.onActs f).sess = s.sess := rfl
@[simp] theorem State.onActs_cipher (f : Acts → Acts) : (s.onActs f).cipher = s.cipher := rfl
@[simp] theorem State.onActs_acts (f : Acts → Acts) : (s.onActs f).acts = f s.acts := rfl
@[simp] theorem State.onActs_tp (f : Acts → Acts) : (s.onActs f).tp = s.tp := rfl
@[simp] theorem State.onActs_gdp (f : Acts → Acts) : (s.onActs f).gdp = s.gdp := rfl
@[simp] theorem State.onActs_mover (f : Acts → Acts) : (s.onActs f).mover = s.mover := rfl
@[simp] theorem State.onActs_codec (f : Acts → Acts) : (s.onActs f).codec = s.codec := rfl
@[simp] theorem State.onActs_stor (f : Acts → Acts) : (s.onActs f).stor = s.stor := rfl
@[simp] theorem State.onActs_press (f : Acts → Acts) : (s.onActs f).press = s.press := rfl
@[simp] theorem State.onActs_mgmt (f : Acts → Acts) : (s.onActs f).mgmt = s.mgmt := rfl
@[simp] theorem State.onActs_power (f : Acts → Acts) : (s.onActs f).power = s.power := rfl
@[simp] theorem State.onActs_rind (f : Acts → Acts) : (s.onActs f).rind = s.rind := rfl
@[simp] theorem State.onActs_test (f : Acts → Acts) : (s.onActs f).test = s.test := rfl
@[simp] theorem State.onActs_flash (f : Acts → Acts) : (s.onActs f).flash = s.flash := rfl
@[simp] theorem State.onActs_fuses (f : Acts → Acts) : (s.onActs f).fuses = s.fuses := rfl
@[simp] theorem State.onActs_clock (f : Acts → Acts) : (s.onActs f).clock = s.clock := rfl
@[simp] theorem State.onActs_cfg (f : Acts → Acts) : (s.onActs f).cfg = s.cfg := rfl
@[simp] theorem State.onActs_draws (f : Acts → Acts) : (s.onActs f).draws = s.draws := rfl
@[simp] theorem State.onActs_out (f : Acts → Acts) : (s.onActs f).out = s.out := rfl
@[simp] theorem State.onActs_pending (f : Acts → Acts) : (s.onActs f).pending = s.pending := rfl

@[simp] theorem State.onTrapeze_fixedMode (f : Trapeze → Trapeze) : (s.onTrapeze f).fixedMode = s.fixedMode := rfl
@[simp] theorem State.onTrapeze_host (f : Trapeze → Trapeze) : (s.onTrapeze f).host = s.host := rfl
@[simp] theorem State.onTrapeze_fns (f : Trapeze → Trapeze) : (s.onTrapeze f).fns = s.fns := rfl
@[simp] theorem State.onTrapeze_parts (f : Trapeze → Trapeze) : (s.onTrapeze f).parts = s.parts := rfl
@[simp] theorem State.onTrapeze_comps (f : Trapeze → Trapeze) : (s.onTrapeze f).comps = s.comps := rfl
@[simp] theorem State.onTrapeze_deferred (f : Trapeze → Trapeze) : (s.onTrapeze f).deferred = s.deferred := rfl
@[simp] theorem State.onTrapeze_resize (f : Trapeze → Trapeze) : (s.onTrapeze f).resize = s.resize := rfl
@[simp] theorem State.onTrapeze_detaches (f : Trapeze → Trapeze) : (s.onTrapeze f).detaches = s.detaches := rfl
@[simp] theorem State.onTrapeze_mem (f : Trapeze → Trapeze) : (s.onTrapeze f).mem = s.mem := rfl
@[simp] theorem State.onTrapeze_chans (f : Trapeze → Trapeze) : (s.onTrapeze f).chans = s.chans := rfl
@[simp] theorem State.onTrapeze_audits (f : Trapeze → Trapeze) : (s.onTrapeze f).audits = s.audits := rfl
@[simp] theorem State.onTrapeze_islands (f : Trapeze → Trapeze) : (s.onTrapeze f).islands = s.islands := rfl
@[simp] theorem State.onTrapeze_net (f : Trapeze → Trapeze) : (s.onTrapeze f).net = s.net := rfl
@[simp] theorem State.onTrapeze_sess (f : Trapeze → Trapeze) : (s.onTrapeze f).sess = s.sess := rfl
@[simp] theorem State.onTrapeze_cipher (f : Trapeze → Trapeze) : (s.onTrapeze f).cipher = s.cipher := rfl
@[simp] theorem State.onTrapeze_acts (f : Trapeze → Trapeze) : (s.onTrapeze f).acts = s.acts := rfl
@[simp] theorem State.onTrapeze_tp (f : Trapeze → Trapeze) : (s.onTrapeze f).tp = f s.tp := rfl
@[simp] theorem State.onTrapeze_gdp (f : Trapeze → Trapeze) : (s.onTrapeze f).gdp = s.gdp := rfl
@[simp] theorem State.onTrapeze_mover (f : Trapeze → Trapeze) : (s.onTrapeze f).mover = s.mover := rfl
@[simp] theorem State.onTrapeze_codec (f : Trapeze → Trapeze) : (s.onTrapeze f).codec = s.codec := rfl
@[simp] theorem State.onTrapeze_stor (f : Trapeze → Trapeze) : (s.onTrapeze f).stor = s.stor := rfl
@[simp] theorem State.onTrapeze_press (f : Trapeze → Trapeze) : (s.onTrapeze f).press = s.press := rfl
@[simp] theorem State.onTrapeze_mgmt (f : Trapeze → Trapeze) : (s.onTrapeze f).mgmt = s.mgmt := rfl
@[simp] theorem State.onTrapeze_power (f : Trapeze → Trapeze) : (s.onTrapeze f).power = s.power := rfl
@[simp] theorem State.onTrapeze_rind (f : Trapeze → Trapeze) : (s.onTrapeze f).rind = s.rind := rfl
@[simp] theorem State.onTrapeze_test (f : Trapeze → Trapeze) : (s.onTrapeze f).test = s.test := rfl
@[simp] theorem State.onTrapeze_flash (f : Trapeze → Trapeze) : (s.onTrapeze f).flash = s.flash := rfl
@[simp] theorem State.onTrapeze_fuses (f : Trapeze → Trapeze) : (s.onTrapeze f).fuses = s.fuses := rfl
@[simp] theorem State.onTrapeze_clock (f : Trapeze → Trapeze) : (s.onTrapeze f).clock = s.clock := rfl
@[simp] theorem State.onTrapeze_cfg (f : Trapeze → Trapeze) : (s.onTrapeze f).cfg = s.cfg := rfl
@[simp] theorem State.onTrapeze_draws (f : Trapeze → Trapeze) : (s.onTrapeze f).draws = s.draws := rfl
@[simp] theorem State.onTrapeze_out (f : Trapeze → Trapeze) : (s.onTrapeze f).out = s.out := rfl
@[simp] theorem State.onTrapeze_pending (f : Trapeze → Trapeze) : (s.onTrapeze f).pending = s.pending := rfl

@[simp] theorem State.onConn_fixedMode (n : Nat) (f : GdpConn → GdpConn) : (s.onConn n f).fixedMode = s.fixedMode := rfl
@[simp] theorem State.onConn_host (n : Nat) (f : GdpConn → GdpConn) : (s.onConn n f).host = s.host := rfl
@[simp] theorem State.onConn_fns (n : Nat) (f : GdpConn → GdpConn) : (s.onConn n f).fns = s.fns := rfl
@[simp] theorem State.onConn_parts (n : Nat) (f : GdpConn → GdpConn) : (s.onConn n f).parts = s.parts := rfl
@[simp] theorem State.onConn_comps (n : Nat) (f : GdpConn → GdpConn) : (s.onConn n f).comps = s.comps := rfl
@[simp] theorem State.onConn_deferred (n : Nat) (f : GdpConn → GdpConn) : (s.onConn n f).deferred = s.deferred := rfl
@[simp] theorem State.onConn_resize (n : Nat) (f : GdpConn → GdpConn) : (s.onConn n f).resize = s.resize := rfl
@[simp] theorem State.onConn_detaches (n : Nat) (f : GdpConn → GdpConn) : (s.onConn n f).detaches = s.detaches := rfl
@[simp] theorem State.onConn_mem (n : Nat) (f : GdpConn → GdpConn) : (s.onConn n f).mem = s.mem := rfl
@[simp] theorem State.onConn_chans (n : Nat) (f : GdpConn → GdpConn) : (s.onConn n f).chans = s.chans := rfl
@[simp] theorem State.onConn_audits (n : Nat) (f : GdpConn → GdpConn) : (s.onConn n f).audits = s.audits := rfl
@[simp] theorem State.onConn_islands (n : Nat) (f : GdpConn → GdpConn) : (s.onConn n f).islands = s.islands := rfl
@[simp] theorem State.onConn_net (n : Nat) (f : GdpConn → GdpConn) : (s.onConn n f).net = s.net := rfl
@[simp] theorem State.onConn_sess (n : Nat) (f : GdpConn → GdpConn) : (s.onConn n f).sess = s.sess := rfl
@[simp] theorem State.onConn_cipher (n : Nat) (f : GdpConn → GdpConn) : (s.onConn n f).cipher = s.cipher := rfl
@[simp] theorem State.onConn_acts (n : Nat) (f : GdpConn → GdpConn) : (s.onConn n f).acts = s.acts := rfl
@[simp] theorem State.onConn_tp (n : Nat) (f : GdpConn → GdpConn) : (s.onConn n f).tp = s.tp := rfl
@[simp] theorem State.onConn_gdp (n : Nat) (f : GdpConn → GdpConn) : (s.onConn n f).gdp = { s.gdp with conns := tmod s.gdp.conns n f } := rfl
@[simp] theorem State.onConn_mover (n : Nat) (f : GdpConn → GdpConn) : (s.onConn n f).mover = s.mover := rfl
@[simp] theorem State.onConn_codec (n : Nat) (f : GdpConn → GdpConn) : (s.onConn n f).codec = s.codec := rfl
@[simp] theorem State.onConn_stor (n : Nat) (f : GdpConn → GdpConn) : (s.onConn n f).stor = s.stor := rfl
@[simp] theorem State.onConn_press (n : Nat) (f : GdpConn → GdpConn) : (s.onConn n f).press = s.press := rfl
@[simp] theorem State.onConn_mgmt (n : Nat) (f : GdpConn → GdpConn) : (s.onConn n f).mgmt = s.mgmt := rfl
@[simp] theorem State.onConn_power (n : Nat) (f : GdpConn → GdpConn) : (s.onConn n f).power = s.power := rfl
@[simp] theorem State.onConn_rind (n : Nat) (f : GdpConn → GdpConn) : (s.onConn n f).rind = s.rind := rfl
@[simp] theorem State.onConn_test (n : Nat) (f : GdpConn → GdpConn) : (s.onConn n f).test = s.test := rfl
@[simp] theorem State.onConn_flash (n : Nat) (f : GdpConn → GdpConn) : (s.onConn n f).flash = s.flash := rfl
@[simp] theorem State.onConn_fuses (n : Nat) (f : GdpConn → GdpConn) : (s.onConn n f).fuses = s.fuses := rfl
@[simp] theorem State.onConn_clock (n : Nat) (f : GdpConn → GdpConn) : (s.onConn n f).clock = s.clock := rfl
@[simp] theorem State.onConn_cfg (n : Nat) (f : GdpConn → GdpConn) : (s.onConn n f).cfg = s.cfg := rfl
@[simp] theorem State.onConn_draws (n : Nat) (f : GdpConn → GdpConn) : (s.onConn n f).draws = s.draws := rfl
@[simp] theorem State.onConn_out (n : Nat) (f : GdpConn → GdpConn) : (s.onConn n f).out = s.out := rfl
@[simp] theorem State.onConn_pending (n : Nat) (f : GdpConn → GdpConn) : (s.onConn n f).pending = s.pending := rfl

@[simp] theorem State.onMover_fixedMode (f : Mover → Mover) : (s.onMover f).fixedMode = s.fixedMode := rfl
@[simp] theorem State.onMover_host (f : Mover → Mover) : (s.onMover f).host = s.host := rfl
@[simp] theorem State.onMover_fns (f : Mover → Mover) : (s.onMover f).fns = s.fns := rfl
@[simp] theorem State.onMover_parts (f : Mover → Mover) : (s.onMover f).parts = s.parts := rfl
@[simp] theorem State.onMover_comps (f : Mover → Mover) : (s.onMover f).comps = s.comps := rfl
@[simp] theorem State.onMover_deferred (f : Mover → Mover) : (s.onMover f).deferred = s.deferred := rfl
@[simp] theorem State.onMover_resize (f : Mover → Mover) : (s.onMover f).resize = s.resize := rfl
@[simp] theorem State.onMover_detaches (f : Mover → Mover) : (s.onMover f).detaches = s.detaches := rfl
@[simp] theorem State.onMover_mem (f : Mover → Mover) : (s.onMover f).mem = s.mem := rfl
@[simp] theorem State.onMover_chans (f : Mover → Mover) : (s.onMover f).chans = s.chans := rfl
@[simp] theorem State.onMover_audits (f : Mover → Mover) : (s.onMover f).audits = s.audits := rfl
@[simp] theorem State.onMover_islands (f : Mover → Mover) : (s.onMover f).islands = s.islands := rfl
@[simp] theorem State.onMover_net (f : Mover → Mover) : (s.onMover f).net = s.net := rfl
@[simp] theorem State.onMover_sess (f : Mover → Mover) : (s.onMover f).sess = s.sess := rfl
@[simp] theorem State.onMover_cipher (f : Mover → Mover) : (s.onMover f).cipher = s.cipher := rfl
@[simp] theorem State.onMover_acts (f : Mover → Mover) : (s.onMover f).acts = s.acts := rfl
@[simp] theorem State.onMover_tp (f : Mover → Mover) : (s.onMover f).tp = s.tp := rfl
@[simp] theorem State.onMover_gdp (f : Mover → Mover) : (s.onMover f).gdp = s.gdp := rfl
@[simp] theorem State.onMover_mover (f : Mover → Mover) : (s.onMover f).mover = f s.mover := rfl
@[simp] theorem State.onMover_codec (f : Mover → Mover) : (s.onMover f).codec = s.codec := rfl
@[simp] theorem State.onMover_stor (f : Mover → Mover) : (s.onMover f).stor = s.stor := rfl
@[simp] theorem State.onMover_press (f : Mover → Mover) : (s.onMover f).press = s.press := rfl
@[simp] theorem State.onMover_mgmt (f : Mover → Mover) : (s.onMover f).mgmt = s.mgmt := rfl
@[simp] theorem State.onMover_power (f : Mover → Mover) : (s.onMover f).power = s.power := rfl
@[simp] theorem State.onMover_rind (f : Mover → Mover) : (s.onMover f).rind = s.rind := rfl
@[simp] theorem State.onMover_test (f : Mover → Mover) : (s.onMover f).test = s.test := rfl
@[simp] theorem State.onMover_flash (f : Mover → Mover) : (s.onMover f).flash = s.flash := rfl
@[simp] theorem State.onMover_fuses (f : Mover → Mover) : (s.onMover f).fuses = s.fuses := rfl
@[simp] theorem State.onMover_clock (f : Mover → Mover) : (s.onMover f).clock = s.clock := rfl
@[simp] theorem State.onMover_cfg (f : Mover → Mover) : (s.onMover f).cfg = s.cfg := rfl
@[simp] theorem State.onMover_draws (f : Mover → Mover) : (s.onMover f).draws = s.draws := rfl
@[simp] theorem State.onMover_out (f : Mover → Mover) : (s.onMover f).out = s.out := rfl
@[simp] theorem State.onMover_pending (f : Mover → Mover) : (s.onMover f).pending = s.pending := rfl

@[simp] theorem State.onCodec_fixedMode (f : Codec → Codec) : (s.onCodec f).fixedMode = s.fixedMode := rfl
@[simp] theorem State.onCodec_host (f : Codec → Codec) : (s.onCodec f).host = s.host := rfl
@[simp] theorem State.onCodec_fns (f : Codec → Codec) : (s.onCodec f).fns = s.fns := rfl
@[simp] theorem State.onCodec_parts (f : Codec → Codec) : (s.onCodec f).parts = s.parts := rfl
@[simp] theorem State.onCodec_comps (f : Codec → Codec) : (s.onCodec f).comps = s.comps := rfl
@[simp] theorem State.onCodec_deferred (f : Codec → Codec) : (s.onCodec f).deferred = s.deferred := rfl
@[simp] theorem State.onCodec_resize (f : Codec → Codec) : (s.onCodec f).resize = s.resize := rfl
@[simp] theorem State.onCodec_detaches (f : Codec → Codec) : (s.onCodec f).detaches = s.detaches := rfl
@[simp] theorem State.onCodec_mem (f : Codec → Codec) : (s.onCodec f).mem = s.mem := rfl
@[simp] theorem State.onCodec_chans (f : Codec → Codec) : (s.onCodec f).chans = s.chans := rfl
@[simp] theorem State.onCodec_audits (f : Codec → Codec) : (s.onCodec f).audits = s.audits := rfl
@[simp] theorem State.onCodec_islands (f : Codec → Codec) : (s.onCodec f).islands = s.islands := rfl
@[simp] theorem State.onCodec_net (f : Codec → Codec) : (s.onCodec f).net = s.net := rfl
@[simp] theorem State.onCodec_sess (f : Codec → Codec) : (s.onCodec f).sess = s.sess := rfl
@[simp] theorem State.onCodec_cipher (f : Codec → Codec) : (s.onCodec f).cipher = s.cipher := rfl
@[simp] theorem State.onCodec_acts (f : Codec → Codec) : (s.onCodec f).acts = s.acts := rfl
@[simp] theorem State.onCodec_tp (f : Codec → Codec) : (s.onCodec f).tp = s.tp := rfl
@[simp] theorem State.onCodec_gdp (f : Codec → Codec) : (s.onCodec f).gdp = s.gdp := rfl
@[simp] theorem State.onCodec_mover (f : Codec → Codec) : (s.onCodec f).mover = s.mover := rfl
@[simp] theorem State.onCodec_codec (f : Codec → Codec) : (s.onCodec f).codec = f s.codec := rfl
@[simp] theorem State.onCodec_stor (f : Codec → Codec) : (s.onCodec f).stor = s.stor := rfl
@[simp] theorem State.onCodec_press (f : Codec → Codec) : (s.onCodec f).press = s.press := rfl
@[simp] theorem State.onCodec_mgmt (f : Codec → Codec) : (s.onCodec f).mgmt = s.mgmt := rfl
@[simp] theorem State.onCodec_power (f : Codec → Codec) : (s.onCodec f).power = s.power := rfl
@[simp] theorem State.onCodec_rind (f : Codec → Codec) : (s.onCodec f).rind = s.rind := rfl
@[simp] theorem State.onCodec_test (f : Codec → Codec) : (s.onCodec f).test = s.test := rfl
@[simp] theorem State.onCodec_flash (f : Codec → Codec) : (s.onCodec f).flash = s.flash := rfl
@[simp] theorem State.onCodec_fuses (f : Codec → Codec) : (s.onCodec f).fuses = s.fuses := rfl
@[simp] theorem State.onCodec_clock (f : Codec → Codec) : (s.onCodec f).clock = s.clock := rfl
@[simp] theorem State.onCodec_cfg (f : Codec → Codec) : (s.onCodec f).cfg = s.cfg := rfl
@[simp] theorem State.onCodec_draws (f : Codec → Codec) : (s.onCodec f).draws = s.draws := rfl
@[simp] theorem State.onCodec_out (f : Codec → Codec) : (s.onCodec f).out = s.out := rfl
@[simp] theorem State.onCodec_pending (f : Codec → Codec) : (s.onCodec f).pending = s.pending := rfl

@[simp] theorem State.onStor_fixedMode (f : Stor → Stor) : (s.onStor f).fixedMode = s.fixedMode := rfl
@[simp] theorem State.onStor_host (f : Stor → Stor) : (s.onStor f).host = s.host := rfl
@[simp] theorem State.onStor_fns (f : Stor → Stor) : (s.onStor f).fns = s.fns := rfl
@[simp] theorem State.onStor_parts (f : Stor → Stor) : (s.onStor f).parts = s.parts := rfl
@[simp] theorem State.onStor_comps (f : Stor → Stor) : (s.onStor f).comps = s.comps := rfl
@[simp] theorem State.onStor_deferred (f : Stor → Stor) : (s.onStor f).deferred = s.deferred := rfl
@[simp] theorem State.onStor_resize (f : Stor → Stor) : (s.onStor f).resize = s.resize := rfl
@[simp] theorem State.onStor_detaches (f : Stor → Stor) : (s.onStor f).detaches = s.detaches := rfl
@[simp] theorem State.onStor_mem (f : Stor → Stor) : (s.onStor f).mem = s.mem := rfl
@[simp] theorem State.onStor_chans (f : Stor → Stor) : (s.onStor f).chans = s.chans := rfl
@[simp] theorem State.onStor_audits (f : Stor → Stor) : (s.onStor f).audits = s.audits := rfl
@[simp] theorem State.onStor_islands (f : Stor → Stor) : (s.onStor f).islands = s.islands := rfl
@[simp] theorem State.onStor_net (f : Stor → Stor) : (s.onStor f).net = s.net := rfl
@[simp] theorem State.onStor_sess (f : Stor → Stor) : (s.onStor f).sess = s.sess := rfl
@[simp] theorem State.onStor_cipher (f : Stor → Stor) : (s.onStor f).cipher = s.cipher := rfl
@[simp] theorem State.onStor_acts (f : Stor → Stor) : (s.onStor f).acts = s.acts := rfl
@[simp] theorem State.onStor_tp (f : Stor → Stor) : (s.onStor f).tp = s.tp := rfl
@[simp] theorem State.onStor_gdp (f : Stor → Stor) : (s.onStor f).gdp = s.gdp := rfl
@[simp] theorem State.onStor_mover (f : Stor → Stor) : (s.onStor f).mover = s.mover := rfl
@[simp] theorem State.onStor_codec (f : Stor → Stor) : (s.onStor f).codec = s.codec := rfl
@[simp] theorem State.onStor_stor (f : Stor → Stor) : (s.onStor f).stor = f s.stor := rfl
@[simp] theorem State.onStor_press (f : Stor → Stor) : (s.onStor f).press = s.press := rfl
@[simp] theorem State.onStor_mgmt (f : Stor → Stor) : (s.onStor f).mgmt = s.mgmt := rfl
@[simp] theorem State.onStor_power (f : Stor → Stor) : (s.onStor f).power = s.power := rfl
@[simp] theorem State.onStor_rind (f : Stor → Stor) : (s.onStor f).rind = s.rind := rfl
@[simp] theorem State.onStor_test (f : Stor → Stor) : (s.onStor f).test = s.test := rfl
@[simp] theorem State.onStor_flash (f : Stor → Stor) : (s.onStor f).flash = s.flash := rfl
@[simp] theorem State.onStor_fuses (f : Stor → Stor) : (s.onStor f).fuses = s.fuses := rfl
@[simp] theorem State.onStor_clock (f : Stor → Stor) : (s.onStor f).clock = s.clock := rfl
@[simp] theorem State.onStor_cfg (f : Stor → Stor) : (s.onStor f).cfg = s.cfg := rfl
@[simp] theorem State.onStor_draws (f : Stor → Stor) : (s.onStor f).draws = s.draws := rfl
@[simp] theorem State.onStor_out (f : Stor → Stor) : (s.onStor f).out = s.out := rfl
@[simp] theorem State.onStor_pending (f : Stor → Stor) : (s.onStor f).pending = s.pending := rfl

@[simp] theorem State.onJob_fixedMode (n : Nat) (f : PressJob → PressJob) : (s.onJob n f).fixedMode = s.fixedMode := rfl
@[simp] theorem State.onJob_host (n : Nat) (f : PressJob → PressJob) : (s.onJob n f).host = s.host := rfl
@[simp] theorem State.onJob_fns (n : Nat) (f : PressJob → PressJob) : (s.onJob n f).fns = s.fns := rfl
@[simp] theorem State.onJob_parts (n : Nat) (f : PressJob → PressJob) : (s.onJob n f).parts = s.parts := rfl
@[simp] theorem State.onJob_comps (n : Nat) (f : PressJob → PressJob) : (s.onJob n f).comps = s.comps := rfl
@[simp] theorem State.onJob_deferred (n : Nat) (f : PressJob → PressJob) : (s.onJob n f).deferred = s.deferred := rfl
@[simp] theorem State.onJob_resize (n : Nat) (f : PressJob → PressJob) : (s.onJob n f).resize = s.resize := rfl
@[simp] theorem State.onJob_detaches (n : Nat) (f : PressJob → PressJob) : (s.onJob n f).detaches = s.detaches := rfl
@[simp] theorem State.onJob_mem (n : Nat) (f : PressJob → PressJob) : (s.onJob n f).mem = s.mem := rfl
@[simp] theorem State.onJob_chans (n : Nat) (f : PressJob → PressJob) : (s.onJob n f).chans = s.chans := rfl
@[simp] theorem State.onJob_audits (n : Nat) (f : PressJob → PressJob) : (s.onJob n f).audits = s.audits := rfl
@[simp] theorem State.onJob_islands (n : Nat) (f : PressJob → PressJob) : (s.onJob n f).islands = s.islands := rfl
@[simp] theorem State.onJob_net (n : Nat) (f : PressJob → PressJob) : (s.onJob n f).net = s.net := rfl
@[simp] theorem State.onJob_sess (n : Nat) (f : PressJob → PressJob) : (s.onJob n f).sess = s.sess := rfl
@[simp] theorem State.onJob_cipher (n : Nat) (f : PressJob → PressJob) : (s.onJob n f).cipher = s.cipher := rfl
@[simp] theorem State.onJob_acts (n : Nat) (f : PressJob → PressJob) : (s.onJob n f).acts = s.acts := rfl
@[simp] theorem State.onJob_tp (n : Nat) (f : PressJob → PressJob) : (s.onJob n f).tp = s.tp := rfl
@[simp] theorem State.onJob_gdp (n : Nat) (f : PressJob → PressJob) : (s.onJob n f).gdp = s.gdp := rfl
@[simp] theorem State.onJob_mover (n : Nat) (f : PressJob → PressJob) : (s.onJob n f).mover = s.mover := rfl
@[simp] theorem State.onJob_codec (n : Nat) (f : PressJob → PressJob) : (s.onJob n f).codec = s.codec := rfl
@[simp] theorem State.onJob_stor (n : Nat) (f : PressJob → PressJob) : (s.onJob n f).stor = s.stor := rfl
@[simp] theorem State.onJob_press (n : Nat) (f : PressJob → PressJob) : (s.onJob n f).press = { s.press with jobs := tmod s.press.jobs n f } := rfl
@[simp] theorem State.onJob_mgmt (n : Nat) (f : PressJob → PressJob) : (s.onJob n f).mgmt = s.mgmt := rfl
@[simp] theorem State.onJob_power (n : Nat) (f : PressJob → PressJob) : (s.onJob n f).power = s.power := rfl
@[simp] theorem State.onJob_rind (n : Nat) (f : PressJob → PressJob) : (s.onJob n f).rind = s.rind := rfl
@[simp] theorem State.onJob_test (n : Nat) (f : PressJob → PressJob) : (s.onJob n f).test = s.test := rfl
@[simp] theorem State.onJob_flash (n : Nat) (f : PressJob → PressJob) : (s.onJob n f).flash = s.flash := rfl
@[simp] theorem State.onJob_fuses (n : Nat) (f : PressJob → PressJob) : (s.onJob n f).fuses = s.fuses := rfl
@[simp] theorem State.onJob_clock (n : Nat) (f : PressJob → PressJob) : (s.onJob n f).clock = s.clock := rfl
@[simp] theorem State.onJob_cfg (n : Nat) (f : PressJob → PressJob) : (s.onJob n f).cfg = s.cfg := rfl
@[simp] theorem State.onJob_draws (n : Nat) (f : PressJob → PressJob) : (s.onJob n f).draws = s.draws := rfl
@[simp] theorem State.onJob_out (n : Nat) (f : PressJob → PressJob) : (s.onJob n f).out = s.out := rfl
@[simp] theorem State.onJob_pending (n : Nat) (f : PressJob → PressJob) : (s.onJob n f).pending = s.pending := rfl

@[simp] theorem State.onMgmt_fixedMode (f : Mgmt → Mgmt) : (s.onMgmt f).fixedMode = s.fixedMode := rfl
@[simp] theorem State.onMgmt_host (f : Mgmt → Mgmt) : (s.onMgmt f).host = s.host := rfl
@[simp] theorem State.onMgmt_fns (f : Mgmt → Mgmt) : (s.onMgmt f).fns = s.fns := rfl
@[simp] theorem State.onMgmt_parts (f : Mgmt → Mgmt) : (s.onMgmt f).parts = s.parts := rfl
@[simp] theorem State.onMgmt_comps (f : Mgmt → Mgmt) : (s.onMgmt f).comps = s.comps := rfl
@[simp] theorem State.onMgmt_deferred (f : Mgmt → Mgmt) : (s.onMgmt f).deferred = s.deferred := rfl
@[simp] theorem State.onMgmt_resize (f : Mgmt → Mgmt) : (s.onMgmt f).resize = s.resize := rfl
@[simp] theorem State.onMgmt_detaches (f : Mgmt → Mgmt) : (s.onMgmt f).detaches = s.detaches := rfl
@[simp] theorem State.onMgmt_mem (f : Mgmt → Mgmt) : (s.onMgmt f).mem = s.mem := rfl
@[simp] theorem State.onMgmt_chans (f : Mgmt → Mgmt) : (s.onMgmt f).chans = s.chans := rfl
@[simp] theorem State.onMgmt_audits (f : Mgmt → Mgmt) : (s.onMgmt f).audits = s.audits := rfl
@[simp] theorem State.onMgmt_islands (f : Mgmt → Mgmt) : (s.onMgmt f).islands = s.islands := rfl
@[simp] theorem State.onMgmt_net (f : Mgmt → Mgmt) : (s.onMgmt f).net = s.net := rfl
@[simp] theorem State.onMgmt_sess (f : Mgmt → Mgmt) : (s.onMgmt f).sess = s.sess := rfl
@[simp] theorem State.onMgmt_cipher (f : Mgmt → Mgmt) : (s.onMgmt f).cipher = s.cipher := rfl
@[simp] theorem State.onMgmt_acts (f : Mgmt → Mgmt) : (s.onMgmt f).acts = s.acts := rfl
@[simp] theorem State.onMgmt_tp (f : Mgmt → Mgmt) : (s.onMgmt f).tp = s.tp := rfl
@[simp] theorem State.onMgmt_gdp (f : Mgmt → Mgmt) : (s.onMgmt f).gdp = s.gdp := rfl
@[simp] theorem State.onMgmt_mover (f : Mgmt → Mgmt) : (s.onMgmt f).mover = s.mover := rfl
@[simp] theorem State.onMgmt_codec (f : Mgmt → Mgmt) : (s.onMgmt f).codec = s.codec := rfl
@[simp] theorem State.onMgmt_stor (f : Mgmt → Mgmt) : (s.onMgmt f).stor = s.stor := rfl
@[simp] theorem State.onMgmt_press (f : Mgmt → Mgmt) : (s.onMgmt f).press = s.press := rfl
@[simp] theorem State.onMgmt_mgmt (f : Mgmt → Mgmt) : (s.onMgmt f).mgmt = f s.mgmt := rfl
@[simp] theorem State.onMgmt_power (f : Mgmt → Mgmt) : (s.onMgmt f).power = s.power := rfl
@[simp] theorem State.onMgmt_rind (f : Mgmt → Mgmt) : (s.onMgmt f).rind = s.rind := rfl
@[simp] theorem State.onMgmt_test (f : Mgmt → Mgmt) : (s.onMgmt f).test = s.test := rfl
@[simp] theorem State.onMgmt_flash (f : Mgmt → Mgmt) : (s.onMgmt f).flash = s.flash := rfl
@[simp] theorem State.onMgmt_fuses (f : Mgmt → Mgmt) : (s.onMgmt f).fuses = s.fuses := rfl
@[simp] theorem State.onMgmt_clock (f : Mgmt → Mgmt) : (s.onMgmt f).clock = s.clock := rfl
@[simp] theorem State.onMgmt_cfg (f : Mgmt → Mgmt) : (s.onMgmt f).cfg = s.cfg := rfl
@[simp] theorem State.onMgmt_draws (f : Mgmt → Mgmt) : (s.onMgmt f).draws = s.draws := rfl
@[simp] theorem State.onMgmt_out (f : Mgmt → Mgmt) : (s.onMgmt f).out = s.out := rfl
@[simp] theorem State.onMgmt_pending (f : Mgmt → Mgmt) : (s.onMgmt f).pending = s.pending := rfl

@[simp] theorem State.onPower_fixedMode (f : Power → Power) : (s.onPower f).fixedMode = s.fixedMode := rfl
@[simp] theorem State.onPower_host (f : Power → Power) : (s.onPower f).host = s.host := rfl
@[simp] theorem State.onPower_fns (f : Power → Power) : (s.onPower f).fns = s.fns := rfl
@[simp] theorem State.onPower_parts (f : Power → Power) : (s.onPower f).parts = s.parts := rfl
@[simp] theorem State.onPower_comps (f : Power → Power) : (s.onPower f).comps = s.comps := rfl
@[simp] theorem State.onPower_deferred (f : Power → Power) : (s.onPower f).deferred = s.deferred := rfl
@[simp] theorem State.onPower_resize (f : Power → Power) : (s.onPower f).resize = s.resize := rfl
@[simp] theorem State.onPower_detaches (f : Power → Power) : (s.onPower f).detaches = s.detaches := rfl
@[simp] theorem State.onPower_mem (f : Power → Power) : (s.onPower f).mem = s.mem := rfl
@[simp] theorem State.onPower_chans (f : Power → Power) : (s.onPower f).chans = s.chans := rfl
@[simp] theorem State.onPower_audits (f : Power → Power) : (s.onPower f).audits = s.audits := rfl
@[simp] theorem State.onPower_islands (f : Power → Power) : (s.onPower f).islands = s.islands := rfl
@[simp] theorem State.onPower_net (f : Power → Power) : (s.onPower f).net = s.net := rfl
@[simp] theorem State.onPower_sess (f : Power → Power) : (s.onPower f).sess = s.sess := rfl
@[simp] theorem State.onPower_cipher (f : Power → Power) : (s.onPower f).cipher = s.cipher := rfl
@[simp] theorem State.onPower_acts (f : Power → Power) : (s.onPower f).acts = s.acts := rfl
@[simp] theorem State.onPower_tp (f : Power → Power) : (s.onPower f).tp = s.tp := rfl
@[simp] theorem State.onPower_gdp (f : Power → Power) : (s.onPower f).gdp = s.gdp := rfl
@[simp] theorem State.onPower_mover (f : Power → Power) : (s.onPower f).mover = s.mover := rfl
@[simp] theorem State.onPower_codec (f : Power → Power) : (s.onPower f).codec = s.codec := rfl
@[simp] theorem State.onPower_stor (f : Power → Power) : (s.onPower f).stor = s.stor := rfl
@[simp] theorem State.onPower_press (f : Power → Power) : (s.onPower f).press = s.press := rfl
@[simp] theorem State.onPower_mgmt (f : Power → Power) : (s.onPower f).mgmt = s.mgmt := rfl
@[simp] theorem State.onPower_power (f : Power → Power) : (s.onPower f).power = f s.power := rfl
@[simp] theorem State.onPower_rind (f : Power → Power) : (s.onPower f).rind = s.rind := rfl
@[simp] theorem State.onPower_test (f : Power → Power) : (s.onPower f).test = s.test := rfl
@[simp] theorem State.onPower_flash (f : Power → Power) : (s.onPower f).flash = s.flash := rfl
@[simp] theorem State.onPower_fuses (f : Power → Power) : (s.onPower f).fuses = s.fuses := rfl
@[simp] theorem State.onPower_clock (f : Power → Power) : (s.onPower f).clock = s.clock := rfl
@[simp] theorem State.onPower_cfg (f : Power → Power) : (s.onPower f).cfg = s.cfg := rfl
@[simp] theorem State.onPower_draws (f : Power → Power) : (s.onPower f).draws = s.draws := rfl
@[simp] theorem State.onPower_out (f : Power → Power) : (s.onPower f).out = s.out := rfl
@[simp] theorem State.onPower_pending (f : Power → Power) : (s.onPower f).pending = s.pending := rfl

@[simp] theorem State.onRind_fixedMode (f : Rind → Rind) : (s.onRind f).fixedMode = s.fixedMode := rfl
@[simp] theorem State.onRind_host (f : Rind → Rind) : (s.onRind f).host = s.host := rfl
@[simp] theorem State.onRind_fns (f : Rind → Rind) : (s.onRind f).fns = s.fns := rfl
@[simp] theorem State.onRind_parts (f : Rind → Rind) : (s.onRind f).parts = s.parts := rfl
@[simp] theorem State.onRind_comps (f : Rind → Rind) : (s.onRind f).comps = s.comps := rfl
@[simp] theorem State.onRind_deferred (f : Rind → Rind) : (s.onRind f).deferred = s.deferred := rfl
@[simp] theorem State.onRind_resize (f : Rind → Rind) : (s.onRind f).resize = s.resize := rfl
@[simp] theorem State.onRind_detaches (f : Rind → Rind) : (s.onRind f).detaches = s.detaches := rfl
@[simp] theorem State.onRind_mem (f : Rind → Rind) : (s.onRind f).mem = s.mem := rfl
@[simp] theorem State.onRind_chans (f : Rind → Rind) : (s.onRind f).chans = s.chans := rfl
@[simp] theorem State.onRind_audits (f : Rind → Rind) : (s.onRind f).audits = s.audits := rfl
@[simp] theorem State.onRind_islands (f : Rind → Rind) : (s.onRind f).islands = s.islands := rfl
@[simp] theorem State.onRind_net (f : Rind → Rind) : (s.onRind f).net = s.net := rfl
@[simp] theorem State.onRind_sess (f : Rind → Rind) : (s.onRind f).sess = s.sess := rfl
@[simp] theorem State.onRind_cipher (f : Rind → Rind) : (s.onRind f).cipher = s.cipher := rfl
@[simp] theorem State.onRind_acts (f : Rind → Rind) : (s.onRind f).acts = s.acts := rfl
@[simp] theorem State.onRind_tp (f : Rind → Rind) : (s.onRind f).tp = s.tp := rfl
@[simp] theorem State.onRind_gdp (f : Rind → Rind) : (s.onRind f).gdp = s.gdp := rfl
@[simp] theorem State.onRind_mover (f : Rind → Rind) : (s.onRind f).mover = s.mover := rfl
@[simp] theorem State.onRind_codec (f : Rind → Rind) : (s.onRind f).codec = s.codec := rfl
@[simp] theorem State.onRind_stor (f : Rind → Rind) : (s.onRind f).stor = s.stor := rfl
@[simp] theorem State.onRind_press (f : Rind → Rind) : (s.onRind f).press = s.press := rfl
@[simp] theorem State.onRind_mgmt (f : Rind → Rind) : (s.onRind f).mgmt = s.mgmt := rfl
@[simp] theorem State.onRind_power (f : Rind → Rind) : (s.onRind f).power = s.power := rfl
@[simp] theorem State.onRind_rind (f : Rind → Rind) : (s.onRind f).rind = f s.rind := rfl
@[simp] theorem State.onRind_test (f : Rind → Rind) : (s.onRind f).test = s.test := rfl
@[simp] theorem State.onRind_flash (f : Rind → Rind) : (s.onRind f).flash = s.flash := rfl
@[simp] theorem State.onRind_fuses (f : Rind → Rind) : (s.onRind f).fuses = s.fuses := rfl
@[simp] theorem State.onRind_clock (f : Rind → Rind) : (s.onRind f).clock = s.clock := rfl
@[simp] theorem State.onRind_cfg (f : Rind → Rind) : (s.onRind f).cfg = s.cfg := rfl
@[simp] theorem State.onRind_draws (f : Rind → Rind) : (s.onRind f).draws = s.draws := rfl
@[simp] theorem State.onRind_out (f : Rind → Rind) : (s.onRind f).out = s.out := rfl
@[simp] theorem State.onRind_pending (f : Rind → Rind) : (s.onRind f).pending = s.pending := rfl

@[simp] theorem State.onTest_fixedMode (f : Test → Test) : (s.onTest f).fixedMode = s.fixedMode := rfl
@[simp] theorem State.onTest_host (f : Test → Test) : (s.onTest f).host = s.host := rfl
@[simp] theorem State.onTest_fns (f : Test → Test) : (s.onTest f).fns = s.fns := rfl
@[simp] theorem State.onTest_parts (f : Test → Test) : (s.onTest f).parts = s.parts := rfl
@[simp] theorem State.onTest_comps (f : Test → Test) : (s.onTest f).comps = s.comps := rfl
@[simp] theorem State.onTest_deferred (f : Test → Test) : (s.onTest f).deferred = s.deferred := rfl
@[simp] theorem State.onTest_resize (f : Test → Test) : (s.onTest f).resize = s.resize := rfl
@[simp] theorem State.onTest_detaches (f : Test → Test) : (s.onTest f).detaches = s.detaches := rfl
@[simp] theorem State.onTest_mem (f : Test → Test) : (s.onTest f).mem = s.mem := rfl
@[simp] theorem State.onTest_chans (f : Test → Test) : (s.onTest f).chans = s.chans := rfl
@[simp] theorem State.onTest_audits (f : Test → Test) : (s.onTest f).audits = s.audits := rfl
@[simp] theorem State.onTest_islands (f : Test → Test) : (s.onTest f).islands = s.islands := rfl
@[simp] theorem State.onTest_net (f : Test → Test) : (s.onTest f).net = s.net := rfl
@[simp] theorem State.onTest_sess (f : Test → Test) : (s.onTest f).sess = s.sess := rfl
@[simp] theorem State.onTest_cipher (f : Test → Test) : (s.onTest f).cipher = s.cipher := rfl
@[simp] theorem State.onTest_acts (f : Test → Test) : (s.onTest f).acts = s.acts := rfl
@[simp] theorem State.onTest_tp (f : Test → Test) : (s.onTest f).tp = s.tp := rfl
@[simp] theorem State.onTest_gdp (f : Test → Test) : (s.onTest f).gdp = s.gdp := rfl
@[simp] theorem State.onTest_mover (f : Test → Test) : (s.onTest f).mover = s.mover := rfl
@[simp] theorem State.onTest_codec (f : Test → Test) : (s.onTest f).codec = s.codec := rfl
@[simp] theorem State.onTest_stor (f : Test → Test) : (s.onTest f).stor = s.stor := rfl
@[simp] theorem State.onTest_press (f : Test → Test) : (s.onTest f).press = s.press := rfl
@[simp] theorem State.onTest_mgmt (f : Test → Test) : (s.onTest f).mgmt = s.mgmt := rfl
@[simp] theorem State.onTest_power (f : Test → Test) : (s.onTest f).power = s.power := rfl
@[simp] theorem State.onTest_rind (f : Test → Test) : (s.onTest f).rind = s.rind := rfl
@[simp] theorem State.onTest_test (f : Test → Test) : (s.onTest f).test = f s.test := rfl
@[simp] theorem State.onTest_flash (f : Test → Test) : (s.onTest f).flash = s.flash := rfl
@[simp] theorem State.onTest_fuses (f : Test → Test) : (s.onTest f).fuses = s.fuses := rfl
@[simp] theorem State.onTest_clock (f : Test → Test) : (s.onTest f).clock = s.clock := rfl
@[simp] theorem State.onTest_cfg (f : Test → Test) : (s.onTest f).cfg = s.cfg := rfl
@[simp] theorem State.onTest_draws (f : Test → Test) : (s.onTest f).draws = s.draws := rfl
@[simp] theorem State.onTest_out (f : Test → Test) : (s.onTest f).out = s.out := rfl
@[simp] theorem State.onTest_pending (f : Test → Test) : (s.onTest f).pending = s.pending := rfl

@[simp] theorem State.onFlash_fixedMode (f : Flash → Flash) : (s.onFlash f).fixedMode = s.fixedMode := rfl
@[simp] theorem State.onFlash_host (f : Flash → Flash) : (s.onFlash f).host = s.host := rfl
@[simp] theorem State.onFlash_fns (f : Flash → Flash) : (s.onFlash f).fns = s.fns := rfl
@[simp] theorem State.onFlash_parts (f : Flash → Flash) : (s.onFlash f).parts = s.parts := rfl
@[simp] theorem State.onFlash_comps (f : Flash → Flash) : (s.onFlash f).comps = s.comps := rfl
@[simp] theorem State.onFlash_deferred (f : Flash → Flash) : (s.onFlash f).deferred = s.deferred := rfl
@[simp] theorem State.onFlash_resize (f : Flash → Flash) : (s.onFlash f).resize = s.resize := rfl
@[simp] theorem State.onFlash_detaches (f : Flash → Flash) : (s.onFlash f).detaches = s.detaches := rfl
@[simp] theorem State.onFlash_mem (f : Flash → Flash) : (s.onFlash f).mem = s.mem := rfl
@[simp] theorem State.onFlash_chans (f : Flash → Flash) : (s.onFlash f).chans = s.chans := rfl
@[simp] theorem State.onFlash_audits (f : Flash → Flash) : (s.onFlash f).audits = s.audits := rfl
@[simp] theorem State.onFlash_islands (f : Flash → Flash) : (s.onFlash f).islands = s.islands := rfl
@[simp] theorem State.onFlash_net (f : Flash → Flash) : (s.onFlash f).net = s.net := rfl
@[simp] theorem State.onFlash_sess (f : Flash → Flash) : (s.onFlash f).sess = s.sess := rfl
@[simp] theorem State.onFlash_cipher (f : Flash → Flash) : (s.onFlash f).cipher = s.cipher := rfl
@[simp] theorem State.onFlash_acts (f : Flash → Flash) : (s.onFlash f).acts = s.acts := rfl
@[simp] theorem State.onFlash_tp (f : Flash → Flash) : (s.onFlash f).tp = s.tp := rfl
@[simp] theorem State.onFlash_gdp (f : Flash → Flash) : (s.onFlash f).gdp = s.gdp := rfl
@[simp] theorem State.onFlash_mover (f : Flash → Flash) : (s.onFlash f).mover = s.mover := rfl
@[simp] theorem State.onFlash_codec (f : Flash → Flash) : (s.onFlash f).codec = s.codec := rfl
@[simp] theorem State.onFlash_stor (f : Flash → Flash) : (s.onFlash f).stor = s.stor := rfl
@[simp] theorem State.onFlash_press (f : Flash → Flash) : (s.onFlash f).press = s.press := rfl
@[simp] theorem State.onFlash_mgmt (f : Flash → Flash) : (s.onFlash f).mgmt = s.mgmt := rfl
@[simp] theorem State.onFlash_power (f : Flash → Flash) : (s.onFlash f).power = s.power := rfl
@[simp] theorem State.onFlash_rind (f : Flash → Flash) : (s.onFlash f).rind = s.rind := rfl
@[simp] theorem State.onFlash_test (f : Flash → Flash) : (s.onFlash f).test = s.test := rfl
@[simp] theorem State.onFlash_flash (f : Flash → Flash) : (s.onFlash f).flash = f s.flash := rfl
@[simp] theorem State.onFlash_fuses (f : Flash → Flash) : (s.onFlash f).fuses = s.fuses := rfl
@[simp] theorem State.onFlash_clock (f : Flash → Flash) : (s.onFlash f).clock = s.clock := rfl
@[simp] theorem State.onFlash_cfg (f : Flash → Flash) : (s.onFlash f).cfg = s.cfg := rfl
@[simp] theorem State.onFlash_draws (f : Flash → Flash) : (s.onFlash f).draws = s.draws := rfl
@[simp] theorem State.onFlash_out (f : Flash → Flash) : (s.onFlash f).out = s.out := rfl
@[simp] theorem State.onFlash_pending (f : Flash → Flash) : (s.onFlash f).pending = s.pending := rfl

@[simp] theorem State.onClock_fixedMode (f : Clock → Clock) : (s.onClock f).fixedMode = s.fixedMode := rfl
@[simp] theorem State.onClock_host (f : Clock → Clock) : (s.onClock f).host = s.host := rfl
@[simp] theorem State.onClock_fns (f : Clock → Clock) : (s.onClock f).fns = s.fns := rfl
@[simp] theorem State.onClock_parts (f : Clock → Clock) : (s.onClock f).parts = s.parts := rfl
@[simp] theorem State.onClock_comps (f : Clock → Clock) : (s.onClock f).comps = s.comps := rfl
@[simp] theorem State.onClock_deferred (f : Clock → Clock) : (s.onClock f).deferred = s.deferred := rfl
@[simp] theorem State.onClock_resize (f : Clock → Clock) : (s.onClock f).resize = s.resize := rfl
@[simp] theorem State.onClock_detaches (f : Clock → Clock) : (s.onClock f).detaches = s.detaches := rfl
@[simp] theorem State.onClock_mem (f : Clock → Clock) : (s.onClock f).mem = s.mem := rfl
@[simp] theorem State.onClock_chans (f : Clock → Clock) : (s.onClock f).chans = s.chans := rfl
@[simp] theorem State.onClock_audits (f : Clock → Clock) : (s.onClock f).audits = s.audits := rfl
@[simp] theorem State.onClock_islands (f : Clock → Clock) : (s.onClock f).islands = s.islands := rfl
@[simp] theorem State.onClock_net (f : Clock → Clock) : (s.onClock f).net = s.net := rfl
@[simp] theorem State.onClock_sess (f : Clock → Clock) : (s.onClock f).sess = s.sess := rfl
@[simp] theorem State.onClock_cipher (f : Clock → Clock) : (s.onClock f).cipher = s.cipher := rfl
@[simp] theorem State.onClock_acts (f : Clock → Clock) : (s.onClock f).acts = s.acts := rfl
@[simp] theorem State.onClock_tp (f : Clock → Clock) : (s.onClock f).tp = s.tp := rfl
@[simp] theorem State.onClock_gdp (f : Clock → Clock) : (s.onClock f).gdp = s.gdp := rfl
@[simp] theorem State.onClock_mover (f : Clock → Clock) : (s.onClock f).mover = s.mover := rfl
@[simp] theorem State.onClock_codec (f : Clock → Clock) : (s.onClock f).codec = s.codec := rfl
@[simp] theorem State.onClock_stor (f : Clock → Clock) : (s.onClock f).stor = s.stor := rfl
@[simp] theorem State.onClock_press (f : Clock → Clock) : (s.onClock f).press = s.press := rfl
@[simp] theorem State.onClock_mgmt (f : Clock → Clock) : (s.onClock f).mgmt = s.mgmt := rfl
@[simp] theorem State.onClock_power (f : Clock → Clock) : (s.onClock f).power = s.power := rfl
@[simp] theorem State.onClock_rind (f : Clock → Clock) : (s.onClock f).rind = s.rind := rfl
@[simp] theorem State.onClock_test (f : Clock → Clock) : (s.onClock f).test = s.test := rfl
@[simp] theorem State.onClock_flash (f : Clock → Clock) : (s.onClock f).flash = s.flash := rfl
@[simp] theorem State.onClock_fuses (f : Clock → Clock) : (s.onClock f).fuses = s.fuses := rfl
@[simp] theorem State.onClock_clock (f : Clock → Clock) : (s.onClock f).clock = f s.clock := rfl
@[simp] theorem State.onClock_cfg (f : Clock → Clock) : (s.onClock f).cfg = s.cfg := rfl
@[simp] theorem State.onClock_draws (f : Clock → Clock) : (s.onClock f).draws = s.draws := rfl
@[simp] theorem State.onClock_out (f : Clock → Clock) : (s.onClock f).out = s.out := rfl
@[simp] theorem State.onClock_pending (f : Clock → Clock) : (s.onClock f).pending = s.pending := rfl

@[simp] theorem State.onCfg_fixedMode (f : Cfg → Cfg) : (s.onCfg f).fixedMode = s.fixedMode := rfl
@[simp] theorem State.onCfg_host (f : Cfg → Cfg) : (s.onCfg f).host = s.host := rfl
@[simp] theorem State.onCfg_fns (f : Cfg → Cfg) : (s.onCfg f).fns = s.fns := rfl
@[simp] theorem State.onCfg_parts (f : Cfg → Cfg) : (s.onCfg f).parts = s.parts := rfl
@[simp] theorem State.onCfg_comps (f : Cfg → Cfg) : (s.onCfg f).comps = s.comps := rfl
@[simp] theorem State.onCfg_deferred (f : Cfg → Cfg) : (s.onCfg f).deferred = s.deferred := rfl
@[simp] theorem State.onCfg_resize (f : Cfg → Cfg) : (s.onCfg f).resize = s.resize := rfl
@[simp] theorem State.onCfg_detaches (f : Cfg → Cfg) : (s.onCfg f).detaches = s.detaches := rfl
@[simp] theorem State.onCfg_mem (f : Cfg → Cfg) : (s.onCfg f).mem = s.mem := rfl
@[simp] theorem State.onCfg_chans (f : Cfg → Cfg) : (s.onCfg f).chans = s.chans := rfl
@[simp] theorem State.onCfg_audits (f : Cfg → Cfg) : (s.onCfg f).audits = s.audits := rfl
@[simp] theorem State.onCfg_islands (f : Cfg → Cfg) : (s.onCfg f).islands = s.islands := rfl
@[simp] theorem State.onCfg_net (f : Cfg → Cfg) : (s.onCfg f).net = s.net := rfl
@[simp] theorem State.onCfg_sess (f : Cfg → Cfg) : (s.onCfg f).sess = s.sess := rfl
@[simp] theorem State.onCfg_cipher (f : Cfg → Cfg) : (s.onCfg f).cipher = s.cipher := rfl
@[simp] theorem State.onCfg_acts (f : Cfg → Cfg) : (s.onCfg f).acts = s.acts := rfl
@[simp] theorem State.onCfg_tp (f : Cfg → Cfg) : (s.onCfg f).tp = s.tp := rfl
@[simp] theorem State.onCfg_gdp (f : Cfg → Cfg) : (s.onCfg f).gdp = s.gdp := rfl
@[simp] theorem State.onCfg_mover (f : Cfg → Cfg) : (s.onCfg f).mover = s.mover := rfl
@[simp] theorem State.onCfg_codec (f : Cfg → Cfg) : (s.onCfg f).codec = s.codec := rfl
@[simp] theorem State.onCfg_stor (f : Cfg → Cfg) : (s.onCfg f).stor = s.stor := rfl
@[simp] theorem State.onCfg_press (f : Cfg → Cfg) : (s.onCfg f).press = s.press := rfl
@[simp] theorem State.onCfg_mgmt (f : Cfg → Cfg) : (s.onCfg f).mgmt = s.mgmt := rfl
@[simp] theorem State.onCfg_power (f : Cfg → Cfg) : (s.onCfg f).power = s.power := rfl
@[simp] theorem State.onCfg_rind (f : Cfg → Cfg) : (s.onCfg f).rind = s.rind := rfl
@[simp] theorem State.onCfg_test (f : Cfg → Cfg) : (s.onCfg f).test = s.test := rfl
@[simp] theorem State.onCfg_flash (f : Cfg → Cfg) : (s.onCfg f).flash = s.flash := rfl
@[simp] theorem State.onCfg_fuses (f : Cfg → Cfg) : (s.onCfg f).fuses = s.fuses := rfl
@[simp] theorem State.onCfg_clock (f : Cfg → Cfg) : (s.onCfg f).clock = s.clock := rfl
@[simp] theorem State.onCfg_cfg (f : Cfg → Cfg) : (s.onCfg f).cfg = f s.cfg := rfl
@[simp] theorem State.onCfg_draws (f : Cfg → Cfg) : (s.onCfg f).draws = s.draws := rfl
@[simp] theorem State.onCfg_out (f : Cfg → Cfg) : (s.onCfg f).out = s.out := rfl
@[simp] theorem State.onCfg_pending (f : Cfg → Cfg) : (s.onCfg f).pending = s.pending := rfl

/-! Sending adds to what has been sent, and to nothing else. -/

@[simp] theorem State.send_fixedMode (o : Out) : (s.send o).fixedMode = s.fixedMode := by unfold State.send; split <;> rfl
@[simp] theorem State.send_host (o : Out) : (s.send o).host = s.host := by unfold State.send; split <;> rfl
@[simp] theorem State.send_fns (o : Out) : (s.send o).fns = s.fns := by unfold State.send; split <;> rfl
@[simp] theorem State.send_parts (o : Out) : (s.send o).parts = s.parts := by unfold State.send; split <;> rfl
@[simp] theorem State.send_comps (o : Out) : (s.send o).comps = s.comps := by unfold State.send; split <;> rfl
@[simp] theorem State.send_deferred (o : Out) : (s.send o).deferred = s.deferred := by unfold State.send; split <;> rfl
@[simp] theorem State.send_resize (o : Out) : (s.send o).resize = s.resize := by unfold State.send; split <;> rfl
@[simp] theorem State.send_detaches (o : Out) : (s.send o).detaches = s.detaches := by unfold State.send; split <;> rfl
@[simp] theorem State.send_mem (o : Out) : (s.send o).mem = s.mem := by unfold State.send; split <;> rfl
@[simp] theorem State.send_chans (o : Out) : (s.send o).chans = s.chans := by unfold State.send; split <;> rfl
@[simp] theorem State.send_audits (o : Out) : (s.send o).audits = s.audits := by unfold State.send; split <;> rfl
@[simp] theorem State.send_islands (o : Out) : (s.send o).islands = s.islands := by unfold State.send; split <;> rfl
@[simp] theorem State.send_net (o : Out) : (s.send o).net = s.net := by unfold State.send; split <;> rfl
@[simp] theorem State.send_sess (o : Out) : (s.send o).sess = s.sess := by unfold State.send; split <;> rfl
@[simp] theorem State.send_cipher (o : Out) : (s.send o).cipher = s.cipher := by unfold State.send; split <;> rfl
@[simp] theorem State.send_acts (o : Out) : (s.send o).acts = s.acts := by unfold State.send; split <;> rfl
@[simp] theorem State.send_tp (o : Out) : (s.send o).tp = s.tp := by unfold State.send; split <;> rfl
@[simp] theorem State.send_gdp (o : Out) : (s.send o).gdp = s.gdp := by unfold State.send; split <;> rfl
@[simp] theorem State.send_mover (o : Out) : (s.send o).mover = s.mover := by unfold State.send; split <;> rfl
@[simp] theorem State.send_codec (o : Out) : (s.send o).codec = s.codec := by unfold State.send; split <;> rfl
@[simp] theorem State.send_stor (o : Out) : (s.send o).stor = s.stor := by unfold State.send; split <;> rfl
@[simp] theorem State.send_press (o : Out) : (s.send o).press = s.press := by unfold State.send; split <;> rfl
@[simp] theorem State.send_mgmt (o : Out) : (s.send o).mgmt = s.mgmt := by unfold State.send; split <;> rfl
@[simp] theorem State.send_power (o : Out) : (s.send o).power = s.power := by unfold State.send; split <;> rfl
@[simp] theorem State.send_rind (o : Out) : (s.send o).rind = s.rind := by unfold State.send; split <;> rfl
@[simp] theorem State.send_test (o : Out) : (s.send o).test = s.test := by unfold State.send; split <;> rfl
@[simp] theorem State.send_flash (o : Out) : (s.send o).flash = s.flash := by unfold State.send; split <;> rfl
@[simp] theorem State.send_fuses (o : Out) : (s.send o).fuses = s.fuses := by unfold State.send; split <;> rfl
@[simp] theorem State.send_clock (o : Out) : (s.send o).clock = s.clock := by unfold State.send; split <;> rfl
@[simp] theorem State.send_cfg (o : Out) : (s.send o).cfg = s.cfg := by unfold State.send; split <;> rfl
@[simp] theorem State.send_draws (o : Out) : (s.send o).draws = s.draws := by unfold State.send; split <;> rfl
@[simp] theorem State.send_pending (o : Out) : (s.send o).pending = s.pending := by unfold State.send; split <;> rfl

/-- A device that is not FAULTED sends what it is told to. -/
theorem State.send_out (o : Out) (h : (s.power.st == .faulted && o.dataPath) = false) : (s.send o).out = s.out ++ [o] := by
  unfold State.send; simp [h]

end Sys2Proof.Machine
end

