-- ==== Sys2Proof/Laws/Table.lean ====
section
/-! SUPPORT. Laws/Table.lean: read after write for tables and memories, and that every operation on a memory keeps its
canonical form. -/

namespace Sys2Proof.Machine

/-! Tables. -/

@[simp] theorem tget_nil {α : Type} (n : Nat) : tget ([] : Tbl α) n = none := rfl

/-- A table reads back what was put in, and elsewhere what it had. -/
@[simp] theorem tget_tset {α : Type} (t : Tbl α) (n m : Nat) (v : α) :
    tget (tset t n v) m = if m = n then some v else tget t m := by
  induction t with
  | nil => simp only [tset, tget, beq_iff_eq]; split <;> simp_all [eq_comm]
  | cons e t ih =>
    obtain ⟨k, w⟩ := e
    simp only [tset]
    split
    · simp only [tget, beq_iff_eq]; split <;> simp_all [eq_comm]
    · split
      · simp only [tget, beq_iff_eq] at *; split <;> simp_all [eq_comm]
      · simp only [tget, ih, beq_iff_eq] at *; split <;> simp_all [eq_comm]

theorem tget_tset_self {α : Type} (t : Tbl α) (n : Nat) (v : α) : tget (tset t n v) n = some v := by simp

@[simp] theorem tgetD_tset {α : Type} (t : Tbl α) (n m : Nat) (v d : α) :
    tgetD (tset t n v) m d = if m = n then v else tgetD t m d := by
  unfold tgetD; simp only [tget_tset]; split <;> rfl

@[simp] theorem tgetD_tupd {α : Type} (t : Tbl α) (n m : Nat) (d : α) (f : α → α) :
    tgetD (tupd t n d f) m d = if m = n then f (tgetD t n d) else tgetD t m d := by
  unfold tupd; simp

/-- Taking an entry out leaves none of its number, and the others as they were. -/
@[simp] theorem tget_tdel {α : Type} (t : Tbl α) (n m : Nat) : tget (tdel t n) m = if m = n then none else tget t m := by
  unfold tdel
  induction t with
  | nil => simp
  | cons e t ih =>
    obtain ⟨k, w⟩ := e
    simp only [List.filter_cons]
    split
    · simp only [tget, ih, beq_iff_eq, bne_iff_ne] at *; split <;> simp_all
    · rename_i hk
      have hk : k = n := by simpa using hk
      simp only [tget, ih, beq_iff_eq]
      by_cases hm : m = n
      · simp [hm]
      · rw [if_neg hm, if_neg hm, if_neg (by omega)]

/-- Changing an entry changes it, and leaves the others as they were. -/
@[simp] theorem tget_tmod {α : Type} (t : Tbl α) (n m : Nat) (f : α → α) :
    tget (tmod t n f) m = if m = n then (tget t m).map f else tget t m := by
  unfold tmod
  induction t with
  | nil => simp
  | cons e t ih =>
    obtain ⟨k, w⟩ := e
    simp only [List.map_cons, beq_iff_eq] at *
    split
    · simp only [tget, ih, beq_iff_eq]; split <;> simp_all
    · simp only [tget, ih, beq_iff_eq]; split <;> split <;> simp_all

@[simp] theorem thas_tset {α : Type} (t : Tbl α) (n m : Nat) (v : α) : thas (tset t n v) m = (m == n || thas t m) := by
  unfold thas; simp only [tget_tset]; split <;> simp_all

/-! Byte memories. -/

/-- Every listed address is at or above a bound. -/
def memAbove (lo : Nat) (m : List Host.Cell) : Prop := ∀ c ∈ m, lo < c.1

theorem memAbove_cons (lo k : Nat) (v : Byte) (m : List Host.Cell) : memAbove lo ((k, v) :: m) ↔ lo < k ∧ memAbove lo m := by
  simp [memAbove]

/-- The canonical form, read from the front. -/
theorem memWf_cons (k : Nat) (v : Byte) (m : List Host.Cell) :
    memWf ((k, v) :: m) = true ↔ v ≠ 0 ∧ memAbove k m ∧ memWf m = true := by
  induction m generalizing k v with
  | nil => simp [memWf, memAbove]
  | cons e m ih =>
    obtain ⟨k', v'⟩ := e
    rw [memWf]
    simp only [Bool.and_eq_true, bne_iff_ne, ne_eq, decide_eq_true_eq, memAbove, List.mem_cons, forall_eq_or_imp]
    constructor
    · rintro ⟨⟨hv, hk⟩, hw⟩
      refine ⟨hv, ⟨hk, fun c hc => ?_⟩, hw⟩
      exact Nat.lt_trans hk (((ih k' v').1 hw).2.1 c hc)
    · rintro ⟨hv, ⟨hk, _⟩, hw⟩
      exact ⟨⟨hv, hk⟩, hw⟩

theorem memGet_above (m : List Host.Cell) (a : Nat) (h : memAbove a m) : memGet m a = 0 := by
  induction m with
  | nil => rfl
  | cons e m ih =>
    obtain ⟨k, v⟩ := e
    have hk : a < k := h (k, v) (by simp)
    simp only [memGet, beq_iff_eq]
    rw [if_neg (by omega)]
    exact ih (fun c hc => h c (by simp [hc]))

theorem memAbove_mono {a b : Nat} {m : List Host.Cell} (h : memAbove b m) (hab : a ≤ b) : memAbove a m :=
  fun c hc => Nat.lt_of_le_of_lt hab (h c hc)

theorem memAbove_memSet (m : List Host.Cell) (lo a : Nat) (b : Byte) (h : memAbove lo m) (ha : lo < a) :
    memAbove lo (memSet m a b) := by
  induction m with
  | nil => simp only [memSet]; split <;> simp [memAbove, ha]
  | cons e m ih =>
    obtain ⟨k, v⟩ := e
    have ht := (memAbove_cons lo k v m).1 h
    simp only [memSet]
    split
    · split
      · exact h
      · exact (memAbove_cons ..).2 ⟨ha, h⟩
    · split
      · split
        · exact ht.2
        · exact (memAbove_cons ..).2 ⟨ha, ht.2⟩
      · exact (memAbove_cons ..).2 ⟨ht.1, ih ht.2⟩

/-- Writing an octet keeps the canonical form. -/
theorem memWf_memSet (m : List Host.Cell) (a : Nat) (b : Byte) (h : memWf m = true) : memWf (memSet m a b) = true := by
  induction m with
  | nil => simp only [memSet]; split <;> simp_all [memWf]
  | cons e m ih =>
    obtain ⟨k, v⟩ := e
    have hc := (memWf_cons k v m).1 h
    simp only [memSet]
    split
    · rename_i hak
      split
      · exact h
      · rename_i hb
        refine (memWf_cons a b _).2 ⟨by simpa using hb, ?_, h⟩
        intro c hcm
        rcases List.mem_cons.1 hcm with rfl | hcm
        · exact hak
        · exact Nat.lt_trans hak (hc.2.1 c hcm)
    · split
      · rename_i _ hak
        have hak : a = k := by simpa using hak
        subst hak
        split
        · exact hc.2.2
        · rename_i hb; exact (memWf_cons _ b m).2 ⟨by simpa using hb, hc.2.1, hc.2.2⟩
      · rename_i h1 h2
        have h2 : a ≠ k := by simpa using h2
        refine (memWf_cons k v _).2 ⟨hc.1, memAbove_memSet m k a b hc.2.1 (by omega), ih hc.2.2⟩

/-- A memory reads back what was written, and elsewhere what it had. -/
theorem memGet_memSet (m : List Host.Cell) (a x : Nat) (b : Byte) (h : memWf m = true) :
    memGet (memSet m a b) x = if x = a then b else memGet m x := by
  induction m with
  | nil =>
    simp only [memSet]
    split
    · rename_i hb
      have hb : b = 0 := by simpa using hb
      simp [memGet, hb]
    · simp only [memGet, beq_iff_eq]
      by_cases hx : x = a
      · simp [hx]
      · rw [if_neg (by omega), if_neg hx]
  | cons e m ih =>
    obtain ⟨k, v⟩ := e
    have hc := (memWf_cons k v m).1 h
    have hi := ih hc.2.2
    simp only [memSet]
    split
    · rename_i hak
      have h0 : memGet ((k, v) :: m) a = 0 := memGet_above _ _ (by
        intro c hcm
        rcases List.mem_cons.1 hcm with rfl | hcm
        · exact hak
        · exact Nat.lt_trans hak (hc.2.1 c hcm))
      split
      · rename_i hb
        have hb : b = 0 := by simpa using hb
        split
        · rename_i hx; rw [hx, hb]; exact h0
        · rfl
      · conv => lhs; rw [memGet]
        simp only [beq_iff_eq]
        by_cases hx : x = a
        · subst hx; simp
        · rw [if_neg (by omega), if_neg hx]
    · split
      · rename_i _ hak
        have hak : a = k := by simpa using hak
        subst hak
        split
        · rename_i hb
          have hb : b = 0 := by simpa using hb
          by_cases hx : x = a
          · subst hx; rw [if_pos rfl, hb]; exact memGet_above m x hc.2.1
          · rw [if_neg hx]; simp only [memGet, beq_iff_eq]; rw [if_neg (by omega)]
        · simp only [memGet, beq_iff_eq]
          by_cases hx : x = a
          · subst hx; simp
          · rw [if_neg (by omega), if_neg hx, if_neg (by omega)]
      · rename_i h1 h2
        have h2 : a ≠ k := by simpa using h2
        simp only [memGet, beq_iff_eq, hi]
        by_cases hx : x = a
        · subst hx; rw [if_neg (by omega)]; simp
        · simp [hx]

/-- Writing octets keeps the canonical form. -/
theorem memWf_memWrite (m : List Host.Cell) (a : Nat) (d : List Byte) (h : memWf m = true) : memWf (memWrite m a d) = true := by
  induction d generalizing m a with
  | nil => exact h
  | cons b d ih => exact ih _ _ (memWf_memSet m a b h)

/-- Dropping entries keeps the canonical form. -/
theorem memWf_filter (m : List Host.Cell) (p : Host.Cell → Bool) (h : memWf m = true) : memWf (m.filter p) = true := by
  induction m with
  | nil => rfl
  | cons e m ih =>
    obtain ⟨k, v⟩ := e
    have hc := (memWf_cons k v m).1 h
    simp only [List.filter_cons]
    split
    · exact (memWf_cons k v _).2 ⟨hc.1, fun c hm => hc.2.1 c (List.mem_filter.1 hm).1, ih hc.2.2⟩
    · exact ih hc.2.2

/-- Zeroing a range keeps the canonical form. -/
theorem memWf_memZero (m : List Host.Cell) (a n : Nat) (h : memWf m = true) : memWf (memZero m a n) = true :=
  memWf_filter m _ h

/-- Octets written at an address leave every octet outside them as it was. -/
theorem memGet_memWrite_outside (m : List Host.Cell) (a x : Nat) (d : List Byte) (h : memWf m = true)
    (hx : x < a ∨ a + d.length ≤ x) : memGet (memWrite m a d) x = memGet m x := by
  induction d generalizing m a with
  | nil => rfl
  | cons b d ih =>
    simp only [List.length_cons] at hx
    rw [memWrite, ih _ _ (memWf_memSet m a b h) (by omega), memGet_memSet m a x b h, if_neg (by omega)]

/-- Octets written at an address read back. -/
theorem memRead_memWrite (m : List Host.Cell) (a : Nat) (d : List Byte) (h : memWf m = true) :
    memRead (memWrite m a d) a d.length = d := by
  induction d generalizing m a with
  | nil => rfl
  | cons b d ih =>
    have hw := memWf_memSet m a b h
    have h1 : memGet (memWrite (memSet m a b) (a + 1) d) a = b := by
      rw [memGet_memWrite_outside _ _ _ _ hw (by omega), memGet_memSet m a a b h, if_pos rfl]
    simp only [memWrite, List.length_cons, memRead, h1, ih _ (a + 1) hw]

end Sys2Proof.Machine
end

