-- ==== Sys2Proof/Laws/Words.lean ====
section
/-! SUPPORT. Laws/Words.lean: the memories of 36-bit words keep their canonical form under every operation. -/

namespace Sys2Proof.Machine

/-- Every listed address is at or above a bound. -/
def wordAbove (lo : Nat) (m : Tbl Word) : Prop := ∀ c ∈ m, lo < c.1

theorem wordAbove_cons (lo k : Nat) (v : Word) (m : Tbl Word) : wordAbove lo ((k, v) :: m) ↔ lo < k ∧ wordAbove lo m := by
  simp [wordAbove]

/-- The canonical form, read from the front. -/
theorem wordWf_cons (k : Nat) (v : Word) (m : Tbl Word) :
    wordWf ((k, v) :: m) = true ↔ v ≠ 0 ∧ wordAbove k m ∧ wordWf m = true := by
  induction m generalizing k v with
  | nil => simp [wordWf, wordAbove]
  | cons e m ih =>
    obtain ⟨k', v'⟩ := e
    rw [wordWf]
    simp only [Bool.and_eq_true, bne_iff_ne, ne_eq, decide_eq_true_eq, wordAbove, List.mem_cons, forall_eq_or_imp]
    constructor
    · rintro ⟨⟨hv, hk⟩, hw⟩
      refine ⟨hv, ⟨hk, fun c hc => ?_⟩, hw⟩
      exact Nat.lt_trans hk (((ih k' v').1 hw).2.1 c hc)
    · rintro ⟨hv, ⟨hk, _⟩, hw⟩
      exact ⟨⟨hv, hk⟩, hw⟩

theorem wordAbove_wordSet (m : Tbl Word) (lo a : Nat) (b : Word) (h : wordAbove lo m) (ha : lo < a) :
    wordAbove lo (wordSet m a b) := by
  induction m with
  | nil => simp only [wordSet]; split <;> simp [wordAbove, ha]
  | cons e m ih =>
    obtain ⟨k, v⟩ := e
    have ht := (wordAbove_cons lo k v m).1 h
    simp only [wordSet]
    split
    · split
      · exact h
      · exact (wordAbove_cons ..).2 ⟨ha, h⟩
    · split
      · split
        · exact ht.2
        · exact (wordAbove_cons ..).2 ⟨ha, ht.2⟩
      · exact (wordAbove_cons ..).2 ⟨ht.1, ih ht.2⟩

/-- Writing a word keeps the canonical form. -/
theorem wordWf_wordSet (m : Tbl Word) (a : Nat) (b : Word) (h : wordWf m = true) : wordWf (wordSet m a b) = true := by
  induction m with
  | nil => simp only [wordSet]; split <;> simp_all [wordWf]
  | cons e m ih =>
    obtain ⟨k, v⟩ := e
    have hc := (wordWf_cons k v m).1 h
    simp only [wordSet]
    split
    · rename_i hak
      split
      · exact h
      · rename_i hb
        refine (wordWf_cons a b _).2 ⟨by simpa using hb, ?_, h⟩
        intro c hcm
        rcases List.mem_cons.1 hcm with rfl | hcm
        · exact hak
        · exact Nat.lt_trans hak (hc.2.1 c hcm)
    · split
      · rename_i _ hak
        have hak : a = k := by simpa using hak
        subst hak
        split
        · exact hc.2.2
        · rename_i hb; exact (wordWf_cons _ b m).2 ⟨by simpa using hb, hc.2.1, hc.2.2⟩
      · rename_i h1 h2
        have h2 : a ≠ k := by simpa using h2
        refine (wordWf_cons k v _).2 ⟨hc.1, wordAbove_wordSet m k a b hc.2.1 (by omega), ih hc.2.2⟩

/-- Writing words keeps the canonical form. -/
theorem wordWf_wordsWrite (m : Tbl Word) (a : Nat) (d : List Word) (h : wordWf m = true) : wordWf (wordsWrite m a d) = true := by
  induction d generalizing m a with
  | nil => exact h
  | cons b d ih => exact ih _ _ (wordWf_wordSet m a b h)

/-- Dropping entries keeps the canonical form. -/
theorem wordWf_filter (m : Tbl Word) (p : (Nat × Word) → Bool) (h : wordWf m = true) : wordWf (m.filter p) = true := by
  induction m with
  | nil => rfl
  | cons e m ih =>
    obtain ⟨k, v⟩ := e
    have hc := (wordWf_cons k v m).1 h
    simp only [List.filter_cons]
    split
    · exact (wordWf_cons k v _).2 ⟨hc.1, fun c hm => hc.2.1 c (List.mem_filter.1 hm).1, ih hc.2.2⟩
    · exact ih hc.2.2

/-- Zeroing a range keeps the canonical form. -/
theorem wordWf_wordsZero (m : Tbl Word) (a n : Nat) (h : wordWf m = true) : wordWf (wordsZero m a n) = true :=
  wordWf_filter m _ h

/-- Another word stands. -/
theorem wordGet_wordSet_ne (m : Tbl Word) (a q : Nat) (b : Word) (h : q ≠ a) : wordGet (wordSet m a b) q = wordGet m q := by
  have ha : (a == q) = false := by simpa using fun e : a = q => h e.symm
  induction m with
  | nil => simp only [wordSet]; split <;> simp [wordGet, ha]
  | cons e m ih =>
    obtain ⟨k, v⟩ := e
    simp only [wordSet]
    split
    · split <;> simp [wordGet, ha]
    · split
      · rename_i hk
        have hq : (k == q) = false := by have : a = k := by simpa using hk
                                         subst this; exact ha
        split <;> simp [wordGet, ha, hq]
      · simp only [wordGet, ih]

end Sys2Proof.Machine
end

