-- ==== Sys2Proof/Laws/Belpor.lean ====
section
/-! SUPPORT. Laws/Belpor.lean: what the shared operations of Belpor-36 do: a step of a tumbler, and the result and flag
functions of Flags.lean in terms of the arithmetic of bit vectors. -/

namespace Sys2Proof.Safety

open Machine

/-- Bit 35 of a word is its sign. -/
theorem bit35_msb (r : Word) : bit r.toNat 35 = r.msb := by
  have h := r.isLt
  have h1 : r.toNat / 2 ^ 35 % 2 = r.toNat / 2 ^ 35 := Nat.mod_eq_of_lt (by omega)
  rw [BitVec.msb_eq_decide]
  unfold bit
  rw [h1]
  by_cases g : 2 ^ (36 - 1) ≤ r.toNat
  · have this : r.toNat / 2 ^ 35 = 1 := by omega
    rw [this, decide_eq_true g]; rfl
  · have this : r.toNat / 2 ^ 35 = 0 := by omega
    rw [this, decide_eq_false g]; rfl

/-- Z and N of a word. -/
theorem zn_eq (r : Word) : zn r = zAndN r := by
  simp only [zn, zAndN, bit35_msb]
  congr 2

/-- A result that names Z and N only. -/
theorem znOnly_eq (r : Word) : znOnly r = (r, zAndN r) := by rw [znOnly, zn_eq]

/-- The signed value of a word is its value in two's complement. -/
theorem sw_toInt (a : Word) : sw a = a.toInt := by
  unfold sw signed
  rw [BitVec.toInt_eq_toNat_cond]
  have := a.isLt
  split <;> split <;> omega

/-- The low bits of an exact integer. -/
theorem ofInt36_eq (x : Int) : ofInt36 x = BitVec.ofInt 36 x := by
  apply BitVec.eq_of_toNat_eq
  simp only [ofInt36, unsigned, BitVec.toNat_ofNat, BitVec.toNat_ofInt]
  apply Nat.mod_eq_of_lt
  omega

/-- An exact result outside the range of a word. -/
theorem overflows_eq (x : Int) : overflows x = decide (x < -2 ^ 35 ∨ 2 ^ 35 ≤ x) := by
  simp only [overflows, ge_iff_le, Bool.decide_or]

/-- An addition. -/
theorem addWord_eq (a b : Word) (c : Nat) : addWord a b c =
    (a + b + BitVec.ofNat 36 c, sumFlags (a + b + BitVec.ofNat 36 c) (decide (2 ^ 36 ≤ a.toNat + b.toNat + c)) (a.toInt + b.toInt + c)) := by
  have hr : (BitVec.ofNat 36 (a.toNat + b.toNat + c) : Word) = a + b + BitVec.ofNat 36 c := by
    apply BitVec.eq_of_toNat_eq
    simp only [BitVec.toNat_ofNat, BitVec.toNat_add]
    omega
  simp only [addWord, hr, overflows_eq, sw_toInt, zn_eq]
  rfl

/-- A subtraction. -/
theorem subWord_eq (a b : Word) (c : Nat) : subWord a b c =
    (a - b - BitVec.ofNat 36 c, sumFlags (a - b - BitVec.ofNat 36 c) (decide (b.toNat + c ≤ a.toNat)) (a.toInt - b.toInt - c)) := by
  have hr : ofInt36 ((a.toNat : Int) - b.toNat - c) = a - b - BitVec.ofNat 36 c := by
    rw [ofInt36_eq]
    apply BitVec.eq_of_toNat_eq
    simp only [BitVec.toNat_ofInt, BitVec.toNat_sub, BitVec.toNat_ofNat]
    omega
  simp only [subWord, hr, overflows_eq, sw_toInt, zn_eq]
  rfl

/-- A saturated word. -/
theorem satWord_eq (n : Nat) (x : Int) : satWord n x =
    (BitVec.ofInt 36 (satInt n x), { zAndN (BitVec.ofInt 36 (satInt n x)) with q := satInt n x != x }) := by
  simp only [satWord, ofInt36_eq, zn_eq]

/-- A bit of a word. -/
theorem bit_lsb (a : Word) (i : Nat) : bit a.toNat i = a.getLsbD i := by
  simp only [bit, BitVec.getLsbD, Nat.testBit_eq_decide_div_mod_eq]
  by_cases h : a.toNat / 2 ^ i % 2 = 1 <;> simp [h]

/-- A shift left (10 R265). -/
theorem shlWord_eq (a : Word) (k : Nat) : shlWord a k =
    (a <<< k, if k = 0 then zAndN (a <<< k) else { zAndN (a <<< k) with c := some (decide (k ≤ 36) && a.getLsbD (36 - k)) }) := by
  by_cases h : k = 0
  · subst h; simp [shlWord, znOnly_eq]
  · have hr : (if k ≥ 36 then 0 else BitVec.ofNat 36 (a.toNat * 2 ^ k) : Word) = a <<< k := by
      split
      · rename_i g; rw [BitVec.shiftLeft_eq_zero g]; rfl
      · apply BitVec.eq_of_toNat_eq; simp [BitVec.toNat_shiftLeft, Nat.shiftLeft_eq]
    have hk : (k == 0) = false := by simpa using h
    simp only [shlWord, hk, hr, zn_eq, bit_lsb, h, if_false, Bool.false_eq_true]

/-- A shift right that fills with zeros. -/
theorem shrWord_eq (a : Word) (k : Nat) : shrWord a k =
    (a >>> k, if k = 0 then zAndN (a >>> k) else { zAndN (a >>> k) with c := some (decide (k ≤ 36) && a.getLsbD (k - 1)) }) := by
  by_cases h : k = 0
  · subst h; simp [shrWord, znOnly_eq]
  · have hr : (BitVec.ofNat 36 (if k ≥ 36 then 0 else a.toNat / 2 ^ k) : Word) = a >>> k := by
      apply BitVec.eq_of_toNat_eq
      simp only [BitVec.toNat_ofNat, BitVec.toNat_ushiftRight, Nat.shiftRight_eq_div_pow]
      split
      · rename_i g
        have : a.toNat < 2 ^ k := Nat.lt_of_lt_of_le a.isLt (Nat.pow_le_pow_right (by omega) g)
        rw [Nat.div_eq_of_lt this]
      · exact Nat.mod_eq_of_lt (Nat.lt_of_le_of_lt (Nat.div_le_self _ _) a.isLt)
    have hk : (k == 0) = false := by simpa using h
    simp only [shrWord, hk, hr, zn_eq, bit_lsb, h, if_false, Bool.false_eq_true]

/-- A shift right that fills with the sign. -/
theorem sarWord_eq (a : Word) (k : Nat) : sarWord a k =
    (a.sshiftRight k, if k = 0 then zAndN (a.sshiftRight k) else { zAndN (a.sshiftRight k) with c := some (a.getLsbD (min k 36 - 1)) }) := by
  by_cases h : k = 0
  · subst h; simp [sarWord, znOnly_eq]
  · have hr : (if (min k 36 == 36) = true then ofInt36 (if bit a.toNat 35 = true then -1 else 0) else ofInt36 (sw a / (2 ^ (min k 36) : Nat))) = a.sshiftRight k := by
      rw [BitVec.sshiftRight_eq, ofInt36_eq, ofInt36_eq, sw_toInt, Int.shiftRight_eq_div_pow]
      by_cases g : k < 36
      · have e : min k 36 = k := by omega
        have e2 : (k == 36) = false := by simp; omega
        rw [e, e2]; simp
      · have e : min k 36 = 36 := by omega
        have hb : (2 : Int) ^ 36 ≤ ((2 ^ k : Nat) : Int) := by
          have : 2 ^ 36 ≤ 2 ^ k := Nat.pow_le_pow_right (by omega) (by omega)
          exact_mod_cast this
        rw [e, bit35_msb]
        have h1 := BitVec.toInt_lt (x := a)
        have h2 := BitVec.le_toInt (x := a)
        simp only [beq_self_eq_true, if_true]
        congr 1
        rw [BitVec.msb_eq_toInt]
        by_cases g : a.toInt < 0
        · rw [decide_eq_true g]
          simp only [if_true]
          symm
          apply Int.ediv_eq_neg_one_of_neg_of_le <;> omega
        · rw [decide_eq_false g]
          symm
          simp only [Bool.false_eq_true, if_false]
          exact Int.ediv_eq_zero_of_lt (by omega) (by omega)
    have hk : (k == 0) = false := by simpa using h
    simp only [sarWord, hk, hr, zn_eq, h, if_false, Bool.false_eq_true]
    rw [bit_lsb]

/-- A rotation to the right. -/
theorem rorWord_eq (a : Word) (k : Nat) : rorWord a k =
    (a.rotateRight k, if k % 36 = 0 then zAndN (a.rotateRight k) else { zAndN (a.rotateRight k) with c := some (a.rotateRight k).msb }) := by
  by_cases h : k % 36 = 0
  · have hr : a.rotateRight k = a := by
      simp [BitVec.rotateRight, BitVec.rotateRightAux, h]
    simp [rorWord, h, hr, znOnly_eq]
  · have hr : (BitVec.ofNat 36 (a.toNat / 2 ^ (k % 36) + a.toNat % 2 ^ (k % 36) * 2 ^ (36 - k % 36)) : Word) = a.rotateRight k := by
      have hk : k % 36 < 36 := Nat.mod_lt _ (by omega)
      apply BitVec.eq_of_toNat_eq
      simp only [BitVec.rotateRight, BitVec.rotateRightAux, BitVec.toNat_or, BitVec.toNat_ushiftRight, BitVec.toNat_shiftLeft, BitVec.toNat_ofNat,
        Nat.shiftRight_eq_div_pow, Nat.shiftLeft_eq]
      generalize k % 36 = r at *
      have hp : 2 ^ 36 = 2 ^ r * 2 ^ (36 - r) := by rw [← Nat.pow_add]; congr 1; omega
      have h1 : a.toNat * 2 ^ (36 - r) % 2 ^ 36 = 2 ^ (36 - r) * (a.toNat % 2 ^ r) := by
        rw [hp, Nat.mul_mod_mul_right, Nat.mul_comm]
      have h2 : a.toNat / 2 ^ r < 2 ^ (36 - r) := by
        apply Nat.div_lt_of_lt_mul
        rw [← hp]; exact a.isLt
      have h3 : 2 ^ (36 - r) * (a.toNat % 2 ^ r) + a.toNat / 2 ^ r < 2 ^ 36 := by
        have : a.toNat % 2 ^ r + 1 ≤ 2 ^ r := Nat.mod_lt _ (Nat.two_pow_pos r)
        have := Nat.mul_le_mul_left (2 ^ (36 - r)) this
        rw [Nat.mul_comm (2 ^ (36 - r)) (2 ^ r), ← hp] at this
        rw [Nat.mul_add] at this
        omega
      rw [h1, Nat.or_comm, ← Nat.two_pow_add_eq_or_of_lt h2, Nat.add_comm (a.toNat / 2 ^ r), Nat.mul_comm (a.toNat % 2 ^ r)]
      exact Nat.mod_eq_of_lt h3
    have hk : (k % 36 == 0) = false := by simpa using h
    simp only [rorWord, hk, hr, zn_eq, bit35_msb, h, if_false, Bool.false_eq_true]

/-- What a step of a tumbler does where its instruction completes in time and goes on. -/
theorem runOp_next (n : Nat) (o : Op) (f : State → Invocation → Tumbler → Word → Ran) (s e : State) (inv : Invocation) (w : Word)
    (t : Tumbler) (c : Nat) (hi : issues n o s inv w) (ht : inTime s n inv c) (hf : f s inv (tum s n) w = .done e t c none) :
    runOp n o f s = .next (goesNext n s e t c) := by
  obtain ⟨h1, h2, h3⟩ := hi
  have h2' : ((tum s n).stall != Stall.none) = false := by simp [h2]
  have h4 : ¬ inv.allowance < (tum s n).cyc + c := by unfold inTime at ht; omega
  unfold runOp
  simp only [tum] at h1 h2' h3 h4 hf
  simp only [h1, h2', h3, hf, settle, h4, beq_self_eq_true, if_true, if_false]
  rfl

/-- What a step of a tumbler does where its instruction completes in time and transfers control. -/
theorem runOp_to (n : Nat) (o : Op) (f : State → Invocation → Tumbler → Word → Ran) (s e : State) (inv : Invocation) (w : Word)
    (t : Tumbler) (c a : Nat) (hi : issues n o s inv w) (ht : inTime s n inv c) (hf : f s inv (tum s n) w = .done e t c (some a)) :
    runOp n o f s = .next (goesTo n s e t c a) := by
  obtain ⟨h1, h2, h3⟩ := hi
  have h2' : ((tum s n).stall != Stall.none) = false := by simp [h2]
  have h4 : ¬ inv.allowance < (tum s n).cyc + c := by unfold inTime at ht; omega
  unfold runOp
  simp only [tum] at h1 h2' h3 h4 hf
  simp only [h1, h2', h3, hf, settle, h4, beq_self_eq_true, if_true, if_false]
  rfl

/-- What a step of a tumbler does where its instruction meets an exception in time. -/
theorem runOp_exc (n : Nat) (o : Op) (f : State → Invocation → Tumbler → Word → Ran) (s e : State) (inv : Invocation) (w : Word)
    (code : Nat) (k : Bool) (hi : issues n o s inv w) (ht : inTime s n inv 1) (hf : f s inv (tum s n) w = .exc e code k) :
    runOp n o f s = .next (endInv e n { tum s n with cyc := (tum s n).cyc + 1 } inv .actFault code k) := by
  obtain ⟨h1, h2, h3⟩ := hi
  have h2' : ((tum s n).stall != Stall.none) = false := by simp [h2]
  have h4 : ¬ inv.allowance < (tum s n).cyc + 1 := by unfold inTime at ht; omega
  unfold runOp
  simp only [tum] at h1 h2' h3 h4 hf
  simp only [h1, h2', h3, hf, settle, h4, beq_self_eq_true, if_true, if_false]
  rfl

/-- What ENDACT does where its invocation stays within its allowance. -/
theorem runOp_ends (n : Nat) (o : Op) (f : State → Invocation → Tumbler → Word → Ran) (s : State) (inv : Invocation) (w : Word)
    (c : Nat) (hi : issues n o s inv w) (ht : inTime s n inv c) (hf : f s inv (tum s n) w = .ends c) :
    runOp n o f s = .next (endInv s n { tum s n with cyc := (tum s n).cyc + c } inv .ok 0) := by
  obtain ⟨h1, h2, h3⟩ := hi
  have h2' : ((tum s n).stall != Stall.none) = false := by simp [h2]
  have h4 : ¬ inv.allowance < (tum s n).cyc + c := by unfold inTime at ht; omega
  unfold runOp
  simp only [tum] at h1 h2' h3 h4 hf
  simp only [h1, h2', h3, hf, settle, h4, beq_self_eq_true, if_true, if_false]
  rfl

/-- What a step of a tumbler does where its instruction stalls. -/
theorem runOp_stall (n : Nat) (o : Op) (f : State → Invocation → Tumbler → Word → Ran) (s : State) (inv : Invocation) (w : Word)
    (x : Stall) (hi : issues n o s inv w) (hf : f s inv (tum s n) w = .stall x) :
    runOp n o f s = .next (s.onTumbler n (fun t => { t with stall := x })) := by
  obtain ⟨h1, h2, h3⟩ := hi
  have h2' : ((tum s n).stall != Stall.none) = false := by simp [h2]
  unfold runOp
  simp only [tum] at h1 h2' h3 hf
  simp only [h1, h2', h3, hf, settle, beq_self_eq_true, if_true]
  rfl

/-- A word is made of its four nonets. -/
theorem ofNonets_nonet (d : Word) : ofNonets (nonet d 3) (nonet d 2) (nonet d 1) (nonet d 0) = d := by
  apply BitVec.eq_of_toNat_eq
  have := d.isLt
  simp only [ofNonets, nonet, field, BitVec.toNat_ofNat]
  omega

/-- A store of a whole word. -/
theorem storeWord_stw (m d w : Word) : storeWord m (storeNonets .stw w d) = d := by
  simp only [storeNonets, storeWord, List.map]
  exact ofNonets_nonet d

/-- A register or immediate instruction. -/
theorem alu_gives (i : Instr) (n : Nat) (o : Op) (c : Nat) (s : State) (f g : Tumbler → Word → Word × Flags)
    (he : exec i s = alu n o c f s) (hg : ∀ t w, f t w = g t w) : gives i n o c s g := by
  intro inv w hi ht
  rw [he, ← hg]
  exact runOp_next n o _ s s inv w _ c hi ht rfl

/-- What a step of a tumbler does whose instruction cannot be fetched or is a reserved encoding. -/
theorem runOp_fetch (n : Nat) (o : Op) (f : State → Invocation → Tumbler → Word → Ran) (s : State) (inv : Invocation) (code : Nat)
    (h1 : (tum s n).run = some inv) (h2 : (tum s n).stall = .none) (h3 : fetchOp s n (tum s n) = .inl code) (h4 : inTime s n inv 1) :
    runOp n o f s = .next (endInv s n { tum s n with cyc := (tum s n).cyc + 1 } inv .actFault code false) := by
  unfold inTime at h4
  have hb : ¬ inv.allowance < (tum s n).cyc + 1 := by omega
  unfold tum at *
  simp only [runOp, h1, h2, h3]
  rw [if_neg (by decide)]
  simp only [settle, if_neg hb, h1, h2]

/-- What a step of a tumbler does whose instruction would complete beyond its allowance. -/
theorem runOp_overrun (n : Nat) (o : Op) (f : State → Invocation → Tumbler → Word → Ran) (s e : State) (inv : Invocation) (w : Word)
    (t : Tumbler) (c : Nat) (a : Option Nat) (hi : issues n o s inv w) (ht : ¬ inTime s n inv c)
    (hf : f s inv (tum s n) w = .done e t c a) : runOp n o f s = .next (overrun s n (tum s n) inv) := by
  obtain ⟨h1, h2, h3⟩ := hi
  have h2' : ((tum s n).stall != Stall.none) = false := by simp [h2]
  have h4 : inv.allowance < (tum s n).cyc + c := by unfold inTime at ht; omega
  unfold runOp
  simp only [tum] at h1 h2' h3 h4 hf
  simp only [h1, h2', h3, hf, settle, h4, beq_self_eq_true, if_true, if_false]
  rfl

/-- Going on changes its tumbler only. -/
theorem onlyTumbler_goesNext (s : State) (n : Nat) (t : Tumbler) (c : Nat) : onlyTumbler n s (goesNext n s s t c) := by
  refine ⟨rfl, rfl, fun m hm => ?_⟩
  simp [tum, goesNext, State.onTumbler, State.onActs, hm]

/-- A transfer of control changes its tumbler only. -/
theorem onlyTumbler_goesTo (s : State) (n : Nat) (t : Tumbler) (c a : Nat) : onlyTumbler n s (goesTo n s s t c a) := by
  refine ⟨rfl, rfl, fun m hm => ?_⟩
  simp [tum, goesTo, State.onTumbler, State.onActs, hm]

/-- The end action changes loop counts only. -/
theorem endAction_only (a : Nat) (k : Nat) (t : Tumbler) : { (endAction a k t).1 with lc := t.lc } = t := by
  induction k generalizing t with
  | zero => rfl
  | succ k ih =>
    unfold endAction
    dsimp only
    split
    · rfl
    · split
      · rfl
      · exact congrArg (fun u : Tumbler => { u with lc := t.lc }) (ih { t with lc := listSet t.lc (depth t - 1) 0 })

/-- A register after another one is written. -/
theorem get_put (t : Tumbler) (r q : Nat) (v : Word) (h : q ≠ r) : (t.put r v).get q = t.get q := by
  unfold Tumbler.put Tumbler.get
  by_cases g : (r == 0) = true
  · rw [if_pos g]
  · rw [if_neg g]
    dsimp only
    by_cases k : (q == 0) = true
    · rw [if_pos k, if_pos k]
    · rw [if_neg k, if_neg k, wordGet_wordSet_ne _ _ _ _ h]

/-- An instruction of Belpor-36 is a step of its tumbler. -/
theorem executes_runOp (n : Nat) (i : Instr) (o : Op) (h : executes n i o) : ∃ f, ∀ s, exec i s = runOp n o f s := by
  cases o
  case add => cases h; apply Exists.intro; intro s; change execAdd n s = _; unfold execAdd alu; rfl
  case adc => cases h; apply Exists.intro; intro s; change execAdc n s = _; unfold execAdc alu; rfl
  case sub => cases h; apply Exists.intro; intro s; change execSub n s = _; unfold execSub alu; rfl
  case sbc => cases h; apply Exists.intro; intro s; change execSbc n s = _; unfold execSbc alu; rfl
  case cmp => cases h; apply Exists.intro; intro s; change execCmp n s = _; unfold execCmp alu; rfl
  case neg => cases h; apply Exists.intro; intro s; change execNeg n s = _; unfold execNeg alu; rfl
  case addi => cases h; apply Exists.intro; intro s; change execAddi n s = _; unfold execAddi alu; rfl
  case cmpi => cases h; apply Exists.intro; intro s; change execCmpi n s = _; unfold execCmpi alu; rfl
  case adds => cases h; apply Exists.intro; intro s; change execAdds n s = _; unfold execAdds alu; rfl
  case subs => cases h; apply Exists.intro; intro s; change execSubs n s = _; unfold execSubs alu; rfl
  case sat => cases h; apply Exists.intro; intro s; change execSat n s = _; unfold execSat alu; rfl
  case macs => cases h; apply Exists.intro; intro s; change execMacs n s = _; unfold execMacs alu; rfl
  case macp => cases h; apply Exists.intro; intro s; change execMacp n s = _; unfold execMacp alu; rfl
  case and_ => cases h; apply Exists.intro; intro s; change execAnd n s = _; unfold execAnd alu; rfl
  case or_ => cases h; apply Exists.intro; intro s; change execOr n s = _; unfold execOr alu; rfl
  case xor_ => cases h; apply Exists.intro; intro s; change execXor n s = _; unfold execXor alu; rfl
  case andn => cases h; apply Exists.intro; intro s; change execAndn n s = _; unfold execAndn alu; rfl
  case andi => cases h; apply Exists.intro; intro s; change execAndi n s = _; unfold execAndi alu; rfl
  case ori => cases h; apply Exists.intro; intro s; change execOri n s = _; unfold execOri alu; rfl
  case xori => cases h; apply Exists.intro; intro s; change execXori n s = _; unfold execXori alu; rfl
  case shl => cases h; apply Exists.intro; intro s; change execShl n s = _; unfold execShl alu; rfl
  case shr => cases h; apply Exists.intro; intro s; change execShr n s = _; unfold execShr alu; rfl
  case sar => cases h; apply Exists.intro; intro s; change execSar n s = _; unfold execSar alu; rfl
  case ror => cases h; apply Exists.intro; intro s; change execRor n s = _; unfold execRor alu; rfl
  case mul => cases h; apply Exists.intro; intro s; change execMul n s = _; unfold execMul alu; rfl
  case mac => cases h; apply Exists.intro; intro s; change execMac n s = _; unfold execMac alu; rfl
  case mulhs => cases h; apply Exists.intro; intro s; change execMulhs n s = _; unfold execMulhs alu; rfl
  case mulhu => cases h; apply Exists.intro; intro s; change execMulhu n s = _; unfold execMulhu alu; rfl
  case bfx => cases h; apply Exists.intro; intro s; change execBfx n s = _; unfold execBfx alu; rfl
  case bfxs => cases h; apply Exists.intro; intro s; change execBfxs n s = _; unfold execBfxs alu; rfl
  case bfi => cases h; apply Exists.intro; intro s; change execBfi n s = _; unfold execBfi alu; rfl
  case cnt => cases h; apply Exists.intro; intro s; change execCnt n s = _; unfold execCnt alu; rfl
  case nperm => cases h; apply Exists.intro; intro s; change execNperm n s = _; unfold execNperm alu; rfl
  case addp => cases h; apply Exists.intro; intro s; change execAddp n s = _; unfold execAddp alu; rfl
  case subp => cases h; apply Exists.intro; intro s; change execSubp n s = _; unfold execSubp alu; rfl
  case addps => cases h; apply Exists.intro; intro s; change execAddps n s = _; unfold execAddps alu; rfl
  case subps => cases h; apply Exists.intro; intro s; change execSubps n s = _; unfold execSubps alu; rfl
  case seth => cases h; apply Exists.intro; intro s; change execSeth n s = _; unfold execSeth alu; rfl
  case setl => cases h; apply Exists.intro; intro s; change execSetl n s = _; unfold execSetl alu; rfl
  case ldw => cases h; apply Exists.intro; intro s; change execLdw n s = _; unfold execLdw loadOp; rfl
  case ldh => cases h; apply Exists.intro; intro s; change execLdh n s = _; unfold execLdh loadOp; rfl
  case ldhs => cases h; apply Exists.intro; intro s; change execLdhs n s = _; unfold execLdhs loadOp; rfl
  case ldn => cases h; apply Exists.intro; intro s; change execLdn n s = _; unfold execLdn loadOp; rfl
  case stw => cases h; apply Exists.intro; intro s; change execStw n s = _; unfold execStw storeOp; rfl
  case sth => cases h; apply Exists.intro; intro s; change execSth n s = _; unfold execSth storeOp; rfl
  case stn => cases h; apply Exists.intro; intro s; change execStn n s = _; unfold execStn storeOp; rfl
  case aadd => cases h; apply Exists.intro; intro s; change execAadd n s = _; unfold execAadd atomicOp; rfl
  case acas => cases h; apply Exists.intro; intro s; change execAcas n s = _; unfold execAcas atomicOp; rfl
  case b => cases h; apply Exists.intro; intro s; change execB n s = _; unfold execB branchOp; rfl
  case br => cases h; apply Exists.intro; intro s; change execBr n s = _; unfold execBr branchOp; rfl
  case call => cases h; apply Exists.intro; intro s; change execCall n s = _; unfold execCall callOp; rfl
  case callr => cases h; apply Exists.intro; intro s; change execCallr n s = _; unfold execCallr callOp; rfl
  case ret => cases h; apply Exists.intro; intro s; change execRet n s = _; unfold execRet callOp; rfl
  case loopi => cases h; apply Exists.intro; intro s; change execLoopi n s = _; unfold execLoopi loopOp; rfl
  case loopr => cases h; apply Exists.intro; intro s; change execLoopr n s = _; unfold execLoopr loopOp; rfl
  case lexit => cases h; apply Exists.intro; intro s; change execLexit n s = _; unfold execLexit; rfl
  case post => cases h; apply Exists.intro; intro s; change execPost n s = _; unfold execPost; rfl
  case take => cases h; apply Exists.intro; intro s; change execTake n s = _; unfold execTake; rfl
  case poll => cases h; apply Exists.intro; intro s; change execPoll n s = _; unfold execPoll; rfl
  case mfs => cases h; apply Exists.intro; intro s; change execMfs n s = _; unfold execMfs; rfl
  case mts => cases h; apply Exists.intro; intro s; change execMts n s = _; unfold execMts; rfl
  case endact => cases h; apply Exists.intro; intro s; change execEndact n s = _; unfold execEndact; rfl
  case brk => cases h; apply Exists.intro; intro s; change execBrk n s = _; unfold execBrk; rfl

/-- A register instruction is a function of its operands. -/
theorem executes_alu (n : Nat) (i : Instr) (o : Op) (c : Nat) (h : executes n i o) (hc : resultCycles o = some c) :
    ∃ f, ∀ s, exec i s = alu n o c f s := by
  cases o <;> cases hc
  case add => cases h; apply Exists.intro; intro s; change execAdd n s = _; unfold execAdd; rfl
  case adc => cases h; apply Exists.intro; intro s; change execAdc n s = _; unfold execAdc; rfl
  case sub => cases h; apply Exists.intro; intro s; change execSub n s = _; unfold execSub; rfl
  case sbc => cases h; apply Exists.intro; intro s; change execSbc n s = _; unfold execSbc; rfl
  case cmp => cases h; apply Exists.intro; intro s; change execCmp n s = _; unfold execCmp; rfl
  case neg => cases h; apply Exists.intro; intro s; change execNeg n s = _; unfold execNeg; rfl
  case addi => cases h; apply Exists.intro; intro s; change execAddi n s = _; unfold execAddi; rfl
  case cmpi => cases h; apply Exists.intro; intro s; change execCmpi n s = _; unfold execCmpi; rfl
  case adds => cases h; apply Exists.intro; intro s; change execAdds n s = _; unfold execAdds; rfl
  case subs => cases h; apply Exists.intro; intro s; change execSubs n s = _; unfold execSubs; rfl
  case sat => cases h; apply Exists.intro; intro s; change execSat n s = _; unfold execSat; rfl
  case macs => cases h; apply Exists.intro; intro s; change execMacs n s = _; unfold execMacs; rfl
  case macp => cases h; apply Exists.intro; intro s; change execMacp n s = _; unfold execMacp; rfl
  case and_ => cases h; apply Exists.intro; intro s; change execAnd n s = _; unfold execAnd; rfl
  case or_ => cases h; apply Exists.intro; intro s; change execOr n s = _; unfold execOr; rfl
  case xor_ => cases h; apply Exists.intro; intro s; change execXor n s = _; unfold execXor; rfl
  case andn => cases h; apply Exists.intro; intro s; change execAndn n s = _; unfold execAndn; rfl
  case andi => cases h; apply Exists.intro; intro s; change execAndi n s = _; unfold execAndi; rfl
  case ori => cases h; apply Exists.intro; intro s; change execOri n s = _; unfold execOri; rfl
  case xori => cases h; apply Exists.intro; intro s; change execXori n s = _; unfold execXori; rfl
  case shl => cases h; apply Exists.intro; intro s; change execShl n s = _; unfold execShl; rfl
  case shr => cases h; apply Exists.intro; intro s; change execShr n s = _; unfold execShr; rfl
  case sar => cases h; apply Exists.intro; intro s; change execSar n s = _; unfold execSar; rfl
  case ror => cases h; apply Exists.intro; intro s; change execRor n s = _; unfold execRor; rfl
  case mul => cases h; apply Exists.intro; intro s; change execMul n s = _; unfold execMul; rfl
  case mac => cases h; apply Exists.intro; intro s; change execMac n s = _; unfold execMac; rfl
  case mulhs => cases h; apply Exists.intro; intro s; change execMulhs n s = _; unfold execMulhs; rfl
  case mulhu => cases h; apply Exists.intro; intro s; change execMulhu n s = _; unfold execMulhu; rfl
  case bfx => cases h; apply Exists.intro; intro s; change execBfx n s = _; unfold execBfx; rfl
  case bfxs => cases h; apply Exists.intro; intro s; change execBfxs n s = _; unfold execBfxs; rfl
  case bfi => cases h; apply Exists.intro; intro s; change execBfi n s = _; unfold execBfi; rfl
  case cnt => cases h; apply Exists.intro; intro s; change execCnt n s = _; unfold execCnt; rfl
  case nperm => cases h; apply Exists.intro; intro s; change execNperm n s = _; unfold execNperm; rfl
  case addp => cases h; apply Exists.intro; intro s; change execAddp n s = _; unfold execAddp; rfl
  case subp => cases h; apply Exists.intro; intro s; change execSubp n s = _; unfold execSubp; rfl
  case addps => cases h; apply Exists.intro; intro s; change execAddps n s = _; unfold execAddps; rfl
  case subps => cases h; apply Exists.intro; intro s; change execSubps n s = _; unfold execSubps; rfl
  case seth => cases h; apply Exists.intro; intro s; change execSeth n s = _; unfold execSeth; rfl
  case setl => cases h; apply Exists.intro; intro s; change execSetl n s = _; unfold execSetl; rfl

end Sys2Proof.Safety
end

