-- ==== Sys2Proof/Laws/Booths.lean ====
section
/-! SUPPORT. Laws/Booths.lean: how a handed command is applied, and what completing one leaves as it was. -/

namespace Sys2Proof.Machine

open Safety

theorem firstBad_clear (l : List (Bool × Status)) (h : allClear l) : firstBad l = none := by
  induction l with
  | nil => rfl
  | cons c l ih =>
    obtain ⟨b, st⟩ := c
    have hb : b = false := h (b, st) (by simp)
    simp only [firstBad, hb]
    exact ih (fun c hc => h c (by simp [hc]))

/-- A handed command at its turn is applied (18 R494). -/
theorem booth_handed (i : CmdInfo) (h : Hdr) (ch : State → List (Bool × Status)) (e : State → Applied) (s : State)
    (hh : handed s h i.group i.code) : booth i h ch e s = applyCmd i h ch e s := by
  obtain ⟨c, hc, hg, hk, ht, _⟩ := hh
  unfold booth
  simp [hc, hg, hk, ht]

/-- A command none of whose checks fails has its effect (18 R493, 19 R504). -/
theorem applyCmd_clear (i : CmdInfo) (h : Hdr) (ch : State → List (Bool × Status)) (e : State → Applied) (s : State)
    (hp : h.paramsClean = true) (hc : allClear (ch s)) (hb : busyEpoch s i h = false) :
    applyCmd i h ch e s =
      match e (applied s h) with
      | .done s st r => finish s h.fn h.id st { result := r }
      | .epoch s p r => releaseDeferred { s with deferred := s.deferred ++
          [{ fn := h.fn, id := h.id, parts := [p], status := .ok, result := r, epochOf := some p }] }
      | .device s => releaseDeferred { s with deferred := s.deferred ++
          [{ fn := h.fn, id := h.id, parts := List.range 16, status := .ok, result := [], epochOf := none }] }
      | .long s => s := by
  have hf : firstBad ((!h.paramsClean, Status.badRequest) :: ch s ++ [(busyEpoch s i h, .busyEpoch)]) = none := by
    apply firstBad_clear
    intro c hm
    simp only [List.cons_append, List.mem_cons, List.mem_append, List.not_mem_nil, or_false] at hm
    rcases hm with rfl | hm | rfl
    · simp [hp]
    · exact hc c hm
    · exact hb
  unfold applyCmd
  simp only [hf]
  rfl

/-- The whole of a handed command's step. -/
theorem boothStep_clear (i : CmdInfo) (h : Hdr) (ch : State → List (Bool × Status)) (e : State → Applied) (s : State)
    (hh : handed s h i.group i.code) (hc : allClear (ch s)) (hb : busyEpoch s i h = false) :
    boothStep i h ch e s = .next (match e (applied s h) with
      | .done s st r => finish s h.fn h.id st { result := r }
      | .epoch s p r => releaseDeferred { s with deferred := s.deferred ++
          [{ fn := h.fn, id := h.id, parts := [p], status := .ok, result := r, epochOf := some p }] }
      | .device s => releaseDeferred { s with deferred := s.deferred ++
          [{ fn := h.fn, id := h.id, parts := List.range 16, status := .ok, result := [], epochOf := none }] }
      | .long s => s) := by
  unfold boothStep
  rw [booth_handed i h ch e s hh]
  obtain ⟨c, _, _, _, _, hp⟩ := hh
  rw [applyCmd_clear i h ch e s hp hc hb]

theorem busyEpoch_none (s : State) (i : CmdInfo) (h : Hdr) (hi : i.ep = .none_) : busyEpoch s i h = false := by
  unfold busyEpoch; rw [hi]

theorem busyEpoch_resize (s : State) (i : CmdInfo) (h : Hdr) (hi : i.ep = .resize) : busyEpoch s i h = false := by
  unfold busyEpoch; rw [hi]

theorem busyEpoch_part (s : State) (i : CmdInfo) (h : Hdr) (hi : i.ep = .part) (hf : epochFree s h) :
    busyEpoch s i h = false := by
  unfold busyEpoch; rw [hi]; simp [hf.1, hf.2]

theorem busyEpoch_dev (s : State) (i : CmdInfo) (h : Hdr) (hi : i.ep = .dev) (hf : allFree s) :
    busyEpoch s i h = false := by
  unfold busyEpoch; rw [hi]
  simp only [List.any_eq_false, List.mem_range]
  intro p hp
  simp [hf p hp]

/-- A block that fits is written, and its length reported (19 R503). -/
theorem writeOut_fits (h : Hdr) (blk : OutBlk) (d : List Byte) (s : State) (hl : d.length ≤ blk.len) :
    writeOut h blk d s = .done (wrote s h blk.addr d) .ok (le 4 d.length) := by
  unfold writeOut wrote
  rw [if_neg (by omega)]

/-! Marking a command touches nothing but the functions. -/

theorem applied_eq (s : State) (h : Hdr) : ∃ f, applied s h = s.onFn h.fn f := ⟨_, rfl⟩

/-- Marking a command leaves the others of its booth as they stood. -/
theorem outCmd_applied (s : State) (h : Hdr) (n : Nat) (hn : n ≠ h.id) : outCmd (applied s h) h.fn n = outCmd s h.fn n := by
  unfold applied markCmd outCmd
  simp only [State.onBooth_eq, State.fn, State.onFn_fns, tgetD_tupd, if_true]
  generalize (tgetD s.fns h.fn ({} : Fn)).booth.outst = l
  induction l with
  | nil => rfl
  | cons c l ih =>
    simp only [List.map_cons, List.find?_cons]
    rw [ih]
    by_cases hi : c.id = h.id
    · have hb : (h.id == n) = false := by simpa using Ne.symm hn
      simp [hi, hb]
    · simp [hi]

end Sys2Proof.Machine
end

