-- ==== Sys2Proof/Laws/Doorbells.lean ====
section
/-! SUPPORT. Laws/Doorbells.lean: what a write to the doorbell page does, register by register (16 R435 to R437). -/

namespace Sys2Proof.Machine

/-- A write to a ring doorbell register of a function that the port hears is the ring doorbell of its index. -/
theorem doorbellWrite_ring (s : State) (fn off v : Nat) (h1 : ingress s = true) (h2 : fn = 0 ∨ vfExists s fn = true)
    (h3 : v < 2 ^ 32) (h4 : off % 4 = 0) (h5 : 0x200 ≤ off) (h6 : off < (if fn = 0 then 0x10000 else 0x1000)) :
    doorbellWrite s fn off 4 v = ringDoorbell s fn ((off - 0x200) / 4) v := by
  have hx : (fn == 0 || vfExists s fn) = true := by simpa using h2
  have hv : ¬ 2 ^ 32 ≤ v := by omega
  have h6' : ¬ (if fn = 0 then 0x10000 else 0x1000) ≤ off := by omega
  have e0 : ¬ off = 0 := by omega
  have e4 : ¬ off = 4 := by omega
  have e8 : ¬ off = 8 := by omega
  have el : ¬ off < 0x100 := by omega
  have el2 : ¬ off < 0x200 := by omega
  simp only [doorbellWrite, beq_iff_eq, h1, hx, h4, bne_self_eq_false, Bool.not_true, Bool.or_self, Bool.false_eq_true, if_false,
    h6', hv, decide_false, e0, e4, e8, el, el2]

/-- A write to an Act doorbell register of a virtual function that the port hears is the Act doorbell of its index. -/
theorem doorbellWrite_act (s : State) (fn k v : Nat) (h1 : ingress s = true) (h2 : fn = 0 ∨ vfExists s fn = true)
    (h3 : v < 2 ^ 32) (hk : k < 64) : doorbellWrite s fn (0x100 + 4 * k) 4 v = actDoorbell s fn k v := by
  have hx : (fn == 0 || vfExists s fn) = true := by simpa using h2
  have hv : ¬ 2 ^ 32 ≤ v := by omega
  have e1 : (0x100 + 4 * k) % 4 = 0 := by omega
  have e2 : ¬ (if fn = 0 then 0x10000 else 0x1000) ≤ 0x100 + 4 * k := by split <;> omega
  have e3 : ¬ 0x100 + 4 * k < 0x100 := by omega
  have e4 : 0x100 + 4 * k < 0x200 := by omega
  have e5 : (0x100 + 4 * k - 0x100) / 4 = k := by omega
  have e6 : ¬ 0x100 + 4 * k = 0 := by omega
  have e7 : ¬ 0x100 + 4 * k = 4 := by omega
  have e8 : ¬ 0x100 + 4 * k = 8 := by omega
  simp only [doorbellWrite, beq_iff_eq, h1, hx, e1, e2, e3, e4, e5, e6, e7, e8, hv, bne_self_eq_false, Bool.not_true, Bool.or_self,
    Bool.false_eq_true, if_false, if_true, decide_false]

/-- A ring doorbell that its checks accept keeps the value written, sets the host's count and reads on in the ring. -/
theorem ringDoorbell_ok (s : State) (fn n v : Nat) (d : Doorbell) (producer : Bool) (count entries : Nat)
    (h1 : tget (s.fn fn).doorbells n = some d) (h2 : dbHeard s fn = true)
    (h3 : ringView s d.target = some (producer, count, entries))
    (h4 : (if producer then prodOk v count entries else consOk v count entries) = true) :
    ringDoorbell s fn n v = ringKick (ringSet (s.onFn fn (fun f => { f with
      doorbells := tmod f.doorbells n (fun d => { d with last := v }) })) d.target v) d.target := by
  simp only [ringDoorbell, h1, h2]
  cases hd : d.target <;> rw [hd] at h3 <;> simp only [ringView] at h3 <;> simp only [ringView, h3, h4] <;> first | rfl | cases h3

end Sys2Proof.Machine
end

