-- ==== Sys2Proof/Laws/Keeps.lean ====
section
/-! SUPPORT. Laws/Keeps.lean: what nothing in the machine breaks: no operation touches the queue of commands, lowers the
security version that the fuses demand, or leaves a memory out of its canonical form. -/

namespace Sys2Proof.Safety

open Machine

/-- From the first state to the second the queue stands, the security version does not fall, and memories in canonical form
stay in it. -/
structure Keeps (s t : State) : Prop where
  queue : t.pending = s.pending
  svn : svnKept s t
  mem : memoriesWf s → memoriesWf t

/-- Nothing has happened. -/
theorem Keeps.refl (s : State) : Keeps s s := ⟨rfl, Nat.le_refl _, id⟩

/-- One after the other. -/
theorem Keeps.trans {s t u : State} (h : Keeps s t) (g : Keeps t u) : Keeps s u :=
  ⟨g.queue.trans h.queue, Nat.le_trans h.svn g.svn, fun m => g.mem (h.mem m)⟩

/-- A change of the other fields. -/
theorem Keeps.same {s t u : State} (h : Keeps s t) (hp : u.pending = t.pending) (hf : u.fuses = t.fuses) (hm : u.mem = t.mem) :
    Keeps s u :=
  ⟨hp.trans h.queue, by unfold svnKept; rw [hf]; exact h.svn, fun m => by have := h.mem m; unfold memoriesWf at *; rw [hm]; exact this⟩

/-- An update of the other fields. -/
theorem Keeps.upd {s t : State} (h : Keeps s t)
    {fixedMode : Bool} {host : HostPort} {fns : Tbl Fn} {parts : Tbl Part} {comps : Tbl Comp} {deferred : List Deferred}
    {resize : Option Resize} {detaches : List Detach} {chans : Tbl Channel} {audits : List AuditRun} {islands : Tbl Island}
    {net : Net} {sess : Sessions} {cipher : Cipher} {acts : Acts} {tp : Trapeze} {gdp : Gdp} {mover : Mover} {codec : Codec}
    {stor : Stor} {press : Press} {mgmt : Mgmt} {power : Power} {rind : Rind} {test : Test} {flash : Flash} {clock : Clock}
    {cfg : Cfg} {draws : Nat} {out : List Out} :
    Keeps s { t with
      fixedMode := fixedMode
      host := host
      fns := fns
      parts := parts
      comps := comps
      deferred := deferred
      resize := resize
      detaches := detaches
      chans := chans
      audits := audits
      islands := islands
      net := net
      sess := sess
      cipher := cipher
      acts := acts
      tp := tp
      gdp := gdp
      mover := mover
      codec := codec
      stor := stor
      press := press
      mgmt := mgmt
      power := power
      rind := rind
      test := test
      flash := flash
      clock := clock
      cfg := cfg
      draws := draws
      out := out } := Keeps.same h rfl rfl rfl

/-- A change of the memories that keeps their form. -/
theorem Keeps.onMem {s t : State} {f : MemSys → MemSys} (h : Keeps s t)
    (hb : memWf t.mem.bytes = true → memWf (f t.mem).bytes = true) (ht : wordWf t.mem.troupe = true → wordWf (f t.mem).troupe = true)
    (hi : wordWf t.mem.im = true → wordWf (f t.mem).im = true) : Keeps s (t.onMem f) :=
  ⟨h.queue, h.svn, fun m => have g := h.mem m; ⟨hb g.1, ht g.2.1, hi g.2.2⟩⟩

/-- A fold whose steps all keep it. -/
theorem Keeps.foldl {α : Type} {s t : State} {f : State → α → State} {l : List α} (h : Keeps s t)
    (hf : ∀ u x, Keeps s u → Keeps s (f u x)) : Keeps s (l.foldl f t) := by
  induction l generalizing t with
  | nil => exact h
  | cons x l ih => exact ih (hf t x h)

/-- A fold that carries more than the state, whose steps all keep it. -/
theorem Keeps.foldl_on {α β : Type} (p : β → State) {s : State} {f : β → α → β} {l : List α} {b : β} (h : Keeps s (p b))
    (hf : ∀ u x, Keeps s (p u) → Keeps s (p (f u x))) : Keeps s (p (l.foldl f b)) := by
  induction l generalizing b with
  | nil => exact h
  | cons x l ih => exact ih (hf b x h)

theorem Keeps.foldl_snd {α : Type} {β : Type} {s : State} {b : β × State} {f : (β × State) → α → (β × State)} {l : List α} (h : Keeps s b.2)
    (hf : ∀ u x, Keeps s u.2 → Keeps s (f u x).2) : Keeps s (l.foldl f b).2 := Keeps.foldl_on (fun b : β × State => b.2) h hf

theorem Keeps.foldl_fst {α : Type} {β : Type} {s : State} {b : State × β} {f : (State × β) → α → (State × β)} {l : List α} (h : Keeps s b.1)
    (hf : ∀ u x, Keeps s u.1 → Keeps s (f u x).1) : Keeps s (l.foldl f b).1 := Keeps.foldl_on (fun b : State × β => b.1) h hf

theorem Keeps.foldl_snd_snd {α : Type} {β γ : Type} {s : State} {b : β × γ × State} {f : (β × γ × State) → α → (β × γ × State)} {l : List α} (h : Keeps s b.2.2)
    (hf : ∀ u x, Keeps s u.2.2 → Keeps s (f u x).2.2) : Keeps s (l.foldl f b).2.2 := Keeps.foldl_on (fun b : β × γ × State => b.2.2) h hf

theorem Keeps.foldl_snd_fst {α : Type} {β γ : Type} {s : State} {b : β × State × γ} {f : (β × State × γ) → α → (β × State × γ)} {l : List α} (h : Keeps s b.2.1)
    (hf : ∀ u x, Keeps s u.2.1 → Keeps s (f u x).2.1) : Keeps s (l.foldl f b).2.1 := Keeps.foldl_on (fun b : β × State × γ => b.2.1) h hf

theorem Keeps.foldl_snd_snd_snd {α : Type} {β γ δ : Type} {s : State} {b : β × γ × δ × State} {f : (β × γ × δ × State) → α → (β × γ × δ × State)} {l : List α} (h : Keeps s b.2.2.2)
    (hf : ∀ u x, Keeps s u.2.2.2 → Keeps s (f u x).2.2.2) : Keeps s (l.foldl f b).2.2.2 := Keeps.foldl_on (fun b : β × γ × δ × State => b.2.2.2) h hf

theorem Keeps.foldl_snd_snd_fst {α : Type} {β γ δ : Type} {s : State} {b : β × γ × State × δ} {f : (β × γ × State × δ) → α → (β × γ × State × δ)} {l : List α} (h : Keeps s b.2.2.1)
    (hf : ∀ u x, Keeps s u.2.2.1 → Keeps s (f u x).2.2.1) : Keeps s (l.foldl f b).2.2.1 := Keeps.foldl_on (fun b : β × γ × State × δ => b.2.2.1) h hf

/-- A choice. -/
theorem Keeps.ite {s t u : State} {c : Prop} [Decidable c] (h : Keeps s t) (g : Keeps s u) : Keeps s (if c then t else u) := by
  split <;> assumption

/-- The state that stands second in a pair. -/
theorem Keeps.of_snd {β : Type} {s t : State} {p : β × State} {b : β} (h : p = (b, t)) (k : Keeps s p.2) : Keeps s t := by
  rw [h] at k; exact k

/-- The state that stands first in a pair. -/
theorem Keeps.of_fst {β : Type} {s t : State} {p : State × β} {b : β} (h : p = (t, b)) (k : Keeps s p.1) : Keeps s t := by
  rw [h] at k; exact k

/-- The state that stands third. -/
theorem Keeps.of_third {β γ : Type} {s t : State} {p : β × γ × State} {b : β} {c : γ} (h : p = (b, c, t)) (k : Keeps s p.2.2) :
    Keeps s t := by
  rw [h] at k; exact k

/-- The state that stands fourth. -/
theorem Keeps.of_fourth {β γ δ : Type} {s t : State} {p : β × γ × δ × State} {b : β} {c : γ} {d : δ} (h : p = (b, c, d, t))
    (k : Keeps s p.2.2.2) : Keeps s t := by
  rw [h] at k; exact k

/-- A choice of pairs. -/
theorem Keeps.of_ite {β : Type} {s : State} {p q : β × State} {c : Prop} [Decidable c] (h : Keeps s p.2) (g : Keeps s q.2) :
    Keeps s (if c then p else q).2 := by
  split <;> assumption

/-- An outcome is a next state, and keeps it. -/
def KeepsO (s : State) (o : Host.Outcome State Fault Refusal) : Prop := ∃ t, o = .next t ∧ Keeps s t

/-- A next state. -/
theorem KeepsO.next {s t : State} (h : Keeps s t) : KeepsO s (.next t) := ⟨t, rfl, h⟩

/-- A choice of outcomes. -/
theorem KeepsO.ite {s : State} {o p : Host.Outcome State Fault Refusal} {c : Prop} [Decidable c] (h : KeepsO s o) (g : KeepsO s p) :
    KeepsO s (if c then o else p) := by
  split <;> assumption

/-- Where there is an answer, the state in it keeps it. -/
def KeepsM {α : Type} (p : α → State) (s : State) (o : Option α) : Prop := ∀ x, o = some x → Keeps s (p x)

/-- No answer. -/
theorem KeepsM.none {α : Type} {p : α → State} {s : State} : KeepsM p s (none : Option α) := fun _ h => nomatch h

/-- An answer. -/
theorem KeepsM.some {α : Type} {p : α → State} {s : State} {x : α} (h : Keeps s (p x)) : KeepsM p s (some x) := by
  intro y e; cases e; exact h

/-- A choice of answers. -/
theorem KeepsM.ite {α : Type} {p : α → State} {s : State} {a b : Option α} {c : Prop} [Decidable c] (h : KeepsM p s a) (g : KeepsM p s b) :
    KeepsM p s (if c then a else b) := by
  split <;> assumption

/-- What a packet leaves: values and a state to go on with, or the state in which it ends. -/
inductive KeepsS {α β : Type} (s : State) : Sum (α × β × State) State → Prop where
  | inl {a : α} {b : β} {t : State} (h : Keeps s t) : KeepsS s (.inl (a, b, t))
  | inr {t : State} (h : Keeps s t) : KeepsS s (.inr t)

/-- The state to go on with. -/
theorem KeepsS.of_inl {α β : Type} {s t : State} {x : Sum (α × β × State) State} {a : α} {b : β} (h : x = .inl (a, b, t))
    (k : KeepsS s x) : Keeps s t := by
  rw [h] at k; cases k; assumption

/-- The state in which it ends. -/
theorem KeepsS.of_inr {α β : Type} {s t : State} {x : Sum (α × β × State) State} (h : x = .inr t) (k : KeepsS s x) : Keeps s t := by
  rw [h] at k; cases k; assumption

/-- What the application of a command leaves. -/
inductive KeepsA (s : State) : Applied → Prop where
  | done {t : State} {st : Status} {r : List Byte} (h : Keeps s t) : KeepsA s (.done t st r)
  | epoch {t : State} {p : Nat} {r : List Byte} (h : Keeps s t) : KeepsA s (.epoch t p r)
  | device {t : State} (h : Keeps s t) : KeepsA s (.device t)
  | long {t : State} (h : Keeps s t) : KeepsA s (.long t)

/-- A choice of applications. -/
theorem KeepsA.ite {s : State} {a b : Applied} {c : Prop} [Decidable c] (h : KeepsA s a) (g : KeepsA s b) :
    KeepsA s (if c then a else b) := by
  split <;> assumption

/-- What an instruction of a tumbler leaves. -/
inductive KeepsR (s : State) : Ran → Prop where
  | done {t : State} {u : Tumbler} {c : Nat} {a : Option Nat} (h : Keeps s t) : KeepsR s (.done t u c a)
  | exc {t : State} {c : Nat} {k : Bool} (h : Keeps s t) : KeepsR s (.exc t c k)
  | wait : KeepsR s .wait
  | stall {x : Stall} : KeepsR s (.stall x)
  | ends {c : Nat} : KeepsR s (.ends c)

/-- A choice of what an instruction leaves. -/
theorem KeepsR.ite {s : State} {a b : Ran} {c : Prop} [Decidable c] (h : KeepsR s a) (g : KeepsR s b) :
    KeepsR s (if c then a else b) := by
  split <;> assumption

end Sys2Proof.Safety
end

