-- ==== Sys2Proof/Laws/KeepsState.lean ====
section
/-! SUPPORT. Laws/KeepsState.lean: the operations of State.lean keep the queue, the security version and the form of the memories. -/

namespace Sys2Proof.Safety

open Machine

theorem keeps_onHost {s0 : State} (s : State) (f : HostPort → HostPort) (hK : Keeps s0 s) : Keeps s0 (State.onHost s f) := by
  unfold State.onHost
  repeat' first | (with_reducible first | exact hK) | with_reducible apply Keeps.upd

theorem keeps_onFn {s0 : State} (s : State) (n : Nat) (f : Fn → Fn) (hK : Keeps s0 s) : Keeps s0 (State.onFn s n f) := by
  unfold State.onFn
  repeat' first | (with_reducible first | exact hK) | with_reducible apply Keeps.upd

theorem keeps_onBooth {s0 : State} (s : State) (n : Nat) (f : Booth → Booth) (hK : Keeps s0 s) : Keeps s0 (State.onBooth s n f) := by
  unfold State.onBooth
  repeat' first | (with_reducible first | exact hK | apply keeps_onFn)

theorem keeps_onPart {s0 : State} (s : State) (n : Nat) (f : Part → Part) (hK : Keeps s0 s) : Keeps s0 (State.onPart s n f) := by
  unfold State.onPart
  repeat' first | (with_reducible first | exact hK) | with_reducible apply Keeps.upd

theorem keeps_onComp {s0 : State} (s : State) (n : Nat) (f : Comp → Comp) (hK : Keeps s0 s) : Keeps s0 (State.onComp s n f) := by
  unfold State.onComp
  repeat' first | (with_reducible first | exact hK) | with_reducible apply Keeps.upd

theorem keeps_onMem {s0 : State} (s : State) (f : MemSys → MemSys) (hK : Keeps s0 s)
    (hb : memWf s.mem.bytes = true → memWf (f s.mem).bytes = true)
    (ht : wordWf s.mem.troupe = true → wordWf (f s.mem).troupe = true)
    (hi : wordWf s.mem.im = true → wordWf (f s.mem).im = true) : Keeps s0 (s.onMem f) := hK.onMem hb ht hi

theorem keeps_onTarget {s0 : State} (s : State) (n : Nat) (f : MwTarget → MwTarget) (hK : Keeps s0 s) : Keeps s0 (s.onTarget n f) :=
  keeps_onMem s _ hK (fun m => m) (fun m => m) (fun m => m)

theorem keeps_onIsland {s0 : State} (s : State) (n : Nat) (f : Island → Island) (hK : Keeps s0 s) : Keeps s0 (State.onIsland s n f) := by
  unfold State.onIsland
  repeat' first | (with_reducible first | exact hK) | with_reducible apply Keeps.upd

theorem keeps_onNet {s0 : State} (s : State) (f : Net → Net) (hK : Keeps s0 s) : Keeps s0 (State.onNet s f) := by
  unfold State.onNet
  repeat' first | (with_reducible first | exact hK) | with_reducible apply Keeps.upd

theorem keeps_onLPort {s0 : State} (s : State) (n : Nat) (f : LPort → LPort) (hK : Keeps s0 s) : Keeps s0 (State.onLPort s n f) := by
  unfold State.onLPort
  repeat' first | (with_reducible first | exact hK | apply keeps_onNet)

theorem keeps_onTxq {s0 : State} (s : State) (n : Nat) (f : Txq → Txq) (hK : Keeps s0 s) : Keeps s0 (State.onTxq s n f) := by
  unfold State.onTxq
  repeat' first | (with_reducible first | exact hK | apply keeps_onNet)

theorem keeps_onRing {s0 : State} (s : State) (n : Nat) (f : RxRing → RxRing) (hK : Keeps s0 s) : Keeps s0 (State.onRing s n f) := by
  unfold State.onRing
  repeat' first | (with_reducible first | exact hK | apply keeps_onNet)

theorem keeps_onSess {s0 : State} (s : State) (f : Sessions → Sessions) (hK : Keeps s0 s) : Keeps s0 (State.onSess s f) := by
  unfold State.onSess
  repeat' first | (with_reducible first | exact hK) | with_reducible apply Keeps.upd

theorem keeps_onSession {s0 : State} (s : State) (n : Nat) (f : Sess → Sess) (hK : Keeps s0 s) : Keeps s0 (State.onSession s n f) := by
  unfold State.onSession
  repeat' first | (with_reducible first | exact hK | apply keeps_onSess)

theorem keeps_onCipher {s0 : State} (s : State) (f : Cipher → Cipher) (hK : Keeps s0 s) : Keeps s0 (State.onCipher s f) := by
  unfold State.onCipher
  repeat' first | (with_reducible first | exact hK) | with_reducible apply Keeps.upd

theorem keeps_onSlot {s0 : State} (s : State) (n : Nat) (f : KeySlot → KeySlot) (hK : Keeps s0 s) : Keeps s0 (State.onSlot s n f) := by
  unfold State.onSlot
  repeat' first | (with_reducible first | exact hK | apply keeps_onCipher)

theorem keeps_onActs {s0 : State} (s : State) (f : Acts → Acts) (hK : Keeps s0 s) : Keeps s0 (State.onActs s f) := by
  unfold State.onActs
  repeat' first | (with_reducible first | exact hK) | with_reducible apply Keeps.upd

theorem keeps_onTumbler {s0 : State} (s : State) (n : Nat) (f : Tumbler → Tumbler) (hK : Keeps s0 s) : Keeps s0 (State.onTumbler s n f) := by
  unfold State.onTumbler
  repeat' first | (with_reducible first | exact hK | apply keeps_onActs)

theorem keeps_onStat {s0 : State} (s : State) (n : Nat) (f : BindStat → BindStat) (hK : Keeps s0 s) : Keeps s0 (State.onStat s n f) := by
  unfold State.onStat
  repeat' first | (with_reducible first | exact hK | apply keeps_onActs)

theorem keeps_onTrapeze {s0 : State} (s : State) (f : Trapeze → Trapeze) (hK : Keeps s0 s) : Keeps s0 (State.onTrapeze s f) := by
  unfold State.onTrapeze
  repeat' first | (with_reducible first | exact hK) | with_reducible apply Keeps.upd

theorem keeps_onTp {s0 : State} (s : State) (n : Nat) (f : Tp → Tp) (hK : Keeps s0 s) : Keeps s0 (State.onTp s n f) := by
  unfold State.onTp
  repeat' first | (with_reducible first | exact hK | apply keeps_onTrapeze)

theorem keeps_onConn {s0 : State} (s : State) (n : Nat) (f : GdpConn → GdpConn) (hK : Keeps s0 s) : Keeps s0 (State.onConn s n f) := by
  unfold State.onConn
  repeat' first | (with_reducible first | exact hK) | with_reducible apply Keeps.upd

theorem keeps_onMover {s0 : State} (s : State) (f : Mover → Mover) (hK : Keeps s0 s) : Keeps s0 (State.onMover s f) := by
  unfold State.onMover
  repeat' first | (with_reducible first | exact hK) | with_reducible apply Keeps.upd

theorem keeps_onMvq {s0 : State} (s : State) (n : Nat) (f : MvQueue → MvQueue) (hK : Keeps s0 s) : Keeps s0 (State.onMvq s n f) := by
  unfold State.onMvq
  repeat' first | (with_reducible first | exact hK | apply keeps_onMover)

theorem keeps_onCodec {s0 : State} (s : State) (f : Codec → Codec) (hK : Keeps s0 s) : Keeps s0 (State.onCodec s f) := by
  unfold State.onCodec
  repeat' first | (with_reducible first | exact hK) | with_reducible apply Keeps.upd

theorem keeps_onStream {s0 : State} (s : State) (n : Nat) (f : Stream → Stream) (hK : Keeps s0 s) : Keeps s0 (State.onStream s n f) := by
  unfold State.onStream
  repeat' first | (with_reducible first | exact hK | apply keeps_onCodec)

theorem keeps_onInst {s0 : State} (s : State) (n : Nat) (f : Inst → Inst) (hK : Keeps s0 s) : Keeps s0 (State.onInst s n f) := by
  unfold State.onInst
  repeat' first | (with_reducible first | exact hK | apply keeps_onCodec)

theorem keeps_onStor {s0 : State} (s : State) (f : Stor → Stor) (hK : Keeps s0 s) : Keeps s0 (State.onStor s f) := by
  unfold State.onStor
  repeat' first | (with_reducible first | exact hK) | with_reducible apply Keeps.upd

theorem keeps_onDrive {s0 : State} (s : State) (n : Nat) (f : Drive → Drive) (hK : Keeps s0 s) : Keeps s0 (State.onDrive s n f) := by
  unfold State.onDrive
  repeat' first | (with_reducible first | exact hK | apply keeps_onStor)

theorem keeps_onVol {s0 : State} (s : State) (n : Nat) (f : Volume → Volume) (hK : Keeps s0 s) : Keeps s0 (State.onVol s n f) := by
  unfold State.onVol
  repeat' first | (with_reducible first | exact hK | apply keeps_onStor)

theorem keeps_onStq {s0 : State} (s : State) (n : Nat) (f : StQueue → StQueue) (hK : Keeps s0 s) : Keeps s0 (State.onStq s n f) := by
  unfold State.onStq
  repeat' first | (with_reducible first | exact hK | apply keeps_onStor)

theorem keeps_onTcp {s0 : State} (s : State) (n : Nat) (f : Tcp → Tcp) (hK : Keeps s0 s) : Keeps s0 (State.onTcp s n f) := by
  unfold State.onTcp
  repeat' first | (with_reducible first | exact hK | apply keeps_onStor)

theorem keeps_onJob {s0 : State} (s : State) (n : Nat) (f : PressJob → PressJob) (hK : Keeps s0 s) : Keeps s0 (State.onJob s n f) := by
  unfold State.onJob
  repeat' first | (with_reducible first | exact hK) | with_reducible apply Keeps.upd

theorem keeps_onMgmt {s0 : State} (s : State) (f : Mgmt → Mgmt) (hK : Keeps s0 s) : Keeps s0 (State.onMgmt s f) := by
  unfold State.onMgmt
  repeat' first | (with_reducible first | exact hK) | with_reducible apply Keeps.upd

theorem keeps_onPlaybill {s0 : State} (s : State) (f : Playbill → Playbill) (hK : Keeps s0 s) : Keeps s0 (State.onPlaybill s f) := by
  unfold State.onPlaybill
  repeat' first | (with_reducible first | exact hK | apply keeps_onMgmt)

theorem keeps_onPower {s0 : State} (s : State) (f : Power → Power) (hK : Keeps s0 s) : Keeps s0 (State.onPower s f) := by
  unfold State.onPower
  repeat' first | (with_reducible first | exact hK) | with_reducible apply Keeps.upd

theorem keeps_onRind {s0 : State} (s : State) (f : Rind → Rind) (hK : Keeps s0 s) : Keeps s0 (State.onRind s f) := by
  unfold State.onRind
  repeat' first | (with_reducible first | exact hK) | with_reducible apply Keeps.upd

theorem keeps_onTest {s0 : State} (s : State) (f : Test → Test) (hK : Keeps s0 s) : Keeps s0 (State.onTest s f) := by
  unfold State.onTest
  repeat' first | (with_reducible first | exact hK) | with_reducible apply Keeps.upd

theorem keeps_onFlash {s0 : State} (s : State) (f : Flash → Flash) (hK : Keeps s0 s) : Keeps s0 (State.onFlash s f) := by
  unfold State.onFlash
  repeat' first | (with_reducible first | exact hK) | with_reducible apply Keeps.upd

theorem keeps_onClock {s0 : State} (s : State) (f : Clock → Clock) (hK : Keeps s0 s) : Keeps s0 (State.onClock s f) := by
  unfold State.onClock
  repeat' first | (with_reducible first | exact hK) | with_reducible apply Keeps.upd

theorem keeps_onCfg {s0 : State} (s : State) (f : Cfg → Cfg) (hK : Keeps s0 s) : Keeps s0 (State.onCfg s f) := by
  unfold State.onCfg
  repeat' first | (with_reducible first | exact hK) | with_reducible apply Keeps.upd

theorem keeps_send {s0 : State} (s : State) (o : Out) (hK : Keeps s0 s) : Keeps s0 (State.send s o) := by
  unfold State.send
  repeat' first | (with_reducible first | exact hK | apply Keeps.ite) | with_reducible apply Keeps.upd

end Sys2Proof.Safety
end

