-- ==== Sys2Proof/Laws/KeepsOps.lean ====
section
/-! SUPPORT. Laws/KeepsOps.lean: the operations of Ops.lean keep the queue, the security version and the form of the memories. -/

namespace Sys2Proof.Safety

open Machine

theorem keeps_draw {s0 : State} (s : State) (hK : Keeps s0 s) : Keeps s0 (draw s).2 := by
  unfold draw
  repeat' first | (with_reducible first | exact hK) | with_reducible apply Keeps.upd

theorem keeps_drawBytes {s0 : State} (s : State) (n : Nat) (hK : Keeps s0 s) : Keeps s0 (drawBytes s n).2 := by
  unfold drawBytes
  repeat' first | (with_reducible first | exact hK) | with_reducible apply Keeps.upd

theorem keeps_rindStartRecord {s0 : State} (s : State) (hK : Keeps s0 s) : Keeps s0 (rindStartRecord s) := by
  unfold rindStartRecord
  repeat' first | (with_reducible first | exact hK | apply keeps_onRind)

theorem keeps_rindTrigger {s0 : State} (s : State) (hK : Keeps s0 s) : Keeps s0 (rindTrigger s) := by
  unfold rindTrigger
  repeat' first | (with_reducible first | exact hK | apply keeps_onRind | apply keeps_rindStartRecord | apply Keeps.ite)

theorem keeps_rindCount {s0 : State} (s : State) (id : Nat) (n : Nat) (hK : Keeps s0 s) : Keeps s0 (rindCount s id n) := by
  unfold rindCount
  repeat' first | (with_reducible first | exact hK | apply keeps_onRind | apply keeps_rindTrigger | apply Keeps.ite)

theorem keeps_rindBin {s0 : State} (s : State) (h : Nat) (b : Nat) (hK : Keeps s0 s) : Keeps s0 (rindBin s h b) := by
  unfold rindBin
  repeat' first | (with_reducible first | exact hK | apply keeps_onRind)

theorem keeps_rindMinute {s0 : State} (s : State) (h : Nat) (n : Nat) (hK : Keeps s0 s) : Keeps s0 (rindMinute s h n) := by
  unfold rindMinute
  repeat' first | (with_reducible first | exact hK | apply keeps_onRind)

theorem keeps_rindLog {s0 : State} (s : State) (typ : Nat) (island : Nat) (detail : List Byte) (hK : Keeps s0 s) : Keeps s0 (rindLog s typ island detail) := by
  unfold rindLog
  repeat' first | (with_reducible first | exact hK | apply keeps_onRind | apply keeps_rindCount | apply Keeps.ite)

theorem keeps_holdPost {s0 : State} (s : State) (p : HeldPost) (ask : Bool) (hK : Keeps s0 s) : Keeps s0 (holdPost s p ask) := by
  unfold holdPost
  repeat' first | (with_reducible first | exact hK | apply keeps_onHost | apply keeps_send | apply Keeps.ite)

theorem keeps_hostPost {s0 : State} (s : State) (fn : Nat) (pasid : Option Nat) (addr : Nat) (data : List Byte) (ro : Bool) (isEvent : Bool) (hK : Keeps s0 s) : Keeps s0 (hostPost s fn pasid addr data ro isEvent) := by
  unfold hostPost
  repeat' first | (with_reducible first | exact hK | apply keeps_holdPost | apply keeps_send | apply Keeps.ite)

theorem keeps_hostRead {s0 : State} (s : State) (fn : Nat) (pasid : Option Nat) (addr : Nat) (len : Nat) (use : ReadFor) (hK : Keeps s0 s) : Keeps s0 (hostRead s fn pasid addr len use) := by
  unfold hostRead
  repeat' first | (with_reducible first | exact hK | apply keeps_onHost | apply keeps_send | apply Keeps.ite)

theorem keeps_aerLog {s0 : State} (s : State) (fn : Nat) (k : AerKind) (hK : Keeps s0 s) : Keeps s0 (aerLog s fn k) := by
  unfold aerLog
  repeat' first | (with_reducible first | exact hK | apply keeps_onFn)

theorem keeps_hostAbortCount {s0 : State} (s : State) (hK : Keeps s0 s) : Keeps s0 (hostAbortCount s) := by
  unfold hostAbortCount
  repeat' first | (with_reducible first | exact hK | apply keeps_rindCount | apply keeps_rindMinute)

theorem keeps_msixSend {s0 : State} (s : State) (fn : Nat) (v : Nat) (hK : Keeps s0 s) : Keeps s0 (msixSend s fn v) := by
  unfold msixSend
  repeat' first | (with_reducible first | exact hK | apply keeps_holdPost | apply keeps_onFn | apply keeps_send | apply Keeps.ite)

theorem keeps_msixRaise {s0 : State} (s : State) (fn : Nat) (v : Nat) (hK : Keeps s0 s) : Keeps s0 (msixRaise s fn v) := by
  unfold msixRaise
  repeat' first | (with_reducible first | exact hK | apply keeps_msixSend | apply keeps_onFn | apply Keeps.ite)

theorem keeps_putEvent {s0 : State} (s : State) (fn : Nat) (kind : Nat) (part : Nat) (tenant : Nat) (payload : List Byte) (hK : Keeps s0 s) : Keeps s0 (putEvent s fn kind part tenant payload) := by
  unfold putEvent
  repeat' first | (with_reducible first | exact hK | apply keeps_hostPost | apply keeps_msixRaise | apply keeps_onBooth)

theorem keeps_loseEvent {s0 : State} (s : State) (fn : Nat) (hK : Keeps s0 s) : Keeps s0 (loseEvent s fn) := by
  unfold loseEvent
  repeat' first | (with_reducible first | exact hK | apply keeps_onBooth)

theorem keeps_raiseEvent {s0 : State} (s : State) (fn : Nat) (kind : Nat) (part : Nat) (tenant : Nat) (payload : List Byte) (hK : Keeps s0 s) : Keeps s0 (raiseEvent s fn kind part tenant payload) := by
  unfold raiseEvent
  repeat' first | (with_reducible first | exact hK | apply keeps_loseEvent | apply keeps_putEvent | apply Keeps.ite)

theorem keeps_raiseTenants {s0 : State} (s : State) (p : Nat) (kind : Nat) (payload : List Byte) (hK : Keeps s0 s) : Keeps s0 (raiseTenants s p kind payload) := by
  unfold raiseTenants
  repeat' first | (with_reducible first | exact hK | assumption | apply keeps_raiseEvent | apply Keeps.foldl) | (intro _; intros)

theorem keeps_playbillDraw {s0 : State} (s : State) (hK : Keeps s0 s) : Keeps s0 (playbillDraw s) := by
  unfold playbillDraw
  repeat' first | (with_reducible first | exact hK | apply keeps_onPlaybill | apply keeps_send)

theorem keeps_playbillStart {s0 : State} (s : State) (hK : Keeps s0 s) : Keeps s0 (playbillStart s) := by
  unfold playbillStart
  repeat' first | (with_reducible first | exact hK | apply keeps_onPlaybill | apply keeps_playbillDraw)

theorem keeps_setAlert {s0 : State} (s : State) (code : Nat) (hK : Keeps s0 s) : Keeps s0 (setAlert s code) := by
  unfold setAlert
  repeat' first | (with_reducible first | exact hK | apply keeps_onMgmt | apply keeps_onPlaybill | apply keeps_playbillStart | apply Keeps.ite)

theorem keeps_assertAlert {s0 : State} (s : State) (hK : Keeps s0 s) : Keeps s0 (assertAlert s) := by
  unfold assertAlert
  repeat' first | (with_reducible first | exact hK | apply keeps_onMgmt)

theorem keeps_writeRecord {s0 : State} (s : State) (fn : Nat) (rcd : List Byte) (signal : Bool) (hK : Keeps s0 s) : Keeps s0 (writeRecord s fn rcd signal) := by
  unfold writeRecord
  repeat' first | (with_reducible first | exact hK | apply keeps_hostPost | apply keeps_msixRaise | apply keeps_onBooth | apply Keeps.ite)

theorem keeps_endOne {s0 : State} (s : State) (fn : Nat) (c : OutCmd) (st : Status) (r : Report) (hK : Keeps s0 s) : Keeps s0 (endOne s fn c st r) := by
  unfold endOne
  repeat' first | (with_reducible first | exact hK | apply keeps_onBooth | apply keeps_writeRecord | apply Keeps.ite)

theorem keeps_finish {s0 : State} (s : State) (fn : Nat) (id : Nat) (st : Status) (r : Report) (hK : Keeps s0 s) : Keeps s0 (finish s fn id st r) := by
  unfold finish
  repeat' first | (with_reducible first | exact hK | assumption | apply keeps_endOne | apply Keeps.foldl) | split | (intro _; intros)

theorem keeps_writeHeld {s0 : State} (s : State) (fn : Nat) (hK : Keeps s0 s) : Keeps s0 (writeHeld s fn) := by
  unfold writeHeld
  repeat' first | (with_reducible first | exact hK | assumption | apply keeps_onBooth | apply keeps_writeRecord | apply Keeps.foldl | apply Keeps.ite) | (intro _; intros)

end Sys2Proof.Safety
end

