-- ==== Sys2Proof/Laws/KeepsSpace.lean ====
section
/-! SUPPORT. Laws/KeepsSpace.lean: the operations of Space.lean keep the queue, the security version and the form of the memories. -/

namespace Sys2Proof.Safety

open Machine

/-- Writing one octet of device memory keeps the form of the memories. -/

theorem setByte_wf (m : MemSys) (a : Nat) (b : Byte) :
    (memWf m.bytes = true → memWf (setByte m a b).bytes = true) ∧ (wordWf m.troupe = true → wordWf (setByte m a b).troupe = true)
      ∧ (wordWf m.im = true → wordWf (setByte m a b).im = true) := by
  unfold setByte
  split <;> exact ⟨fun h => by first | exact h | exact memWf_memSet _ _ _ h, fun h => by first | exact h | exact wordWf_wordSet _ _ _ h,
    fun h => by first | exact h | exact wordWf_wordSet _ _ _ h⟩

/-- Writing octets of device memory keeps the form of the memories. -/

theorem setBytes_wf (d : List Byte) : ∀ (m : MemSys) (a : Nat),
    (memWf m.bytes = true → memWf (setBytes m a d).bytes = true) ∧ (wordWf m.troupe = true → wordWf (setBytes m a d).troupe = true)
      ∧ (wordWf m.im = true → wordWf (setBytes m a d).im = true) := by
  induction d with
  | nil => exact fun m a => ⟨id, id, id⟩
  | cons b bs ih =>
    intro m a
    have h := setByte_wf m a b
    have g := ih (setByte m a b) (a + 1)
    exact ⟨fun x => g.1 (h.1 x), fun x => g.2.1 (h.2.1 x), fun x => g.2.2 (h.2.2 x)⟩

theorem keeps_memError {s0 : State} (s : State) (a : Nat) (master : Nat) (hK : Keeps s0 s) : Keeps s0 (memError s a master) := by
  unfold memError
  repeat' first | (with_reducible first | exact hK | apply keeps_onTarget | apply keeps_raiseEvent | apply keeps_raiseTenants | apply keeps_rindCount | apply keeps_rindLog) | split

theorem keeps_memLoad {s0 : State} (s : State) (a : Nat) (n : Nat) (master : Nat) (hK : Keeps s0 s) : Keeps s0 (memLoad s a n master).2.2 := by
  unfold memLoad
  repeat' first | (with_reducible first | exact hK | apply keeps_memError) | split

theorem keeps_memStore {s0 : State} (s : State) (a : Nat) (d : List Byte) (master : Nat) (hK : Keeps s0 s) :
    Keeps s0 (memStore s a d master).2 := by
  unfold memStore; try dsimp only
  split
  · exact hK
  · split
    · exact keeps_memError _ _ _ hK
    · have h := setBytes_wf d s.mem a
      dsimp only
      refine keeps_onMem _ _ hK ?_ ?_ ?_
      · exact h.1
      · exact h.2.1
      · exact h.2.2

theorem keeps_mwAnswer {s0 : State} (s : State) (t : Nat) (master : Nat) (st : Status) (data : List Byte) (hK : Keeps s0 s) : Keeps s0 (mwAnswer s t master st data) := by
  unfold mwAnswer
  repeat' first | (with_reducible first | exact hK | apply keeps_onTarget)

theorem keeps_denyCount {s0 : State} (s : State) (master : Nat) (p : Nat) (t : Nat) (a : Nat) (hK : Keeps s0 s) : Keeps s0 (denyCount s master p t a) := by
  unfold denyCount
  repeat' first | (with_reducible first | exact hK | apply keeps_onMem | apply keeps_onTarget | apply keeps_raiseEvent | apply Keeps.ite) | exact id

theorem keeps_refuseCount {s0 : State} (s : State) (master : Nat) (w : Actor) (a : Nat) (st : Status) (hK : Keeps s0 s) : Keeps s0 (refuseCount s master w a st) := by
  unfold refuseCount
  repeat' first | (with_reducible first | exact hK | apply keeps_denyCount | apply keeps_onTarget) | split

theorem keeps_tpPump {s0 : State} (s : State) (p : Nat) (hK : Keeps s0 s) : Keeps s0 (tpPump s p) := by
  unfold tpPump
  repeat' first | (with_reducible first | exact hK | apply keeps_onTp | apply keeps_send | apply Keeps.foldl | apply Keeps.ite)

theorem keeps_tpEnqueue {s0 : State} (s : State) (p : Nat) (m : TpMsg) (use : TpUse) (hK : Keeps s0 s) : Keeps s0 (tpEnqueue s p m use) := by
  unfold tpEnqueue
  repeat' first | (with_reducible first | exact hK | apply keeps_onTp | apply keeps_tpPump)

theorem keeps_tpControl {s0 : State} (s : State) (p : Nat) (m : TpMsg) (hK : Keeps s0 s) : Keeps s0 (tpControl s p m) := by
  unfold tpControl
  repeat' first | (with_reducible first | exact hK | apply keeps_onTp | apply keeps_tpPump | apply Keeps.ite)

theorem keeps_storeOne {s0 : State} (s : State) (master : Nat) (w : Actor) (a : Nat) (d : List Byte) (use : TpUse) (hK : Keeps s0 s) : Keeps s0 (storeOne s master w a d use).2.1 := by
  unfold storeOne
  repeat' first | (with_reducible first | exact hK | apply keeps_hostPost | apply keeps_memStore | apply keeps_refuseCount | apply keeps_tpEnqueue) | split

theorem keeps_storeAll {s0 : State} (s : State) (master : Nat) (w : Actor) (use : TpUse) (a : Nat) (d : List Byte) (hK : Keeps s0 s) : Keeps s0 (storeAll s master w use a d).2.2.1 := by
  unfold storeAll
  repeat' first | (with_reducible first | exact hK | assumption | apply keeps_storeOne | apply Keeps.foldl_snd_snd_fst) | split | (intro _; intros)

theorem keeps_loadAll {s0 : State} (s : State) (master : Nat) (w : Actor) (a : Nat) (n : Nat) (ext : List Byte) (hK : Keeps s0 s) : Keeps s0 (loadAll s master w a n ext).2.2.2 := by
  unfold loadAll; try dsimp only
  repeat' first | (with_reducible first | exact hK | assumption | apply keeps_memLoad | apply keeps_refuseCount | apply Keeps.foldl_snd_snd_snd) | split | (intro _; intros)

theorem keeps_atomicAt {s0 : State} (s : State) (master : Nat) (w : Actor) (a : Nat) (f : Nat → Nat) (hK : Keeps s0 s) : Keeps s0 (atomicAt s master w a f).2.2 := by
  unfold atomicAt; try dsimp only
  repeat' first | (with_reducible first | exact hK | apply keeps_memLoad | apply keeps_memStore | apply keeps_refuseCount) | split

end Sys2Proof.Safety
end

