-- ==== Sys2Proof/Laws/KeepsEpochs.lean ====
section
/-! SUPPORT. Laws/KeepsEpochs.lean: the operations of Epochs.lean keep the queue, the security version and the form of the memories. -/

namespace Sys2Proof.Safety

open Machine

theorem keeps_commitPart {s0 : State} (s : State) (old : Cfg) (p : Nat) (hK : Keeps s0 s) : Keeps s0 (commitPart s old p) := by
  unfold commitPart
  repeat' first | (with_reducible first | exact hK | apply keeps_onPart)

theorem keeps_commitEpoch {s0 : State} (s : State) (p : Nat) (f : Cfg → Cfg) (hK : Keeps s0 s) : Keeps s0 (commitEpoch s p f) := by
  unfold commitEpoch
  repeat' first | (with_reducible first | exact hK | apply keeps_commitPart | apply keeps_onCfg)

theorem keeps_commitAll {s0 : State} (s : State) (f : Cfg → Cfg) (hK : Keeps s0 s) : Keeps s0 (commitAll s f) := by
  unfold commitAll
  repeat' first | (with_reducible first | exact hK | assumption | apply keeps_commitPart | apply keeps_onCfg | apply Keeps.foldl) | (intro _; intros)

theorem keeps_shareUpdate {s0 : State} (s : State) (vf : Nat) (attached : Bool) (hK : Keeps s0 s) : Keeps s0 (shareUpdate s vf attached) := by
  unfold shareUpdate
  repeat' first | (with_reducible first | exact hK | apply keeps_hostPost | apply keeps_onFn | apply Keeps.ite)

theorem keeps_shareUpdateAll {s0 : State} (s : State) (p : Nat) (hK : Keeps s0 s) : Keeps s0 (shareUpdateAll s p) := by
  unfold shareUpdateAll
  repeat' first | (with_reducible first | exact hK | assumption | apply keeps_shareUpdate | apply Keeps.foldl) | (intro _; intros)

theorem keeps_shareResize {s0 : State} (s : State) (p : Nat) (hK : Keeps s0 s) : Keeps s0 (shareResize s p) := by
  unfold shareResize
  repeat' first | (with_reducible first | exact hK | apply keeps_raiseTenants | apply keeps_shareUpdateAll)

theorem keeps_resizeEnd {s0 : State} (s : State) (r : Resize) (st : Status) (stage : Nat) (hK : Keeps s0 s) : Keeps s0 (resizeEnd s r st stage) := by
  unfold resizeEnd
  repeat' first | (with_reducible first | exact hK | apply keeps_finish | apply keeps_shareResize | apply Keeps.foldl) | with_reducible apply Keeps.upd

theorem keeps_resizeDone {s0 : State} (s : State) (hK : Keeps s0 s) : Keeps s0 (resizeDone s) := by
  unfold resizeDone
  repeat' first | (with_reducible first | exact hK | apply keeps_resizeEnd) | split

theorem keeps_releaseDeferred {s0 : State} (s : State) (hK : Keeps s0 s) : Keeps s0 (releaseDeferred s) := by
  unfold releaseDeferred
  repeat' first | (with_reducible first | exact hK | assumption | apply keeps_finish | apply keeps_resizeDone | apply Keeps.foldl) | (intro _; intros) | with_reducible apply Keeps.upd

end Sys2Proof.Safety
end

