-- ==== Sys2Proof/Laws/KeepsBooths.lean ====
section
/-! SUPPORT. Laws/KeepsBooths.lean: the operations of Booths.lean keep the queue, the security version and the form of the memories. -/

namespace Sys2Proof.Safety

open Machine

theorem keeps_failFetch {s0 : State} (s : State) (i : CmdInfo) (h : Hdr) (st : Status) (hK : Keeps s0 s) : Keeps s0 (failFetch s i h st) := by
  unfold failFetch
  repeat' first | (with_reducible first | exact hK | apply keeps_onBooth | apply keeps_writeRecord)

theorem keeps_fetchOne {s0 : State} (s : State) (i : CmdInfo) (h : Hdr) (arg : Nat) (hK : Keeps s0 s) : Keeps s0 (fetchOne s i h arg) := by
  unfold fetchOne
  repeat' first | (with_reducible first | exact hK | apply keeps_failFetch | apply keeps_onBooth) | split | with_reducible apply Keeps.upd

theorem keeps_markCmd {s0 : State} (s : State) (fn : Nat) (id : Nat) (st : CmdState) (hK : Keeps s0 s) : Keeps s0 (markCmd s fn id st) := by
  unfold markCmd
  repeat' first | (with_reducible first | exact hK | apply keeps_onBooth)

theorem keeps_applyCmd {s0 : State} (i : CmdInfo) (h : Hdr) (checks : State → List (Bool × Status)) (eff : State → Applied) (s : State)
    (hK : Keeps s0 s) (hE : ∀ t, Keeps s0 t → KeepsA s0 (eff t)) : Keeps s0 (applyCmd i h checks eff s) := by
  unfold applyCmd; try dsimp only
  split
  · exact keeps_finish _ _ _ _ _ hK
  · have q := hE _ (keeps_markCmd _ h.fn h.id .applied hK)
    generalize eff (markCmd s h.fn h.id .applied) = r at q ⊢
    cases q with
    | done g => exact keeps_finish _ _ _ _ _ g
    | epoch g => exact keeps_releaseDeferred _ (Keeps.upd g)
    | device g => exact keeps_releaseDeferred _ (Keeps.upd g)
    | long g => exact g

theorem keeps_booth {s0 : State} (i : CmdInfo) (h : Hdr) (checks : State → List (Bool × Status)) (eff : State → Applied) (s : State)
    (hK : Keeps s0 s) (hE : ∀ t, Keeps s0 t → KeepsA s0 (eff t)) : Keeps s0 (booth i h checks eff s) := by
  unfold booth; try dsimp only
  have g := keeps_fetchOne (s.onBooth h.fn (fun b => { b with subProd := modAdd 32 b.subProd 1 })) i h 0 (keeps_onBooth _ _ _ hK)
  repeat' first | exact hK | exact g | exact keeps_applyCmd i h checks eff _ hK hE | exact keeps_applyCmd i h checks eff _ g hE | split

theorem keeps_boothStep {s0 : State} (i : CmdInfo) (h : Hdr) (checks : State → List (Bool × Status)) (eff : State → Applied) (s : State)
    (hK : Keeps s0 s) (hE : ∀ t, Keeps s0 t → KeepsA s0 (eff t)) : KeepsO s0 (boothStep i h checks eff s) :=
  KeepsO.next (keeps_booth i h checks eff s hK hE)

theorem keeps_writeOut {s0 : State} (h : Hdr) (blk : OutBlk) (d : List Byte) (s : State) (hK : Keeps s0 s) : KeepsA s0 (writeOut h blk d s) := by
  unfold writeOut
  repeat' first | (with_reducible first | exact hK | apply keeps_hostPost | apply KeepsA.done | apply KeepsA.ite)

theorem keeps_assignDoorbells {s0 : State} (fn : Nat) (ts : List DbTarget) : ∀ (s t : State) (l : List Nat), Keeps s0 s →
    assignDoorbells s fn ts = some (l, t) → Keeps s0 t := by
  induction ts with
  | nil => intro s t l hK h; cases h; exact hK
  | cons x xs ih =>
    intro s t l hK h
    unfold assignDoorbells at h
    split at h
    · cases h
    · split at h
      · cases h
      · rename_i g; cases h; exact ih _ _ _ (keeps_onFn _ _ _ hK) g

theorem keeps_giveDoorbells {s0 : State} (s : State) (fn : Nat) (ts : List DbTarget) (hK : Keeps s0 s) :
    Keeps s0 (giveDoorbells s fn ts).2 := by
  unfold giveDoorbells
  cases h : assignDoorbells s fn ts with
  | none => exact hK
  | some p => exact keeps_assignDoorbells fn ts s p.2 p.1 hK h

theorem keeps_dropDoorbells {s0 : State} (s : State) (fn : Nat) (p : DbTarget → Bool) (hK : Keeps s0 s) : Keeps s0 (dropDoorbells s fn p) := by
  unfold dropDoorbells
  repeat' first | (with_reducible first | exact hK | apply keeps_onFn)

end Sys2Proof.Safety
end

