-- ==== Sys2Proof/Laws/KeepsTx.lean ====
section
/-! SUPPORT. Laws/KeepsTx.lean: the operations of Tx.lean keep the queue, the security version and the form of the memories. -/

namespace Sys2Proof.Safety

open Machine

theorem keeps_dropCount {s0 : State} (s : State) (n : Nat) (k : Nat) (hK : Keeps s0 s) : Keeps s0 (dropCount s n k) := by
  unfold dropCount
  repeat' first | (with_reducible first | exact hK | apply keeps_onLPort)

theorem keeps_meterFrame {s0 : State} (s : State) (meter : Nat) (l : Nat) (yellow : Bool) (hK : Keeps s0 s) : Keeps s0 (meterFrame s meter l yellow).2.2.2 := by
  unfold meterFrame
  repeat' first | (with_reducible first | exact hK | apply keeps_onNet) | split

theorem keeps_ringFetch {s0 : State} (s : State) (fn : Nat) (pasid : Option Nat) (base : Nat) (size : Nat) (log2 : Nat) (prod : Nat) (cons : Nat) (use : ReadFor) (hK : Keeps s0 s) : Keeps s0 (ringFetch s fn pasid base size log2 prod cons use) := by
  unfold ringFetch
  repeat' first | (with_reducible first | exact hK | apply keeps_hostRead | apply Keeps.ite)

theorem keeps_txCancelEnd {s0 : State} (s : State) (q : Nat) (count : Nat) (sent : Bool) (hK : Keeps s0 s) : Keeps s0 (txCancelEnd s q count sent) := by
  unfold txCancelEnd
  repeat' first | (with_reducible first | exact hK | assumption | apply keeps_finish | apply keeps_onNet | apply Keeps.foldl) | (intro _; intros)

theorem keeps_txComplete {s0 : State} (s : State) (q : Nat) (use : TxUse) (sent : Bool) (reason : Nat) (time : Nat) (hK : Keeps s0 s) : Keeps s0 (txComplete s q use sent reason time) := by
  unfold txComplete
  repeat' first | (with_reducible first | exact hK | apply keeps_hostPost | apply keeps_msixRaise | apply keeps_onTxq | apply keeps_txCancelEnd) | split | with_reducible apply Keeps.upd

theorem keeps_gdpMarkLost {s0 : State} (s : State) (conn : Nat) (psn : Nat) (hK : Keeps s0 s) : Keeps s0 (gdpMarkLost s conn psn) := by
  unfold gdpMarkLost
  repeat' first | (with_reducible first | exact hK | apply keeps_onConn)

theorem keeps_txFlushOne {s0 : State} (s : State) (q : Nat) (f : TxFrame) (reason : Nat) (hK : Keeps s0 s) : Keeps s0 (txFlushOne s q f reason) := by
  unfold txFlushOne
  repeat' first | (with_reducible first | exact hK | assumption | apply keeps_gdpMarkLost | apply keeps_txComplete) | split

theorem keeps_txEnqueue {s0 : State} (s : State) (q : Nat) (use : TxUse) (d : List Byte) (hK : Keeps s0 s) : Keeps s0 (txEnqueue s q use d) := by
  unfold txEnqueue
  repeat' first | (with_reducible first | exact hK | apply keeps_dropCount | apply keeps_meterFrame | apply keeps_onTxq | apply keeps_txFlushOne | apply Keeps.ite) | split

theorem keeps_txDrain {s0 : State} (s : State) (q : Nat) (x0 : Nat) (hK : Keeps s0 s) : Keeps s0 (txDrain s q x0) := by
  induction x0 generalizing s q with
  | zero => exact hK
  | succ n ih =>
    unfold txDrain
    repeat' first | (with_reducible first | apply ih | exact hK | apply keeps_onTxq | apply keeps_txEnqueue | apply keeps_txFlushOne) | split

theorem keeps_txFetch {s0 : State} (s : State) (q : Nat) (hK : Keeps s0 s) : Keeps s0 (txFetch s q) := by
  unfold txFetch
  repeat' first | (with_reducible first | exact hK | apply keeps_ringFetch) | split

theorem keeps_txTake {s0 : State} (s : State) (q : Nat) (d : List Byte) (hK : Keeps s0 s) : Keeps s0 (txTake s q d) := by
  unfold txTake
  repeat' first | (with_reducible first | exact hK | apply keeps_hostRead | apply keeps_onTxq | apply Keeps.ite) | split

theorem keeps_txDescs {s0 : State} (s : State) (q : Nat) (d : List Byte) (hK : Keeps s0 s) : Keeps s0 (txDescs s q d) := by
  unfold txDescs
  repeat' first | (with_reducible first | exact hK | assumption | apply keeps_txDrain | apply keeps_txFetch | apply keeps_txTake | apply Keeps.foldl) | (intro _; intros)

theorem keeps_txBuffer {s0 : State} (s : State) (q : Nat) (count : Nat) (d : Option (List Byte)) (hK : Keeps s0 s) : Keeps s0 (txBuffer s q count d) := by
  unfold txBuffer
  repeat' first | (with_reducible first | exact hK | apply keeps_onTxq | apply keeps_txDrain)

theorem keeps_txFlushAll {s0 : State} (s : State) (q : Nat) (reason : Nat) (hK : Keeps s0 s) : Keeps s0 (txFlushAll s q reason).1 := by
  unfold txFlushAll
  repeat' first | (with_reducible first | exact hK | assumption | apply keeps_onTxq | apply keeps_txFlushOne | apply Keeps.foldl) | split | (intro _; intros)

theorem keeps_txFlushWaits {s0 : State} (s : State) (q : Nat) (reason : Nat) (hK : Keeps s0 s) : Keeps s0 (txFlushWaits s q reason).1 := by
  unfold txFlushWaits
  repeat' first | (with_reducible first | exact hK | assumption | apply keeps_onTxq | apply keeps_txFlushOne | apply Keeps.foldl) | split | (intro _; intros)

theorem keeps_linkDown {s0 : State} (s : State) (n : Nat) (hK : Keeps s0 s) : Keeps s0 (linkDown s n) := by
  unfold linkDown
  repeat' first | (with_reducible first | exact hK | assumption | apply keeps_onLPort | apply keeps_raiseEvent | apply keeps_txFlushAll | apply keeps_txFlushOne | apply Keeps.foldl) | split | (intro _; intros)

theorem keeps_linkUp {s0 : State} (s : State) (n : Nat) (hK : Keeps s0 s) : Keeps s0 (linkUp s n) := by
  unfold linkUp
  repeat' first | (with_reducible first | exact hK | assumption | apply keeps_onLPort | apply keeps_raiseEvent | apply Keeps.foldl | apply Keeps.ite) | (intro _; intros)

theorem keeps_netAdopt {s0 : State} (s : State) (hK : Keeps s0 s) : Keeps s0 (netAdopt s) := by
  unfold netAdopt
  repeat' first | (with_reducible first | exact hK | apply keeps_onNet)

end Sys2Proof.Safety
end

