-- ==== Sys2Proof/Laws/KeepsKeys.lean ====
section
/-! SUPPORT. Laws/KeepsKeys.lean: the operations of Keys.lean keep the queue, the security version and the form of the memories. -/

namespace Sys2Proof.Safety

open Machine

theorem keeps_keySpend {s0 : State} (s : State) (slot : Nat) (hK : Keeps s0 s) : Keeps s0 (keySpend s slot) := by
  unfold keySpend
  repeat' first | (with_reducible first | exact hK | apply keeps_onSlot)

theorem keeps_keyZeroise {s0 : State} (s : State) (slot : Nat) (hK : Keeps s0 s) : Keeps s0 (keyZeroise s slot) := by
  unfold keyZeroise
  repeat' first | (with_reducible first | exact hK | apply keeps_onSlot)

theorem keeps_execKeyLoad {s0 : State} (h : Hdr) (slot : Nat) (blk : HostBlk KeyBlock) (s : State) (hK : Keeps s0 s) : KeepsO s0 (execKeyLoad h slot blk s) := by
  unfold execKeyLoad
  repeat' first | (with_reducible first | exact hK | assumption | apply keeps_boothStep | apply keeps_onCipher | apply KeepsA.done) | (intro _; intros)

theorem keeps_execKeyInfo {s0 : State} (h : Hdr) (slot : Nat) (s : State) (hK : Keeps s0 s) : KeepsO s0 (execKeyInfo h slot s) := by
  unfold execKeyInfo
  repeat' first | (with_reducible first | exact hK | assumption | apply keeps_boothStep | apply KeepsA.done) | (intro _; intros)

theorem keeps_execKeyDestroy {s0 : State} (h : Hdr) (slot : Nat) (s : State) (hK : Keeps s0 s) : KeepsO s0 (execKeyDestroy h slot s) := by
  unfold execKeyDestroy
  repeat' first | (with_reducible first | exact hK | assumption | apply keeps_boothStep | apply keeps_keyZeroise | apply KeepsA.done) | (intro _; intros)

theorem keeps_execKeySlotScrubComplete {s0 : State} (slot : Nat) (s : State) (hK : Keeps s0 s) : KeepsO s0 (execKeySlotScrubComplete slot s) := by
  unfold execKeySlotScrubComplete
  repeat' first | (with_reducible first | exact hK | apply keeps_onCipher | apply KeepsO.next) | split

end Sys2Proof.Safety
end

