-- ==== Sys2Proof/Laws/KeepsActEvents.lean ====
section
/-! SUPPORT. Laws/KeepsActEvents.lean: the operations of ActEvents.lean keep the queue, the security version and the form of the memories. -/

namespace Sys2Proof.Safety

open Machine

theorem keeps_putAct {s0 : State} (s : State) (p : Nat) (e : Event) (hK : Keeps s0 s) : Keeps s0 (putAct s p e).2 := by
  unfold putAct; try dsimp only
  repeat' first | (with_reducible first | exact hK | apply keeps_onActs | apply keeps_onStat) | split

theorem keeps_dropReplies {s0 : State} (s : State) (hK : Keeps s0 s) : Keeps s0 (dropReplies s) := by
  unfold dropReplies
  repeat' first | (with_reducible first | exact hK | apply keeps_onSess)

theorem keeps_replyTo {s0 : State} (s : State) (id : Nat) (w0 : Word) (w1 : Word) (hK : Keeps s0 s) : Keeps s0 (replyTo s id w0 w1) := by
  unfold replyTo
  repeat' first | (with_reducible first | exact hK | apply keeps_dropReplies | apply keeps_onSess)

theorem keeps_reply {s0 : State} (s : State) (id : Nat) (status : Nat) (tag : Nat) (beyond : Nat) (nans : Nat) (hK : Keeps s0 s) : Keeps s0 (reply s id status tag beyond nans) := by
  unfold reply
  repeat' first | (with_reducible first | exact hK | apply keeps_replyTo)

theorem keeps_takeReq {s0 : State} (s : State) (r : PortReq) (hK : Keeps s0 s) : Keeps s0 (takeReq s r) := by
  unfold takeReq
  repeat' first | (with_reducible first | exact hK | apply keeps_onSess)

end Sys2Proof.Safety
end

