-- ==== Sys2Proof/Laws/KeepsSession.lean ====
section
/-! SUPPORT. Laws/KeepsSession.lean: the operations of Session.lean keep the queue, the security version and the form of the memories. -/

namespace Sys2Proof.Safety

open Machine

theorem keepsM_rxDeliver {s0 : State} (s : State) (ring : Nat) (lport : Nat) (d : List Byte) (rule : Nat) (colour : Nat) (isDefault : Bool) (time : Nat) (hK : Keeps s0 s) : KeepsM (fun x => x) s0 (rxDeliver s ring lport d rule colour isDefault time) := by
  unfold rxDeliver
  repeat' first | (with_reducible first | exact hK | apply keeps_dropCount | apply keeps_hostPost | apply keeps_msixRaise | apply keeps_onRing | exact KeepsM.none | apply KeepsM.some | apply KeepsM.ite) | split

theorem keeps_rxDeliver {s0 : State} {v0 : State} {s : State} {ring : Nat} {lport : Nat} {d : List Byte} {rule : Nat} {colour : Nat} {isDefault : Bool} {time : Nat} (hE : rxDeliver s ring lport d rule colour isDefault time = some v0) (hK : Keeps s0 s) : Keeps s0 v0 :=
  keepsM_rxDeliver s ring lport d rule colour isDefault time hK _ hE

theorem keeps_rxFetch {s0 : State} (s : State) (ring : Nat) (hK : Keeps s0 s) : Keeps s0 (rxFetch s ring) := by
  unfold rxFetch
  repeat' first | (with_reducible first | exact hK | apply keeps_ringFetch) | split

theorem keeps_sessCount {s0 : State} (s : State) (n : Nat) (k : Nat) (hK : Keeps s0 s) : Keeps s0 (sessCount s n k) := by
  unfold sessCount
  repeat' first | (with_reducible first | exact hK | apply keeps_onSession)

theorem keeps_resync {s0 : State} (s : State) (n : Nat) (c : SessCfg) (hK : Keeps s0 s) : Keeps s0 (resync s n c) := by
  unfold resync
  repeat' first | (with_reducible first | exact hK | apply keeps_onSession | apply keeps_putAct)

theorem keeps_jbBad {s0 : State} (s : State) (n : Nat) (k : Nat) (c : SessCfg) (hK : Keeps s0 s) : Keeps s0 (jbBad s n k c) := by
  unfold jbBad
  repeat' first | (with_reducible first | exact hK | apply keeps_onSession | apply keeps_resync | apply keeps_sessCount) | split | with_reducible apply Keeps.upd

theorem keeps_jbPlace {s0 : State} (s : State) (n : Nat) (c : SessCfg) (index : Nat) (ts : Nat) (pt : Nat) (marker : Bool) (d : List Byte) (hK : Keeps s0 s) : Keeps s0 (jbPlace s n c index ts pt marker d).2 := by
  unfold jbPlace; try dsimp only
  repeat' first | (with_reducible first | exact hK | apply keeps_jbBad | apply keeps_memStore | apply keeps_onSession | apply keeps_sessCount) | split

theorem keeps_sessFinal {s0 : State} (s : State) (n : Nat) (c : SessCfg) (index : Nat) (hdr : List Byte) (d : List Byte) (hK : Keeps s0 s) : Keeps s0 (sessFinal s n c index hdr d).2 := by
  unfold sessFinal; try dsimp only
  repeat' first | (with_reducible first | exact hK | apply keeps_jbPlace | apply keeps_onSession | apply keeps_sessCount) | split

theorem keeps_sessInbound {s0 : State} (s : State) (n : Nat) (lport : Nat) (c : SessCfg) (epoch : Nat) (colour : Nat) (d : List Byte) (time : Nat) (hK : Keeps s0 s) : Keeps s0 (sessInbound s n lport c epoch colour d time) := by
  unfold sessInbound
  repeat' first | (with_reducible first | exact hK | apply keeps_onCipher | apply keeps_sessCount | apply keeps_sessFinal | apply Keeps.ite | refine keeps_rxDeliver (by assumption) ?_) | split

theorem keeps_execCipherIntake {s0 : State} (p : Nat) (s : State) (hK : Keeps s0 s) : KeepsO s0 (execCipherIntake p s) := by
  unfold execCipherIntake
  repeat' first | (with_reducible first | exact hK | apply keeps_onCipher | apply KeepsO.next) | split

theorem keeps_authFail {s0 : State} (s : State) (n : Nat) (c : SessCfg) (hK : Keeps s0 s) : Keeps s0 (authFail s n c) := by
  unfold authFail
  repeat' first | (with_reducible first | exact hK | apply keeps_onSession | apply keeps_raiseEvent | apply keeps_sessCount | apply Keeps.ite) | split | with_reducible apply Keeps.upd

theorem keeps_execTagVerify {s0 : State} (k : Nat) (s : State) (hK : Keeps s0 s) : KeepsO s0 (execTagVerify k s) := by
  unfold execTagVerify
  repeat' first | (with_reducible first | exact hK | apply keeps_authFail | apply keeps_onCipher | apply keeps_sessFinal | apply KeepsO.next | apply KeepsO.ite) | split

theorem keeps_execReleaseComplete {s0 : State} (k : Nat) (s : State) (hK : Keeps s0 s) : KeepsO s0 (execReleaseComplete k s) := by
  unfold execReleaseComplete
  repeat' first | (with_reducible first | exact hK | apply keeps_onCipher | apply KeepsO.next) | split

theorem keeps_execGranuleScrubDone {s0 : State} (k : Nat) (s : State) (hK : Keeps s0 s) : KeepsO s0 (execGranuleScrubDone k s) := by
  unfold execGranuleScrubDone
  repeat' first | (with_reducible first | exact hK | apply keeps_onCipher | apply KeepsO.next) | split

theorem keeps_dropLate {s0 : State} (s : State) (n : Nat) (b : SessionBlock) (e : Nat) (k : Nat) (hK : Keeps s0 s) : Keeps s0 (dropLate s n b e k) := by
  unfold dropLate
  repeat' first | (with_reducible first | exact hK | assumption | apply keeps_onSession | apply keeps_sessCount | apply Keeps.foldl) | split | (intro _; intros)

theorem keeps_execFrameTick {s0 : State} (n : Nat) (s : State) (hK : Keeps s0 s) : KeepsO s0 (execFrameTick n s) := by
  unfold execFrameTick; try dsimp only
  repeat' first | (with_reducible first | exact hK | apply keeps_draw | apply keeps_dropLate | apply keeps_memLoad | apply keeps_onSession | apply keeps_putAct | apply KeepsO.next) | split

theorem keeps_execSendRequest {s0 : State} (s : State) (hK : Keeps s0 s) : KeepsO s0 (execSendRequest s) := by
  unfold execSendRequest
  repeat' first | (with_reducible first | exact hK | apply keeps_drawBytes | apply keeps_onSession | apply keeps_reply | apply keeps_sessCount | apply keeps_takeReq | apply keeps_txEnqueue | apply KeepsO.next | apply KeepsO.ite) | split

theorem keeps_execShiftRequest {s0 : State} (s : State) (hK : Keeps s0 s) : KeepsO s0 (execShiftRequest s) := by
  unfold execShiftRequest
  repeat' first | (with_reducible first | exact hK | apply keeps_onSession | apply keeps_reply | apply keeps_takeReq | apply KeepsO.next | apply KeepsO.ite) | split

theorem keeps_execNoteRequest {s0 : State} (s : State) (hK : Keeps s0 s) : KeepsO s0 (execNoteRequest s) := by
  unfold execNoteRequest
  repeat' first | (with_reducible first | exact hK | apply keeps_raiseEvent | apply keeps_reply | apply keeps_takeReq | apply KeepsO.next) | split

end Sys2Proof.Safety
end

