-- ==== Sys2Proof/Laws/KeepsRx.lean ====
section
/-! SUPPORT. Laws/KeepsRx.lean: the operations of Rx.lean keep the queue, the security version and the form of the memories. -/

namespace Sys2Proof.Safety

open Machine

theorem keeps_rxHand {s0 s t : State} {h : Held} (hE : rxHand s h = some t) (hK : Keeps s0 s) : Keeps s0 t := by
  unfold rxHand at hE
  split at hE
  · exact keeps_rxDeliver hE hK
  · repeat' split at hE
    all_goals cases hE
    exact keeps_sessInbound _ _ _ _ _ _ _ _ hK
  · split at hE <;> cases hE
    exact hK
  · cases hE
    exact hK

theorem keeps_pfcSend {s0 : State} (s : State) (lport : Nat) (prio : Nat) (pause : Bool) (hK : Keeps s0 s) : Keeps s0 (pfcSend s lport prio pause) := by
  unfold pfcSend
  repeat' first | (with_reducible first | exact hK | apply keeps_onLPort | apply keeps_send)

theorem keeps_pfcXoff {s0 : State} (s : State) (lport : Nat) (prio : Nat) (hK : Keeps s0 s) : Keeps s0 (pfcXoff s lport prio) := by
  unfold pfcXoff
  repeat' first | (with_reducible first | exact hK | apply keeps_pfcSend | apply Keeps.ite)

theorem keeps_pfcXon {s0 : State} (s : State) (lport : Nat) (prio : Nat) (hK : Keeps s0 s) : Keeps s0 (pfcXon s lport prio) := by
  unfold pfcXon
  repeat' first | (with_reducible first | exact hK | apply keeps_pfcSend | apply Keeps.ite)

theorem keeps_ingressMark {s0 : State} (s : State) (port : Nat) (n : Nat) (hK : Keeps s0 s) : Keeps s0 (ingressMark s port n) := by
  unfold ingressMark
  repeat' first | (with_reducible first | exact hK | apply keeps_onNet)

theorem keeps_rxSteer {s0 : State} (s : State) (h : Held) (hK : Keeps s0 s) : Keeps s0 (rxSteer s h) := by
  unfold rxSteer; try dsimp only
  split
  · rename_i g
    split at g
    · cases g
    · exact keeps_rxHand g hK
  · exact Keeps.ite (keeps_pfcXoff _ _ _ (keeps_onNet _ _ hK)) (keeps_dropCount _ _ _ hK)

theorem keeps_execRxFrame {s0 : State} (lport : Nat) (d : List Byte) (fcsOk : Bool) (fecOk : Bool) (corrected : Nat) (s : State) (hK : Keeps s0 s) : KeepsO s0 (execRxFrame lport d fcsOk fecOk corrected s) := by
  unfold execRxFrame; try dsimp only
  repeat' first | (with_reducible first | exact hK | apply keeps_dropCount | apply keeps_ingressMark | apply keeps_meterFrame | apply keeps_onLPort | apply keeps_rindMinute | apply keeps_rxSteer | apply KeepsO.next | apply KeepsO.ite) | split

theorem keeps_pauseRx {s0 : State} (s : State) (lport : Nat) (prio : Nat) (quanta : Nat) (hK : Keeps s0 s) : Keeps s0 (pauseRx s lport prio quanta) := by
  unfold pauseRx
  repeat' first | (with_reducible first | exact hK | apply keeps_onLPort)

theorem keeps_execRxPfcFrame {s0 : State} (lport : Nat) (quanta : List (Nat × Nat)) (s : State) (hK : Keeps s0 s) : KeepsO s0 (execRxPfcFrame lport quanta s) := by
  unfold execRxPfcFrame
  repeat' first | (with_reducible first | exact hK | assumption | apply keeps_pauseRx | apply Keeps.foldl | apply KeepsO.next | apply KeepsO.ite) | (intro _; intros)

theorem keeps_execPfcPauseExpire {s0 : State} (lport : Nat) (prio : Nat) (s : State) (hK : Keeps s0 s) : KeepsO s0 (execPfcPauseExpire lport prio s) := by
  unfold execPfcPauseExpire
  repeat' first | (with_reducible first | exact hK | apply keeps_onLPort | apply KeepsO.next)

theorem keeps_execPfcRefresh {s0 : State} (lport : Nat) (prio : Nat) (s : State) (hK : Keeps s0 s) : KeepsO s0 (execPfcRefresh lport prio s) := by
  unfold execPfcRefresh
  repeat' first | (with_reducible first | exact hK | apply keeps_pfcSend | apply KeepsO.next | apply KeepsO.ite)

theorem keeps_execPauseWatchdog {s0 : State} (lport : Nat) (prio : Nat) (s : State) (hK : Keeps s0 s) : KeepsO s0 (execPauseWatchdog lport prio s) := by
  unfold execPauseWatchdog
  repeat' first | (with_reducible first | exact hK | apply keeps_onLPort | apply keeps_raiseEvent | apply keeps_rindCount | apply KeepsO.next | apply KeepsO.ite)

theorem keeps_execPauseQuietExpire {s0 : State} (lport : Nat) (prio : Nat) (s : State) (hK : Keeps s0 s) : KeepsO s0 (execPauseQuietExpire lport prio s) := by
  unfold execPauseQuietExpire
  repeat' first | (with_reducible first | exact hK | apply keeps_onLPort | apply KeepsO.next)

theorem keepsM_heldFirst {s0 : State} (s : State) (lport : Nat) (prio : Nat) (hK : Keeps s0 s) : KeepsM (fun x => x.2) s0 (heldFirst s lport prio) := by
  unfold heldFirst; try dsimp only
  repeat' first | (with_reducible first | exact hK | apply keeps_onNet | exact KeepsM.none | apply KeepsM.some) | split

theorem keeps_heldFirst {s0 : State} {v0 : Held} {v1 : State} {s : State} {lport : Nat} {prio : Nat} (hE : heldFirst s lport prio = some (v0, v1)) (hK : Keeps s0 s) : Keeps s0 v1 :=
  keepsM_heldFirst s lport prio hK _ hE

theorem keeps_execRxHoldRelease {s0 : State} (lport : Nat) (prio : Nat) (s : State) (hK : Keeps s0 s) : KeepsO s0 (execRxHoldRelease lport prio s) := by
  unfold execRxHoldRelease
  repeat' first | (with_reducible first | exact hK | apply keeps_pfcXon | apply KeepsO.next | refine keeps_heldFirst (by assumption) ?_ | refine keeps_rxHand (by assumption) ?_) | split

theorem keeps_execRxHoldMaxExpire {s0 : State} (lport : Nat) (prio : Nat) (s : State) (hK : Keeps s0 s) : KeepsO s0 (execRxHoldMaxExpire lport prio s) := by
  unfold execRxHoldMaxExpire
  repeat' first | (with_reducible first | exact hK | apply keeps_dropCount | apply keeps_pfcXon | apply KeepsO.next | refine keeps_heldFirst (by assumption) ?_) | split

end Sys2Proof.Safety
end

