-- ==== Sys2Proof/Laws/KeepsCarousel.lean ====
section
/-! SUPPORT. Laws/KeepsCarousel.lean: the operations of Carousel.lean keep the queue, the security version and the form of the memories. -/

namespace Sys2Proof.Safety

open Machine

theorem keeps_flushNever {s0 : State} (s : State) (c : Cfg) (q : Nat) (k : TxqCfg) (x0 : Nat) (hK : Keeps s0 s) : Keeps s0 (flushNever s c q k x0) := by
  induction x0 generalizing s c q k with
  | zero => exact hK
  | succ n ih =>
    unfold flushNever
    repeat' first | (with_reducible first | apply ih | exact hK | apply keeps_dropCount | apply keeps_onTxq | apply keeps_txFlushOne) | split

theorem keeps_grantFrame {s0 : State} (s : State) (q : Nat) (k : TxqCfg) (hK : Keeps s0 s) : Keeps s0 (grantFrame s q k) := by
  unfold grantFrame
  repeat' first | (with_reducible first | exact hK | apply keeps_onLPort | apply keeps_onNet | apply keeps_onTxq | apply keeps_send) | split

theorem keeps_execCarouselSelect {s0 : State} (lport : Nat) (s : State) (hK : Keeps s0 s) : KeepsO s0 (execCarouselSelect lport s) := by
  unfold execCarouselSelect; try dsimp only
  repeat' first | (with_reducible first | exact hK | assumption | apply keeps_flushNever | apply keeps_grantFrame | apply keeps_onLPort | apply keeps_onTxq | apply keeps_txDrain | apply Keeps.foldl | apply KeepsO.next) | split | (intro _; intros)

theorem keeps_execTxFrameEnd {s0 : State} (lport : Nat) (time : Nat) (s : State) (hK : Keeps s0 s) : KeepsO s0 (execTxFrameEnd lport time s) := by
  unfold execTxFrameEnd
  repeat' first | (with_reducible first | exact hK | apply keeps_onLPort | apply keeps_txComplete | apply KeepsO.next) | split

theorem keeps_execLinkDown {s0 : State} (lport : Nat) (s : State) (hK : Keeps s0 s) : KeepsO s0 (execLinkDown lport s) := by
  unfold execLinkDown
  repeat' first | (with_reducible first | exact hK | apply keeps_linkDown | apply KeepsO.next)

theorem keeps_execLinkUp {s0 : State} (lport : Nat) (s : State) (hK : Keeps s0 s) : KeepsO s0 (execLinkUp lport s) := by
  unfold execLinkUp
  repeat' first | (with_reducible first | exact hK | apply keeps_linkUp | apply KeepsO.next | apply KeepsO.ite)

theorem keeps_execGclCycleStart {s0 : State} (port : Nat) (s : State) (hK : Keeps s0 s) : KeepsO s0 (execGclCycleStart port s) := by
  unfold execGclCycleStart
  repeat' first | (with_reducible first | exact hK | apply keeps_onNet | apply KeepsO.next | apply KeepsO.ite) | split

theorem keeps_execBucketTick {s0 : State} (s : State) (hK : Keeps s0 s) : KeepsO s0 (execBucketTick s) := by
  unfold execBucketTick
  repeat' first | (with_reducible first | exact hK | apply keeps_onNet | apply KeepsO.next)

theorem keeps_execQueueSampleTick {s0 : State} (q : Nat) (s : State) (hK : Keeps s0 s) : KeepsO s0 (execQueueSampleTick q s) := by
  unfold execQueueSampleTick
  repeat' first | (with_reducible first | exact hK | apply keeps_hostPost | apply keeps_msixRaise | apply keeps_onNet | apply KeepsO.next) | split

end Sys2Proof.Safety
end

