-- ==== Sys2Proof/Laws/KeepsNetCmds.lean ====
section
/-! SUPPORT. Laws/KeepsNetCmds.lean: the operations of NetCmds.lean keep the queue, the security version and the form of the memories. -/

namespace Sys2Proof.Safety

open Machine

theorem keeps_execPortModeSet {s0 : State} (h : Hdr) (port : Nat) (mode : Nat) (s : State) (hK : Keeps s0 s) : KeepsO s0 (execPortModeSet h port mode s) := by
  unfold execPortModeSet
  repeat' first | (with_reducible first | exact hK | assumption | apply keeps_boothStep | apply keeps_commitAll | apply keeps_linkDown | apply keeps_send | apply Keeps.foldl | apply KeepsA.device) | (intro _; intros)

theorem keeps_execPortConfigSet {s0 : State} (h : Hdr) (p : PortConfig) (s : State) (hK : Keeps s0 s) : KeepsO s0 (execPortConfigSet h p s) := by
  unfold execPortConfigSet
  repeat' first | (with_reducible first | exact hK | assumption | apply keeps_boothStep | apply keeps_commitAll | apply KeepsA.device) | (intro _; intros)

theorem keeps_execVlanMapSet {s0 : State} (h : Hdr) (lport : Nat) (vid : Nat) (part : Nat) (s : State) (hK : Keeps s0 s) : KeepsO s0 (execVlanMapSet h lport vid part s) := by
  unfold execVlanMapSet
  repeat' first | (with_reducible first | exact hK | assumption | apply keeps_boothStep | apply keeps_commitAll | apply KeepsA.device) | (intro _; intros)

theorem keeps_execMacFilterSet {s0 : State} (h : Hdr) (lport : Nat) (list_ : Nat) (index : Nat) (valid : Bool) (mac : Nat) (s : State) (hK : Keeps s0 s) : KeepsO s0 (execMacFilterSet h lport list_ index valid mac s) := by
  unfold execMacFilterSet
  repeat' first | (with_reducible first | exact hK | assumption | apply keeps_boothStep | apply keeps_commitAll | apply KeepsA.device) | (intro _; intros)

theorem keeps_execRxringCreate {s0 : State} (h : Hdr) (r : RxRingCreate) (s : State) (hK : Keeps s0 s) : KeepsO s0 (execRxringCreate h r s) := by
  unfold execRxringCreate
  repeat' first | (with_reducible first | exact hK | assumption | apply keeps_boothStep | apply keeps_commitEpoch | apply keeps_giveDoorbells | apply keeps_onNet | apply KeepsA.epoch) | (intro _; intros)

theorem keeps_execRxringDestroy {s0 : State} (h : Hdr) (ring : Nat) (s : State) (hK : Keeps s0 s) : KeepsO s0 (execRxringDestroy h ring s) := by
  unfold execRxringDestroy
  repeat' first | (with_reducible first | exact hK | assumption | apply keeps_boothStep | apply keeps_commitEpoch | apply KeepsA.epoch) | (intro _; intros)

theorem keeps_execRxruleSet {s0 : State} (h : Hdr) (rule : Nat) (valid : Bool) (blk : HostBlk RxRule) (s : State) (hK : Keeps s0 s) : KeepsO s0 (execRxruleSet h rule valid blk s) := by
  unfold execRxruleSet
  repeat' first | (with_reducible first | exact hK | assumption | apply keeps_boothStep | apply keeps_commitEpoch | apply KeepsA.epoch) | (intro _; intros)

theorem keeps_execTxqCreate {s0 : State} (h : Hdr) (q : TxqCreate) (s : State) (hK : Keeps s0 s) : KeepsO s0 (execTxqCreate h q s) := by
  unfold execTxqCreate
  repeat' first | (with_reducible first | exact hK | assumption | apply keeps_boothStep | apply keeps_commitEpoch | apply keeps_giveDoorbells | apply keeps_onNet | apply KeepsA.epoch) | split | (intro _; intros)

theorem keeps_txqDestroy {s0 : State} (s : State) (q : Nat) (hK : Keeps s0 s) : Keeps s0 (txqDestroy s q) := by
  unfold txqDestroy
  repeat' first | (with_reducible first | exact hK | apply keeps_onNet | apply keeps_txFlushAll | apply keeps_txFlushWaits)

theorem keeps_execTxqDestroy {s0 : State} (h : Hdr) (q : Nat) (s : State) (hK : Keeps s0 s) : KeepsO s0 (execTxqDestroy h q s) := by
  unfold execTxqDestroy
  repeat' first | (with_reducible first | exact hK | assumption | apply keeps_boothStep | apply keeps_commitEpoch | apply keeps_txqDestroy | apply KeepsA.epoch) | (intro _; intros)

theorem keeps_execTxCancel {s0 : State} (h : Hdr) (q : Nat) (count : Nat) (s : State) (hK : Keeps s0 s) : KeepsO s0 (execTxCancel h q count s) := by
  unfold execTxCancel
  repeat' first | (with_reducible first | exact hK | assumption | apply keeps_boothStep | apply keeps_onNet | apply keeps_onTxq | apply keeps_txDrain | apply keeps_txFlushOne | apply KeepsA.done | apply KeepsA.long) | split | (intro _; intros)

theorem keeps_execQueueFlush {s0 : State} (h : Hdr) (q : Nat) (s : State) (hK : Keeps s0 s) : KeepsO s0 (execQueueFlush h q s) := by
  unfold execQueueFlush
  repeat' first | (with_reducible first | exact hK | assumption | apply keeps_boothStep | apply keeps_txFlushAll | apply keeps_txFlushWaits | apply KeepsA.done) | (intro _; intros)

theorem keeps_execMeterSet {s0 : State} (h : Hdr) (m : MeterSet) (s : State) (hK : Keeps s0 s) : KeepsO s0 (execMeterSet h m s) := by
  unfold execMeterSet
  repeat' first | (with_reducible first | exact hK | assumption | apply keeps_boothStep | apply keeps_commitEpoch | apply keeps_netAdopt | apply keeps_onNet | apply KeepsA.epoch) | (intro _; intros)

theorem keeps_execShaperSet {s0 : State} (h : Hdr) (shaper : Nat) (mode : Nat) (rate : Nat) (size : Nat) (s : State) (hK : Keeps s0 s) : KeepsO s0 (execShaperSet h shaper mode rate size s) := by
  unfold execShaperSet
  repeat' first | (with_reducible first | exact hK | assumption | apply keeps_boothStep | apply keeps_commitAll | apply keeps_commitEpoch | apply keeps_netAdopt | apply keeps_onNet | apply keeps_onTxq | apply KeepsA.ite | apply KeepsA.epoch | apply KeepsA.device) | (intro _; intros)

theorem keeps_execClassSet {s0 : State} (h : Hdr) (lport : Nat) (ws : List Nat) (s : State) (hK : Keeps s0 s) : KeepsO s0 (execClassSet h lport ws s) := by
  unfold execClassSet
  repeat' first | (with_reducible first | exact hK | assumption | apply keeps_boothStep | apply keeps_commitAll | apply KeepsA.device) | (intro _; intros)

theorem keeps_execGclSet {s0 : State} (h : Hdr) (port : Nat) (n : Nat) (cycle : Nat) (base : Nat) (blk : HostBlk (List GclEntry)) (s : State) (hK : Keeps s0 s) : KeepsO s0 (execGclSet h port n cycle base blk s) := by
  unfold execGclSet
  repeat' first | (with_reducible first | exact hK | assumption | apply keeps_boothStep | apply keeps_commitAll | apply keeps_onNet | apply KeepsA.device) | (intro _; intros)

theorem keeps_execQueueSampleSet {s0 : State} (h : Hdr) (x : SampleSet) (s : State) (hK : Keeps s0 s) : KeepsO s0 (execQueueSampleSet h x s) := by
  unfold execQueueSampleSet
  repeat' first | (with_reducible first | exact hK | assumption | apply keeps_boothStep | apply keeps_dropDoorbells | apply keeps_giveDoorbells | apply keeps_onNet | apply KeepsA.done) | split | (intro _; intros) | with_reducible apply Keeps.upd

theorem keeps_statsDone {s0 : State} (a : Applied) (clear : Bool) (f : State → State) (hA : KeepsA s0 a)
    (hF : ∀ s, Keeps s0 s → Keeps s0 (f s)) : KeepsA s0 (statsDone a clear f) := by
  unfold statsDone
  split
  · cases hA with
    | done h => exact KeepsA.done (Keeps.ite (hF _ h) h)
  · exact hA

theorem keeps_execQueueStats {s0 : State} (h : Hdr) (q : Nat) (clear : Bool) (blk : OutBlk) (s : State) (hK : Keeps s0 s) : KeepsO s0 (execQueueStats h q clear blk s) := by
  unfold execQueueStats
  repeat' first | (with_reducible first | exact hK | assumption | apply keeps_boothStep | apply keeps_onTxq | apply keeps_statsDone | apply keeps_writeOut) | (intro _; intros)

theorem keeps_execPortStats {s0 : State} (h : Hdr) (n : Nat) (clear : Bool) (blk : OutBlk) (s : State) (hK : Keeps s0 s) : KeepsO s0 (execPortStats h n clear blk s) := by
  unfold execPortStats
  repeat' first | (with_reducible first | exact hK | assumption | apply keeps_boothStep | apply keeps_onNet | apply keeps_statsDone | apply keeps_writeOut) | split | (intro _; intros)

theorem keeps_execGdpPortSet {s0 : State} (h : Hdr) (port : Nat) (meter : Nat) (s : State) (hK : Keeps s0 s) : KeepsO s0 (execGdpPortSet h port meter s) := by
  unfold execGdpPortSet
  repeat' first | (with_reducible first | exact hK | assumption | apply keeps_boothStep | apply keeps_commitEpoch | apply KeepsA.epoch) | (intro _; intros)

theorem keeps_netRetire {s0 : State} (s : State) (hK : Keeps s0 s) : Keeps s0 (netRetire s) := by
  unfold netRetire
  repeat' first | (with_reducible first | exact hK | apply keeps_onNet)

end Sys2Proof.Safety
end

