-- ==== Sys2Proof/Laws/KeepsGdp.lean ====
section
/-! SUPPORT. Laws/KeepsGdp.lean: the operations of Gdp.lean keep the queue, the security version and the form of the memories. -/

namespace Sys2Proof.Safety

open Machine

theorem keeps_gdpCount {s0 : State} (s : State) (n : Nat) (k : Nat) (hK : Keeps s0 s) : Keeps s0 (gdpCount s n k) := by
  unfold gdpCount
  repeat' first | (with_reducible first | exact hK | apply keeps_onConn)

theorem keeps_gdpRecord {s0 : State} (s : State) (n : Nat) (op : Nat) (msn : Nat) (tag : Nat) (status : Nat) (result : Nat) (signal : Bool) (hK : Keeps s0 s) : Keeps s0 (gdpRecord s n op msn tag status result signal) := by
  unfold gdpRecord
  repeat' first | (with_reducible first | exact hK | apply keeps_hostPost | apply keeps_msixRaise | apply keeps_onConn) | split

theorem keeps_gdpFinish {s0 : State} (s : State) (n : Nat) (o : GdpOp) (st : Status) (result : Nat) (hK : Keeps s0 s) : Keeps s0 (gdpFinish s n o st result) := by
  unfold gdpFinish
  repeat' first | (with_reducible first | exact hK | apply keeps_gdpRecord | apply keeps_onConn | apply Keeps.ite)

theorem keeps_gdpEvent {s0 : State} (s : State) (n : Nat) (c : ConnCfg) (st : Nat) (cause : Nat) (hK : Keeps s0 s) : Keeps s0 (gdpEvent s n c st cause) := by
  unfold gdpEvent
  repeat' first | (with_reducible first | exact hK | apply keeps_raiseEvent)

theorem keeps_gdpFail {s0 : State} (s : State) (n : Nat) (cause : Status) (hK : Keeps s0 s) : Keeps s0 (gdpFail s n cause) := by
  unfold gdpFail
  repeat' first | (with_reducible first | exact hK | assumption | apply keeps_gdpEvent | apply keeps_gdpFinish | apply keeps_gdpRecord | apply keeps_onConn | apply keeps_rindCount | apply Keeps.foldl) | split | (intro _; intros)

theorem keeps_gdpEmit {s0 : State} (s : State) (n : Nat) (c : ConnCfg) (path : Nat) (use : TxUse) (hdr : List Byte) (body : List Byte) (isData : Bool) (hK : Keeps s0 s) : Keeps s0 (gdpEmit s n c path use hdr body isData) := by
  unfold gdpEmit
  repeat' first | (with_reducible first | exact hK | apply keeps_drawBytes | apply keeps_gdpFail | apply keeps_onSlot | apply keeps_txEnqueue | apply Keeps.ite) | split

theorem keeps_gdpTransmit {s0 : State} (s : State) (n : Nat) (c : ConnCfg) (x : GdpSent) (ackReq : Bool) (hK : Keeps s0 s) : Keeps s0 (gdpTransmit s n c x ackReq) := by
  unfold gdpTransmit
  repeat' first | (with_reducible first | exact hK | apply keeps_gdpEmit | apply keeps_onConn)

theorem keeps_gdpNew {s0 : State} (s : State) (n : Nat) (c : ConnCfg) (g : GdpConn) (j : GdpJob) (hK : Keeps s0 s) : Keeps s0 (gdpNew s n c g j) := by
  unfold gdpNew
  repeat' first | (with_reducible first | exact hK | apply keeps_gdpTransmit | apply keeps_onConn)

theorem keeps_gdpResend {s0 : State} (s : State) (n : Nat) (c : ConnCfg) (x0 : Nat) (hK : Keeps s0 s) : Keeps s0 (gdpResend s n c x0) := by
  induction x0 generalizing s n c with
  | zero => exact hK
  | succ n ih =>
    unfold gdpResend
    repeat' first | (with_reducible first | apply ih | exact hK | apply keeps_gdpCount | apply keeps_gdpFail | apply keeps_gdpTransmit | apply keeps_onConn) | split

theorem keeps_gdpSendClose {s0 : State} (s : State) (n : Nat) (c : ConnCfg) (hK : Keeps s0 s) : Keeps s0 (gdpSendClose s n c) := by
  unfold gdpSendClose
  repeat' first | (with_reducible first | exact hK | apply keeps_dropDoorbells | apply keeps_gdpEmit | apply keeps_gdpEvent | apply keeps_onConn | apply Keeps.ite) | with_reducible apply Keeps.upd

theorem keeps_gdpDrain {s0 : State} (s : State) (n : Nat) (hK : Keeps s0 s) : Keeps s0 (gdpDrain s n) := by
  unfold gdpDrain
  repeat' first | (with_reducible first | exact hK | apply keeps_gdpNew | apply keeps_gdpResend | apply keeps_gdpSendClose | apply keeps_onConn | apply Keeps.ite) | split

theorem keeps_gdpAck {s0 : State} (s : State) (n : Nat) (echo : Nat × Nat × Bool × Nat) (hK : Keeps s0 s) : Keeps s0 (gdpAck s n echo) := by
  unfold gdpAck
  repeat' first | (with_reducible first | exact hK | apply keeps_gdpEmit | apply keeps_onConn) | split

theorem keeps_gdpAccepted {s0 : State} (s : State) (n : Nat) (h : GdpHdr) (now_ : Bool) (hK : Keeps s0 s) : Keeps s0 (gdpAccepted s n h now_) := by
  unfold gdpAccepted
  repeat' first | (with_reducible first | exact hK | apply keeps_gdpAck | apply keeps_onConn | apply Keeps.ite)

theorem keeps_compAdd {s0 : State} (s : State) (n : Nat) (msn : Nat) (status : Nat) (hK : Keeps s0 s) : Keeps s0 (compAdd s n msn status) := by
  unfold compAdd
  repeat' first | (with_reducible first | exact hK | apply keeps_onConn)

theorem keeps_gdpComp {s0 : State} (s : State) (n : Nat) (msn : Nat) (status : Nat) (hK : Keeps s0 s) : Keeps s0 (gdpComp s n msn status) := by
  unfold gdpComp
  repeat' first | (with_reducible first | exact hK | apply keeps_compAdd | apply keeps_gdpAck)

theorem keeps_gdpMark {s0 : State} (s : State) (n : Nat) (psn : Nat) (hK : Keeps s0 s) : Keeps s0 (gdpMark s n psn) := by
  unfold gdpMark
  repeat' first | (with_reducible first | exact hK | apply keeps_onConn)

theorem keeps_gdpAdmit {s0 : State} (s : State) (h : GdpHdr) (isData : Bool) (pay : List Byte) (hK : Keeps s0 s) : Keeps s0 (gdpAdmit s h isData pay).2 := by
  unfold gdpAdmit; try dsimp only
  repeat' first | (with_reducible first | exact hK | apply keeps_gdpCount | apply keeps_onConn) | split

theorem keeps_gdpOpen {s0 : State} (s : State) (n : Nat) (c : ConnCfg) (hK : Keeps s0 s) : Keeps s0 (gdpOpen s n c) := by
  unfold gdpOpen
  repeat' first | (with_reducible first | exact hK | apply keeps_gdpEvent | apply keeps_onConn | apply Keeps.ite)

theorem keeps_gdpTrack_none {s0 t s : State} {h : GdpHdr} (hE : gdpTrack s h = (none, t)) (hK : Keeps s0 s) : Keeps s0 t := by
  unfold gdpTrack at hE; dsimp only at hE
  split at hE
  · cases hE; exact keeps_gdpCount _ _ _ hK
  · split at hE
    · cases hE; apply keeps_gdpAck; apply keeps_gdpCount; split
      · apply keeps_onConn; exact hK
      · exact hK
    · cases hE

theorem keeps_gdpTrack_some {s0 t u s : State} {h : GdpHdr} (hE : gdpTrack s h = (some t, u)) (hK : Keeps s0 s) : Keeps s0 t := by
  unfold gdpTrack at hE; dsimp only at hE
  split at hE
  · cases hE
  · split at hE
    · cases hE
    · cases hE; exact hK

theorem keeps_gdpCover {s0 : State} (s : State) (h : GdpHdr) (op : Nat) (status : Status) (writes : Nat) (hK : Keeps s0 s) : Keeps s0 (gdpCover s h op status writes) := by
  unfold gdpCover
  repeat' first | (with_reducible first | exact hK | apply keeps_onConn)

theorem keeps_gdpPlace {s0 : State} (s : State) (n : Nat) (c : ConnCfg) (kind : Nat) (msn : Nat) (a : Nat) (d : List Byte) (hK : Keeps s0 s) : Keeps s0 (gdpPlace s n c kind msn a d).2.2 := by
  unfold gdpPlace
  repeat' first | (with_reducible first | exact hK | apply keeps_storeAll) | split

theorem keeps_gdpReadDone {s0 : State} (s : State) (n : Nat) (c : ConnCfg) (msn : Nat) (hK : Keeps s0 s) : Keeps s0 (gdpReadDone s n c msn) := by
  unfold gdpReadDone
  repeat' first | (with_reducible first | exact hK | apply keeps_gdpFinish | apply keeps_onConn) | split | with_reducible apply Keeps.upd

theorem keeps_gdpRead {s0 : State} (s : State) (c : ConnCfg) (a : Nat) (len : Nat) (ext : List Byte) (hK : Keeps s0 s) : Keeps s0 (gdpRead s c a len ext).2.2 := by
  unfold gdpRead
  repeat' first | (with_reducible first | exact hK | apply keeps_loadAll)

theorem keeps_gdpWriteAnswered {s0 : State} (s : State) (n : Nat) (kind : Nat) (msn : Nat) (st : Status) (hK : Keeps s0 s) : Keeps s0 (gdpWriteAnswered s n kind msn st) := by
  unfold gdpWriteAnswered
  repeat' first | (with_reducible first | exact hK | apply keeps_gdpDrain | apply keeps_gdpReadDone | apply keeps_onConn) | split

theorem keeps_gdpAtomicAnswered {s0 : State} (s : State) (n : Nat) (msn : Nat) (r : Sum Nat Status) (hK : Keeps s0 s) : Keeps s0 (gdpAtomicAnswered s n msn r) := by
  unfold gdpAtomicAnswered
  repeat' first | (with_reducible first | exact hK | apply keeps_gdpComp | apply keeps_gdpDrain | apply keeps_onConn) | split

end Sys2Proof.Safety
end

