-- ==== Sys2Proof/Laws/KeepsGdpRows.lean ====
section
/-! SUPPORT. Laws/KeepsGdpRows.lean: the operations of GdpRows.lean keep the queue, the security version and the form of the memories. -/

namespace Sys2Proof.Safety

open Machine

theorem keeps_gdpFetch {s0 : State} (s : State) (n : Nat) (hK : Keeps s0 s) : Keeps s0 (gdpFetch s n) := by
  unfold gdpFetch
  repeat' first | (with_reducible first | exact hK | apply keeps_ringFetch) | split

theorem keeps_gdpOpRead {s0 : State} (s : State) (n : Nat) (d : GdpDesc) (hK : Keeps s0 s) : Keeps s0 (gdpOpRead s n d) := by
  unfold gdpOpRead
  repeat' first | (with_reducible first | exact hK | apply keeps_gdpRecord | apply keeps_onConn) | split | with_reducible apply Keeps.upd

theorem keeps_gdpOpsRead {s0 : State} (s : State) (n : Nat) (d : List Byte) (hK : Keeps s0 s) : Keeps s0 (gdpOpsRead s n d) := by
  unfold gdpOpsRead
  repeat' first | (with_reducible first | exact hK | assumption | apply keeps_gdpFetch | apply keeps_gdpOpRead | apply Keeps.foldl) | (intro _; intros)

theorem keeps_gdpRecvsRead {s0 : State} (s : State) (n : Nat) (d : List Byte) (hK : Keeps s0 s) : Keeps s0 (gdpRecvsRead s n d) := by
  unfold gdpRecvsRead
  repeat' first | (with_reducible first | exact hK | assumption | apply keeps_gdpFetch | apply keeps_onConn | apply Keeps.foldl) | (intro _; intros)

theorem keeps_gdpStart {s0 : State} (s : State) (n : Nat) (c : ConnCfg) (d : GdpDesc) (internal : Bool) (data : List Byte) (region : Nat) (rkey : Nat) (msgLen : Nat) (offset : Nat) (hK : Keeps s0 s) : Keeps s0 (gdpStart s n c d internal data region rkey msgLen offset) := by
  unfold gdpStart
  repeat' first | (with_reducible first | exact hK | apply keeps_gdpDrain | apply keeps_gdpNew | apply keeps_onConn)

theorem keeps_execGdpOpStart {s0 : State} (n : Nat) (ext : List Byte) (s : State) (hK : Keeps s0 s) : KeepsO s0 (execGdpOpStart n ext s) := by
  unfold execGdpOpStart
  repeat' first | (with_reducible first | exact hK | apply keeps_gdpRead | apply keeps_gdpRecord | apply keeps_gdpStart | apply keeps_onConn | apply KeepsO.next | apply KeepsO.ite) | split

theorem keeps_gdpFresh {s0 : State} (c : ConnCfg) (d : List Byte) (r : Option State × State) (h1 : ∀ t, r = (none, t) → Keeps s0 t)
    (h2 : ∀ t u, r = (some t, u) → Keeps s0 t) : KeepsS s0 (gdpFresh c d r) := by
  obtain ⟨_ | t, u⟩ := r
  · exact .inr (h1 u rfl)
  · exact .inl (h2 t u rfl)

theorem keeps_gdpAdmitted {s0 : State} (h : GdpHdr) (r : Option (ConnCfg × List Byte) × State) (hK : Keeps s0 r.2) :
    KeepsS s0 (gdpAdmitted h r) := by
  obtain ⟨_ | ⟨c, d⟩, u⟩ := r
  · exact .inr hK
  · have k := keeps_gdpOpen u h.dstConn c hK
    exact keeps_gdpFresh c d _ (fun _ e => keeps_gdpTrack_none e k) (fun _ _ e => keeps_gdpTrack_some e k)

theorem keeps_gdpData {s0 : State} (s : State) (h : GdpHdr) (pay : List Byte) (hK : Keeps s0 s) : KeepsS s0 (gdpData s h pay) :=
  keeps_gdpAdmitted h _ (keeps_gdpAdmit s h true pay hK)

theorem keeps_gdpPlaced {s0 : State} (s : State) (h : GdpHdr) (c : ConnCfg) (op : Nat) (status : Status) (writes : Nat) (hK : Keeps s0 s) : Keeps s0 (gdpPlaced s h c op status writes) := by
  unfold gdpPlaced
  repeat' first | (with_reducible first | exact hK | apply keeps_gdpAccepted | apply keeps_gdpCover | apply keeps_gdpMark)

theorem keeps_execGdpWrite {s0 : State} (h : GdpHdr) (pay : List Byte) (s : State) (hK : Keeps s0 s) : KeepsO s0 (execGdpWrite h pay s) := by
  unfold execGdpWrite
  repeat' first | (with_reducible first | exact hK | apply keeps_gdpCount | apply keeps_gdpData | apply keeps_gdpDrain | apply keeps_gdpPlace | apply keeps_gdpPlaced | apply KeepsO.next | apply KeepsO.ite | refine KeepsS.of_inl (by assumption) ?_ | refine KeepsS.of_inr (by assumption) ?_) | split

theorem keeps_execGdpSend {s0 : State} (h : GdpHdr) (pay : List Byte) (s : State) (hK : Keeps s0 s) : KeepsO s0 (execGdpSend h pay s) := by
  unfold execGdpSend
  repeat' first | (with_reducible first | exact hK | apply keeps_gdpCount | apply keeps_gdpData | apply keeps_gdpDrain | apply keeps_gdpPlace | apply keeps_gdpPlaced | apply KeepsO.next | apply KeepsO.ite | refine KeepsS.of_inl (by assumption) ?_ | refine KeepsS.of_inr (by assumption) ?_) | split

theorem keeps_gdpSingle {s0 : State} (s : State) (h : GdpHdr) (now_ : Bool) (hK : Keeps s0 s) : Keeps s0 (gdpSingle s h now_) := by
  unfold gdpSingle
  repeat' first | (with_reducible first | exact hK | apply keeps_gdpAccepted | apply keeps_gdpMark)

theorem keeps_gdpRefuse {s0 : State} (s : State) (h : GdpHdr) (status : Nat) (hK : Keeps s0 s) : Keeps s0 (gdpRefuse s h status) := by
  unfold gdpRefuse
  repeat' first | (with_reducible first | exact hK | apply keeps_compAdd | apply keeps_gdpAccepted | apply keeps_gdpDrain | apply keeps_gdpMark)

theorem keeps_execReadReq {s0 : State} (h : GdpHdr) (pay : List Byte) (ext : List Byte) (fail : Option Status) (s : State) (hK : Keeps s0 s) : KeepsO s0 (execReadReq h pay ext fail s) := by
  unfold execReadReq
  repeat' first | (with_reducible first | exact hK | apply keeps_gdpCount | apply keeps_gdpData | apply keeps_gdpDrain | apply keeps_gdpRead | apply keeps_gdpRefuse | apply keeps_gdpSingle | apply keeps_onConn | apply KeepsO.next | apply KeepsO.ite | refine KeepsS.of_inl (by assumption) ?_ | refine KeepsS.of_inr (by assumption) ?_) | split

theorem keeps_execReadResp {s0 : State} (h : GdpHdr) (pay : List Byte) (s : State) (hK : Keeps s0 s) : KeepsO s0 (execReadResp h pay s) := by
  unfold execReadResp
  repeat' first | (with_reducible first | exact hK | apply keeps_gdpCount | apply keeps_gdpData | apply keeps_gdpDrain | apply keeps_gdpPlace | apply keeps_gdpPlaced | apply keeps_gdpReadDone | apply keeps_gdpSingle | apply KeepsO.next | apply KeepsO.ite | refine KeepsS.of_inl (by assumption) ?_ | refine KeepsS.of_inr (by assumption) ?_) | split

theorem keeps_gdpAtomic {s0 : State} (h : GdpHdr) (pay : List Byte) (f : List Byte → Nat → Nat) (link : List Byte → Nat → Nat → Nat → Nat → TpMsg) (s : State) (hK : Keeps s0 s) : KeepsO s0 (gdpAtomic h pay f link s) := by
  unfold gdpAtomic; try dsimp only
  repeat' first | (with_reducible first | exact hK | apply keeps_atomicAt | apply keeps_gdpCount | apply keeps_gdpData | apply keeps_gdpDrain | apply keeps_gdpRefuse | apply keeps_gdpSingle | apply keeps_onConn | apply keeps_refuseCount | apply keeps_tpEnqueue | apply KeepsO.next | refine KeepsS.of_inl (by assumption) ?_ | refine KeepsS.of_inr (by assumption) ?_) | split

theorem keeps_execGdpFadd {s0 : State} (h : GdpHdr) (pay : List Byte) (s : State) (hK : Keeps s0 s) : KeepsO s0 (execGdpFadd h pay s) := by
  unfold execGdpFadd
  repeat' first | (with_reducible first | exact hK | apply keeps_gdpAtomic)

theorem keeps_execGdpCas {s0 : State} (h : GdpHdr) (pay : List Byte) (s : State) (hK : Keeps s0 s) : KeepsO s0 (execGdpCas h pay s) := by
  unfold execGdpCas
  repeat' first | (with_reducible first | exact hK | apply keeps_gdpAtomic)

theorem keeps_execAtomicResp {s0 : State} (h : GdpHdr) (pay : List Byte) (s : State) (hK : Keeps s0 s) : KeepsO s0 (execAtomicResp h pay s) := by
  unfold execAtomicResp; try dsimp only
  repeat' first | (with_reducible first | exact hK | apply keeps_gdpCount | apply keeps_gdpData | apply keeps_gdpDrain | apply keeps_gdpFinish | apply keeps_gdpSingle | apply KeepsO.next | refine KeepsS.of_inl (by assumption) ?_ | refine KeepsS.of_inr (by assumption) ?_) | split

theorem keeps_ackSender {s0 : State} (s : State) (n : Nat) (c : ConnCfg) (b : GdpAckBody) (hK : Keeps s0 s) : Keeps s0 (ackSender s n c b) := by
  unfold ackSender
  repeat' first | (with_reducible first | exact hK | assumption | apply keeps_gdpMarkLost | apply keeps_onConn | apply Keeps.foldl | apply Keeps.ite) | (intro _; intros)

theorem keeps_ackComps {s0 : State} (s : State) (n : Nat) (b : GdpAckBody) (hK : Keeps s0 s) : Keeps s0 (ackComps s n b) := by
  unfold ackComps
  repeat' first | (with_reducible first | exact hK | assumption | apply keeps_gdpFinish | apply keeps_onConn | apply Keeps.foldl) | split | (intro _; intros)

theorem keeps_execGdpAck {s0 : State} (h : GdpHdr) (b : GdpAckBody) (s : State) (hK : Keeps s0 s) : KeepsO s0 (execGdpAck h b s) := by
  unfold execGdpAck
  repeat' first | (with_reducible first | exact hK | apply keeps_ackComps | apply keeps_ackSender | apply keeps_gdpAdmit | apply keeps_gdpDrain | apply KeepsO.next | refine Keeps.of_snd (by assumption) ?_) | split

theorem keeps_execHello {s0 : State} (h : GdpHdr) (localConn : Nat) (log2Payload : Nat) (alg : Nat) (prot : Bool) (s : State) (hK : Keeps s0 s) : KeepsO s0 (execHello h localConn log2Payload alg prot s) := by
  unfold execHello
  repeat' first | (with_reducible first | exact hK | apply keeps_gdpAdmit | apply keeps_gdpDrain | apply keeps_gdpFail | apply keeps_gdpOpen | apply KeepsO.next | refine Keeps.of_snd (by assumption) ?_) | split

theorem keeps_execGdpClosePacket {s0 : State} (h : GdpHdr) (s : State) (hK : Keeps s0 s) : KeepsO s0 (execGdpClosePacket h s) := by
  unfold execGdpClosePacket
  repeat' first | (with_reducible first | exact hK | apply keeps_gdpAdmit | apply keeps_gdpFail | apply KeepsO.next | refine Keeps.of_snd (by assumption) ?_) | split

theorem keeps_execHelloTimer {s0 : State} (n : Nat) (s : State) (hK : Keeps s0 s) : KeepsO s0 (execHelloTimer n s) := by
  unfold execHelloTimer
  repeat' first | (with_reducible first | exact hK | apply keeps_gdpEmit | apply KeepsO.next) | split

theorem keeps_execCloseResendTimer {s0 : State} (n : Nat) (s : State) (hK : Keeps s0 s) : KeepsO s0 (execCloseResendTimer n s) := by
  unfold execCloseResendTimer
  repeat' first | (with_reducible first | exact hK | apply keeps_gdpSendClose | apply KeepsO.next) | split

theorem keeps_execAckDelayTimer {s0 : State} (n : Nat) (s : State) (hK : Keeps s0 s) : KeepsO s0 (execAckDelayTimer n s) := by
  unfold execAckDelayTimer
  repeat' first | (with_reducible first | exact hK | apply keeps_gdpAck | apply KeepsO.next) | split

theorem keeps_execGdpRto {s0 : State} (n : Nat) (psn : Nat) (s : State) (hK : Keeps s0 s) : KeepsO s0 (execGdpRto n psn s) := by
  unfold execGdpRto
  repeat' first | (with_reducible first | exact hK | apply keeps_gdpDrain | apply keeps_gdpMarkLost | apply keeps_onConn | apply KeepsO.next) | split

theorem keeps_execGdpProgressTimeout {s0 : State} (n : Nat) (s : State) (hK : Keeps s0 s) : KeepsO s0 (execGdpProgressTimeout n s) := by
  unfold execGdpProgressTimeout
  repeat' first | (with_reducible first | exact hK | apply keeps_gdpFail | apply KeepsO.next) | split

theorem keeps_execGdpMessageComplete {s0 : State} (n : Nat) (msn : Nat) (s : State) (hK : Keeps s0 s) : KeepsO s0 (execGdpMessageComplete n msn s) := by
  unfold execGdpMessageComplete
  repeat' first | (with_reducible first | exact hK | apply keeps_gdpComp | apply keeps_gdpDrain | apply keeps_gdpRecord | apply keeps_onConn | apply KeepsO.next) | split

theorem keeps_execGdpPacedSend {s0 : State} (n : Nat) (s : State) (hK : Keeps s0 s) : KeepsO s0 (execGdpPacedSend n s) := by
  unfold execGdpPacedSend
  repeat' first | (with_reducible first | exact hK | apply keeps_gdpDrain | apply keeps_onConn | apply KeepsO.next) | split

end Sys2Proof.Safety
end

