-- ==== Sys2Proof/Laws/KeepsGdpCmds.lean ====
section
/-! SUPPORT. Laws/KeepsGdpCmds.lean: the operations of GdpCmds.lean keep the queue, the security version and the form of the memories. -/

namespace Sys2Proof.Safety

open Machine

theorem keeps_execGdpRegionSet {s0 : State} (h : Hdr) (r : RegionSet) (s : State) (hK : Keeps s0 s) : KeepsO s0 (execGdpRegionSet h r s) := by
  unfold execGdpRegionSet
  repeat' first | (with_reducible first | exact hK | assumption | apply keeps_boothStep | apply keeps_commitEpoch | apply KeepsA.epoch) | (intro _; intros)

theorem keeps_execGdpConnect {s0 : State} (h : Hdr) (blk : HostBlk ConnectBlock) (s : State) (hK : Keeps s0 s) : KeepsO s0 (execGdpConnect h blk s) := by
  unfold execGdpConnect
  repeat' first | (with_reducible first | exact hK | assumption | apply keeps_boothStep | apply keeps_commitEpoch | apply keeps_giveDoorbells | apply KeepsA.epoch) | (intro _; intros) | with_reducible apply Keeps.upd

theorem keeps_gdpAdopt {s0 : State} (s : State) (hK : Keeps s0 s) : Keeps s0 (gdpAdopt s) := by
  unfold gdpAdopt
  repeat' first | (with_reducible first | exact hK) | with_reducible apply Keeps.upd

theorem keeps_execGdpModify {s0 : State} (h : Hdr) (m : GdpModify) (s : State) (hK : Keeps s0 s) : KeepsO s0 (execGdpModify h m s) := by
  unfold execGdpModify
  repeat' first | (with_reducible first | exact hK | assumption | apply keeps_boothStep | apply keeps_commitEpoch | apply keeps_gdpAdopt | apply KeepsA.epoch) | (intro _; intros)

theorem keeps_gdpCloseConn {s0 : State} (s : State) (n : Nat) (hK : Keeps s0 s) : Keeps s0 (gdpCloseConn s n) := by
  unfold gdpCloseConn
  repeat' first | (with_reducible first | exact hK | assumption | apply keeps_dropDoorbells | apply keeps_gdpEvent | apply keeps_gdpRecord | apply keeps_keySpend | apply keeps_onConn | apply Keeps.foldl) | split | (intro _; intros) | with_reducible apply Keeps.upd

theorem keeps_execGdpClose {s0 : State} (h : Hdr) (n : Nat) (s : State) (hK : Keeps s0 s) : KeepsO s0 (execGdpClose h n s) := by
  unfold execGdpClose
  repeat' first | (with_reducible first | exact hK | assumption | apply keeps_boothStep | apply keeps_commitEpoch | apply keeps_gdpCloseConn | apply keeps_gdpDrain | apply KeepsO.next | apply KeepsA.done | apply KeepsA.epoch) | (intro _; intros)

theorem keeps_execGdpStats {s0 : State} (h : Hdr) (n : Nat) (blk : OutBlk) (s : State) (hK : Keeps s0 s) : KeepsO s0 (execGdpStats h n blk s) := by
  unfold execGdpStats
  repeat' first | (with_reducible first | exact hK | assumption | apply keeps_boothStep | apply keeps_writeOut) | (intro _; intros)

end Sys2Proof.Safety
end

