-- ==== Sys2Proof/Laws/KeepsTumblers.lean ====
section
/-! SUPPORT. Laws/KeepsTumblers.lean: the operations of Tumblers.lean keep the queue, the security version and the form of the memories. -/

namespace Sys2Proof.Safety

open Machine

theorem keeps_dumpWrite {s0 : State} (s : State) (n : Nat) (t : Tumbler) (b : ActBinding) (ev : List Word) (st : Status) (code : Nat) (hK : Keeps s0 s) : Keeps s0 (dumpWrite s n t b ev st code) := by
  unfold dumpWrite
  repeat' first | (with_reducible first | exact hK | apply keeps_memStore | apply Keeps.ite)

theorem keeps_faultRecord {s0 : State} (s : State) (n : Nat) (t : Tumbler) (inv : Invocation) (fn : Nat) (st : Status) (code : Nat) (hK : Keeps s0 s) : Keeps s0 (faultRecord s n t inv fn st code) := by
  unfold faultRecord
  repeat' first | (with_reducible first | exact hK | apply keeps_onStat | apply keeps_raiseEvent | apply Keeps.ite)

theorem keeps_endInv {s0 : State} (s : State) (n : Nat) (t : Tumbler) (inv : Invocation) (st : Status) (code : Nat) (counted : Bool) (hK : Keeps s0 s) : Keeps s0 (endInv s n t inv st code counted) := by
  unfold endInv
  repeat' first | (with_reducible first | exact hK | apply keeps_dropReplies | apply keeps_dumpWrite | apply keeps_faultRecord | apply keeps_onSess | apply keeps_onStat | apply keeps_onTumbler | apply keeps_rindCount | apply keeps_rindMinute) | split

theorem keeps_overrun {s0 : State} (s : State) (n : Nat) (t : Tumbler) (inv : Invocation) (hK : Keeps s0 s) : Keeps s0 (overrun s n t inv) := by
  unfold overrun
  repeat' first | (with_reducible first | exact hK | apply keeps_endInv)

theorem keeps_settle {s0 : State} (s : State) (n : Nat) (t : Tumbler) (inv : Invocation) (r : Ran) (hK : Keeps s0 s)
    (hr : KeepsR s0 r) : Keeps s0 (settle s n t inv r) := by
  unfold settle
  cases hr with
  | done h => dsimp only; split
              · exact keeps_overrun _ _ _ _ hK
              · exact keeps_onTumbler _ _ _ h
  | exc h => dsimp only; split
             · exact keeps_overrun _ _ _ _ hK
             · apply keeps_endInv; exact h
  | wait => exact hK
  | stall => exact keeps_onTumbler _ _ _ hK
  | ends => dsimp only; split
            · exact keeps_overrun _ _ _ _ hK
            · apply keeps_endInv; exact hK

theorem keeps_runOp {s0 : State} (n : Nat) (o : Op) (f : State → Invocation → Tumbler → Word → Ran) (s : State)
    (hf : ∀ u i t w, Keeps s0 u → KeepsR s0 (f u i t w)) (hK : Keeps s0 s) : KeepsO s0 (runOp n o f s) := by
  unfold runOp; dsimp only
  split
  · exact .next hK
  · split
    · exact .next hK
    · split
      · exact .next (keeps_settle _ _ _ _ _ hK (.exc hK))
      · refine .next ?_
        split
        · exact keeps_settle _ _ _ _ _ hK (hf _ _ _ _ hK)
        · exact hK

theorem keeps_execTumblerDispatch {s0 : State} (n : Nat) (s : State) (hK : Keeps s0 s) : KeepsO s0 (execTumblerDispatch n s) := by
  unfold execTumblerDispatch
  repeat' first | (with_reducible first | exact hK | apply keeps_onActs | apply keeps_onMem | apply keeps_onPower | apply keeps_onStat | apply keeps_onTumbler | apply KeepsO.next) | exact id | exact wordWf_wordsWrite _ _ _ | split

theorem keeps_execAllowanceOverrun {s0 : State} (n : Nat) (s : State) (hK : Keeps s0 s) : KeepsO s0 (execAllowanceOverrun n s) := by
  unfold execAllowanceOverrun; try dsimp only
  repeat' first | (with_reducible first | exact hK | apply keeps_overrun | apply KeepsO.next) | split

theorem keeps_actAdopt {s0 : State} (s : State) (p : Nat) (hK : Keeps s0 s) : Keeps s0 (actAdopt s p) := by
  unfold actAdopt
  repeat' first | (with_reducible first | exact hK | apply keeps_onActs)

theorem keeps_execActTimerExpire {s0 : State} (p : Nat) (k : Nat) (s : State) (hK : Keeps s0 s) : KeepsO s0 (execActTimerExpire p k s) := by
  unfold execActTimerExpire
  repeat' first | (with_reducible first | exact hK | apply keeps_onActs | apply keeps_putAct | apply KeepsO.next) | split

theorem keeps_takeDone {s0 : State} (s : State) (t : Tumbler) (w : Word) (stall : Nat) (hK : Keeps s0 s) : KeepsR s0 (takeDone s t w stall) := by
  unfold takeDone
  repeat' first | (with_reducible first | exact hK | apply KeepsR.done | apply KeepsR.stall) | split

theorem keeps_execPortReply {s0 : State} (n : Nat) (port : Nat) (stall : Nat) (s : State) (hK : Keeps s0 s) : KeepsO s0 (execPortReply n port stall s) := by
  unfold execPortReply; try dsimp only
  repeat' first | (with_reducible first | exact hK | apply keeps_onSess | apply keeps_onTumbler | apply keeps_settle | apply keeps_takeDone | apply KeepsO.next) | split

theorem keeps_execLoadReturn {s0 : State} (n : Nat) (stall : Nat) (s : State) (hK : Keeps s0 s) : KeepsO s0 (execLoadReturn n stall s) := by
  unfold execLoadReturn; try dsimp only
  repeat' first | (with_reducible first | exact hK | apply keeps_loadAll | apply keeps_settle | apply KeepsO.next | apply KeepsR.done | apply KeepsR.exc) | split

theorem keeps_execStoreFailure {s0 : State} (n : Nat) (s : State) (hK : Keeps s0 s) : KeepsO s0 (execStoreFailure n s) := by
  unfold execStoreFailure; try dsimp only
  repeat' first | (with_reducible first | exact hK | apply keeps_onStat | apply keeps_onTumbler | apply KeepsO.next) | split

end Sys2Proof.Safety
end

