-- ==== Sys2Proof/Laws/KeepsLoads.lean ====
section
/-! SUPPORT. Laws/KeepsLoads.lean: the operations of Loads.lean keep the queue, the security version and the form of the memories. -/

namespace Sys2Proof.Safety

open Machine

theorem keeps_troupePut {s0 : State} (s : State) (n : Nat) (k : Nat) (v : Word) (hK : Keeps s0 s) : Keeps s0 (troupePut s n k v) := by
  unfold troupePut
  repeat' first | (with_reducible first | exact hK | apply keeps_onMem) | exact id | exact wordWf_wordSet _ _ _

theorem keeps_loadOp {s0 : State} (n : Nat) (o : Op) (s : State) (hK : Keeps s0 s) : KeepsO s0 (loadOp n o s) := by
  unfold loadOp
  repeat' first | (with_reducible first | exact hK | assumption | apply keeps_memError | apply keeps_runOp | apply KeepsR.done | apply KeepsR.exc | apply KeepsR.stall) | split | (intro _; intros)

theorem keeps_storeOp {s0 : State} (n : Nat) (o : Op) (s : State) (hK : Keeps s0 s) : KeepsO s0 (storeOp n o s) := by
  unfold storeOp
  repeat' first | (with_reducible first | exact hK | assumption | apply keeps_memError | apply keeps_runOp | apply keeps_storeOne | apply keeps_troupePut | apply Keeps.foldl_snd | apply KeepsR.done | apply KeepsR.exc) | split | (intro _; intros)

theorem keeps_atomicOp {s0 : State} (n : Nat) (o : Op) (f : Tumbler → Word → Word → Option Word × Tumbler) (s : State) (hK : Keeps s0 s) : KeepsO s0 (atomicOp n o f s) := by
  unfold atomicOp
  repeat' first | (with_reducible first | exact hK | assumption | apply keeps_memError | apply keeps_runOp | apply keeps_troupePut | apply KeepsR.done | apply KeepsR.exc) | split | (intro _; intros)

theorem keeps_execLdw {s0 : State} (n : Nat) (s : State) (hK : Keeps s0 s) : KeepsO s0 (execLdw n s) := by
  unfold execLdw
  repeat' first | (with_reducible first | exact hK | apply keeps_loadOp)

theorem keeps_execLdh {s0 : State} (n : Nat) (s : State) (hK : Keeps s0 s) : KeepsO s0 (execLdh n s) := by
  unfold execLdh
  repeat' first | (with_reducible first | exact hK | apply keeps_loadOp)

theorem keeps_execLdhs {s0 : State} (n : Nat) (s : State) (hK : Keeps s0 s) : KeepsO s0 (execLdhs n s) := by
  unfold execLdhs
  repeat' first | (with_reducible first | exact hK | apply keeps_loadOp)

theorem keeps_execLdn {s0 : State} (n : Nat) (s : State) (hK : Keeps s0 s) : KeepsO s0 (execLdn n s) := by
  unfold execLdn
  repeat' first | (with_reducible first | exact hK | apply keeps_loadOp)

theorem keeps_execStw {s0 : State} (n : Nat) (s : State) (hK : Keeps s0 s) : KeepsO s0 (execStw n s) := by
  unfold execStw
  repeat' first | (with_reducible first | exact hK | apply keeps_storeOp)

theorem keeps_execSth {s0 : State} (n : Nat) (s : State) (hK : Keeps s0 s) : KeepsO s0 (execSth n s) := by
  unfold execSth
  repeat' first | (with_reducible first | exact hK | apply keeps_storeOp)

theorem keeps_execStn {s0 : State} (n : Nat) (s : State) (hK : Keeps s0 s) : KeepsO s0 (execStn n s) := by
  unfold execStn
  repeat' first | (with_reducible first | exact hK | apply keeps_storeOp)

theorem keeps_execAadd {s0 : State} (n : Nat) (s : State) (hK : Keeps s0 s) : KeepsO s0 (execAadd n s) := by
  unfold execAadd
  repeat' first | (with_reducible first | exact hK | apply keeps_atomicOp)

theorem keeps_execAcas {s0 : State} (n : Nat) (s : State) (hK : Keeps s0 s) : KeepsO s0 (execAcas n s) := by
  unfold execAcas
  repeat' first | (with_reducible first | exact hK | apply keeps_atomicOp)

end Sys2Proof.Safety
end

