-- ==== Sys2Proof/Laws/KeepsFlow.lean ====
section
/-! SUPPORT. Laws/KeepsFlow.lean: the operations of Flow.lean keep the queue, the security version and the form of the memories. -/

namespace Sys2Proof.Safety

open Machine

theorem keeps_branchOp {s0 : State} (n : Nat) (o : Op) (target : Tumbler → Word → Nat) (s : State) (hK : Keeps s0 s) : KeepsO s0 (branchOp n o target s) := by
  unfold branchOp
  repeat' first | (with_reducible first | exact hK | assumption | apply keeps_runOp | apply KeepsR.ite | apply KeepsR.done | apply KeepsR.exc) | (intro _; intros)

theorem keeps_callOp {s0 : State} (n : Nat) (o : Op) (link : Bool) (target : Tumbler → Word → Nat) (s : State) (hK : Keeps s0 s) : KeepsO s0 (callOp n o link target s) := by
  unfold callOp
  repeat' first | (with_reducible first | exact hK | assumption | apply keeps_runOp | apply KeepsR.ite | apply KeepsR.done | apply KeepsR.exc) | (intro _; intros)

theorem keeps_execB {s0 : State} (n : Nat) (s : State) (hK : Keeps s0 s) : KeepsO s0 (execB n s) := by
  unfold execB
  repeat' first | (with_reducible first | exact hK | apply keeps_branchOp)

theorem keeps_execBr {s0 : State} (n : Nat) (s : State) (hK : Keeps s0 s) : KeepsO s0 (execBr n s) := by
  unfold execBr
  repeat' first | (with_reducible first | exact hK | apply keeps_branchOp)

theorem keeps_execCall {s0 : State} (n : Nat) (s : State) (hK : Keeps s0 s) : KeepsO s0 (execCall n s) := by
  unfold execCall
  repeat' first | (with_reducible first | exact hK | apply keeps_callOp)

theorem keeps_execCallr {s0 : State} (n : Nat) (s : State) (hK : Keeps s0 s) : KeepsO s0 (execCallr n s) := by
  unfold execCallr
  repeat' first | (with_reducible first | exact hK | apply keeps_callOp)

theorem keeps_execRet {s0 : State} (n : Nat) (s : State) (hK : Keeps s0 s) : KeepsO s0 (execRet n s) := by
  unfold execRet
  repeat' first | (with_reducible first | exact hK | apply keeps_callOp)

theorem keeps_loopOp {s0 : State} (n : Nat) (o : Op) (count : Tumbler → Word → Nat) (s : State) (hK : Keeps s0 s) : KeepsO s0 (loopOp n o count s) := by
  unfold loopOp
  repeat' first | (with_reducible first | exact hK | assumption | apply keeps_runOp | apply KeepsR.ite | apply KeepsR.done | apply KeepsR.exc) | (intro _; intros)

theorem keeps_execLoopi {s0 : State} (n : Nat) (s : State) (hK : Keeps s0 s) : KeepsO s0 (execLoopi n s) := by
  unfold execLoopi
  repeat' first | (with_reducible first | exact hK | apply keeps_loopOp)

theorem keeps_execLoopr {s0 : State} (n : Nat) (s : State) (hK : Keeps s0 s) : KeepsO s0 (execLoopr n s) := by
  unfold execLoopr
  repeat' first | (with_reducible first | exact hK | apply keeps_loopOp)

theorem keeps_execLexit {s0 : State} (n : Nat) (s : State) (hK : Keeps s0 s) : KeepsO s0 (execLexit n s) := by
  unfold execLexit
  repeat' first | (with_reducible first | exact hK | assumption | apply keeps_runOp | apply KeepsR.ite | apply KeepsR.done | apply KeepsR.exc) | (intro _; intros)

theorem keeps_portExc {s0 s : State} {t : Tumbler} {codes : List Nat} {r : Ran} (hE : portExc s t codes = some r) (hK : Keeps s0 s) :
    KeepsR s0 r := by
  unfold portExc at hE
  split at hE <;> cases hE <;> exact .exc hK

theorem keeps_execPost {s0 : State} (n : Nat) (s : State) (hK : Keeps s0 s) : KeepsO s0 (execPost n s) := by
  unfold execPost; try dsimp only
  repeat' first | (with_reducible first | exact hK | assumption | apply keeps_memError | apply keeps_onSess | apply keeps_runOp | apply KeepsR.done | apply KeepsR.wait | refine keeps_portExc (by assumption) ?_) | split | (intro _; intros)

theorem keeps_execTake {s0 : State} (n : Nat) (s : State) (hK : Keeps s0 s) : KeepsO s0 (execTake n s) := by
  unfold execTake
  repeat' first | (with_reducible first | exact hK | assumption | apply keeps_runOp | apply keeps_takeDone | apply KeepsR.ite | apply KeepsR.exc) | (intro _; intros)

theorem keeps_execPoll {s0 : State} (n : Nat) (s : State) (hK : Keeps s0 s) : KeepsO s0 (execPoll n s) := by
  unfold execPoll
  repeat' first | (with_reducible first | exact hK | assumption | apply keeps_runOp | apply KeepsR.ite | apply KeepsR.done | apply KeepsR.exc) | (intro _; intros)

theorem keeps_execMfs {s0 : State} (n : Nat) (s : State) (hK : Keeps s0 s) : KeepsO s0 (execMfs n s) := by
  unfold execMfs
  repeat' first | (with_reducible first | exact hK | assumption | apply keeps_runOp | apply KeepsR.done) | (intro _; intros)

theorem keeps_execMts {s0 : State} (n : Nat) (s : State) (hK : Keeps s0 s) : KeepsO s0 (execMts n s) := by
  unfold execMts
  repeat' first | (with_reducible first | exact hK | assumption | apply keeps_runOp | apply KeepsR.ite | apply KeepsR.done | apply KeepsR.exc) | (intro _; intros)

theorem keeps_execEndact {s0 : State} (n : Nat) (s : State) (hK : Keeps s0 s) : KeepsO s0 (execEndact n s) := by
  unfold execEndact
  repeat' first | (with_reducible first | exact hK | assumption | apply keeps_runOp | apply KeepsR.wait | apply KeepsR.ends | refine keeps_portExc (by assumption) ?_) | split | (intro _; intros)

theorem keeps_execBrk {s0 : State} (n : Nat) (s : State) (hK : Keeps s0 s) : KeepsO s0 (execBrk n s) := by
  unfold execBrk
  repeat' first | (with_reducible first | exact hK | assumption | apply keeps_runOp | apply KeepsR.exc) | (intro _; intros)

end Sys2Proof.Safety
end

