-- ==== Sys2Proof/Laws/KeepsActCmds.lean ====
section
/-! SUPPORT. Laws/KeepsActCmds.lean: the operations of ActCmds.lean keep the queue, the security version and the form of the memories. -/

namespace Sys2Proof.Safety

open Machine

theorem keeps_imPut {s0 : State} (s : State) (n : Nat) (a : Nat) (ws : List Nat) (hK : Keeps s0 s) : Keeps s0 (imPut s n a ws) := by
  unfold imPut
  repeat' first | (with_reducible first | exact hK | apply keeps_onMem) | exact id | exact wordWf_wordsWrite _ _ _

theorem keeps_imageWrite {s0 : State} (s : State) (p : Nat) (g : ActImage) (hK : Keeps s0 s) : Keeps s0 (imageWrite s p g) := by
  unfold imageWrite
  repeat' first | (with_reducible first | exact hK | assumption | apply keeps_imPut | apply keeps_onMem | apply Keeps.foldl) | exact wordWf_wordsWrite _ _ _ | (intro _; intros)

theorem keeps_execActLoad {s0 : State} (h : Hdr) (act : Nat) (image : HostBlk (List Byte)) (s : State) (hK : Keeps s0 s) : KeepsO s0 (execActLoad h act image s) := by
  unfold execActLoad; try dsimp only
  repeat' first | (with_reducible first | exact hK | assumption | apply keeps_boothStep | apply keeps_imageWrite | apply keeps_onActs | apply KeepsA.done) | split | (intro _; intros)

theorem keeps_execActUnload {s0 : State} (h : Hdr) (act : Nat) (s : State) (hK : Keeps s0 s) : KeepsO s0 (execActUnload h act s) := by
  unfold execActUnload
  repeat' first | (with_reducible first | exact hK | assumption | apply keeps_boothStep | apply keeps_onActs | apply keeps_onMem | apply Keeps.foldl | apply KeepsA.done) | exact wordWf_wordsZero _ _ _ | split | (intro _; intros)

theorem keeps_actEpoch {s0 : State} (s : State) (p : Nat) (r : List Byte) (f : ActCfg → ActCfg) (hK : Keeps s0 s) : KeepsA s0 (actEpoch s p r f) := by
  unfold actEpoch
  repeat' first | (with_reducible first | exact hK | apply keeps_commitEpoch | apply KeepsA.epoch)

theorem keeps_execActBind {s0 : State} (h : Hdr) (b : ActBinding) (s : State) (hK : Keeps s0 s) : KeepsO s0 (execActBind h b s) := by
  unfold execActBind
  repeat' first | (with_reducible first | exact hK | assumption | apply keeps_actEpoch | apply keeps_boothStep | apply keeps_onActs) | (intro _; intros)

theorem keeps_execActRebind {s0 : State} (h : Hdr) (b : ActBinding) (s : State) (hK : Keeps s0 s) : KeepsO s0 (execActRebind h b s) := by
  unfold execActRebind
  repeat' first | (with_reducible first | exact hK | assumption | apply keeps_actEpoch | apply keeps_boothStep) | (intro _; intros)

theorem keeps_execActUnbind {s0 : State} (h : Hdr) (n : Nat) (s : State) (hK : Keeps s0 s) : KeepsO s0 (execActUnbind h n s) := by
  unfold execActUnbind
  repeat' first | (with_reducible first | exact hK | assumption | apply keeps_actEpoch | apply keeps_boothStep) | (intro _; intros)

theorem keeps_execActTimerSet {s0 : State} (h : Hdr) (timer : Nat) (binding : Nat) (period : Nat) (first : Nat) (s : State) (hK : Keeps s0 s) : KeepsO s0 (execActTimerSet h timer binding period first s) := by
  unfold execActTimerSet
  repeat' first | (with_reducible first | exact hK | assumption | apply keeps_actEpoch | apply keeps_boothStep) | (intro _; intros)

theorem keeps_execActDoorbellSet {s0 : State} (h : Hdr) (doorbell : Nat) (binding : Nat) (s : State) (hK : Keeps s0 s) : KeepsO s0 (execActDoorbellSet h doorbell binding s) := by
  unfold execActDoorbellSet
  repeat' first | (with_reducible first | exact hK | assumption | apply keeps_actEpoch | apply keeps_boothStep) | (intro _; intros)

theorem keeps_execActStats {s0 : State} (h : Hdr) (n : Nat) (clear : Nat) (blk : OutBlk) (s : State) (hK : Keeps s0 s) : KeepsO s0 (execActStats h n clear blk s) := by
  unfold execActStats
  repeat' first | (with_reducible first | exact hK | assumption | apply keeps_boothStep | apply keeps_onStat | apply keeps_statsDone | apply keeps_writeOut) | (intro _; intros)

end Sys2Proof.Safety
end

