-- ==== Sys2Proof/Laws/KeepsAlu.lean ====
section
/-! SUPPORT. Laws/KeepsAlu.lean: the operations of Alu.lean keep the queue, the security version and the form of the memories. -/

namespace Sys2Proof.Safety

open Machine

theorem keeps_alu {s0 : State} (n : Nat) (o : Op) (cycles : Nat) (f : Tumbler → Word → Word × Flags) (s : State) (hK : Keeps s0 s) : KeepsO s0 (alu n o cycles f s) := by
  unfold alu
  repeat' first | (with_reducible first | exact hK | assumption | apply keeps_runOp | apply KeepsR.done) | (intro _; intros)

theorem keeps_execAdd {s0 : State} (n : Nat) (s : State) (hK : Keeps s0 s) : KeepsO s0 (execAdd n s) := by
  unfold execAdd
  repeat' first | (with_reducible first | exact hK | apply keeps_alu)

theorem keeps_execAdc {s0 : State} (n : Nat) (s : State) (hK : Keeps s0 s) : KeepsO s0 (execAdc n s) := by
  unfold execAdc
  repeat' first | (with_reducible first | exact hK | apply keeps_alu)

theorem keeps_execSub {s0 : State} (n : Nat) (s : State) (hK : Keeps s0 s) : KeepsO s0 (execSub n s) := by
  unfold execSub
  repeat' first | (with_reducible first | exact hK | apply keeps_alu)

theorem keeps_execSbc {s0 : State} (n : Nat) (s : State) (hK : Keeps s0 s) : KeepsO s0 (execSbc n s) := by
  unfold execSbc
  repeat' first | (with_reducible first | exact hK | apply keeps_alu)

theorem keeps_execCmp {s0 : State} (n : Nat) (s : State) (hK : Keeps s0 s) : KeepsO s0 (execCmp n s) := by
  unfold execCmp
  repeat' first | (with_reducible first | exact hK | apply keeps_alu)

theorem keeps_execNeg {s0 : State} (n : Nat) (s : State) (hK : Keeps s0 s) : KeepsO s0 (execNeg n s) := by
  unfold execNeg
  repeat' first | (with_reducible first | exact hK | apply keeps_alu)

theorem keeps_execAdds {s0 : State} (n : Nat) (s : State) (hK : Keeps s0 s) : KeepsO s0 (execAdds n s) := by
  unfold execAdds
  repeat' first | (with_reducible first | exact hK | apply keeps_alu)

theorem keeps_execSubs {s0 : State} (n : Nat) (s : State) (hK : Keeps s0 s) : KeepsO s0 (execSubs n s) := by
  unfold execSubs
  repeat' first | (with_reducible first | exact hK | apply keeps_alu)

theorem keeps_execAnd {s0 : State} (n : Nat) (s : State) (hK : Keeps s0 s) : KeepsO s0 (execAnd n s) := by
  unfold execAnd
  repeat' first | (with_reducible first | exact hK | apply keeps_alu)

theorem keeps_execOr {s0 : State} (n : Nat) (s : State) (hK : Keeps s0 s) : KeepsO s0 (execOr n s) := by
  unfold execOr
  repeat' first | (with_reducible first | exact hK | apply keeps_alu)

theorem keeps_execXor {s0 : State} (n : Nat) (s : State) (hK : Keeps s0 s) : KeepsO s0 (execXor n s) := by
  unfold execXor
  repeat' first | (with_reducible first | exact hK | apply keeps_alu)

theorem keeps_execAndn {s0 : State} (n : Nat) (s : State) (hK : Keeps s0 s) : KeepsO s0 (execAndn n s) := by
  unfold execAndn
  repeat' first | (with_reducible first | exact hK | apply keeps_alu)

theorem keeps_execShl {s0 : State} (n : Nat) (s : State) (hK : Keeps s0 s) : KeepsO s0 (execShl n s) := by
  unfold execShl
  repeat' first | (with_reducible first | exact hK | apply keeps_alu)

theorem keeps_execShr {s0 : State} (n : Nat) (s : State) (hK : Keeps s0 s) : KeepsO s0 (execShr n s) := by
  unfold execShr
  repeat' first | (with_reducible first | exact hK | apply keeps_alu)

theorem keeps_execSar {s0 : State} (n : Nat) (s : State) (hK : Keeps s0 s) : KeepsO s0 (execSar n s) := by
  unfold execSar
  repeat' first | (with_reducible first | exact hK | apply keeps_alu)

theorem keeps_execRor {s0 : State} (n : Nat) (s : State) (hK : Keeps s0 s) : KeepsO s0 (execRor n s) := by
  unfold execRor
  repeat' first | (with_reducible first | exact hK | apply keeps_alu)

theorem keeps_execBfx {s0 : State} (n : Nat) (s : State) (hK : Keeps s0 s) : KeepsO s0 (execBfx n s) := by
  unfold execBfx
  repeat' first | (with_reducible first | exact hK | apply keeps_alu)

theorem keeps_execBfxs {s0 : State} (n : Nat) (s : State) (hK : Keeps s0 s) : KeepsO s0 (execBfxs n s) := by
  unfold execBfxs
  repeat' first | (with_reducible first | exact hK | apply keeps_alu)

theorem keeps_execBfi {s0 : State} (n : Nat) (s : State) (hK : Keeps s0 s) : KeepsO s0 (execBfi n s) := by
  unfold execBfi
  repeat' first | (with_reducible first | exact hK | apply keeps_alu)

theorem keeps_execCnt {s0 : State} (n : Nat) (s : State) (hK : Keeps s0 s) : KeepsO s0 (execCnt n s) := by
  unfold execCnt
  repeat' first | (with_reducible first | exact hK | apply keeps_alu)

theorem keeps_execNperm {s0 : State} (n : Nat) (s : State) (hK : Keeps s0 s) : KeepsO s0 (execNperm n s) := by
  unfold execNperm
  repeat' first | (with_reducible first | exact hK | apply keeps_alu)

theorem keeps_execAddp {s0 : State} (n : Nat) (s : State) (hK : Keeps s0 s) : KeepsO s0 (execAddp n s) := by
  unfold execAddp
  repeat' first | (with_reducible first | exact hK | apply keeps_alu)

theorem keeps_execSubp {s0 : State} (n : Nat) (s : State) (hK : Keeps s0 s) : KeepsO s0 (execSubp n s) := by
  unfold execSubp
  repeat' first | (with_reducible first | exact hK | apply keeps_alu)

theorem keeps_execAddps {s0 : State} (n : Nat) (s : State) (hK : Keeps s0 s) : KeepsO s0 (execAddps n s) := by
  unfold execAddps
  repeat' first | (with_reducible first | exact hK | apply keeps_alu)

theorem keeps_execSubps {s0 : State} (n : Nat) (s : State) (hK : Keeps s0 s) : KeepsO s0 (execSubps n s) := by
  unfold execSubps
  repeat' first | (with_reducible first | exact hK | apply keeps_alu)

theorem keeps_execMul {s0 : State} (n : Nat) (s : State) (hK : Keeps s0 s) : KeepsO s0 (execMul n s) := by
  unfold execMul
  repeat' first | (with_reducible first | exact hK | apply keeps_alu)

theorem keeps_execMulhs {s0 : State} (n : Nat) (s : State) (hK : Keeps s0 s) : KeepsO s0 (execMulhs n s) := by
  unfold execMulhs
  repeat' first | (with_reducible first | exact hK | apply keeps_alu)

theorem keeps_execMulhu {s0 : State} (n : Nat) (s : State) (hK : Keeps s0 s) : KeepsO s0 (execMulhu n s) := by
  unfold execMulhu
  repeat' first | (with_reducible first | exact hK | apply keeps_alu)

theorem keeps_execMac {s0 : State} (n : Nat) (s : State) (hK : Keeps s0 s) : KeepsO s0 (execMac n s) := by
  unfold execMac
  repeat' first | (with_reducible first | exact hK | apply keeps_alu)

theorem keeps_execMacs {s0 : State} (n : Nat) (s : State) (hK : Keeps s0 s) : KeepsO s0 (execMacs n s) := by
  unfold execMacs
  repeat' first | (with_reducible first | exact hK | apply keeps_alu)

theorem keeps_execMacp {s0 : State} (n : Nat) (s : State) (hK : Keeps s0 s) : KeepsO s0 (execMacp n s) := by
  unfold execMacp
  repeat' first | (with_reducible first | exact hK | apply keeps_alu)

theorem keeps_execSat {s0 : State} (n : Nat) (s : State) (hK : Keeps s0 s) : KeepsO s0 (execSat n s) := by
  unfold execSat
  repeat' first | (with_reducible first | exact hK | apply keeps_alu)

theorem keeps_execAddi {s0 : State} (n : Nat) (s : State) (hK : Keeps s0 s) : KeepsO s0 (execAddi n s) := by
  unfold execAddi
  repeat' first | (with_reducible first | exact hK | apply keeps_alu)

theorem keeps_execCmpi {s0 : State} (n : Nat) (s : State) (hK : Keeps s0 s) : KeepsO s0 (execCmpi n s) := by
  unfold execCmpi
  repeat' first | (with_reducible first | exact hK | apply keeps_alu)

theorem keeps_execAndi {s0 : State} (n : Nat) (s : State) (hK : Keeps s0 s) : KeepsO s0 (execAndi n s) := by
  unfold execAndi
  repeat' first | (with_reducible first | exact hK | apply keeps_alu)

theorem keeps_execOri {s0 : State} (n : Nat) (s : State) (hK : Keeps s0 s) : KeepsO s0 (execOri n s) := by
  unfold execOri
  repeat' first | (with_reducible first | exact hK | apply keeps_alu)

theorem keeps_execXori {s0 : State} (n : Nat) (s : State) (hK : Keeps s0 s) : KeepsO s0 (execXori n s) := by
  unfold execXori
  repeat' first | (with_reducible first | exact hK | apply keeps_alu)

theorem keeps_execSeth {s0 : State} (n : Nat) (s : State) (hK : Keeps s0 s) : KeepsO s0 (execSeth n s) := by
  unfold execSeth
  repeat' first | (with_reducible first | exact hK | apply keeps_alu)

theorem keeps_execSetl {s0 : State} (n : Nat) (s : State) (hK : Keeps s0 s) : KeepsO s0 (execSetl n s) := by
  unfold execSetl
  repeat' first | (with_reducible first | exact hK | apply keeps_alu)

end Sys2Proof.Safety
end

