-- ==== Sys2Proof/Laws/KeepsTcp.lean ====
section
/-! SUPPORT. Laws/KeepsTcp.lean: the operations of Tcp.lean keep the queue, the security version and the form of the memories. -/

namespace Sys2Proof.Safety

open Machine

theorem keeps_tcpFrame {s0 : State} (s : State) (t : Tcp) (seq : Nat) (flags : Nat) (data : List Byte) (hK : Keeps s0 s) : Keeps s0 (tcpFrame s t seq flags data) := by
  unfold tcpFrame
  repeat' first | (with_reducible first | exact hK | apply keeps_drawBytes | apply keeps_txEnqueue)

theorem keeps_tcpSend {s0 : State} (s : State) (n : Nat) (t : Tcp) (syn : Bool) (fin : Bool) (data : List Byte) (hK : Keeps s0 s) : Keeps s0 (tcpSend s n t syn fin data) := by
  unfold tcpSend
  repeat' first | (with_reducible first | exact hK | apply keeps_onTcp | apply keeps_tcpFrame)

theorem keeps_tcpAck {s0 : State} (s : State) (n : Nat) (hK : Keeps s0 s) : Keeps s0 (tcpAck s n) := by
  unfold tcpAck
  repeat' first | (with_reducible first | exact hK | apply keeps_tcpFrame) | split

theorem keeps_tcpPump {s0 : State} (s : State) (n : Nat) (x0 : Nat) (hK : Keeps s0 s) : Keeps s0 (tcpPump s n x0) := by
  induction x0 generalizing s n with
  | zero => exact hK
  | succ n ih =>
    unfold tcpPump
    repeat' first | (with_reducible first | apply ih | exact hK | apply keeps_onTcp | apply keeps_tcpSend | apply Keeps.ite) | split

theorem keeps_tcpWrite {s0 : State} (s : State) (n : Nat) (d : List Byte) (hK : Keeps s0 s) : Keeps s0 (tcpWrite s n d) := by
  unfold tcpWrite
  repeat' first | (with_reducible first | exact hK | apply keeps_onTcp | apply keeps_tcpPump) | split | with_reducible apply Keeps.upd

theorem keeps_tcpHalve {s0 : State} (s : State) (n : Nat) (hK : Keeps s0 s) : Keeps s0 (tcpHalve s n) := by
  unfold tcpHalve
  repeat' first | (with_reducible first | exact hK | apply keeps_onTcp)

theorem keeps_tcpResend {s0 : State} (s : State) (n : Nat) (hK : Keeps s0 s) : Keeps s0 (tcpResend s n) := by
  unfold tcpResend
  repeat' first | (with_reducible first | exact hK | apply keeps_onTcp | apply keeps_tcpFrame) | split

theorem keeps_tcpReset {s0 : State} (s : State) (n : Nat) (hK : Keeps s0 s) : Keeps s0 (tcpReset s n) := by
  unfold tcpReset
  repeat' first | (with_reducible first | exact hK | apply keeps_onStor | apply keeps_tcpFrame) | split

end Sys2Proof.Safety
end

