-- ==== Sys2Proof/Laws/KeepsMover.lean ====
section
/-! SUPPORT. Laws/KeepsMover.lean: the operations of Mover.lean keep the queue, the security version and the form of the memories. -/

namespace Sys2Proof.Safety

open Machine

theorem keeps_moverRecord {s0 : State} (s : State) (q : Nat) (d : MvDesc) (st : Nat) (addr : Nat) (side : Bool) (hK : Keeps s0 s) : Keeps s0 (moverRecord s q d st addr side) := by
  unfold moverRecord
  repeat' first | (with_reducible first | exact hK | apply keeps_hostPost | apply keeps_msixRaise | apply keeps_onMvq) | split

theorem keeps_moverFlush {s0 : State} (s : State) (q : Nat) (hK : Keeps s0 s) : Keeps s0 (moverFlush s q).1 := by
  unfold moverFlush
  repeat' first | (with_reducible first | exact hK | assumption | apply keeps_moverRecord | apply keeps_onMvq | apply Keeps.foldl) | split | (intro _; intros)

theorem keeps_moverRelease {s0 : State} (s : State) (q : Nat) (hK : Keeps s0 s) : Keeps s0 (moverRelease s q) := by
  unfold moverRelease
  repeat' first | (with_reducible first | exact hK | apply keeps_onMover) | split

theorem keeps_readRow {s0 : State} (s : State) (master : Nat) (w : Actor) (host : Bool) (x : Nat) (ext : List Byte) (got : List (Nat × List Byte)) (a : Nat) (hK : Keeps s0 s) : Keeps s0 (readRow s master w host x ext got a).2.2.2 := by
  unfold readRow
  repeat' first | (with_reducible first | exact hK | assumption | apply keeps_loadAll | apply Keeps.foldl_snd_snd_snd) | split | (intro _; intros)

theorem keeps_readRows {s0 : State} (s : State) (master : Nat) (w : Actor) (host : Bool) (x : Nat) (ext : List Byte) (got : List (Nat × List Byte)) (rows : List Nat) (hK : Keeps s0 s) : Keeps s0 (readRows s master w host x ext got rows).2.2.2 := by
  unfold readRows
  repeat' first | (with_reducible first | exact hK | assumption | apply keeps_readRow | apply Keeps.foldl_snd_snd_snd) | split | (intro _; intros)

theorem keeps_writeRows {s0 : State} (s : State) (master : Nat) (w : Actor) (engine : Nat) (serial : Nat) (o : QueueCfg) (host : Bool) (ro : Bool) (rows : List (Nat × List Byte)) (hK : Keeps s0 s) : Keeps s0 (writeRows s master w engine serial o host ro rows).2.2.1 := by
  unfold writeRows
  repeat' first | (with_reducible first | exact hK | assumption | apply keeps_hostPost | apply keeps_storeOne | apply Keeps.foldl_snd_snd_fst) | split | (intro _; intros)

theorem keeps_spoilRows {s0 : State} (s : State) (w : Actor) (x : Nat) (host : Bool) (rows : List Nat) (hK : Keeps s0 s) : Keeps s0 (spoilRows s w x host rows) := by
  unfold spoilRows
  repeat' first | (with_reducible first | exact hK | assumption | apply keeps_drawBytes | apply keeps_memStore | apply Keeps.foldl) | split | (intro _; intros)

theorem keeps_onMvRun {s0 : State} (s : State) (engine : Nat) (serial : Nat) (f : MvRun → MvRun) (hK : Keeps s0 s) : Keeps s0 (onMvRun s engine serial f) := by
  unfold onMvRun
  repeat' first | (with_reducible first | exact hK | apply keeps_onMover)

theorem keeps_moverReads {s0 : State} (s : State) (master : Nat) (w : Actor) (engine : Nat) (r : MvRun) (hK : Keeps s0 s) : Keeps s0 (moverReads s master w engine r) := by
  unfold moverReads
  repeat' first | (with_reducible first | exact hK | assumption | apply keeps_onMvRun | apply keeps_refuseCount | apply keeps_tpEnqueue | apply Keeps.foldl | apply Keeps.ite) | split | (intro _; intros)

theorem keeps_bufferNext {s0 : State} (s : State) (engine : Nat) (hK : Keeps s0 s) : Keeps s0 (bufferNext s engine) := by
  unfold bufferNext
  repeat' first | (with_reducible first | exact hK | apply keeps_moverReads) | split

theorem keeps_moverEnd {s0 : State} (s : State) (engine : Nat) (r : MvRun) (hK : Keeps s0 s) : Keeps s0 (moverEnd s engine r) := by
  unfold moverEnd
  repeat' first | (with_reducible first | exact hK | apply keeps_bufferNext | apply keeps_draw | apply keeps_moverRecord | apply keeps_moverRelease | apply keeps_onMover | apply keeps_onMvq | apply keeps_spoilRows) | split

theorem keeps_moverReadDone {s0 : State} (s : State) (engine : Nat) (serial : Nat) (a : Nat) (r : Sum (List Byte) Status) (hK : Keeps s0 s) : Keeps s0 (moverReadDone s engine serial a r) := by
  unfold moverReadDone
  repeat' first | (with_reducible first | exact hK | apply keeps_onMvRun)

theorem keeps_moverWriteDone {s0 : State} (s : State) (engine : Nat) (serial : Nat) (a : Nat) (st : Status) (hK : Keeps s0 s) : Keeps s0 (moverWriteDone s engine serial a st) := by
  unfold moverWriteDone
  repeat' first | (with_reducible first | exact hK | apply keeps_moverEnd | apply keeps_onMvRun) | split | with_reducible apply Keeps.upd

theorem keeps_execMoverQueueCreate {s0 : State} (h : Hdr) (q : QueueCreate) (s : State) (hK : Keeps s0 s) : KeepsO s0 (execMoverQueueCreate h q s) := by
  unfold execMoverQueueCreate
  repeat' first | (with_reducible first | exact hK | assumption | apply keeps_boothStep | apply keeps_commitEpoch | apply keeps_giveDoorbells | apply keeps_onMover | apply KeepsA.epoch) | (intro _; intros)

theorem keeps_execMoverQueueFlush {s0 : State} (h : Hdr) (q : Nat) (s : State) (hK : Keeps s0 s) : KeepsO s0 (execMoverQueueFlush h q s) := by
  unfold execMoverQueueFlush
  repeat' first | (with_reducible first | exact hK | assumption | apply keeps_boothStep | apply keeps_moverFlush | apply KeepsA.done) | (intro _; intros)

theorem keeps_execMoverQueueDestroy {s0 : State} (h : Hdr) (q : Nat) (s : State) (hK : Keeps s0 s) : KeepsO s0 (execMoverQueueDestroy h q s) := by
  unfold execMoverQueueDestroy
  repeat' first | (with_reducible first | exact hK | assumption | apply keeps_boothStep | apply keeps_commitEpoch | apply keeps_moverFlush | apply keeps_moverRelease | apply keeps_onMvq | apply KeepsA.epoch) | (intro _; intros)

theorem keeps_execMoverStats {s0 : State} (h : Hdr) (q : Nat) (blk : OutBlk) (s : State) (hK : Keeps s0 s) : KeepsO s0 (execMoverStats h q blk s) := by
  unfold execMoverStats
  repeat' first | (with_reducible first | exact hK | assumption | apply keeps_boothStep | apply keeps_writeOut) | (intro _; intros)

theorem keeps_execMoverStart {s0 : State} (engine : Nat) (s : State) (hK : Keeps s0 s) : KeepsO s0 (execMoverStart engine s) := by
  unfold execMoverStart; try dsimp only
  repeat' first | (with_reducible first | exact hK | apply keeps_moverReads | apply keeps_moverRecord | apply keeps_moverRelease | apply keeps_onMover | apply keeps_onMvq | apply KeepsO.next) | split

theorem keeps_execMoverComplete {s0 : State} (engine : Nat) (i : Nat) (ext : List Byte) (srcFail : Option (Status × Nat)) (s : State) (hK : Keeps s0 s) : KeepsO s0 (execMoverComplete engine i ext srcFail s) := by
  unfold execMoverComplete
  repeat' first | (with_reducible first | exact hK | apply keeps_moverEnd | apply keeps_onMvRun | apply keeps_readRows | apply keeps_writeRows | apply KeepsO.next | apply KeepsO.ite) | split

end Sys2Proof.Safety
end

