-- ==== Sys2Proof/Laws/KeepsStorage.lean ====
section
/-! SUPPORT. Laws/KeepsStorage.lean: the operations of Storage.lean keep the queue, the security version and the form of the memories. -/

namespace Sys2Proof.Safety

open Machine

theorem keeps_volState {s0 : State} (s : State) (n : Nat) (v : VolumeCfg) (st : VolSt) (cause : Nat) (hK : Keeps s0 s) : Keeps s0 (volState s n v st cause) := by
  unfold volState
  repeat' first | (with_reducible first | exact hK | apply keeps_onVol | apply keeps_raiseEvent | apply Keeps.ite)

theorem keeps_volumesOffline {s0 : State} (s : State) (backing : Nat) (source : Nat) (cause : Nat) (hK : Keeps s0 s) : Keeps s0 (volumesOffline s backing source cause) := by
  unfold volumesOffline
  repeat' first | (with_reducible first | exact hK | assumption | apply keeps_volState | apply Keeps.foldl) | split | (intro _; intros)

theorem keeps_volScrub {s0 : State} (s : State) (v : VolumeCfg) (spaces : List NamespaceInfo) (hK : Keeps s0 s) : Keeps s0 (volScrub s v spaces) := by
  unfold volScrub
  repeat' first | (with_reducible first | exact hK | apply keeps_onDrive | apply keeps_onStor | apply keeps_send | apply keeps_tcpWrite) | split | with_reducible apply Keeps.upd

theorem keeps_volumeReady {s0 : State} (s : State) (e : Nat × VolumeCfg) (spaces : List NamespaceInfo) (hK : Keeps s0 s) : Keeps s0 (volumeReady s e spaces) := by
  unfold volumeReady
  repeat' first | (with_reducible first | exact hK | assumption | apply keeps_volScrub | apply keeps_volState) | split

theorem keeps_volumesReady {s0 : State} (s : State) (backing : Nat) (source : Nat) (spaces : List NamespaceInfo) (hK : Keeps s0 s) : Keeps s0 (volumesReady s backing source spaces) := by
  unfold volumesReady
  repeat' first | (with_reducible first | exact hK | assumption | apply keeps_volumeReady | apply Keeps.foldl) | (intro _; intros)

theorem keeps_driveEvent {s0 : State} (s : State) (d : Nat) (reason : Nat) (hK : Keeps s0 s) : Keeps s0 (driveEvent s d reason) := by
  unfold driveEvent
  repeat' first | (with_reducible first | exact hK | apply keeps_raiseEvent)

theorem keeps_volCount {s0 : State} (s : State) (n : Nat) (op : Nat) (blocks : Nat) (st : Nat) (hK : Keeps s0 s) : Keeps s0 (volCount s n op blocks st) := by
  unfold volCount
  repeat' first | (with_reducible first | exact hK | apply keeps_onVol)

theorem keeps_storRecord {s0 : State} (s : State) (q : Nat) (d : StDesc) (st : Nat) (nvme : Nat) (hK : Keeps s0 s) : Keeps s0 (storRecord s q d st nvme) := by
  unfold storRecord
  repeat' first | (with_reducible first | exact hK | apply keeps_hostPost | apply keeps_msixRaise | apply keeps_onStq | apply keeps_volCount) | split

theorem keeps_storRelease {s0 : State} (s : State) (q : Nat) (hK : Keeps s0 s) : Keeps s0 (storRelease s q) := by
  unfold storRelease
  split
  · exact hK
  · split
    · exact hK
    · exact keeps_onMem _ _ (keeps_onStor _ _ hK) id id id

theorem keeps_storFlush {s0 : State} (s : State) (q : Nat) (hK : Keeps s0 s) : Keeps s0 (storFlush s q).1 := by
  unfold storFlush
  repeat' first | (with_reducible first | exact hK | assumption | apply keeps_onStq | apply keeps_storRecord | apply Keeps.foldl) | split | (intro _; intros)

theorem keeps_onCmds {s0 : State} (s : State) (backing : Nat) (source : Nat) (f : List DriveCmd → List DriveCmd) (hK : Keeps s0 s) : Keeps s0 (onCmds s backing source f) := by
  unfold onCmds
  repeat' first | (with_reducible first | exact hK | apply keeps_onDrive | apply keeps_onStor | apply Keeps.ite)

theorem keeps_handOver {s0 : State} (s : State) (v : VolumeCreate) (c : DriveCmd) (hK : Keeps s0 s) : Keeps s0 (handOver s v c) := by
  unfold handOver
  repeat' first | (with_reducible first | exact hK | apply keeps_onDrive | apply keeps_onStor | apply keeps_send | apply keeps_tcpWrite) | split | with_reducible apply Keeps.upd

theorem keeps_fillCells {s0 : State} (s : State) (cs : List Nat) (d : List Byte) (hK : Keeps s0 s) : Keeps s0 (fillCells s cs d) := by
  induction cs generalizing s d with
  | nil => exact hK
  | cons c cs ih => exact ih _ _ (keeps_memStore _ _ _ _ hK)

theorem keeps_onRun {s0 : State} (s : State) (q : Nat) (count : Nat) (f : StRun → StRun) (hK : Keeps s0 s) : Keeps s0 (onRun s q count f) := by
  unfold onRun
  repeat' first | (with_reducible first | exact hK | apply keeps_onStq)

theorem keepsM_storPart {s0 : State} (s : State) (q : Nat) (x : StQueue) (r : StRun) (ext : List Byte) (fail : Nat) (hK : Keeps s0 s) : KeepsM (fun x => x.1) s0 (storPart s q x r ext fail) := by
  unfold storPart
  repeat' first | (with_reducible first | exact hK | apply keeps_fillCells | apply keeps_handOver | apply keeps_loadAll | apply keeps_onRun | apply keeps_onStq | exact KeepsM.none | apply KeepsM.some | apply KeepsM.ite) | split

theorem keeps_storPart {s0 : State} {v0 : State} {v1 : List Byte} {s : State} {q : Nat} {x : StQueue} {r : StRun} {ext : List Byte} {fail : Nat} (hE : storPart s q x r ext fail = some (v0, v1)) (hK : Keeps s0 s) : Keeps s0 v0 :=
  keepsM_storPart s q x r ext fail hK _ hE

theorem keeps_storIssue {s0 : State} (s : State) (q : Nat) (ext : List Byte) (fail : Nat) (x0 : Nat) (hK : Keeps s0 s) : Keeps s0 (storIssue s q ext fail x0) := by
  induction x0 generalizing s q ext fail with
  | zero => exact hK
  | succ n ih =>
    unfold storIssue
    repeat' first | (with_reducible first | apply ih | exact hK | refine keeps_storPart (by assumption) ?_) | split

theorem keeps_runRecord {s0 : State} (s : State) (q : Nat) (own : QueueCfg) (r : StRun) (hK : Keeps s0 s) : Keeps s0 (runRecord s q own r) := by
  unfold runRecord
  repeat' first | (with_reducible first | exact hK | apply keeps_spoilRows | apply keeps_storRecord | apply Keeps.ite)

theorem keeps_storEnd {s0 : State} (s : State) (q : Nat) (hK : Keeps s0 s) : Keeps s0 (storEnd s q) := by
  unfold storEnd
  repeat' first | (with_reducible first | exact hK | assumption | apply keeps_onStq | apply keeps_runRecord | apply keeps_storRelease | apply Keeps.foldl) | split | (intro _; intros)

theorem keeps_storWriteDone {s0 : State} (s : State) (q : Nat) (count : Nat) (st : Status) (hK : Keeps s0 s) : Keeps s0 (storWriteDone s q count st) := by
  unfold storWriteDone
  repeat' first | (with_reducible first | exact hK | apply keeps_onRun | apply keeps_storEnd)

theorem keeps_storKick {s0 : State} (s : State) (q : Nat) (ext : List Byte) (fail : Nat) (hK : Keeps s0 s) : Keeps s0 (storKick s q ext fail) := by
  unfold storKick
  repeat' first | (with_reducible first | exact hK | apply keeps_storEnd | apply keeps_storIssue)

theorem keeps_writeDevice {s0 : State} (s : State) (master : Nat) (c : DriveCmd) (a : Nat) (d : List Byte) (hK : Keeps s0 s) : Keeps s0 (writeDevice s master c a d).2 := by
  unfold writeDevice
  repeat' first | (with_reducible first | exact hK | apply keeps_onRun | apply keeps_storeAll) | split

theorem keeps_writeBuffer {s0 : State} (s : State) (master : Nat) (c : DriveCmd) (host : Bool) (pasid : Option Nat) (a : Nat) (d : List Byte) (hK : Keeps s0 s) : Keeps s0 (writeBuffer s master c host pasid a d).2 := by
  unfold writeBuffer
  repeat' first | (with_reducible first | exact hK | apply keeps_hostPost | apply keeps_writeDevice) | split

theorem keeps_readCells {s0 : State} (s : State) (master : Nat) (c : DriveCmd) (hK : Keeps s0 s) : Keeps s0 (readCells s master c).2.2 := by
  unfold readCells
  repeat' first | (with_reducible first | exact hK | assumption | apply keeps_loadAll | apply Keeps.foldl_snd_snd) | split | (intro _; intros)

theorem keeps_queueCmdEnd {s0 : State} (s : State) (q : Nat) (count : Nat) (c : DriveCmd) (st : Nat) (nvme : Nat) (data : List Byte) (hK : Keeps s0 s) : Keeps s0 (queueCmdEnd s q count c st nvme data) := by
  unfold queueCmdEnd
  repeat' first | (with_reducible first | exact hK | apply keeps_onRun | apply keeps_onStq | apply keeps_readCells | apply keeps_storEnd | apply keeps_writeBuffer) | split

theorem keeps_onTcpRun {s0 : State} (s : State) (n : Nat) (cid : Nat) (f : TcpRun → TcpRun) (hK : Keeps s0 s) : Keeps s0 (onTcpRun s n cid f) := by
  unfold onTcpRun
  repeat' first | (with_reducible first | exact hK | apply keeps_onTcp)

theorem keeps_tcpIssue {s0 : State} (s : State) (n : Nat) (x0 : Nat) (hK : Keeps s0 s) : Keeps s0 (tcpIssue s n x0) := by
  induction x0 generalizing s n with
  | zero => exact hK
  | succ n ih =>
    unfold tcpIssue
    repeat' first | (with_reducible first | apply ih | exact hK | assumption | apply keeps_handOver | apply keeps_onTcpRun) | split

theorem keeps_tcpEnd {s0 : State} (s : State) (n : Nat) (hK : Keeps s0 s) : Keeps s0 (tcpEnd s n) := by
  unfold tcpEnd
  repeat' first | (with_reducible first | exact hK | assumption | apply keeps_onTcp | apply keeps_tcpWrite | apply keeps_volCount | apply Keeps.foldl) | split | (intro _; intros)

theorem keeps_tcpCmdEnd {s0 : State} (s : State) (n : Nat) (cid : Nat) (c : DriveCmd) (st : Nat) (nvme : Nat) (data : List Byte) (hK : Keeps s0 s) : Keeps s0 (tcpCmdEnd s n cid c st nvme data) := by
  unfold tcpCmdEnd
  repeat' first | (with_reducible first | exact hK | apply keeps_onTcpRun | apply keeps_tcpEnd)

theorem keeps_cmdEnd {s0 : State} (s : State) (c : DriveCmd) (st : Nat) (nvme : Nat) (data : List Byte) (hK : Keeps s0 s) : Keeps s0 (cmdEnd s c st nvme data) := by
  unfold cmdEnd
  repeat' first | (with_reducible first | exact hK | apply keeps_queueCmdEnd | apply keeps_tcpCmdEnd) | split

theorem keeps_tcpIssueAll {s0 : State} (s : State) (hK : Keeps s0 s) : Keeps s0 (tcpIssueAll s) := by
  unfold tcpIssueAll
  repeat' first | (with_reducible first | exact hK | assumption | apply keeps_tcpIssue | apply Keeps.foldl) | (intro _; intros)

theorem keeps_backingEnd {s0 : State} (s : State) (backing : Nat) (source : Nat) (st : DriveCmd → Nat) (rest : Nat) (hK : Keeps s0 s) : Keeps s0 (backingEnd s backing source st rest) := by
  unfold backingEnd
  repeat' first | (with_reducible first | exact hK | assumption | apply keeps_cmdEnd | apply keeps_onCmds | apply keeps_onStor | apply keeps_storEnd | apply keeps_tcpEnd | apply Keeps.foldl) | (intro _; intros)

end Sys2Proof.Safety
end

