-- ==== Sys2Proof/Laws/KeepsStorRows.lean ====
section
/-! SUPPORT. Laws/KeepsStorRows.lean: the operations of StorRows.lean keep the queue, the security version and the form of the memories. -/

namespace Sys2Proof.Safety

open Machine

theorem keeps_storDescsRead {s0 : State} (s : State) (q : Nat) (d : List Byte) (hK : Keeps s0 s) : Keeps s0 (storDescsRead s q d) := by
  unfold storDescsRead
  repeat' first | (with_reducible first | exact hK | assumption | apply keeps_onStq | apply keeps_storRecord | apply keeps_storRelease | apply Keeps.foldl) | split | (intro _; intros)

theorem keeps_execStorStart {s0 : State} (q : Nat) (ext : List Byte) (fail : Nat) (s : State) (hK : Keeps s0 s) : KeepsO s0 (execStorStart q ext fail s) := by
  unfold execStorStart; try dsimp only
  repeat' first | (with_reducible first | exact hK | apply keeps_onStq | apply keeps_storKick | apply keeps_storRecord | apply keeps_storRelease | apply KeepsO.next) | split

theorem keeps_execDriveCompletion {s0 : State} (drive : Nat) (id : Nat) (nvme : Nat) (ext : List Byte) (fail : Nat) (s : State) (hK : Keeps s0 s) : KeepsO s0 (execDriveCompletion drive id nvme ext fail s) := by
  unfold execDriveCompletion
  repeat' first | (with_reducible first | exact hK | apply keeps_cmdEnd | apply keeps_onCmds | apply keeps_storKick | apply keeps_tcpIssueAll | apply KeepsO.next) | split

theorem keeps_execStorageTimeout {s0 : State} (drive : Nat) (id : Nat) (s : State) (hK : Keeps s0 s) : KeepsO s0 (execStorageTimeout drive id s) := by
  unfold execStorageTimeout
  repeat' first | (with_reducible first | exact hK | apply keeps_onDrive | apply keeps_rindCount | apply keeps_send | apply KeepsO.next) | split

theorem keeps_execAbortConfirmTimeout {s0 : State} (drive : Nat) (id : Nat) (s : State) (hK : Keeps s0 s) : KeepsO s0 (execAbortConfirmTimeout drive id s) := by
  unfold execAbortConfirmTimeout
  repeat' first | (with_reducible first | exact hK | apply keeps_backingEnd | apply keeps_draw | apply keeps_driveEvent | apply keeps_onDrive | apply keeps_rindLog | apply keeps_send | apply keeps_volumesOffline | apply KeepsO.next) | split

theorem keeps_execDriveReinitDone {s0 : State} (drive : Nat) (s : State) (hK : Keeps s0 s) : KeepsO s0 (execDriveReinitDone drive s) := by
  unfold execDriveReinitDone
  repeat' first | (with_reducible first | exact hK | apply keeps_driveEvent | apply keeps_onDrive | apply keeps_volumesReady | apply KeepsO.next | apply KeepsO.ite)

theorem keeps_driveLost {s0 : State} (s : State) (drive : Nat) (hK : Keeps s0 s) : Keeps s0 (driveLost s drive) := by
  unfold driveLost
  repeat' first | (with_reducible first | exact hK | apply keeps_backingEnd | apply keeps_driveEvent | apply keeps_onDrive | apply keeps_volumesOffline) | split

theorem keeps_execDriveLoss {s0 : State} (drive : Nat) (s : State) (hK : Keeps s0 s) : KeepsO s0 (execDriveLoss drive s) := by
  unfold execDriveLoss
  repeat' first | (with_reducible first | exact hK | apply keeps_driveLost | apply KeepsO.next)

theorem keeps_volumesDead {s0 : State} (s : State) (backing : Nat) (source : Nat) (cause : Nat) (hK : Keeps s0 s) : Keeps s0 (volumesDead s backing source cause) := by
  unfold volumesDead
  repeat' first | (with_reducible first | exact hK | assumption | apply keeps_onVol | apply keeps_volState | apply Keeps.foldl) | split | (intro _; intros)

theorem keeps_execDriveLinkUp {s0 : State} (drive : Nat) (i : DriveInfo) (s : State) (hK : Keeps s0 s) : KeepsO s0 (execDriveLinkUp drive i s) := by
  unfold execDriveLinkUp
  repeat' first | (with_reducible first | exact hK | apply keeps_driveEvent | apply keeps_onDrive | apply keeps_volumesDead | apply keeps_volumesReady | apply KeepsO.next | apply Keeps.ite | apply KeepsO.ite)

theorem keeps_dmaFail {s0 : State} (s : State) (drive : Nat) (id : Nat) (st : Nat) (hK : Keeps s0 s) : Keeps s0 (dmaFail s drive id st) := by
  unfold dmaFail
  repeat' first | (with_reducible first | exact hK | apply keeps_onDrive | apply Keeps.ite)

theorem keeps_dmaWrite {s0 : State} (s : State) (drive : Nat) (c : DriveCmd) (l : List (Nat × Nat)) (d : List Byte) (hK : Keeps s0 s) :
    Keeps s0 (dmaWrite s drive c l d) := by
  induction l generalizing s d with
  | nil => exact hK
  | cons x l ih =>
    unfold dmaWrite
    refine ih _ _ (keeps_dmaFail _ _ _ _ ?_)
    split
    · exact keeps_writeBuffer _ _ _ _ _ _ _ hK
    · exact keeps_writeDevice _ _ _ _ _ hK

theorem keeps_dmaRead {s0 : State} (s : State) (drive : Nat) (c : DriveCmd) (ext : List Byte) (x0 : List (Nat × Nat)) (hK : Keeps s0 s) : Keeps s0 (dmaRead s drive c ext x0).2 := by
  induction x0 generalizing s drive c ext with
  | nil => exact hK
  | cons x xs ih =>
    unfold dmaRead
    repeat' first | (with_reducible first | apply ih | exact hK | apply keeps_dmaFail | apply keeps_loadAll)

theorem keeps_execDriveDmaRequest {s0 : State} (drive : Nat) (id : Nat) (off : Nat) (len : Nat) (write : Bool) (data : List Byte) (s : State) (hK : Keeps s0 s) : KeepsO s0 (execDriveDmaRequest drive id off len write data s) := by
  unfold execDriveDmaRequest
  repeat' first | (with_reducible first | exact hK | apply keeps_dmaFail | apply keeps_dmaRead | apply keeps_dmaWrite | apply keeps_driveEvent | apply keeps_hostAbortCount | apply keeps_onDrive | apply keeps_send | apply KeepsO.next | apply KeepsO.ite) | split

theorem keeps_driveWarn {s0 : State} (s : State) (drive : Nat) (bits : Nat) (hK : Keeps s0 s) : Keeps s0 (driveWarn s drive bits) := by
  unfold driveWarn
  repeat' first | (with_reducible first | exact hK | apply keeps_onDrive | apply keeps_raiseEvent | apply Keeps.ite)

theorem keeps_execDriveAsyncEvent {s0 : State} (drive : Nat) (bits : Nat) (s : State) (hK : Keeps s0 s) : KeepsO s0 (execDriveAsyncEvent drive bits s) := by
  unfold execDriveAsyncEvent
  repeat' first | (with_reducible first | exact hK | apply keeps_driveWarn | apply keeps_onDrive | apply KeepsO.next | apply KeepsO.ite)

theorem keeps_execVolumeScrubDone {s0 : State} (n : Nat) (s : State) (hK : Keeps s0 s) : KeepsO s0 (execVolumeScrubDone n s) := by
  unfold execVolumeScrubDone
  repeat' first | (with_reducible first | exact hK | apply keeps_volState | apply KeepsO.next | apply KeepsO.ite) | split

end Sys2Proof.Safety
end

