-- ==== Sys2Proof/Laws/KeepsNvmeTcp.lean ====
section
/-! SUPPORT. Laws/KeepsNvmeTcp.lean: the operations of NvmeTcp.lean keep the queue, the security version and the form of the memories. -/

namespace Sys2Proof.Safety

open Machine

theorem keeps_tcpAckNew {s0 : State} (s : State) (n : Nat) (t : Tcp) (g : TcpIn) (hK : Keeps s0 s) : Keeps s0 (tcpAckNew s n t g) := by
  unfold tcpAckNew
  repeat' first | (with_reducible first | exact hK | apply keeps_onTcp | apply keeps_tcpResend | apply Keeps.ite)

theorem keeps_tcpAckIn {s0 : State} (s : State) (n : Nat) (g : TcpIn) (hK : Keeps s0 s) : Keeps s0 (tcpAckIn s n g) := by
  unfold tcpAckIn
  repeat' first | (with_reducible first | exact hK | apply keeps_onTcp | apply keeps_tcpAckNew | apply keeps_tcpHalve | apply keeps_tcpPump | apply keeps_tcpResend | apply Keeps.ite) | split

theorem keeps_tcpDataIn {s0 : State} (s : State) (n : Nat) (g : TcpIn) (hK : Keeps s0 s) : Keeps s0 (tcpDataIn s n g).2.2 := by
  unfold tcpDataIn; try dsimp only
  repeat' first | (with_reducible first | exact hK | apply keeps_onTcp | apply keeps_tcpAck) | split

theorem keeps_initOpen {s0 : State} (s : State) (c : Nat) (own : InitCfg) (qid : Nat) (hK : Keeps s0 s) : Keeps s0 (initOpen s c own qid) := by
  unfold initOpen
  repeat' first | (with_reducible first | exact hK | apply keeps_draw | apply keeps_onStor | apply keeps_tcpSend)

theorem keeps_initStart {s0 : State} (s : State) (c : Nat) (own : InitCfg) (hK : Keeps s0 s) : Keeps s0 (initStart s c own) := by
  unfold initStart
  repeat' first | (with_reducible first | exact hK | assumption | apply keeps_initOpen | apply Keeps.foldl) | (intro _; intros)

theorem keeps_onInit {s0 : State} (s : State) (c : Nat) (f : Initiator → Initiator) (hK : Keeps s0 s) : Keeps s0 (onInit s c f) := by
  unfold onInit
  repeat' first | (with_reducible first | exact hK | apply keeps_onStor)

theorem keeps_initReset {s0 : State} (s : State) (c : Nat) (hK : Keeps s0 s) : Keeps s0 (initReset s c) := by
  unfold initReset
  repeat' first | (with_reducible first | exact hK | apply keeps_tcpReset | apply Keeps.foldl)

theorem keeps_initLost {s0 : State} (s : State) (c : Nat) (hK : Keeps s0 s) : Keeps s0 (initLost s c) := by
  unfold initLost
  repeat' first | (with_reducible first | exact hK | apply keeps_backingEnd | apply keeps_finish | apply keeps_initReset | apply keeps_onInit | apply keeps_onStor | apply keeps_volumesOffline) | split

theorem keeps_initReady {s0 : State} (s : State) (c : Nat) (spaces : List NamespaceInfo) (hK : Keeps s0 s) : Keeps s0 (initReady s c spaces) := by
  unfold initReady
  repeat' first | (with_reducible first | exact hK | assumption | apply keeps_commitEpoch | apply keeps_finish | apply keeps_initReset | apply keeps_onInit | apply keeps_onStor | apply keeps_releaseDeferred | apply keeps_volumeReady | apply Keeps.foldl) | split | (intro _; intros) | with_reducible apply Keeps.upd

theorem keeps_initAnswer {s0 : State} (s : State) (c : Nat) (cid : Nat) (status : Nat) (data : List Byte) (hK : Keeps s0 s) : Keeps s0 (initAnswer s c cid status data) := by
  unfold initAnswer
  repeat' first | (with_reducible first | exact hK | apply keeps_cmdEnd | apply keeps_onCmds | apply keeps_storKick | apply keeps_tcpIssueAll) | split

theorem keeps_tcpIo {s0 : State} (s : State) (n : Nat) (t : Tcp) (cid : Nat) (op : Nat) (nsid : Nat) (lba : Nat) (blocks : Nat) (fua : Bool) (data : List Byte) (hK : Keeps s0 s) : Keeps s0 (tcpIo s n t cid op nsid lba blocks fua data) := by
  unfold tcpIo
  repeat' first | (with_reducible first | exact hK | apply keeps_onTcp | apply keeps_tcpIssue | apply keeps_tcpWrite | apply keeps_volCount) | split | with_reducible apply Keeps.upd

theorem keeps_tcpClosed {s0 : State} (s : State) (n : Nat) (hK : Keeps s0 s) : Keeps s0 (tcpClosed s n) := by
  unfold tcpClosed
  repeat' first | (with_reducible first | exact hK | apply keeps_initLost | apply keeps_onStor) | split

theorem keeps_tcpAbort {s0 : State} (s : State) (n : Nat) (hK : Keeps s0 s) : Keeps s0 (tcpAbort s n) := by
  unfold tcpAbort
  repeat' first | (with_reducible first | exact hK | apply keeps_initLost | apply keeps_tcpReset) | split

theorem keeps_tcpPdu {s0 : State} (s : State) (n : Nat) (p : NvmePdu) (hK : Keeps s0 s) : Keeps s0 (tcpPdu s n p) := by
  unfold tcpPdu
  repeat' first | (with_reducible first | exact hK | assumption | apply keeps_initAnswer | apply keeps_initReady | apply keeps_onTcp | apply keeps_tcpAbort | apply keeps_tcpIo | apply keeps_tcpWrite) | split

theorem keeps_tcpAccept {s0 : State} (s : State) (part : Nat) (lport : Nat) (l : Nat) (txq : Nat) (p : Pkt) (g : TcpIn) (hK : Keeps s0 s) : Keeps s0 (tcpAccept s part lport l txq p g) := by
  unfold tcpAccept
  repeat' first | (with_reducible first | exact hK | apply keeps_draw | apply keeps_onStor | apply keeps_tcpSend | apply Keeps.ite)

theorem keeps_tcpSynSent {s0 : State} (s : State) (n : Nat) (t : Tcp) (g : TcpIn) (hK : Keeps s0 s) : Keeps s0 (tcpSynSent s n t g) := by
  unfold tcpSynSent
  repeat' first | (with_reducible first | exact hK | apply keeps_onTcp | apply keeps_tcpAck | apply keeps_tcpClosed | apply keeps_tcpWrite) | split | with_reducible apply Keeps.upd

theorem keeps_tcpOpen {s0 : State} (s : State) (n : Nat) (t : Tcp) (g : TcpIn) (pdus : List NvmePdu) (hK : Keeps s0 s) : Keeps s0 (tcpOpen s n t g pdus) := by
  unfold tcpOpen; try dsimp only
  repeat' first | (with_reducible first | exact hK | assumption | apply keeps_onTcp | apply keeps_tcpAck | apply keeps_tcpAckIn | apply keeps_tcpClosed | apply keeps_tcpDataIn | apply keeps_tcpPdu | apply keeps_tcpSend | apply Keeps.foldl) | split | (intro _; intros)

theorem keeps_execTcpSegment {s0 : State} (part : Nat) (lport : Nat) (d : List Byte) (pdus : List NvmePdu) (s : State) (hK : Keeps s0 s) : KeepsO s0 (execTcpSegment part lport d pdus s) := by
  unfold execTcpSegment; try dsimp only
  repeat' first | (with_reducible first | exact hK | apply keeps_tcpAccept | apply keeps_tcpFrame | apply keeps_tcpOpen | apply keeps_tcpSynSent | apply KeepsO.next | apply Keeps.ite) | split

theorem keeps_execTcpRto {s0 : State} (n : Nat) (s : State) (hK : Keeps s0 s) : KeepsO s0 (execTcpRto n s) := by
  unfold execTcpRto
  repeat' first | (with_reducible first | exact hK | apply keeps_onTcp | apply keeps_tcpAbort | apply keeps_tcpHalve | apply keeps_tcpResend | apply KeepsO.next) | split

theorem keeps_execNvmeiReconnectTimer {s0 : State} (c : Nat) (s : State) (hK : Keeps s0 s) : KeepsO s0 (execNvmeiReconnectTimer c s) := by
  unfold execNvmeiReconnectTimer
  repeat' first | (with_reducible first | exact hK | apply keeps_initStart | apply KeepsO.next) | split

theorem keeps_execCtrlLossTmoExpire {s0 : State} (c : Nat) (s : State) (hK : Keeps s0 s) : KeepsO s0 (execCtrlLossTmoExpire c s) := by
  unfold execCtrlLossTmoExpire
  repeat' first | (with_reducible first | exact hK | apply keeps_initReset | apply keeps_onInit | apply KeepsO.next) | split

theorem keeps_storQuarantine {s0 : State} (s : State) (hK : Keeps s0 s) : Keeps s0 (storQuarantine s) := by
  unfold storQuarantine
  repeat' first | (with_reducible first | exact hK | assumption | apply keeps_onStor | apply keeps_onStq | apply keeps_storRecord | apply keeps_storRelease | apply keeps_tcpAbort | apply Keeps.foldl) | (intro _; intros)

end Sys2Proof.Safety
end

