-- ==== Sys2Proof/Laws/KeepsPressOps.lean ====
section
/-! SUPPORT. Laws/KeepsPressOps.lean: the operations of PressOps.lean keep the queue, the security version and the form of the memories. -/

namespace Sys2Proof.Safety

open Machine

theorem keeps_sumSend {s0 : State} (s : State) (members : Nat) (m : Nat → TpMsg) (hK : Keeps s0 s) : Keeps s0 (sumSend s members m) := by
  unfold sumSend
  repeat' first | (with_reducible first | exact hK | assumption | apply keeps_tpControl | apply Keeps.foldl) | (intro _; intros)

theorem keeps_sumActivate {s0 : State} (s : State) (o : SumOp) (hK : Keeps s0 s) : Keeps s0 (sumActivate s o) := by
  unfold sumActivate
  repeat' first | (with_reducible first | exact hK | apply keeps_onJob | apply keeps_onTrapeze | apply keeps_sumSend | apply Keeps.ite) | split

theorem keeps_sumStart {s0 : State} (s : State) (o : SumOp) (hK : Keeps s0 s) : Keeps s0 (sumStart s o) := by
  unfold sumStart
  repeat' first | (with_reducible first | exact hK | apply keeps_onTrapeze | apply keeps_sumActivate) | split

theorem keeps_calibrate {s0 : State} (s : State) (delays : List (Nat × Nat)) (hK : Keeps s0 s) : Keeps s0 (calibrate s delays) := by
  unfold calibrate
  repeat' first | (with_reducible first | exact hK | assumption | apply keeps_onTp | apply keeps_tpControl | apply Keeps.foldl) | (intro _; intros)

theorem keeps_sumClear {s0 : State} (s : State) (hK : Keeps s0 s) : Keeps s0 (sumClear s) := by
  unfold sumClear
  repeat' first | (with_reducible first | exact hK | apply keeps_calibrate | apply keeps_onTrapeze | apply keeps_sumActivate | apply keeps_sumSend) | split | with_reducible apply Keeps.upd

theorem keeps_sumDropPress {s0 : State} (s : State) (j : Nat) (hK : Keeps s0 s) : Keeps s0 (sumDropPress s j) := by
  unfold sumDropPress
  repeat' first | (with_reducible first | exact hK | apply keeps_onTrapeze | apply keeps_sumClear) | split

theorem keeps_stageWrite {s0 : State} (s : State) (a : ArmBlock) (off : Nat) (d : List Byte) (hK : Keeps s0 s) : Keeps s0 (stageWrite s a off d) := by
  unfold stageWrite
  repeat' first | (with_reducible first | exact hK | apply keeps_hostPost)

theorem keeps_pressSendTo {s0 : State} (s : State) (jn : Nat) (o : PressOp) (typ : PressType) (status : Nat) (n : Nat) (hK : Keeps s0 s) : Keeps s0 (pressSendTo s jn o typ status n) := by
  unfold pressSendTo
  repeat' first | (with_reducible first | exact hK | apply keeps_gdpStart) | split

theorem keeps_pressSend {s0 : State} (s : State) (jn : Nat) (j : PressJob) (o : PressOp) (typ : PressType) (status : Nat) (dest : Nat → Bool) (hK : Keeps s0 s) : Keeps s0 (pressSend s jn j o typ status dest) := by
  unfold pressSend
  repeat' first | (with_reducible first | exact hK | assumption | apply keeps_pressSendTo | apply Keeps.foldl) | (intro _; intros)

theorem keeps_pressRecord {s0 : State} (s : State) (jn : Nat) (stage : Nat) (status : Nat) (hK : Keeps s0 s) : Keeps s0 (pressRecord s jn stage status) := by
  unfold pressRecord
  repeat' first | (with_reducible first | exact hK | apply keeps_raiseEvent)

theorem keeps_onOp {s0 : State} (s : State) (jn : Nat) (f : PressOp → PressOp) (hK : Keeps s0 s) : Keeps s0 (onOp s jn f) := by
  unfold onOp
  repeat' first | (with_reducible first | exact hK | apply keeps_onJob)

theorem keeps_pressFree {s0 : State} (s : State) (jn : Nat) (j : PressJob) (o : PressOp) (hK : Keeps s0 s) : Keeps s0 (pressFree s jn j o) := by
  unfold pressFree
  repeat' first | (with_reducible first | exact hK | apply keeps_onOp | apply keeps_sumDropPress | apply keeps_sumSend | apply Keeps.ite)

theorem keeps_pressEnd {s0 : State} (s : State) (jn : Nat) (o : PressOp) (st : Status) (last : Nat) (stage : Nat) (hK : Keeps s0 s) : Keeps s0 (pressEnd s jn o st last stage) := by
  unfold pressEnd
  repeat' first | (with_reducible first | exact hK | apply keeps_finish | apply keeps_onJob) | split

theorem keeps_pressAbort {s0 : State} (s : State) (jn : Nat) (cause : Nat) (st : Status) (firstBad : Nat) (hK : Keeps s0 s) : Keeps s0 (pressAbort s jn cause st firstBad) := by
  unfold pressAbort
  repeat' first | (with_reducible first | exact hK | apply keeps_pressEnd | apply keeps_pressFree | apply keeps_pressRecord | apply keeps_pressSend | apply keeps_rindCount | apply keeps_rindLog) | split

theorem keeps_pressFail {s0 : State} (s : State) (jn : Nat) (st : Status) (hK : Keeps s0 s) : Keeps s0 (pressFail s jn st) := by
  unfold pressFail
  repeat' first | (with_reducible first | exact hK | apply keeps_pressAbort)

theorem keeps_pressCancelled {s0 : State} (s : State) (jn : Nat) (stage : Nat) (hK : Keeps s0 s) : Keeps s0 (pressCancelled s jn stage) := by
  unfold pressCancelled
  repeat' first | (with_reducible first | exact hK | apply keeps_pressEnd | apply keeps_pressFree | apply keeps_pressRecord | apply keeps_pressSend) | split

theorem keeps_pressCancel {s0 : State} (s : State) (jn : Nat) (hK : Keeps s0 s) : Keeps s0 (pressCancel s jn) := by
  unfold pressCancel
  repeat' first | (with_reducible first | exact hK | apply keeps_onOp | apply keeps_pressCancelled) | split

theorem keeps_pressNext {s0 : State} (s : State) (jn : Nat) (o : PressOp) (next : PressStage) (hK : Keeps s0 s) : Keeps s0 (pressNext s jn o next) := by
  unfold pressNext
  repeat' first | (with_reducible first | exact hK | apply keeps_onOp | apply keeps_pressCancelled | apply keeps_pressRecord | apply Keeps.ite)

theorem keeps_pressReleaseCheck {s0 : State} (s : State) (jn : Nat) (hK : Keeps s0 s) : Keeps s0 (pressReleaseCheck s jn) := by
  unfold pressReleaseCheck
  repeat' first | (with_reducible first | exact hK | apply keeps_onOp | apply keeps_pressCancelled | apply keeps_pressEnd | apply keeps_pressFree | apply keeps_pressRecord) | split

theorem keeps_pressCopiedOut {s0 : State} (s : State) (jn : Nat) (hK : Keeps s0 s) : Keeps s0 (pressCopiedOut s jn) := by
  unfold pressCopiedOut
  repeat' first | (with_reducible first | exact hK | apply keeps_onOp | apply keeps_pressReleaseCheck | apply keeps_pressSend) | split

theorem keeps_pressDrainCheck {s0 : State} (s : State) (jn : Nat) (hK : Keeps s0 s) : Keeps s0 (pressDrainCheck s jn) := by
  unfold pressDrainCheck
  repeat' first | (with_reducible first | exact hK | apply keeps_pressNext) | split

theorem keeps_pressReadyCheck {s0 : State} (s : State) (jn : Nat) (hK : Keeps s0 s) : Keeps s0 (pressReadyCheck s jn) := by
  unfold pressReadyCheck
  repeat' first | (with_reducible first | exact hK | apply keeps_onOp) | split

theorem keeps_pressSetDone {s0 : State} (s : State) (jn : Nat) (hK : Keeps s0 s) : Keeps s0 (pressSetDone s jn) := by
  unfold pressSetDone
  repeat' first | (with_reducible first | exact hK | apply keeps_onOp | apply keeps_pressNext) | split

theorem keeps_pressWriteDone {s0 : State} (s : State) (jn : Nat) (st : Status) (hK : Keeps s0 s) : Keeps s0 (pressWriteDone s jn st) := by
  unfold pressWriteDone
  repeat' first | (with_reducible first | exact hK | apply keeps_onOp | apply keeps_pressCopiedOut | apply keeps_pressFail | apply keeps_pressRecord) | split

theorem keeps_sumEnd {s0 : State} (s : State) (o : SumOp) (st : Status) (value : Nat) (hK : Keeps s0 s) : Keeps s0 (sumEnd s o st value) := by
  unfold sumEnd
  repeat' first | (with_reducible first | exact hK | apply keeps_finish | apply keeps_onTrapeze | apply keeps_pressFail | apply keeps_pressSetDone | apply keeps_sumClear) | split

end Sys2Proof.Safety
end

