-- ==== Sys2Proof/Laws/KeepsComponents.lean ====
section
/-! SUPPORT. Laws/KeepsComponents.lean: the operations of Components.lean keep the queue, the security version and the form of the memories. -/

namespace Sys2Proof.Safety

open Machine

theorem keeps_initGiveUp {s0 : State} (s : State) (fn : Nat) (id : Nat) (hK : Keeps s0 s) : Keeps s0 (initGiveUp s fn id) := by
  unfold initGiveUp
  repeat' first | (with_reducible first | exact hK | assumption | apply keeps_initReset | apply keeps_onStor | apply Keeps.foldl) | (intro _; intros)

theorem keeps_detachGiveUp {s0 : State} (s : State) (fn : Nat) (id : Nat) (hK : Keeps s0 s) : Keeps s0 (detachGiveUp s fn id) := by
  unfold detachGiveUp
  repeat' first | (with_reducible first | exact hK | assumption | apply keeps_onFn | apply Keeps.foldl) | (intro _; intros) | with_reducible apply Keeps.upd

theorem keeps_dropWaiter {s0 : State} (s : State) (fn : Nat) (id : Nat) (hK : Keeps s0 s) : Keeps s0 (dropWaiter s fn id) := by
  unfold dropWaiter
  repeat' first | (with_reducible first | exact hK | apply keeps_detachGiveUp | apply keeps_initGiveUp | apply keeps_onNet | apply keeps_onPlaybill | apply keeps_onRind | apply keeps_onTrapeze) | with_reducible apply Keeps.upd

theorem keeps_faultEnd {s0 : State} (st : Status) (s : State) (k : Nat × OutCmd) (hK : Keeps s0 s) : Keeps s0 (faultEnd st s k) := by
  unfold faultEnd
  repeat' first | (with_reducible first | exact hK | apply keeps_dropWaiter | apply keeps_finish | apply keeps_onBooth | apply Keeps.ite) | with_reducible apply Keeps.upd

theorem keeps_componentFault {s0 : State} (s : State) (c : Nat) (hK : Keeps s0 s) : Keeps s0 (componentFault s c) := by
  unfold componentFault
  repeat' first | (with_reducible first | exact hK | apply keeps_assertAlert | apply keeps_faultEnd | apply keeps_onComp | apply keeps_raiseEvent | apply keeps_rindCount | apply keeps_rindLog | apply keeps_rindMinute | apply keeps_setAlert | apply Keeps.foldl | apply Keeps.ite)

end Sys2Proof.Safety
end

