-- ==== Sys2Proof/Laws/KeepsFeeds.lean ====
section
/-! SUPPORT. Laws/KeepsFeeds.lean: the operations of Feeds.lean keep the queue, the security version and the form of the memories. -/

namespace Sys2Proof.Safety

open Machine

theorem keeps_onFeed {s0 : State} (s : State) (n : Nat) (f : Feed → Feed) (hK : Keeps s0 s) : Keeps s0 (onFeed s n f) := by
  unfold onFeed
  repeat' first | (with_reducible first | exact hK | apply keeps_onSess)

theorem keeps_onRet {s0 : State} (s : State) (n : Nat) (f : Ret → Ret) (hK : Keeps s0 s) : Keeps s0 (onRet s n f) := by
  unfold onRet
  repeat' first | (with_reducible first | exact hK | apply keeps_onSess)

theorem keeps_readCount {s0 : State} (s : State) (a : Nat) (hK : Keeps s0 s) : Keeps s0 (readCount s a).2.2 := by
  unfold readCount
  repeat' first | (with_reducible first | exact hK | apply keeps_memLoad)

theorem keeps_writeCount {s0 : State} (s : State) (a : Nat) (v : Nat) (hK : Keeps s0 s) : Keeps s0 (writeCount s a v) := by
  unfold writeCount
  repeat' first | (with_reducible first | exact hK | apply keeps_memStore)

theorem keeps_feedFail {s0 : State} (s : State) (n : Nat) (count : Nat) (st : Nat) (hK : Keeps s0 s) : Keeps s0 (feedFail s n count st) := by
  unfold feedFail
  repeat' first | (with_reducible first | exact hK | assumption | apply keeps_onFeed | apply keeps_reply | apply Keeps.foldl) | split | (intro _; intros)

theorem keeps_genPut {s0 : State} (s : State) (session : Nat) (p : Nat) (g : Nat) (hK : Keeps s0 s) : Keeps s0 (genPut s session p g) := by
  unfold genPut
  repeat' first | (with_reducible first | exact hK | apply keeps_onSess | apply keeps_onSession | apply Keeps.ite)

theorem keeps_feedSource {s0 : State} (s : State) (r : PortReq) (cfg : Cfg) (fmt : Nat) (count : Nat) (hK : Keeps s0 s) : Keeps s0 (feedSource s r cfg fmt count).2.2 := by
  unfold feedSource; try dsimp only
  repeat' first | (with_reducible first | exact hK | apply keeps_loadAll | apply keeps_memError) | split

theorem keeps_feedUnread {s0 : State} (s : State) (r : PortReq) (ring : Nat) (f : Feed) (c : FeedCfg) (cons : Nat) (off : Nat) (used : Nat) (bytes : Nat) (tag : Nat) (hK : Keeps s0 s) : Keeps s0 (feedUnread s r ring f c cons off used bytes tag) := by
  unfold feedUnread
  repeat' first | (with_reducible first | exact hK | apply keeps_feedFail | apply keeps_onFeed)

theorem keeps_execFeedRequest {s0 : State} (s : State) (hK : Keeps s0 s) : KeepsO s0 (execFeedRequest s) := by
  unfold execFeedRequest
  repeat' first | (with_reducible first | exact hK | apply keeps_feedFail | apply keeps_feedSource | apply keeps_feedUnread | apply keeps_genPut | apply keeps_onFeed | apply keeps_readCount | apply keeps_reply | apply keeps_storeAll | apply keeps_takeReq | apply KeepsO.next | apply KeepsO.ite) | split

theorem keeps_execFeedEntryWrite {s0 : State} (ring : Nat) (s : State) (hK : Keeps s0 s) : KeepsO s0 (execFeedEntryWrite ring s) := by
  unfold execFeedEntryWrite
  repeat' first | (with_reducible first | exact hK | apply keeps_feedFail | apply keeps_onFeed | apply keeps_reply | apply keeps_storeOne | apply keeps_writeCount | apply KeepsO.next | apply KeepsO.ite) | split

theorem keeps_returnPoll {s0 : State} (s : State) (ring : Nat) (sessions : List Nat) (hK : Keeps s0 s) : Keeps s0 (returnPoll s ring sessions) := by
  unfold returnPoll
  repeat' first | (with_reducible first | exact hK | assumption | apply keeps_onRet | apply keeps_putAct | apply keeps_readCount | apply Keeps.foldl | apply Keeps.ite) | split | (intro _; intros)

theorem keeps_execReturnProdPoll {s0 : State} (ring : Nat) (sessions : List Nat) (s : State) (hK : Keeps s0 s) : KeepsO s0 (execReturnProdPoll ring sessions s) := by
  unfold execReturnProdPoll
  repeat' first | (with_reducible first | exact hK | apply keeps_returnPoll | apply KeepsO.next | apply KeepsO.ite)

theorem keeps_returnReq {s0 t s : State} {r : PortReq} {c : FeedCfg} {f : Ret} (hE : returnReq s r = .inr (c, f, t)) (hK : Keeps s0 s) : Keeps s0 t := by
  unfold returnReq at hE; dsimp only at hE
  split at hE
  · rename_i c' _ _ _
    have k := keeps_readCount s c'.bind.control hK
    generalize readCount s c'.bind.control = p at hE k
    repeat' split at hE
    all_goals try cases hE
    exact k
  · cases hE

theorem keeps_returnRefused {s0 : State} (s : State) (ring : Nat) (st : Nat) (hK : Keeps s0 s) : Keeps s0 (returnRefused s ring st) := by
  unfold returnRefused
  repeat' first | (with_reducible first | exact hK | apply keeps_onRet | apply Keeps.ite)

theorem keeps_execReturnReadRequest {s0 : State} (entry : List Byte) (data : List Byte) (fail : Option Status) (s : State) (hK : Keeps s0 s) : KeepsO s0 (execReturnReadRequest entry data fail s) := by
  unfold execReturnReadRequest
  repeat' first | (with_reducible first | exact hK | apply keeps_genPut | apply keeps_loadAll | apply keeps_onMem | apply keeps_reply | apply keeps_returnRefused | apply keeps_takeReq | apply KeepsO.next | apply KeepsO.ite | refine keeps_returnReq (by assumption) ?_) | exact id | exact wordWf_wordsWrite _ _ _ | split

theorem keeps_execReturnReleaseRequest {s0 : State} (s : State) (hK : Keeps s0 s) : KeepsO s0 (execReturnReleaseRequest s) := by
  unfold execReturnReleaseRequest
  repeat' first | (with_reducible first | exact hK | apply keeps_onRet | apply keeps_reply | apply keeps_returnRefused | apply keeps_takeReq | apply keeps_writeCount | apply KeepsO.next | apply KeepsO.ite | refine keeps_returnReq (by assumption) ?_) | split

theorem keeps_takeCells {s0 : State} (s : State) (p : Nat) (t : Nat) (cs : List Nat) (hK : Keeps s0 s) : Keeps s0 (takeCells s p t cs) := by
  unfold takeCells
  repeat' first | (with_reducible first | exact hK | apply keeps_onMem) | exact id

theorem keeps_releaseCells {s0 : State} (s : State) (cs : List Nat) (hK : Keeps s0 s) : Keeps s0 (releaseCells s cs) := by
  unfold releaseCells
  repeat' first | (with_reducible first | exact hK | apply keeps_onMem) | exact id

theorem keeps_execFreeListTakesCell {s0 : State} (c : Nat) (s : State) (hK : Keeps s0 s) : KeepsO s0 (execFreeListTakesCell c s) := by
  unfold execFreeListTakesCell
  repeat' first | (with_reducible first | exact hK | apply keeps_onMem | apply KeepsO.next) | exact id | split

theorem keeps_execSessionOpen {s0 : State} (h : Hdr) (n : Nat) (blk : HostBlk SessionBlock) (s : State) (hK : Keeps s0 s) : KeepsO s0 (execSessionOpen h n blk s) := by
  unfold execSessionOpen
  repeat' first | (with_reducible first | exact hK | assumption | apply keeps_boothStep | apply keeps_commitEpoch | apply keeps_draw | apply keeps_onSess | apply keeps_takeCells | apply KeepsA.epoch) | (intro _; intros)

theorem keeps_execSessionModify {s0 : State} (h : Hdr) (n : Nat) (blk : HostBlk SessionBlock) (s : State) (hK : Keeps s0 s) : KeepsO s0 (execSessionModify h n blk s) := by
  unfold execSessionModify
  repeat' first | (with_reducible first | exact hK | assumption | apply keeps_boothStep | apply keeps_commitEpoch | apply keeps_keySpend | apply keeps_onSession | apply KeepsA.epoch) | split | (intro _; intros)

theorem keeps_sessClose {s0 : State} (s : State) (n : Nat) (hK : Keeps s0 s) : Keeps s0 (sessClose s n) := by
  unfold sessClose
  repeat' first | (with_reducible first | exact hK | apply keeps_keySpend | apply keeps_onSession) | split

theorem keeps_sessRetire {s0 : State} (s : State) (p : Nat) (hK : Keeps s0 s) : Keeps s0 (sessRetire s p) := by
  unfold sessRetire
  repeat' first | (with_reducible first | exact hK | assumption | apply keeps_onSess | apply keeps_releaseCells | apply Keeps.foldl) | (intro _; intros)

theorem keeps_sessAdopt {s0 : State} (s : State) (hK : Keeps s0 s) : Keeps s0 (sessAdopt s) := by
  unfold sessAdopt
  repeat' first | (with_reducible first | exact hK | apply keeps_onSess)

theorem keeps_execSessionClose {s0 : State} (h : Hdr) (n : Nat) (s : State) (hK : Keeps s0 s) : KeepsO s0 (execSessionClose h n s) := by
  unfold execSessionClose
  repeat' first | (with_reducible first | exact hK | assumption | apply keeps_boothStep | apply keeps_commitEpoch | apply keeps_sessClose | apply KeepsA.epoch) | (intro _; intros)

theorem keeps_execSessionStats {s0 : State} (h : Hdr) (n : Nat) (blk : OutBlk) (s : State) (hK : Keeps s0 s) : KeepsO s0 (execSessionStats h n blk s) := by
  unfold execSessionStats
  repeat' first | (with_reducible first | exact hK | assumption | apply keeps_boothStep | apply keeps_writeOut) | (intro _; intros)

theorem keeps_zeroArray {s0 : State} (s : State) (p : Nat) (t : Nat) (r : RingBind) (both : Bool) (hK : Keeps s0 s) : Keeps s0 (zeroArray s p t r both) := by
  unfold zeroArray
  repeat' first | (with_reducible first | exact hK | apply keeps_storeAll | apply keeps_writeCount | apply Keeps.ite)

theorem keeps_execFeedRingBind {s0 : State} (h : Hdr) (r : RingBind) (s : State) (hK : Keeps s0 s) : KeepsO s0 (execFeedRingBind h r s) := by
  unfold execFeedRingBind
  repeat' first | (with_reducible first | exact hK | assumption | apply keeps_boothStep | apply keeps_commitEpoch | apply keeps_onSess | apply keeps_zeroArray | apply KeepsA.epoch) | (intro _; intros)

theorem keeps_execReturnRingBind {s0 : State} (h : Hdr) (r : RingBind) (binding : Nat) (s : State) (hK : Keeps s0 s) : KeepsO s0 (execReturnRingBind h r binding s) := by
  unfold execReturnRingBind
  repeat' first | (with_reducible first | exact hK | assumption | apply keeps_boothStep | apply keeps_commitEpoch | apply keeps_onSess | apply keeps_zeroArray | apply KeepsA.epoch) | (intro _; intros)

theorem keeps_execFeedRingReset {s0 : State} (h : Hdr) (n : Nat) (s : State) (hK : Keeps s0 s) : KeepsO s0 (execFeedRingReset h n s) := by
  unfold execFeedRingReset
  repeat' first | (with_reducible first | exact hK | assumption | apply keeps_boothStep | apply keeps_commitEpoch | apply keeps_onFeed | apply keeps_reply | apply keeps_zeroArray | apply Keeps.foldl | apply KeepsA.epoch) | split | (intro _; intros)

theorem keeps_execReturnRingReset {s0 : State} (h : Hdr) (n : Nat) (s : State) (hK : Keeps s0 s) : KeepsO s0 (execReturnRingReset h n s) := by
  unfold execReturnRingReset
  repeat' first | (with_reducible first | exact hK | assumption | apply keeps_boothStep | apply keeps_commitEpoch | apply keeps_onRet | apply keeps_zeroArray | apply KeepsA.epoch) | split | (intro _; intros)

theorem keeps_execFeedRingUnbind {s0 : State} (h : Hdr) (n : Nat) (s : State) (hK : Keeps s0 s) : KeepsO s0 (execFeedRingUnbind h n s) := by
  unfold execFeedRingUnbind
  repeat' first | (with_reducible first | exact hK | assumption | apply keeps_boothStep | apply keeps_commitEpoch | apply KeepsA.epoch) | (intro _; intros)

theorem keeps_execReturnRingUnbind {s0 : State} (h : Hdr) (n : Nat) (s : State) (hK : Keeps s0 s) : KeepsO s0 (execReturnRingUnbind h n s) := by
  unfold execReturnRingUnbind
  repeat' first | (with_reducible first | exact hK | assumption | apply keeps_boothStep | apply keeps_commitEpoch | apply KeepsA.epoch) | (intro _; intros)

theorem keeps_ringsRetire {s0 : State} (s : State) (hK : Keeps s0 s) : Keeps s0 (ringsRetire s) := by
  unfold ringsRetire
  repeat' first | (with_reducible first | exact hK | apply keeps_onSess)

theorem keeps_execFeedSeed {s0 : State} (h : Hdr) (seed : Nat) (s : State) (hK : Keeps s0 s) : KeepsO s0 (execFeedSeed h seed s) := by
  unfold execFeedSeed
  repeat' first | (with_reducible first | exact hK | assumption | apply keeps_boothStep | apply keeps_commitEpoch | apply keeps_onSess | apply KeepsA.epoch) | (intro _; intros)

end Sys2Proof.Safety
end

