-- ==== Sys2Proof/Laws/KeepsTrapezeRows.lean ====
section
/-! SUPPORT. Laws/KeepsTrapezeRows.lean: the operations of TrapezeRows.lean keep the queue, the security version and the form of the memories. -/

namespace Sys2Proof.Safety

open Machine

theorem keeps_tpCount {s0 : State} (s : State) (p : Nat) (k : Nat) (n : Nat) (hK : Keeps s0 s) : Keeps s0 (tpCount s p k n) := by
  unfold tpCount
  repeat' first | (with_reducible first | exact hK | apply keeps_onTp)

theorem keeps_tpEvent {s0 : State} (s : State) (p : Nat) (cause : Status) (owners : Bool) (hK : Keeps s0 s) : Keeps s0 (tpEvent s p cause owners) := by
  unfold tpEvent
  repeat' first | (with_reducible first | exact hK | assumption | apply keeps_raiseEvent | apply Keeps.foldl | apply Keeps.ite) | (intro _; intros)

theorem keeps_tpEnd {s0 : State} (s : State) (r : TpReq) (st : Status) (data : List Byte) (hK : Keeps s0 s) : Keeps s0 (tpEnd s r st data) := by
  unfold tpEnd
  repeat' first | (with_reducible first | exact hK | apply keeps_feedFail | apply keeps_gdpAtomicAnswered | apply keeps_gdpWriteAnswered | apply keeps_moverReadDone | apply keeps_moverWriteDone | apply keeps_mwAnswer | apply keeps_pressWriteDone | apply keeps_storWriteDone) | split

theorem keeps_tpFlush {s0 : State} (s : State) (p : Nat) (st : Status) (hK : Keeps s0 s) : Keeps s0 (tpFlush s p st) := by
  unfold tpFlush
  repeat' first | (with_reducible first | exact hK | assumption | apply keeps_onTp | apply keeps_tpEnd | apply Keeps.foldl) | (intro _; intros)

theorem keeps_tpLeavePort {s0 : State} (s : State) (p : Nat) (dest : TpSt) (cause : Status) (pend : Status) (hK : Keeps s0 s) : Keeps s0 (tpLeavePort s p dest cause pend) := by
  unfold tpLeavePort
  repeat' first | (with_reducible first | exact hK | assumption | apply keeps_onTp | apply keeps_rindLog | apply keeps_sumEnd | apply keeps_tpEnd | apply keeps_tpEvent | apply Keeps.foldl) | split | (intro _; intros) | with_reducible apply Keeps.upd

theorem keeps_tpTrain {s0 : State} (s : State) (p : Nat) (hot : Bool) (again : Bool) (hK : Keeps s0 s) : Keeps s0 (tpTrain s p hot again) := by
  unfold tpTrain
  repeat' first | (with_reducible first | exact hK | apply keeps_onTp | apply keeps_rindCount | apply keeps_send | apply Keeps.ite)

theorem keeps_tpEnableDone {s0 : State} (s : State) (p : Nat) (st : Status) (hK : Keeps s0 s) : Keeps s0 (tpEnableDone s p st) := by
  unfold tpEnableDone
  repeat' first | (with_reducible first | exact hK | assumption | apply keeps_finish | apply Keeps.foldl) | (intro _; intros)

theorem keeps_tpTrainFail {s0 : State} (s : State) (p : Nat) (cause : Status) (hK : Keeps s0 s) : Keeps s0 (tpTrainFail s p cause) := by
  unfold tpTrainFail
  repeat' first | (with_reducible first | exact hK | apply keeps_onTp | apply keeps_tpEnableDone | apply keeps_tpFlush | apply Keeps.ite)

theorem keeps_execTrainingStep {s0 : State} (p : Nat) (ok : Bool) (delay : Nat) (s : State) (hK : Keeps s0 s) : KeepsO s0 (execTrainingStep p ok delay s) := by
  unfold execTrainingStep
  repeat' first | (with_reducible first | exact hK | apply keeps_onTp | apply keeps_send | apply keeps_tpEnableDone | apply keeps_tpEvent | apply keeps_tpPump | apply keeps_tpTrainFail | apply KeepsO.next | apply Keeps.ite | apply KeepsO.ite)

theorem keeps_execTrainingRetry {s0 : State} (p : Nat) (s : State) (hK : Keeps s0 s) : KeepsO s0 (execTrainingRetry p s) := by
  unfold execTrainingRetry
  repeat' first | (with_reducible first | exact hK | apply keeps_tpTrain | apply KeepsO.next | apply KeepsO.ite)

theorem keeps_execParam {s0 : State} (p : Nat) (d : List Byte) (s : State) (hK : Keeps s0 s) : KeepsO s0 (execParam p d s) := by
  unfold execParam
  repeat' first | (with_reducible first | exact hK | apply keeps_onTp | apply keeps_tpTrainFail | apply KeepsO.next | apply KeepsO.ite)

theorem keeps_execCombLoss {s0 : State} (p : Nat) (s : State) (hK : Keeps s0 s) : KeepsO s0 (execCombLoss p s) := by
  unfold execCombLoss
  repeat' first | (with_reducible first | exact hK | assumption | apply keeps_onTp | apply keeps_tpCount | apply keeps_tpLeavePort | apply KeepsO.next | apply KeepsO.ite)

theorem keeps_tpNak {s0 : State} (s : State) (p : Nat) (hK : Keeps s0 s) : Keeps s0 (tpNak s p) := by
  unfold tpNak
  repeat' first | (with_reducible first | exact hK | apply keeps_onTp | apply keeps_send | apply Keeps.ite)

theorem keeps_tpAccept {s0 : State} (s : State) (p : Nat) (f : Flit) (hK : Keeps s0 s) : Keeps s0 (tpAccept s p f) := by
  unfold tpAccept
  repeat' first | (with_reducible first | exact hK | apply keeps_onTp | apply keeps_send | apply Keeps.ite)

theorem keeps_execFlitRx {s0 : State} (p : Nat) (f : Flit) (s : State) (hK : Keeps s0 s) : KeepsO s0 (execFlitRx p f s) := by
  unfold execFlitRx
  repeat' first | (with_reducible first | exact hK | apply keeps_onTp | apply keeps_rindMinute | apply keeps_send | apply keeps_tpAccept | apply keeps_tpCount | apply keeps_tpLeavePort | apply keeps_tpNak | apply keeps_tpPump | apply keeps_tpTrain | apply KeepsO.next | apply Keeps.ite | apply KeepsO.ite)

theorem keeps_execAckTimer {s0 : State} (p : Nat) (s : State) (hK : Keeps s0 s) : KeepsO s0 (execAckTimer p s) := by
  unfold execAckTimer
  repeat' first | (with_reducible first | exact hK | apply keeps_onTp | apply keeps_send | apply KeepsO.next | apply KeepsO.ite)

theorem keeps_tpLate {s0 : State} (s : State) (p : Nat) (tag : Nat) (hK : Keeps s0 s) : Keeps s0 (tpLate s p tag) := by
  unfold tpLate
  repeat' first | (with_reducible first | exact hK | apply keeps_onTp | apply keeps_tpCount)

theorem keeps_tpComplete {s0 : State} (s : State) (p : Nat) (tag : Nat) (isRead : Bool) (data : List Byte) (hK : Keeps s0 s) : Keeps s0 (tpComplete s p tag isRead data) := by
  unfold tpComplete
  repeat' first | (with_reducible first | exact hK | apply keeps_onTp | apply keeps_tpEnd | apply keeps_tpLate | apply keeps_tpPump | apply Keeps.ite) | split

theorem keeps_execRdcomp {s0 : State} (p : Nat) (tag : Nat) (data : List Byte) (s : State) (hK : Keeps s0 s) : KeepsO s0 (execRdcomp p tag data s) := by
  unfold execRdcomp
  repeat' first | (with_reducible first | exact hK | apply keeps_tpComplete | apply KeepsO.next)

theorem keeps_execAtcomp {s0 : State} (p : Nat) (tag : Nat) (old : Nat) (s : State) (hK : Keeps s0 s) : KeepsO s0 (execAtcomp p tag old s) := by
  unfold execAtcomp
  repeat' first | (with_reducible first | exact hK | apply keeps_tpComplete | apply KeepsO.next)

theorem keeps_execWcomp {s0 : State} (p : Nat) (tag : Nat) (s : State) (hK : Keeps s0 s) : KeepsO s0 (execWcomp p tag s) := by
  unfold execWcomp
  repeat' first | (with_reducible first | exact hK | assumption | apply keeps_onTp | apply keeps_tpEnd | apply keeps_tpLate | apply keeps_tpPump | apply Keeps.foldl | apply KeepsO.next | apply KeepsO.ite) | (intro _; intros)

theorem keeps_execTpErr {s0 : State} (p : Nat) (tag : Nat) (code : Nat) (s : State) (hK : Keeps s0 s) : KeepsO s0 (execTpErr p tag code s) := by
  unfold execTpErr
  repeat' first | (with_reducible first | exact hK | apply keeps_onTp | apply keeps_tpCount | apply keeps_tpEnd | apply keeps_tpLate | apply keeps_tpPump | apply KeepsO.next | apply KeepsO.ite) | split

theorem keeps_execTrapezeReadTimeout {s0 : State} (p : Nat) (tag : Nat) (s : State) (hK : Keeps s0 s) : KeepsO s0 (execTrapezeReadTimeout p tag s) := by
  unfold execTrapezeReadTimeout; try dsimp only
  repeat' first | (with_reducible first | exact hK | apply keeps_onTp | apply keeps_rindCount | apply keeps_tpEnd | apply keeps_tpPump | apply KeepsO.next) | split

theorem keeps_execCreditWatchdog {s0 : State} (p : Nat) (s : State) (hK : Keeps s0 s) : KeepsO s0 (execCreditWatchdog p s) := by
  unfold execCreditWatchdog
  repeat' first | (with_reducible first | exact hK | apply keeps_rindCount | apply keeps_tpLeavePort | apply keeps_tpTrain | apply KeepsO.next | apply KeepsO.ite)

theorem keeps_tpAnswer {s0 : State} (s : State) (p : Nat) (m : TpMsg) (hK : Keeps s0 s) : Keeps s0 (tpAnswer s p m) := by
  unfold tpAnswer
  repeat' first | (with_reducible first | exact hK | apply keeps_onTp | apply keeps_tpPump)

theorem keeps_tpInbound {s0 : State} (s : State) (x : TpAccess) (len : Nat) (perm : TpWindow → Bool) (f : State → Actor → Nat → Status × TpMsg × State)
    (hf : ∀ u w a, Keeps s0 u → Keeps s0 (f u w a).2.2) (hK : Keeps s0 s) : Keeps s0 (tpInbound s x len perm f) := by
  unfold tpInbound
  split
  · exact hK
  · split
    · exact keeps_tpAnswer _ _ _ hK
    · split
      · exact keeps_tpAnswer _ _ _ hK
      · exact keeps_tpAnswer _ _ _ (hf _ _ _ hK)

theorem keeps_execTpWrite {s0 : State} (x : TpAccess) (data : List Byte) (s : State) (hK : Keeps s0 s) : KeepsO s0 (execTpWrite x data s) := by
  unfold execTpWrite
  repeat' first | (with_reducible first | exact hK | assumption | apply keeps_storeAll | apply keeps_tpInbound | apply KeepsO.next) | (intro _; intros)

theorem keeps_execTpRead {s0 : State} (x : TpAccess) (len : Nat) (s : State) (hK : Keeps s0 s) : KeepsO s0 (execTpRead x len s) := by
  unfold execTpRead
  repeat' first | (with_reducible first | exact hK | assumption | apply keeps_loadAll | apply keeps_tpInbound | apply KeepsO.next) | (intro _; intros)

theorem keeps_execTpFadd {s0 : State} (x : TpAccess) (addend : Nat) (s : State) (hK : Keeps s0 s) : KeepsO s0 (execTpFadd x addend s) := by
  unfold execTpFadd
  repeat' first | (with_reducible first | exact hK | assumption | apply keeps_atomicAt | apply keeps_tpInbound | apply KeepsO.next) | (intro _; intros)

theorem keeps_execTpCas {s0 : State} (x : TpAccess) (compare : Nat) (swap : Nat) (s : State) (hK : Keeps s0 s) : KeepsO s0 (execTpCas x compare swap s) := by
  unfold execTpCas
  repeat' first | (with_reducible first | exact hK | assumption | apply keeps_atomicAt | apply keeps_tpInbound | apply KeepsO.next) | (intro _; intros)

theorem keeps_execRingSignal {s0 : State} (p : Nat) (ring : Nat) (_prod : Nat) (sessions : List Nat) (s : State) (hK : Keeps s0 s) : KeepsO s0 (execRingSignal p ring _prod sessions s) := by
  unfold execRingSignal
  repeat' first | (with_reducible first | exact hK | apply keeps_returnPoll | apply keeps_tpCount | apply KeepsO.next | apply KeepsO.ite)

theorem keeps_execTelemetry {s0 : State} (p : Nat) (seq : Nat) (data : List Byte) (s : State) (hK : Keeps s0 s) : KeepsO s0 (execTelemetry p seq data s) := by
  unfold execTelemetry
  repeat' first | (with_reducible first | exact hK | apply keeps_hostPost | apply keeps_msixRaise | apply keeps_onTp | apply keeps_tpCount | apply KeepsO.next | apply KeepsO.ite) | split

theorem keeps_tpDrop {s0 : State} (s : State) (p : Nat) (fibre : Nat) (hK : Keeps s0 s) : Keeps s0 (tpDrop s p fibre) := by
  unfold tpDrop
  repeat' first | (with_reducible first | exact hK | apply keeps_onTp | apply keeps_tpEvent)

theorem keeps_tpLost {s0 : State} (s : State) (p : Nat) (hK : Keeps s0 s) : Keeps s0 (tpLost s p) := by
  unfold tpLost
  repeat' first | (with_reducible first | exact hK | apply keeps_rindMinute | apply keeps_tpLeavePort | apply keeps_tpTrain)

theorem keeps_tpFaultLane {s0 : State} (s : State) (p : Nat) (fibre : Nat) (lane : Nat) (hK : Keeps s0 s) : Keeps s0 (tpFaultLane s p fibre lane) := by
  unfold tpFaultLane
  repeat' first | (with_reducible first | exact hK | apply keeps_onTp | apply keeps_tpControl | apply keeps_tpLost | apply Keeps.ite)

theorem keeps_execRingLockLoss {s0 : State} (p : Nat) (fibre : Nat) (lane : Nat) (s : State) (hK : Keeps s0 s) : KeepsO s0 (execRingLockLoss p fibre lane s) := by
  unfold execRingLockLoss
  repeat' first | (with_reducible first | exact hK | apply keeps_tpFaultLane | apply KeepsO.next)

theorem keeps_execLaneBerFault {s0 : State} (p : Nat) (fibre : Nat) (lane : Nat) (s : State) (hK : Keeps s0 s) : KeepsO s0 (execLaneBerFault p fibre lane s) := by
  unfold execLaneBerFault
  repeat' first | (with_reducible first | exact hK | apply keeps_tpFaultLane | apply KeepsO.next | apply KeepsO.ite)

theorem keeps_execSpareReq {s0 : State} (p : Nat) (fibre : Nat) (lane : Nat) (s : State) (hK : Keeps s0 s) : KeepsO s0 (execSpareReq p fibre lane s) := by
  unfold execSpareReq
  repeat' first | (with_reducible first | exact hK | apply keeps_onTp | apply keeps_tpControl | apply keeps_tpLost | apply KeepsO.next | apply KeepsO.ite)

theorem keeps_execSpareAck {s0 : State} (p : Nat) (fibre : Nat) (lane : Nat) (fs : Nat) (s : State) (hK : Keeps s0 s) : KeepsO s0 (execSpareAck p fibre lane fs s) := by
  unfold execSpareAck
  repeat' first | (with_reducible first | exact hK | apply keeps_onTp | apply KeepsO.next)

theorem keeps_execLaneSwap {s0 : State} (p : Nat) (s : State) (hK : Keeps s0 s) : KeepsO s0 (execLaneSwap p s) := by
  unfold execLaneSwap; try dsimp only
  repeat' first | (with_reducible first | exact hK | apply keeps_onTp | apply keeps_rindCount | apply keeps_rindLog | apply keeps_rindMinute | apply keeps_tpDrop | apply keeps_tpEvent | apply keeps_tpLost | apply KeepsO.next) | split

theorem keeps_execSpareAckTimeout {s0 : State} (p : Nat) (fibre : Nat) (lane : Nat) (s : State) (hK : Keeps s0 s) : KeepsO s0 (execSpareAckTimeout p fibre lane s) := by
  unfold execSpareAckTimeout; try dsimp only
  repeat' first | (with_reducible first | exact hK | apply keeps_onTp | apply keeps_rindMinute | apply keeps_tpDrop | apply keeps_tpLost | apply KeepsO.next) | split

theorem keeps_sumAllStopped {s0 : State} (s : State) (o : SumOp) (hK : Keeps s0 s) : Keeps s0 (sumAllStopped s o) := by
  unfold sumAllStopped
  repeat' first | (with_reducible first | exact hK | apply keeps_onOp | apply keeps_pressReadyCheck | apply keeps_pressSend) | split

theorem keeps_execSumWindow {s0 : State} (light : Nat) (s : State) (hK : Keeps s0 s) : KeepsO s0 (execSumWindow light s) := by
  unfold execSumWindow
  repeat' first | (with_reducible first | exact hK | apply keeps_onTrapeze | apply keeps_sumAllStopped | apply keeps_sumEnd | apply KeepsO.next | apply KeepsO.ite) | split

theorem keeps_execBoundary {s0 : State} (p : Nat) (job : Nat) (stepNo : Nat) (s : State) (hK : Keeps s0 s) : KeepsO s0 (execBoundary p job stepNo s) := by
  unfold execBoundary
  repeat' first | (with_reducible first | exact hK | apply keeps_onTrapeze | apply keeps_sumEnd | apply keeps_tpCount | apply KeepsO.next | apply KeepsO.ite) | split

theorem keeps_execSumConfirmTimeout {s0 : State} (s : State) (hK : Keeps s0 s) : KeepsO s0 (execSumConfirmTimeout s) := by
  unfold execSumConfirmTimeout
  repeat' first | (with_reducible first | exact hK | assumption | apply keeps_sumEnd | apply keeps_tpCount | apply Keeps.foldl | apply KeepsO.next) | split | (intro _; intros)

theorem keeps_execSumCalibration {s0 : State} (delays : List (Nat × Nat)) (s : State) (hK : Keeps s0 s) : KeepsO s0 (execSumCalibration delays s) := by
  unfold execSumCalibration
  repeat' first | (with_reducible first | exact hK | apply keeps_calibrate | apply keeps_onTrapeze | apply KeepsO.next | apply KeepsO.ite)

theorem keeps_execTrapezeSumTimeout {s0 : State} (s : State) (hK : Keeps s0 s) : KeepsO s0 (execTrapezeSumTimeout s) := by
  unfold execTrapezeSumTimeout
  repeat' first | (with_reducible first | exact hK | apply keeps_sumEnd | apply KeepsO.next) | split

end Sys2Proof.Safety
end

