-- ==== Sys2Proof/Laws/KeepsTrapezeCmds.lean ====
section
/-! SUPPORT. Laws/KeepsTrapezeCmds.lean: the operations of TrapezeCmds.lean keep the queue, the security version and the form of the memories. -/

namespace Sys2Proof.Safety

open Machine

theorem keeps_setArg {s0 : State} (s : State) (fn : Nat) (id : Nat) (v : Nat) (hK : Keeps s0 s) : Keeps s0 (setArg s fn id v) := by
  unfold setArg
  repeat' first | (with_reducible first | exact hK | apply keeps_onBooth)

theorem keeps_execTrapezeEnable {s0 : State} (h : Hdr) (p : Nat) (s : State) (hK : Keeps s0 s) : KeepsO s0 (execTrapezeEnable h p s) := by
  unfold execTrapezeEnable
  repeat' first | (with_reducible first | exact hK | assumption | apply keeps_boothStep | apply keeps_onTp | apply keeps_setArg | apply keeps_tpTrain | apply KeepsA.ite | apply KeepsA.done | apply KeepsA.long) | (intro _; intros)

theorem keeps_tpOff {s0 : State} (s : State) (p : Nat) (cause : Status) (held : Status) (queued : Status) (hK : Keeps s0 s) : Keeps s0 (tpOff s p cause held queued) := by
  unfold tpOff
  repeat' first | (with_reducible first | exact hK | apply keeps_onTp | apply keeps_tpEnableDone | apply keeps_tpFlush | apply keeps_tpLeavePort | apply Keeps.ite)

theorem keeps_execTrapezeDisable {s0 : State} (h : Hdr) (p : Nat) (s : State) (hK : Keeps s0 s) : KeepsO s0 (execTrapezeDisable h p s) := by
  unfold execTrapezeDisable
  repeat' first | (with_reducible first | exact hK | assumption | apply keeps_boothStep | apply keeps_tpOff | apply KeepsA.done) | (intro _; intros)

theorem keeps_execTrapezeWindowSet {s0 : State} (h : Hdr) (p : Nat) (k : Nat) (e : TpWindow) (rsvZero : Bool) (s : State) (hK : Keeps s0 s) : KeepsO s0 (execTrapezeWindowSet h p k e rsvZero s) := by
  unfold execTrapezeWindowSet
  repeat' first | (with_reducible first | exact hK | assumption | apply keeps_boothStep | apply keeps_commitEpoch | apply KeepsA.epoch) | (intro _; intros)

theorem keeps_execTrapezeInwindowSet {s0 : State} (h : Hdr) (p : Nat) (k : Nat) (e : TpWindow) (rsvZero : Bool) (s : State) (hK : Keeps s0 s) : KeepsO s0 (execTrapezeInwindowSet h p k e rsvZero s) := by
  unfold execTrapezeInwindowSet
  repeat' first | (with_reducible first | exact hK | assumption | apply keeps_boothStep | apply keeps_commitEpoch | apply KeepsA.epoch) | (intro _; intros)

theorem keeps_execTrapezeTelemSet {s0 : State} (h : Hdr) (p : Nat) (base : Nat) (log2 : Nat) (vector : Nat) (s : State) (hK : Keeps s0 s) : KeepsO s0 (execTrapezeTelemSet h p base log2 vector s) := by
  unfold execTrapezeTelemSet
  repeat' first | (with_reducible first | exact hK | assumption | apply keeps_boothStep | apply keeps_dropDoorbells | apply keeps_giveDoorbells | apply keeps_onTp | apply KeepsA.ite | apply KeepsA.done) | (intro _; intros)

theorem keeps_execTrapezeSum {s0 : State} (h : Hdr) (c : SumCmd) (s : State) (hK : Keeps s0 s) : KeepsO s0 (execTrapezeSum h c s) := by
  unfold execTrapezeSum
  repeat' first | (with_reducible first | exact hK | assumption | apply keeps_boothStep | apply keeps_sumStart | apply KeepsA.long) | (intro _; intros)

theorem keeps_execTrapezeWatchdogSet {s0 : State} (h : Hdr) (p : Nat) (creditUs : Nat) (readUs : Nat) (s : State) (hK : Keeps s0 s) : KeepsO s0 (execTrapezeWatchdogSet h p creditUs readUs s) := by
  unfold execTrapezeWatchdogSet
  repeat' first | (with_reducible first | exact hK | assumption | apply keeps_boothStep | apply keeps_onTp | apply KeepsA.done) | (intro _; intros)

theorem keeps_execTrapezeStats {s0 : State} (h : Hdr) (p : Nat) (blk : OutBlk) (s : State) (hK : Keeps s0 s) : KeepsO s0 (execTrapezeStats h p blk s) := by
  unfold execTrapezeStats
  repeat' first | (with_reducible first | exact hK | assumption | apply keeps_boothStep | apply keeps_writeOut) | (intro _; intros)

end Sys2Proof.Safety
end

