-- ==== Sys2Proof/Laws/KeepsCodec.lean ====
section
/-! SUPPORT. Laws/KeepsCodec.lean: the operations of Codec.lean keep the queue, the security version and the form of the memories. -/

namespace Sys2Proof.Safety

open Machine

theorem keeps_codecCount {s0 : State} (s : State) (n : Nat) (r : CdRecord) (hK : Keeps s0 s) : Keeps s0 (codecCount s n r) := by
  unfold codecCount
  repeat' first | (with_reducible first | exact hK | apply keeps_onStream | apply keeps_raiseEvent) | split | with_reducible apply Keeps.upd

theorem keeps_codecRecord {s0 : State} (s : State) (n : Nat) (r : CdRecord) (hK : Keeps s0 s) : Keeps s0 (codecRecord s n r) := by
  unfold codecRecord
  repeat' first | (with_reducible first | exact hK | apply keeps_codecCount | apply keeps_hostPost | apply keeps_msixRaise | apply keeps_onStream) | split

theorem keeps_codecOutput {s0 : State} (s : State) (n : Nat) (i : Nat) (hK : Keeps s0 s) : Keeps s0 (codecOutput s n i) := by
  unfold codecOutput
  repeat' first | (with_reducible first | exact hK | apply keeps_codecRecord | apply keeps_onStream) | split

theorem keeps_codecSettle {s0 : State} (s : State) (n : Nat) (x0 : Nat) (hK : Keeps s0 s) : Keeps s0 (codecSettle s n x0) := by
  induction x0 generalizing s n with
  | zero => exact hK
  | succ n ih =>
    unfold codecSettle
    repeat' first | (with_reducible first | apply ih | exact hK | apply keeps_codecRecord | apply keeps_onStream) | split

theorem keeps_codecSettled {s0 : State} (s : State) (n : Nat) (hK : Keeps s0 s) : Keeps s0 (codecSettled s n) := by
  unfold codecSettled
  repeat' first | (with_reducible first | exact hK | apply keeps_codecSettle) | split

theorem keeps_codecOver {s0 : State} (s : State) (n : Nat) (d : CdDesc) (st : Nat) (hK : Keeps s0 s) : Keeps s0 (codecOver s n d st) := by
  unfold codecOver
  repeat' first | (with_reducible first | exact hK | apply keeps_codecSettled | apply keeps_onStream)

theorem keeps_codecRelease {s0 : State} (s : State) (n : Nat) (hK : Keeps s0 s) : Keeps s0 (codecRelease s n) := by
  unfold codecRelease
  repeat' first | (with_reducible first | exact hK | assumption | apply keeps_codecRecord | apply keeps_onCodec | apply keeps_onInst | apply Keeps.foldl) | split | (intro _; intros)

theorem keeps_codecReady {s0 : State} (s : State) (n : Nat) (x0 : Nat) (hK : Keeps s0 s) : Keeps s0 (codecReady s n x0) := by
  induction x0 generalizing s n with
  | zero => exact hK
  | succ n ih =>
    unfold codecReady
    repeat' first | (with_reducible first | apply ih | exact hK | apply keeps_onInst | apply keeps_onStream) | split

theorem keeps_codecKick {s0 : State} (s : State) (n : Nat) (hK : Keeps s0 s) : Keeps s0 (codecKick s n) := by
  unfold codecKick
  repeat' first | (with_reducible first | exact hK | apply keeps_codecReady) | split

theorem keeps_codecFlushed {s0 : State} (s : State) (n : Nat) (d : CdDesc) (hK : Keeps s0 s) : Keeps s0 (codecFlushed s n d) := by
  unfold codecFlushed
  repeat' first | (with_reducible first | exact hK | apply keeps_codecOver) | split

theorem keeps_codecDescsRead {s0 : State} (s : State) (n : Nat) (d : List Byte) (hK : Keeps s0 s) : Keeps s0 (codecDescsRead s n d) := by
  unfold codecDescsRead
  repeat' first | (with_reducible first | exact hK | assumption | apply keeps_codecFlushed | apply keeps_codecRelease | apply keeps_onStream | apply Keeps.foldl) | split | (intro _; intros)

theorem keeps_codecFlush {s0 : State} (s : State) (n : Nat) (hK : Keeps s0 s) : Keeps s0 (codecFlush s n).1 := by
  unfold codecFlush
  repeat' first | (with_reducible first | exact hK | assumption | apply keeps_codecFlushed | apply keeps_onStream | apply Keeps.foldl) | split | (intro _; intros)

theorem keeps_codecClose {s0 : State} (s : State) (n : Nat) (hK : Keeps s0 s) : Keeps s0 (codecClose s n) := by
  unfold codecClose
  repeat' first | (with_reducible first | exact hK | apply keeps_codecFlush | apply keeps_codecRelease | apply keeps_codecSettled | apply keeps_onStream)

theorem keeps_execCodecModeSet {s0 : State} (h : Hdr) (i : Nat) (mode : Nat) (age : Nat) (idle : Nat) (watchdog : Nat) (s : State) (hK : Keeps s0 s) : KeepsO s0 (execCodecModeSet h i mode age idle watchdog s) := by
  unfold execCodecModeSet
  repeat' first | (with_reducible first | exact hK | assumption | apply keeps_boothStep | apply keeps_commitAll | apply KeepsA.device) | (intro _; intros)

theorem keeps_execCodecStreamOpen {s0 : State} (h : Hdr) (n : Nat) (blk : HostBlk CodecOpen) (s : State) (hK : Keeps s0 s) : KeepsO s0 (execCodecStreamOpen h n blk s) := by
  unfold execCodecStreamOpen
  repeat' first | (with_reducible first | exact hK | assumption | apply keeps_boothStep | apply keeps_commitEpoch | apply keeps_giveDoorbells | apply keeps_onCodec | apply keeps_onInst | apply KeepsA.ite | apply KeepsA.done | apply KeepsA.epoch) | (intro _; intros)

theorem keeps_execCodecStreamModify {s0 : State} (h : Hdr) (m : CodecModify) (s : State) (hK : Keeps s0 s) : KeepsO s0 (execCodecStreamModify h m s) := by
  unfold execCodecStreamModify
  repeat' first | (with_reducible first | exact hK | assumption | apply keeps_boothStep | apply keeps_commitEpoch | apply KeepsA.epoch) | (intro _; intros)

theorem keeps_execCodecStreamFlush {s0 : State} (h : Hdr) (n : Nat) (s : State) (hK : Keeps s0 s) : KeepsO s0 (execCodecStreamFlush h n s) := by
  unfold execCodecStreamFlush
  repeat' first | (with_reducible first | exact hK | assumption | apply keeps_boothStep | apply keeps_codecFlush | apply KeepsA.done) | (intro _; intros)

theorem keeps_execCodecStreamClose {s0 : State} (h : Hdr) (n : Nat) (s : State) (hK : Keeps s0 s) : KeepsO s0 (execCodecStreamClose h n s) := by
  unfold execCodecStreamClose
  repeat' first | (with_reducible first | exact hK | assumption | apply keeps_boothStep | apply keeps_codecClose | apply keeps_commitEpoch | apply KeepsA.epoch) | (intro _; intros)

theorem keeps_execCodecBufferRegister {s0 : State} (h : Hdr) (x : CodecBuffer) (s : State) (hK : Keeps s0 s) : KeepsO s0 (execCodecBufferRegister h x s) := by
  unfold execCodecBufferRegister
  repeat' first | (with_reducible first | exact hK | assumption | apply keeps_boothStep | apply keeps_codecKick | apply keeps_onStream | apply KeepsA.done) | (intro _; intros)

theorem keeps_execCodecStats {s0 : State} (h : Hdr) (n : Nat) (blk : OutBlk) (s : State) (hK : Keeps s0 s) : KeepsO s0 (execCodecStats h n blk s) := by
  unfold execCodecStats
  repeat' first | (with_reducible first | exact hK | assumption | apply keeps_boothStep | apply keeps_writeOut) | (intro _; intros)

theorem keeps_execCodecDescriptorTake {s0 : State} (n : Nat) (s : State) (hK : Keeps s0 s) : KeepsO s0 (execCodecDescriptorTake n s) := by
  unfold execCodecDescriptorTake
  repeat' first | (with_reducible first | exact hK | apply keeps_codecKick | apply keeps_codecOver | apply keeps_codecRelease | apply keeps_onStream | apply KeepsO.next | apply KeepsO.ite) | split

theorem keeps_execCodecPictureGrant {s0 : State} (i : Nat) (s : State) (hK : Keeps s0 s) : KeepsO s0 (execCodecPictureGrant i s) := by
  unfold execCodecPictureGrant
  repeat' first | (with_reducible first | exact hK | apply keeps_onInst | apply KeepsO.next) | split

theorem keeps_codecSuspend {s0 : State} (s : State) (i : Nat) (hK : Keeps s0 s) : Keeps s0 (codecSuspend s i) := by
  unfold codecSuspend
  repeat' first | (with_reducible first | exact hK | apply keeps_onInst | apply keeps_onStream) | split | with_reducible apply Keeps.upd

theorem keeps_execCodecTakeoverPoint {s0 : State} (i : Nat) (s : State) (hK : Keeps s0 s) : KeepsO s0 (execCodecTakeoverPoint i s) := by
  unfold execCodecTakeoverPoint; try dsimp only
  repeat' first | (with_reducible first | exact hK | apply keeps_codecSuspend | apply keeps_onInst | apply KeepsO.next) | split

theorem keeps_execCodecSlotEnd {s0 : State} (i : Nat) (s : State) (hK : Keeps s0 s) : KeepsO s0 (execCodecSlotEnd i s) := by
  unfold execCodecSlotEnd
  repeat' first | (with_reducible first | exact hK | apply keeps_codecSuspend | apply keeps_onInst | apply KeepsO.next | apply KeepsO.ite)

theorem keeps_exclNext {s0 : State} (s : State) (i : Nat) (hK : Keeps s0 s) : Keeps s0 (exclNext s i) := by
  unfold exclNext
  repeat' first | (with_reducible first | exact hK | apply keeps_onInst)

theorem keeps_execExclIdleExpire {s0 : State} (i : Nat) (s : State) (hK : Keeps s0 s) : KeepsO s0 (execExclIdleExpire i s) := by
  unfold execExclIdleExpire
  repeat' first | (with_reducible first | exact hK | apply keeps_exclNext | apply KeepsO.next | apply KeepsO.ite)

theorem keeps_codecTakeOff {s0 : State} (s : State) (i : Nat) (n : Nat) (hK : Keeps s0 s) : Keeps s0 (codecTakeOff s i n) := by
  unfold codecTakeOff
  repeat' first | (with_reducible first | exact hK | apply keeps_onInst | apply keeps_onStream)

theorem keeps_codecWrites {s0 : State} (s : State) (i : Nat) (w : Actor) (blk : CodecOpen) (b : PicBuf) (fail : Nat) (ws : List CdWrite) (hK : Keeps s0 s) : Keeps s0 (codecWrites s i w blk b fail ws).2.2 := by
  unfold codecWrites; try dsimp only
  repeat' first | (with_reducible first | exact hK | assumption | apply keeps_storeAll | apply Keeps.foldl_snd_snd) | split | (intro _; intros)

theorem keeps_codecRead {s0 : State} (s : State) (i : Nat) (w : Actor) (host : Bool) (fail : Nat) (ranges : List (Nat × Nat)) (hK : Keeps s0 s) : Keeps s0 (codecRead s i w host fail ranges).2 := by
  unfold codecRead
  repeat' first | (with_reducible first | exact hK | assumption | apply keeps_loadAll | apply Keeps.foldl_snd) | split | (intro _; intros)

theorem keeps_codecOuts {s0 : State} (s : State) (n : Nat) (r : CdResult) (hK : Keeps s0 s) : Keeps s0 (codecOuts s n r) := by
  unfold codecOuts
  repeat' first | (with_reducible first | exact hK | assumption | apply keeps_codecOutput | apply keeps_onStream | apply Keeps.foldl) | (intro _; intros)

theorem keeps_decodeEnd {s0 : State} (s : State) (i : Nat) (n : Nat) (y : Stream) (p : Picture) (r : CdResult) (hK : Keeps s0 s) : Keeps s0 (decodeEnd s i n y p r) := by
  unfold decodeEnd
  repeat' first | (with_reducible first | exact hK | apply keeps_codecOuts | apply keeps_codecRead | apply keeps_codecRecord | apply keeps_codecTakeOff | apply keeps_codecWrites | apply keeps_onStream) | split | with_reducible apply Keeps.upd

theorem keeps_encodeEnd {s0 : State} (s : State) (i : Nat) (n : Nat) (y : Stream) (p : Picture) (r : CdResult) (hK : Keeps s0 s) : Keeps s0 (encodeEnd s i n y p r) := by
  unfold encodeEnd
  repeat' first | (with_reducible first | exact hK | apply keeps_codecRead | apply keeps_codecRecord | apply keeps_codecTakeOff | apply keeps_hostPost | apply keeps_onStream | apply keeps_storeAll) | split | with_reducible apply Keeps.upd

theorem keeps_eosEnd {s0 : State} (s : State) (i : Nat) (n : Nat) (p : Picture) (r : CdResult) (hK : Keeps s0 s) : Keeps s0 (eosEnd s i n p r) := by
  unfold eosEnd
  repeat' first | (with_reducible first | exact hK | assumption | apply keeps_codecOutput | apply keeps_codecRecord | apply keeps_codecTakeOff | apply keeps_exclNext | apply Keeps.foldl | apply Keeps.ite) | (intro _; intros)

theorem keeps_codecRunning {s0 : State} (s : State) (i : Nat) (f : Nat → Stream → Picture → State) (hf : ∀ n y p, Keeps s0 (f n y p))
    (hK : Keeps s0 s) : Keeps s0 (codecRunning s i f) := by
  unfold codecRunning
  split
  · exact hK
  · split
    · exact hK
    · split
      · exact hK
      · exact hf _ _ _

theorem keeps_execCodecPictureEnd {s0 : State} (i : Nat) (r : CdResult) (s : State) (hK : Keeps s0 s) : KeepsO s0 (execCodecPictureEnd i r s) := by
  unfold execCodecPictureEnd
  repeat' first | (with_reducible first | exact hK | apply keeps_codecKick | apply keeps_codecRelease | apply keeps_codecRunning | apply keeps_codecSettled | apply keeps_decodeEnd | apply keeps_encodeEnd | apply keeps_eosEnd | apply KeepsO.next | apply Keeps.ite) | (intro _; intros)

theorem keeps_execStreamWatchdog {s0 : State} (i : Nat) (s : State) (hK : Keeps s0 s) : KeepsO s0 (execStreamWatchdog i s) := by
  unfold execStreamWatchdog
  repeat' first | (with_reducible first | exact hK | assumption | apply keeps_codecKick | apply keeps_codecRecord | apply keeps_codecRelease | apply keeps_codecRunning | apply keeps_codecSettled | apply keeps_codecTakeOff | apply keeps_onStream | apply keeps_rindCount | apply keeps_spoilRows | apply Keeps.foldl | apply KeepsO.next) | split | (intro _; intros)

theorem keeps_codecQuarantine {s0 : State} (s : State) (i : Nat) (hK : Keeps s0 s) : Keeps s0 (codecQuarantine s i) := by
  unfold codecQuarantine
  repeat' first | (with_reducible first | exact hK | assumption | apply keeps_codecOver | apply keeps_codecRelease | apply keeps_onInst | apply keeps_onStream | apply Keeps.foldl) | (intro _; intros)

end Sys2Proof.Safety
end

