-- ==== Sys2Proof/Laws/KeepsQuarantine.lean ====
section
/-! SUPPORT. Laws/KeepsQuarantine.lean: the operations of Quarantine.lean keep the queue, the security version and the form of the memories. -/

namespace Sys2Proof.Safety

open Machine

theorem keeps_enterFaulted {s0 : State} (s : State) (i : Nat) (hK : Keeps s0 s) : Keeps s0 (enterFaulted s i) := by
  unfold enterFaulted
  repeat' first | (with_reducible first | exact hK | apply keeps_assertAlert | apply keeps_onPower | apply keeps_rindCount | apply keeps_setAlert | apply Keeps.ite)

theorem keeps_starvedCheck {s0 : State} (s : State) (hK : Keeps s0 s) : Keeps s0 (starvedCheck s) := by
  unfold starvedCheck
  repeat' first | (with_reducible first | exact hK | assumption | apply keeps_onStat | apply keeps_raiseEvent | apply Keeps.foldl | apply Keeps.ite) | (intro _; intros)

theorem keeps_leaveSet {s0 : State} (s : State) (p : Nat) (i : Nat) (hK : Keeps s0 s) : Keeps s0 (leaveSet s p i) := by
  unfold leaveSet
  repeat' first | (with_reducible first | exact hK | apply keeps_onPart | apply keeps_shareResize | apply keeps_shareUpdateAll | apply Keeps.ite)

theorem keeps_leaveAdoption {s0 : State} (s : State) (i : Nat) (hK : Keeps s0 s) : Keeps s0 (leaveAdoption s i) := by
  unfold leaveAdoption
  repeat' first | (with_reducible first | exact hK | assumption | apply keeps_leaveSet | apply keeps_releaseDeferred | apply Keeps.foldl) | (intro _; intros)

theorem keeps_tumblerQuarantine {s0 : State} (s : State) (n : Nat) (hK : Keeps s0 s) : Keeps s0 (tumblerQuarantine s n) := by
  unfold tumblerQuarantine
  repeat' first | (with_reducible first | exact hK | apply keeps_endInv | apply keeps_leaveAdoption | apply keeps_onIsland | apply keeps_starvedCheck) | split

theorem keeps_netQuarantine {s0 : State} (s : State) (np : Nat) (hK : Keeps s0 s) : Keeps s0 (netQuarantine s np) := by
  unfold netQuarantine
  repeat' first | (with_reducible first | exact hK | assumption | apply keeps_linkDown | apply keeps_onLPort | apply keeps_txFlushAll | apply keeps_txFlushOne | apply Keeps.foldl) | split | (intro _; intros)

theorem keeps_gdpQuarantine {s0 : State} (s : State) (hK : Keeps s0 s) : Keeps s0 (gdpQuarantine s) := by
  unfold gdpQuarantine
  repeat' first | (with_reducible first | exact hK | assumption | apply keeps_gdpFail | apply Keeps.foldl) | (intro _; intros) | with_reducible apply Keeps.upd

theorem keeps_moverQuarantine {s0 : State} (s : State) (hK : Keeps s0 s) : Keeps s0 (moverQuarantine s) := by
  unfold moverQuarantine
  repeat' first | (with_reducible first | exact hK | assumption | apply keeps_moverRecord | apply keeps_moverRelease | apply keeps_onMover | apply keeps_onMvq | apply Keeps.foldl) | (intro _; intros)

theorem keeps_quarantine {s0 : State} (s : State) (i : Nat) (cause : Nat) (hK : Keeps s0 s) : Keeps s0 (quarantine s i cause) := by
  unfold quarantine
  repeat' first | (with_reducible first | exact hK | apply keeps_codecQuarantine | apply keeps_enterFaulted | apply keeps_gdpQuarantine | apply keeps_leaveAdoption | apply keeps_moverQuarantine | apply keeps_netQuarantine | apply keeps_onIsland | apply keeps_rindCount | apply keeps_rindLog | apply keeps_storQuarantine | apply keeps_tpOff | apply keeps_tumblerQuarantine | apply Keeps.ite)

theorem keeps_ledgerReport {s0 : State} (s : State) (kind : Nat) (island : Nat) (index : Nat) (held : Nat) (inUse : Nat) (total : Nat) (hK : Keeps s0 s) : Keeps s0 (ledgerReport s kind island index held inUse total) := by
  unfold ledgerReport
  repeat' first | (with_reducible first | exact hK | apply keeps_raiseEvent | apply keeps_raiseTenants | apply keeps_rindCount | apply keeps_rindLog | apply keeps_rindMinute | apply Keeps.ite) | split

theorem keeps_ledgerFault {s0 : State} (s : State) (kind : Nat) (island : Nat) (index : Nat) (held : Nat) (inUse : Nat) (total : Nat) (hK : Keeps s0 s) : Keeps s0 (ledgerFault s kind island index held inUse total) := by
  unfold ledgerFault
  repeat' first | (with_reducible first | exact hK | apply keeps_componentFault | apply keeps_ledgerReport | apply keeps_quarantine | apply Keeps.ite)

theorem keeps_katFault {s0 : State} (s : State) (alg : Nat) (hK : Keeps s0 s) : Keeps s0 (katFault s alg) := by
  unfold katFault
  repeat' first | (with_reducible first | exact hK | apply keeps_ledgerReport | apply keeps_quarantine | apply keeps_rindCount | apply keeps_rindLog)

theorem keeps_execCipherSelftest {s0 : State} (h : Hdr) (failing : Nat) (s : State) (hK : Keeps s0 s) : KeepsO s0 (execCipherSelftest h failing s) := by
  unfold execCipherSelftest
  repeat' first | (with_reducible first | exact hK | assumption | apply keeps_boothStep | apply keeps_finish | apply keeps_ledgerReport | apply keeps_quarantine | apply keeps_rindCount | apply keeps_rindLog | apply KeepsA.ite | apply KeepsA.done | apply KeepsA.long) | (intro _; intros)

theorem keeps_execIslandRelease {s0 : State} (h : Hdr) (island : Nat) (passes : Bool) (s : State) (hK : Keeps s0 s) : KeepsO s0 (execIslandRelease h island passes s) := by
  unfold execIslandRelease
  repeat' first | (with_reducible first | exact hK | assumption | apply keeps_boothStep | apply keeps_onIsland | apply keeps_starvedCheck | apply KeepsA.done) | (intro _; intros)

end Sys2Proof.Safety
end

