-- ==== Sys2Proof/Laws/KeepsShares.lean ====
section
/-! SUPPORT. Laws/KeepsShares.lean: the operations of Shares.lean keep the queue, the security version and the form of the memories. -/

namespace Sys2Proof.Safety

open Machine

theorem keeps_shrinkCommit {s0 : State} (r : Resize) (s : State) (p : Nat) (hK : Keeps s0 s) : Keeps s0 (shrinkCommit r s p) := by
  unfold shrinkCommit
  repeat' first | (with_reducible first | exact hK | apply keeps_commitEpoch)

theorem scrubUnit_wf (m : MemSys) (j : Nat) : (memWf m.bytes = true → memWf (scrubUnit m j).bytes = true) ∧
    (wordWf m.troupe = true → wordWf (scrubUnit m j).troupe = true) ∧ (wordWf m.im = true → wordWf (scrubUnit m j).im = true) := by
  unfold scrubUnit
  exact ⟨fun h => memWf_memZero _ _ _ (memWf_memZero _ _ _ h), wordWf_wordsZero _ _ _, wordWf_wordsZero _ _ _⟩

theorem scrubUnits_wf (l : List (Nat × Nat × Nat)) (m : MemSys) : (memWf m.bytes = true → memWf (l.foldl (fun m x => scrubUnit m x.1) m).bytes = true) ∧
    (wordWf m.troupe = true → wordWf (l.foldl (fun m x => scrubUnit m x.1) m).troupe = true) ∧
    (wordWf m.im = true → wordWf (l.foldl (fun m x => scrubUnit m x.1) m).im = true) := by
  induction l generalizing m with
  | nil => exact ⟨id, id, id⟩
  | cons x l ih =>
    have k := scrubUnit_wf m x.1
    have g := ih (scrubUnit m x.1)
    exact ⟨fun h => g.1 (k.1 h), fun h => g.2.1 (k.2.1 h), fun h => g.2.2 (k.2.2 h)⟩

theorem wordWf_actCode (n : Nat) (l : List (Nat × Act)) (m : Tbl Word) (h : wordWf m = true) :
    wordWf (l.foldl (fun im e => wordsWrite im (n * 32768 + e.2.imBase) (e.2.code.map word)) m) = true := by
  induction l generalizing m with
  | nil => exact h
  | cons e l ih => exact ih _ (wordWf_wordsWrite _ _ _ h)

theorem keeps_actsInto {s0 : State} (s : State) (p n : Nat) (hK : Keeps s0 s) : Keeps s0 (actsInto s p n) := by
  unfold actsInto
  exact keeps_onMem _ _ hK id id (wordWf_actCode _ _ _)

theorem keeps_growCommit {s0 : State} (r : Resize) (s : State) (p : Nat) (hK : Keeps s0 s) : Keeps s0 (growCommit r s p) := by
  unfold growCommit
  repeat' first | (with_reducible first | exact hK | assumption | apply keeps_actsInto | apply keeps_commitEpoch | apply Keeps.foldl) | (intro _; intros)

theorem keeps_execPartitionSharesSet {s0 : State} (h : Hdr) (blk : HostBlk (List Nat)) (s : State) (hK : Keeps s0 s) : KeepsO s0 (execPartitionSharesSet h blk s) := by
  unfold execPartitionSharesSet; try dsimp only
  repeat' first | (with_reducible first | exact hK | assumption | apply keeps_boothStep | apply keeps_shareResize | apply keeps_shrinkCommit | apply Keeps.foldl | apply KeepsA.done | apply KeepsA.long) | split | (intro _; intros) | with_reducible apply Keeps.upd

theorem keeps_resizeScrubbed {s0 : State} (s : State) (hK : Keeps s0 s) : Keeps s0 (resizeScrubbed s) := by
  unfold resizeScrubbed
  split
  · exact hK
  · rename_i r _
    split
    · exact hK
    · have k : Keeps s0 (s.onMem (fun m => r.moves.foldl (fun m x => scrubUnit m x.1) m)) :=
        have h := scrubUnits_wf r.moves s.mem
        keeps_onMem _ _ hK h.1 h.2.1 h.2.2
      dsimp only
      split
      · exact keeps_resizeEnd _ _ _ _ k
      · refine keeps_releaseDeferred _ (Keeps.foldl (Keeps.foldl k.upd ?_) ?_)
        · exact fun u x h => keeps_growCommit _ _ _ h
        · exact fun u x h => keeps_shareResize _ _ h

theorem keeps_execPartitionInfo {s0 : State} (h : Hdr) (blk : OutBlk) (s : State) (hK : Keeps s0 s) : KeepsO s0 (execPartitionInfo h blk s) := by
  unfold execPartitionInfo
  repeat' first | (with_reducible first | exact hK | assumption | apply keeps_boothStep | apply keeps_writeOut) | (intro _; intros)

theorem keeps_execMidwayPrioritySet {s0 : State} (h : Hdr) (blk : HostBlk (List Nat)) (s : State) (hK : Keeps s0 s) : KeepsO s0 (execMidwayPrioritySet h blk s) := by
  unfold execMidwayPrioritySet
  repeat' first | (with_reducible first | exact hK | assumption | apply keeps_boothStep | apply keeps_commitAll | apply KeepsA.device) | (intro _; intros)

theorem keeps_execHostWindowSet {s0 : State} (h : Hdr) (n : Nat) (w : HostWindow) (rsvZero : Bool) (s : State) (hK : Keeps s0 s) : KeepsO s0 (execHostWindowSet h n w rsvZero s) := by
  unfold execHostWindowSet
  repeat' first | (with_reducible first | exact hK | assumption | apply keeps_boothStep | apply keeps_commitEpoch | apply KeepsA.epoch) | (intro _; intros)

theorem keeps_execApertureSet {s0 : State} (h : Hdr) (vf : Nat) (entry : Nat) (mapped : Nat) (base : Nat) (s : State) (hK : Keeps s0 s) : KeepsO s0 (execApertureSet h vf entry mapped base s) := by
  unfold execApertureSet
  repeat' first | (with_reducible first | exact hK | assumption | apply keeps_boothStep | apply keeps_commitEpoch | apply KeepsA.epoch) | (intro _; intros)

theorem keeps_execHostTimeoutSet {s0 : State} (h : Hdr) (us : Nat) (s : State) (hK : Keeps s0 s) : KeepsO s0 (execHostTimeoutSet h us s) := by
  unfold execHostTimeoutSet
  repeat' first | (with_reducible first | exact hK | assumption | apply keeps_boothStep | apply keeps_onHost | apply KeepsA.done) | (intro _; intros)

end Sys2Proof.Safety
end

