-- ==== Sys2Proof/Laws/KeepsDoorbells.lean ====
section
/-! SUPPORT. Laws/KeepsDoorbells.lean: the operations of Doorbells.lean keep the queue, the security version and the form of the memories. -/

namespace Sys2Proof.Safety

open Machine

theorem keeps_moverFetch {s0 : State} (s : State) (q : Nat) (hK : Keeps s0 s) : Keeps s0 (moverFetch s q) := by
  unfold moverFetch
  repeat' first | (with_reducible first | exact hK | apply keeps_ringFetch) | split

theorem keeps_codecFetch {s0 : State} (s : State) (n : Nat) (hK : Keeps s0 s) : Keeps s0 (codecFetch s n) := by
  unfold codecFetch
  repeat' first | (with_reducible first | exact hK | apply keeps_ringFetch) | split

theorem keeps_storFetch {s0 : State} (s : State) (q : Nat) (hK : Keeps s0 s) : Keeps s0 (storFetch s q) := by
  unfold storFetch
  repeat' first | (with_reducible first | exact hK | apply keeps_ringFetch) | split

theorem keeps_ringKick {s0 : State} (s : State) (t : DbTarget) (hK : Keeps s0 s) : Keeps s0 (ringKick s t) := by
  unfold ringKick
  repeat' first | (with_reducible first | exact hK | apply keeps_codecFetch | apply keeps_gdpFetch | apply keeps_moverFetch | apply keeps_rxFetch | apply keeps_storFetch | apply keeps_txFetch) | split

theorem keeps_ringSet {s0 : State} (s : State) (t : DbTarget) (v : Nat) (hK : Keeps s0 s) : Keeps s0 (ringSet s t v) := by
  unfold ringSet
  repeat' first | (with_reducible first | exact hK | apply keeps_onConn | apply keeps_onMvq | apply keeps_onNet | apply keeps_onRing | apply keeps_onStq | apply keeps_onStream | apply keeps_onTp | apply keeps_onTxq) | split

theorem keeps_dbDiscard {s0 : State} (s : State) (fn : Nat) (hK : Keeps s0 s) : Keeps s0 (dbDiscard s fn) := by
  unfold dbDiscard
  repeat' first | (with_reducible first | exact hK | apply keeps_onFn)

theorem keeps_dbRefuse {s0 : State} (s : State) (fn : Nat) (hK : Keeps s0 s) : Keeps s0 (dbRefuse s fn) := by
  unfold dbRefuse
  repeat' first | (with_reducible first | exact hK | apply keeps_dbDiscard | apply keeps_onFn | apply keeps_raiseEvent | apply Keeps.ite)

theorem keeps_eventsLost {s0 : State} (s : State) (fn : Nat) (hK : Keeps s0 s) : Keeps s0 (eventsLost s fn) := by
  unfold eventsLost
  repeat' first | (with_reducible first | exact hK | apply keeps_onBooth | apply keeps_putEvent | apply Keeps.ite)

theorem keeps_subDoorbell {s0 : State} (s : State) (fn : Nat) (v : Nat) (hK : Keeps s0 s) : Keeps s0 (subDoorbell s fn v) := by
  unfold subDoorbell
  repeat' first | (with_reducible first | exact hK | apply keeps_dbDiscard | apply keeps_dbRefuse | apply keeps_onBooth | apply Keeps.ite)

theorem keeps_cmpDoorbell {s0 : State} (s : State) (fn : Nat) (v : Nat) (hK : Keeps s0 s) : Keeps s0 (cmpDoorbell s fn v) := by
  unfold cmpDoorbell
  repeat' first | (with_reducible first | exact hK | apply keeps_dbDiscard | apply keeps_dbRefuse | apply keeps_onBooth | apply Keeps.ite)

theorem keeps_evtDoorbell {s0 : State} (s : State) (fn : Nat) (v : Nat) (hK : Keeps s0 s) : Keeps s0 (evtDoorbell s fn v) := by
  unfold evtDoorbell
  repeat' first | (with_reducible first | exact hK | apply keeps_dbDiscard | apply keeps_dbRefuse | apply keeps_eventsLost | apply keeps_onBooth | apply Keeps.ite)

theorem keeps_actDoorbell {s0 : State} (s : State) (fn : Nat) (k : Nat) (v : Nat) (hK : Keeps s0 s) : Keeps s0 (actDoorbell s fn k v) := by
  unfold actDoorbell
  repeat' first | (with_reducible first | exact hK | apply keeps_dbDiscard | apply keeps_onFn | apply keeps_onStat | apply keeps_putAct | apply Keeps.ite) | split

theorem keeps_parleyRecord {s0 : State} (s : State) (vf : Nat) (up : Bool) (v : Nat) (hK : Keeps s0 s) : Keeps s0 (parleyRecord s vf up v) := by
  unfold parleyRecord
  repeat' first | (with_reducible first | exact hK | apply keeps_raiseEvent)

theorem keeps_onParley {s0 : State} (s : State) (vf : Nat) (up : Bool) (f : Parley → Parley) (hK : Keeps s0 s) : Keeps s0 (onParley s vf up f) := by
  unfold onParley
  repeat' first | (with_reducible first | exact hK | apply keeps_onFn)

theorem keeps_parleyWrite {s0 : State} (s : State) (vf : Nat) (up : Bool) (v : Nat) (hK : Keeps s0 s) : Keeps s0 (parleyWrite s vf up v) := by
  unfold parleyWrite
  repeat' first | (with_reducible first | exact hK | apply keeps_onParley | apply keeps_parleyRecord | apply Keeps.ite)

theorem keeps_ringDoorbell {s0 : State} (s : State) (fn : Nat) (n : Nat) (v : Nat) (hK : Keeps s0 s) : Keeps s0 (ringDoorbell s fn n v) := by
  unfold ringDoorbell
  repeat' first | (with_reducible first | exact hK | apply keeps_dbDiscard | apply keeps_dbRefuse | apply keeps_onFn | apply keeps_parleyWrite | apply keeps_ringKick | apply keeps_ringSet) | split

theorem keeps_doorbellWrite {s0 : State} (s : State) (fn : Nat) (off : Nat) (size : Nat) (v : Nat) (hK : Keeps s0 s) : Keeps s0 (doorbellWrite s fn off size v) := by
  unfold doorbellWrite
  repeat' first | (with_reducible first | exact hK | apply keeps_actDoorbell | apply keeps_cmpDoorbell | apply keeps_dbDiscard | apply keeps_evtDoorbell | apply keeps_ringDoorbell | apply keeps_subDoorbell | apply Keeps.ite)

theorem keeps_execBoothSubmissionDoorbell {s0 : State} (fn : Nat) (size : Nat) (v : Nat) (s : State) (hK : Keeps s0 s) : KeepsO s0 (execBoothSubmissionDoorbell fn size v s) := by
  unfold execBoothSubmissionDoorbell
  repeat' first | (with_reducible first | exact hK | apply keeps_doorbellWrite | apply KeepsO.next)

theorem keeps_execBoothCompletionDoorbell {s0 : State} (fn : Nat) (size : Nat) (v : Nat) (s : State) (hK : Keeps s0 s) : KeepsO s0 (execBoothCompletionDoorbell fn size v s) := by
  unfold execBoothCompletionDoorbell
  repeat' first | (with_reducible first | exact hK | apply keeps_doorbellWrite | apply KeepsO.next)

theorem keeps_execBoothEventDoorbell {s0 : State} (fn : Nat) (size : Nat) (v : Nat) (s : State) (hK : Keeps s0 s) : KeepsO s0 (execBoothEventDoorbell fn size v s) := by
  unfold execBoothEventDoorbell
  repeat' first | (with_reducible first | exact hK | apply keeps_doorbellWrite | apply KeepsO.next)

theorem keeps_execRingProducerDoorbell {s0 : State} (fn : Nat) (off : Nat) (size : Nat) (v : Nat) (s : State) (hK : Keeps s0 s) : KeepsO s0 (execRingProducerDoorbell fn off size v s) := by
  unfold execRingProducerDoorbell
  repeat' first | (with_reducible first | exact hK | apply keeps_doorbellWrite | apply KeepsO.next)

theorem keeps_execRingConsumerDoorbell {s0 : State} (fn : Nat) (off : Nat) (size : Nat) (v : Nat) (s : State) (hK : Keeps s0 s) : KeepsO s0 (execRingConsumerDoorbell fn off size v s) := by
  unfold execRingConsumerDoorbell
  repeat' first | (with_reducible first | exact hK | apply keeps_doorbellWrite | apply KeepsO.next)

theorem keeps_execActDoorbellWrite {s0 : State} (fn : Nat) (k : Nat) (size : Nat) (v : Nat) (s : State) (hK : Keeps s0 s) : KeepsO s0 (execActDoorbellWrite fn k size v s) := by
  unfold execActDoorbellWrite
  repeat' first | (with_reducible first | exact hK | apply keeps_doorbellWrite | apply KeepsO.next)

theorem keeps_execParleyDoorbell {s0 : State} (fn : Nat) (off : Nat) (size : Nat) (v : Nat) (s : State) (hK : Keeps s0 s) : KeepsO s0 (execParleyDoorbell fn off size v s) := by
  unfold execParleyDoorbell
  repeat' first | (with_reducible first | exact hK | apply keeps_doorbellWrite | apply KeepsO.next)

theorem keeps_execParleyIntervalEnd {s0 : State} (vf : Nat) (up : Bool) (s : State) (hK : Keeps s0 s) : KeepsO s0 (execParleyIntervalEnd vf up s) := by
  unfold execParleyIntervalEnd
  repeat' first | (with_reducible first | exact hK | apply keeps_onParley | apply keeps_parleyRecord | apply KeepsO.next | apply KeepsO.ite) | split

end Sys2Proof.Safety
end

