-- ==== Sys2Proof/Laws/KeepsRegisters.lean ====
section
/-! SUPPORT. Laws/KeepsRegisters.lean: the operations of Registers.lean keep the queue, the security version and the form of the memories. -/

namespace Sys2Proof.Safety

open Machine

theorem keeps_regLatch {s0 : State} (s : State) (o : Nat) (hK : Keeps s0 s) : Keeps s0 (regLatch s o) := by
  unfold regLatch
  repeat' first | (with_reducible first | exact hK | apply keeps_onMgmt | apply Keeps.ite)

theorem keeps_onAlarm {s0 : State} (s : State) (n : Nat) (f : Alarm → Alarm) (hK : Keeps s0 s) : Keeps s0 (onAlarm s n f) := by
  unfold onAlarm
  repeat' first | (with_reducible first | exact hK | apply keeps_onMgmt)

theorem keeps_regClear {s0 : State} (s : State) (o : Nat) (v : Nat) (hK : Keeps s0 s) : Keeps s0 (regClear s o v) := by
  unfold regClear
  repeat' first | (with_reducible first | exact hK | apply keeps_onAlarm | apply keeps_onMgmt | apply keeps_onTarget | apply Keeps.ite)

theorem keeps_regRead {s0 : State} (s : State) (o : Nat) (hK : Keeps s0 s) : Keeps s0 (regRead s o).2 := by
  unfold regRead
  repeat' first | (with_reducible first | exact hK | apply keeps_draw | apply keeps_regClear | apply keeps_regLatch) | split

theorem keeps_controlRead {s0 : State} (s : State) (o : Nat) (n : Nat) (hK : Keeps s0 s) : Keeps s0 (controlRead s o n).2 := by
  unfold controlRead
  repeat' first | (with_reducible first | exact hK | assumption | apply keeps_regRead | apply Keeps.foldl_snd) | (intro _; intros)

theorem keeps_rtcSet {s0 : State} (s : State) (v : Nat) (hK : Keeps s0 s) : Keeps s0 (rtcSet s v) := by
  unfold rtcSet
  repeat' first | (with_reducible first | exact hK | apply keeps_onClock)

theorem keeps_atbCtrlSet {s0 : State} (s : State) (v : Nat) (hK : Keeps s0 s) : Keeps s0 (atbCtrlSet s v) := by
  unfold atbCtrlSet
  repeat' first | (with_reducible first | exact hK | apply keeps_onTest)

theorem keeps_atbAdcFields {s0 : State} (s : State) (v : Nat) (hK : Keeps s0 s) : Keeps s0 (atbAdcFields s v) := by
  unfold atbAdcFields
  repeat' first | (with_reducible first | exact hK | apply keeps_onTest)

theorem keeps_atbStart {s0 : State} (s : State) (x : Nat) (hK : Keeps s0 s) : Keeps s0 (atbStart s x) := by
  unfold atbStart
  repeat' first | (with_reducible first | exact hK | apply keeps_onTest)

theorem keeps_regWrite {s0 : State} (s : State) (o : Nat) (v : Nat) (x : Nat) (hK : Keeps s0 s) : Keeps s0 (regWrite s o v x) := by
  unfold regWrite
  repeat' first | (with_reducible first | exact hK | apply keeps_atbAdcFields | apply keeps_atbCtrlSet | apply keeps_atbStart | apply keeps_onAlarm | apply keeps_onMgmt | apply keeps_rtcSet | apply Keeps.ite) | split

end Sys2Proof.Safety
end

