-- ==== Sys2Proof/Laws/KeepsPower.lean ====
section
/-! SUPPORT. Laws/KeepsPower.lean: the operations of Power.lean keep the queue, the security version and the form of the memories. -/

namespace Sys2Proof.Safety

open Machine

theorem keeps_resetVmain {s0 : State} (s : State) (warm : Bool) (hK : Keeps s0 s) : Keeps s0 (resetVmain s warm) := by
  unfold resetVmain
  have k : Keeps s0 ((List.range 4).foldl (fun s d => if driveLink s.cfg d then s.send (.drivePerst d true) else s) s) :=
    Keeps.foldl hK (fun u x h => Keeps.ite (keeps_send _ _ h) h)
  dsimp only
  exact ⟨k.queue, k.svn, fun _ => ⟨rfl, rfl, rfl⟩⟩

theorem keeps_markBad {s0 : State} (s : State) (k : Nat) (reason : Nat) (hK : Keeps s0 s) : Keeps s0 (markBad s k reason) := by
  unfold markBad
  repeat' first | (with_reducible first | exact hK | apply keeps_onFlash | apply keeps_rindCount | apply keeps_rindLog)

theorem keeps_candidates {s0 : State} (s : State) (hK : Keeps s0 s) : Keeps s0 (candidates s).2 := by
  unfold candidates; try dsimp only
  repeat' first | (with_reducible first | exact hK | apply keeps_draw | apply keeps_markBad | apply keeps_onFlash) | split

theorem keeps_enterRefused {s0 : State} (s : State) (slot : Nat) (reason : Nat) (hK : Keeps s0 s) : Keeps s0 (enterRefused s slot reason) := by
  unfold enterRefused
  repeat' first | (with_reducible first | exact hK | apply keeps_assertAlert | apply keeps_onMgmt | apply keeps_onPlaybill | apply keeps_onPower | apply keeps_playbillStart | apply keeps_rindCount | apply keeps_rindLog | apply Keeps.ite)

theorem keeps_bootFrom {s0 : State} (s : State) (first : Nat × Nat) (l : List Nat) (hK : Keeps s0 s) : Keeps s0 (bootFrom s first l) := by
  induction l generalizing s first with
  | nil => exact keeps_enterRefused _ _ _ hK
  | cons x l ih =>
    unfold bootFrom
    split
    · exact keeps_onPower _ _ hK
    · exact ih _ _ (keeps_markBad _ _ _ hK)

theorem keeps_bootStart {s0 : State} (s : State) (hK : Keeps s0 s) : Keeps s0 (bootStart s) := by
  unfold bootStart
  repeat' first | (with_reducible first | exact hK | apply keeps_bootFrom | apply keeps_candidates | apply keeps_draw | apply keeps_enterRefused | apply keeps_onMem | apply keeps_onMgmt | apply keeps_onPower) | exact id | split | with_reducible apply Keeps.upd

theorem keeps_svnRaise {s0 : State} (s : State) (hK : Keeps s0 s) : Keeps s0 (svnRaise s) := by
  unfold svnRaise
  dsimp only
  split
  · exact hK
  · refine ⟨hK.queue, ?_, hK.mem⟩
    have := hK.svn
    unfold svnKept at *
    exact Nat.le_trans this (Nat.le_max_left _ _)

theorem keeps_trialEnds {s0 : State} (s : State) (hK : Keeps s0 s) : Keeps s0 (trialEnds s) := by
  unfold trialEnds
  repeat' first | (with_reducible first | exact hK | apply keeps_onFlash | apply keeps_onPower | apply keeps_svnRaise | apply Keeps.ite)

theorem keeps_warmReset {s0 : State} (s : State) (hK : Keeps s0 s) : Keeps s0 (warmReset s) := by
  unfold warmReset
  repeat' first | (with_reducible first | exact hK | apply keeps_onPower | apply keeps_rindCount | apply keeps_rindTrigger | apply Keeps.ite) | with_reducible apply Keeps.upd

theorem keeps_warmStart {s0 : State} (s : State) (hK : Keeps s0 s) : Keeps s0 (warmStart s) := by
  unfold warmStart
  repeat' first | (with_reducible first | exact hK | apply keeps_bootStart | apply keeps_onPower | apply keeps_onTest | apply Keeps.ite)

theorem keeps_powerOn {s0 : State} (s : State) (hK : Keeps s0 s) : Keeps s0 (powerOn s) := by
  unfold powerOn
  repeat' first | (with_reducible first | exact hK | apply keeps_bootStart | apply keeps_onClock | apply keeps_onPower | apply keeps_resetVmain | apply keeps_rindBin | apply keeps_rindCount)

theorem keeps_execVmainGood {s0 : State} (s : State) (hK : Keeps s0 s) : KeepsO s0 (execVmainGood s) := by
  unfold execVmainGood
  repeat' first | (with_reducible first | exact hK | apply keeps_onPower | apply keeps_powerOn | apply KeepsO.next | apply Keeps.ite | apply KeepsO.ite)

theorem keeps_execBrownout {s0 : State} (s : State) (hK : Keeps s0 s) : KeepsO s0 (execBrownout s) := by
  unfold execBrownout
  repeat' first | (with_reducible first | exact hK | apply keeps_onMgmt | apply keeps_onPower | apply keeps_resetVmain | apply keeps_rindCount | apply keeps_rindLog | apply KeepsO.next | apply KeepsO.ite)

theorem keeps_execVstbyLoss {s0 : State} (s : State) (hK : Keeps s0 s) : KeepsO s0 (execVstbyLoss s) := by
  unfold execVstbyLoss
  repeat' first | (with_reducible first | exact hK | apply keeps_onMgmt | apply keeps_onPlaybill | apply keeps_onPower | apply keeps_onRind | apply keeps_resetVmain | apply KeepsO.next | apply KeepsO.ite)

theorem keeps_vstbyBack {s0 : State} (s : State) (hK : Keeps s0 s) : Keeps s0 (vstbyBack s) := by
  unfold vstbyBack
  repeat' first | (with_reducible first | exact hK | apply keeps_onPower | apply keeps_playbillDraw | apply keeps_powerOn | apply Keeps.ite)

theorem keeps_execVstbyReturn {s0 : State} (s : State) (hK : Keeps s0 s) : KeepsO s0 (execVstbyReturn s) := by
  unfold execVstbyReturn
  repeat' first | (with_reducible first | exact hK | apply keeps_vstbyBack | apply KeepsO.next | apply KeepsO.ite)

theorem keeps_execVbatLow {s0 : State} (s : State) (hK : Keeps s0 s) : KeepsO s0 (execVbatLow s) := by
  unfold execVbatLow
  repeat' first | (with_reducible first | exact hK | apply keeps_onClock | apply keeps_onPower | apply KeepsO.next | apply KeepsO.ite)

theorem keeps_execAlwaysOnPowerOn {s0 : State} (onVstby : Bool) (s : State) (hK : Keeps s0 s) : KeepsO s0 (execAlwaysOnPowerOn onVstby s) := by
  unfold execAlwaysOnPowerOn
  repeat' first | (with_reducible first | exact hK | apply keeps_onPower | apply keeps_rindCount | apply keeps_vstbyBack | apply KeepsO.next | apply Keeps.ite | apply KeepsO.ite) | with_reducible apply Keeps.upd

theorem keeps_execPerstNAssert {s0 : State} (s : State) (hK : Keeps s0 s) : KeepsO s0 (execPerstNAssert s) := by
  unfold execPerstNAssert
  repeat' first | (with_reducible first | exact hK | apply keeps_onPower | apply keeps_warmReset | apply KeepsO.next | apply KeepsO.ite)

theorem keeps_execPerstNDeassert {s0 : State} (s : State) (hK : Keeps s0 s) : KeepsO s0 (execPerstNDeassert s) := by
  unfold execPerstNDeassert
  repeat' first | (with_reducible first | exact hK | apply keeps_onMgmt | apply keeps_onPower | apply keeps_warmStart | apply KeepsO.next | apply Keeps.ite | apply KeepsO.ite)

theorem keeps_execHotReset {s0 : State} (s : State) (hK : Keeps s0 s) : KeepsO s0 (execHotReset s) := by
  unfold execHotReset
  repeat' first | (with_reducible first | exact hK | apply keeps_onHost | apply keeps_warmReset | apply KeepsO.next)

theorem keeps_execQuiesced {s0 : State} (s : State) (hK : Keeps s0 s) : KeepsO s0 (execQuiesced s) := by
  unfold execQuiesced
  repeat' first | (with_reducible first | exact hK | apply keeps_onMgmt | apply keeps_onPower | apply keeps_resetVmain | apply keeps_warmStart | apply KeepsO.next | apply KeepsO.ite)

theorem keeps_rindMerge {s0 : State} (s : State) (hK : Keeps s0 s) : Keeps s0 (rindMerge s) := by
  unfold rindMerge
  repeat' first | (with_reducible first | exact hK | assumption | apply keeps_onRind | apply keeps_rindCount | apply keeps_rindLog | apply Keeps.foldl | apply Keeps.ite) | (intro _; intros)

theorem keeps_controlUp {s0 : State} (s : State) (hK : Keeps s0 s) : Keeps s0 (controlUp s) := by
  unfold controlUp
  repeat' first | (with_reducible first | exact hK | apply keeps_onRind | apply keeps_rindMerge | apply keeps_rindTrigger) | with_reducible apply Keeps.upd

theorem keeps_reachRun {s0 : State} (s : State) (hK : Keeps s0 s) : Keeps s0 (reachRun s) := by
  unfold reachRun
  repeat' first | (with_reducible first | exact hK | apply keeps_onMgmt | apply keeps_onPower | apply keeps_playbillStart | apply keeps_trialEnds | apply Keeps.ite)

theorem keeps_execIslandBringUp {s0 : State} (passes : Bool) (kat : Nat) (s : State) (hK : Keeps s0 s) : KeepsO s0 (execIslandBringUp passes kat s) := by
  unfold execIslandBringUp; try dsimp only
  repeat' first | (with_reducible first | exact hK | assumption | apply keeps_controlUp | apply keeps_katFault | apply keeps_onPower | apply keeps_quarantine | apply keeps_reachRun | apply keeps_send | apply Keeps.foldl | apply KeepsO.next) | split | (intro _; intros)

theorem keeps_execTrialTimeout {s0 : State} (s : State) (hK : Keeps s0 s) : KeepsO s0 (execTrialTimeout s) := by
  unfold execTrialTimeout
  repeat' first | (with_reducible first | exact hK | apply keeps_warmReset | apply KeepsO.next | apply KeepsO.ite)

theorem keeps_freqStep {s0 : State} (s : State) (ns : Nat) (f : Power → Power) (hK : Keeps s0 s) : Keeps s0 (freqStep s ns f) := by
  unfold freqStep
  repeat' first | (with_reducible first | exact hK | apply keeps_onPower | apply Keeps.ite)

theorem keeps_throttle {s0 : State} (s : State) (hK : Keeps s0 s) : Keeps s0 (throttle s) := by
  unfold throttle
  repeat' first | (with_reducible first | exact hK | apply keeps_freqStep | apply keeps_onPower | apply keeps_rindCount | apply Keeps.ite)

theorem keeps_execThermalSample {s0 : State} (hot : Int) (s : State) (hK : Keeps s0 s) : KeepsO s0 (execThermalSample hot s) := by
  unfold execThermalSample
  repeat' first | (with_reducible first | exact hK | apply keeps_freqStep | apply keeps_onPower | apply keeps_throttle | apply KeepsO.next | apply Keeps.ite | apply KeepsO.ite)

theorem keeps_execCurrentSensorSample {s0 : State} (second : Nat) (milli : Nat) (s : State) (hK : Keeps s0 s) : KeepsO s0 (execCurrentSensorSample second milli s) := by
  unfold execCurrentSensorSample
  repeat' first | (with_reducible first | exact hK | apply keeps_throttle | apply KeepsO.next | apply KeepsO.ite)

theorem keeps_execThermalTrip {s0 : State} (island : Nat) (temp : Nat) (s : State) (hK : Keeps s0 s) : KeepsO s0 (execThermalTrip island temp s) := by
  unfold execThermalTrip
  repeat' first | (with_reducible first | exact hK | apply keeps_assertAlert | apply keeps_onMgmt | apply keeps_onPlaybill | apply keeps_onPower | apply keeps_resetVmain | apply keeps_rindCount | apply keeps_rindLog | apply KeepsO.next | apply KeepsO.ite)

theorem keeps_gateOff {s0 : State} (s : State) (d : Nat) (hK : Keeps s0 s) : Keeps s0 (gateOff s d) := by
  unfold gateOff
  repeat' first | (with_reducible first | exact hK | apply keeps_onMem | apply keeps_onPower | apply Keeps.ite) | exact id | exact memWf_memZero _ _ _ | exact wordWf_wordsZero _ _ _

theorem keeps_execDomainGate {s0 : State} (d : Nat) (s : State) (hK : Keeps s0 s) : KeepsO s0 (execDomainGate d s) := by
  unfold execDomainGate
  repeat' first | (with_reducible first | exact hK | apply keeps_gateOff | apply keeps_onPower | apply KeepsO.next | apply Keeps.ite | apply KeepsO.ite)

theorem keeps_execErefLoss {s0 : State} (s : State) (hK : Keeps s0 s) : KeepsO s0 (execErefLoss s) := by
  unfold execErefLoss
  repeat' first | (with_reducible first | exact hK | apply keeps_draw | apply keeps_linkDown | apply keeps_onClock | apply Keeps.foldl | apply KeepsO.next | apply KeepsO.ite)

theorem keeps_execErefReturn {s0 : State} (s : State) (hK : Keeps s0 s) : KeepsO s0 (execErefReturn s) := by
  unfold execErefReturn
  repeat' first | (with_reducible first | exact hK | apply keeps_onClock | apply KeepsO.next)

theorem keeps_execHrefLoss {s0 : State} (s : State) (hK : Keeps s0 s) : KeepsO s0 (execHrefLoss s) := by
  unfold execHrefLoss
  repeat' first | (with_reducible first | exact hK | apply keeps_driveLost | apply keeps_onClock | apply keeps_onHost | apply keeps_warmReset | apply Keeps.foldl | apply KeepsO.next)

theorem keeps_execXtal32Loss {s0 : State} (s : State) (hK : Keeps s0 s) : KeepsO s0 (execXtal32Loss s) := by
  unfold execXtal32Loss
  repeat' first | (with_reducible first | exact hK | apply keeps_onClock | apply KeepsO.next)

end Sys2Proof.Safety
end

