-- ==== Sys2Proof/Laws/KeepsHostPort.lean ====
section
/-! SUPPORT. Laws/KeepsHostPort.lean: the operations of HostPort.lean keep the queue, the security version and the form of the memories. -/

namespace Sys2Proof.Safety

open Machine

theorem keeps_hostRefuse {s0 : State} (s : State) (fn : Nat) (hK : Keeps s0 s) : Keeps s0 (hostRefuse s fn) := by
  unfold hostRefuse
  repeat' first | (with_reducible first | exact hK | apply keeps_aerLog | apply keeps_onFn)

theorem keeps_barRefuse {s0 : State} (s : State) (fn : Nat) (read : Bool) (hK : Keeps s0 s) : Keeps s0 (barRefuse s fn read) := by
  unfold barRefuse
  repeat' first | (with_reducible first | exact hK | apply keeps_hostRefuse | apply keeps_send | apply Keeps.ite)

theorem keeps_msixRelease {s0 : State} (s : State) (fn : Nat) (v : Nat) (hK : Keeps s0 s) : Keeps s0 (msixRelease s fn v) := by
  unfold msixRelease
  repeat' first | (with_reducible first | exact hK | apply keeps_msixSend | apply keeps_onFn | apply Keeps.ite)

theorem keeps_msixFlush {s0 : State} (s : State) (fn : Nat) (hK : Keeps s0 s) : Keeps s0 (msixFlush s fn) := by
  unfold msixFlush
  repeat' first | (with_reducible first | exact hK | assumption | apply keeps_msixRelease | apply Keeps.foldl) | (intro _; intros)

theorem keeps_msixTable {s0 : State} (s : State) (fn : Nat) (off : Nat) (d : List Byte) (hK : Keeps s0 s) : Keeps s0 (msixTable s fn off d) := by
  unfold msixTable
  repeat' first | (with_reducible first | exact hK | assumption | apply keeps_msixRelease | apply keeps_onFn | apply Keeps.foldl) | (intro _; intros)

theorem keeps_execMsixTableWrite {s0 : State} (fn : Nat) (w : MsixWrite) (s : State) (hK : Keeps s0 s) : KeepsO s0 (execMsixTableWrite fn w s) := by
  unfold execMsixTableWrite
  repeat' first | (with_reducible first | exact hK | apply keeps_msixFlush | apply keeps_msixTable | apply keeps_onFn | apply KeepsO.next) | split

theorem keeps_execMsixHoldoffEnd {s0 : State} (fn : Nat) (v : Nat) (s : State) (hK : Keeps s0 s) : KeepsO s0 (execMsixHoldoffEnd fn v s) := by
  unfold execMsixHoldoffEnd
  repeat' first | (with_reducible first | exact hK | apply keeps_msixRelease | apply keeps_onFn | apply KeepsO.next | apply KeepsO.ite)

theorem keeps_execHostBar0Access {s0 : State} (fn : Nat) (off : Nat) (x : BarAccess) (s : State) (hK : Keeps s0 s) : KeepsO s0 (execHostBar0Access fn off x s) := by
  unfold execHostBar0Access
  repeat' first | (with_reducible first | exact hK | apply keeps_aerLog | apply keeps_barRefuse | apply keeps_doorbellWrite | apply keeps_msixTable | apply keeps_send | apply KeepsO.next) | split

theorem keeps_bar2ReadPiece {s0 : State} (s : State) (fn : Nat) (off : Nat) (n : Nat) (hK : Keeps s0 s) : Keeps s0 (bar2ReadPiece s fn off n).2.2 := by
  unfold bar2ReadPiece; try dsimp only
  repeat' first | (with_reducible first | exact hK | apply keeps_controlRead | apply keeps_memLoad | apply keeps_refuseCount) | split

theorem keeps_bar2WritePiece {s0 : State} (s : State) (fn : Nat) (off : Nat) (d : List Byte) (hK : Keeps s0 s) : Keeps s0 (bar2WritePiece s fn off d).2 := by
  unfold bar2WritePiece; try dsimp only
  repeat' first | (with_reducible first | exact hK | apply keeps_memStore | apply keeps_refuseCount) | split

theorem keeps_execHostBar2Access {s0 : State} (fn : Nat) (off : Nat) (x : BarAccess) (s : State) (hK : Keeps s0 s) : KeepsO s0 (execHostBar2Access fn off x s) := by
  unfold execHostBar2Access; try dsimp only
  repeat' first | (with_reducible first | exact hK | assumption | apply keeps_aerLog | apply keeps_bar2ReadPiece | apply keeps_bar2WritePiece | apply keeps_barRefuse | apply keeps_send | apply Keeps.foldl_snd_snd | apply Keeps.foldl_snd | apply KeepsO.next) | split | (intro _; intros)

theorem keeps_moverDescsRead {s0 : State} (s : State) (q : Nat) (d : List Byte) (hK : Keeps s0 s) : Keeps s0 (moverDescsRead s q d) := by
  unfold moverDescsRead
  repeat' first | (with_reducible first | exact hK | assumption | apply keeps_moverRecord | apply keeps_moverRelease | apply keeps_onMvq | apply Keeps.foldl | apply Keeps.ite) | split | (intro _; intros)

theorem keeps_rxBuffersRead {s0 : State} (s : State) (ring : Nat) (d : List Byte) (hK : Keeps s0 s) : Keeps s0 (rxBuffersRead s ring d) := by
  unfold rxBuffersRead
  repeat' first | (with_reducible first | exact hK | assumption | apply keeps_onRing | apply Keeps.foldl) | (intro _; intros)

theorem keeps_fetchEntry {s0 : State} (s : State) (fn : Nat) (d : List Byte) (hK : Keeps s0 s) : Keeps s0 (fetchEntry s fn d) := by
  unfold fetchEntry
  repeat' first | (with_reducible first | exact hK | apply keeps_fetchOne) | split | with_reducible apply Keeps.upd

theorem keeps_submissionRead {s0 : State} (s : State) (fn : Nat) (d : Option (List Byte)) (hK : Keeps s0 s) : Keeps s0 (submissionRead s fn d) := by
  unfold submissionRead
  repeat' first | (with_reducible first | exact hK | assumption | apply keeps_fetchEntry | apply keeps_onBooth | apply Keeps.foldl | apply Keeps.ite) | split | (intro _; intros)

theorem keeps_readDone {s0 : State} (s : State) (u : ReadFor) (d : Option (List Byte)) (hK : Keeps s0 s) : Keeps s0 (readDone s u d) := by
  unfold readDone
  repeat' first | (with_reducible first | exact hK | apply keeps_codecDescsRead | apply keeps_codecFetch | apply keeps_gdpFetch | apply keeps_gdpOpsRead | apply keeps_gdpRecvsRead | apply keeps_moverDescsRead | apply keeps_moverFetch | apply keeps_mwAnswer | apply keeps_rxBuffersRead | apply keeps_rxFetch | apply keeps_storDescsRead | apply keeps_storFetch | apply keeps_submissionRead | apply keeps_txBuffer | apply keeps_txDescs | apply Keeps.ite) | split

theorem keeps_invalsAfter {s0 : State} (s : State) (tag : Nat) (hK : Keeps s0 s) : Keeps s0 (invalsAfter s tag) := by
  unfold invalsAfter
  repeat' first | (with_reducible first | exact hK | assumption | apply keeps_onHost | apply keeps_send | apply Keeps.foldl) | (intro _; intros)

theorem keeps_readTake {s0 : State} (s : State) (tag : Nat) (hK : Keeps s0 s) : Keeps s0 (readTake s tag) := by
  unfold readTake
  repeat' first | (with_reducible first | exact hK | apply keeps_invalsAfter | apply keeps_onHost)

theorem keeps_readAnswer {s0 : State} (s : State) (fn : Nat) (tag : Nat) (x : HostRdAns) (hK : Keeps s0 s) : Keeps s0 (readAnswer s fn tag x) := by
  unfold readAnswer
  repeat' first | (with_reducible first | exact hK | apply keeps_aerLog | apply keeps_hostAbortCount | apply keeps_onHost | apply keeps_readDone | apply keeps_readTake) | split

theorem keeps_execHostReadCompletion {s0 : State} (fn : Nat) (tag : Nat) (x : HostRdAns) (s : State) (hK : Keeps s0 s) : KeepsO s0 (execHostReadCompletion fn tag x s) := by
  unfold execHostReadCompletion
  repeat' first | (with_reducible first | exact hK | apply keeps_readAnswer | apply KeepsO.next)

theorem keeps_execHostDmaTimeout {s0 : State} (tag : Nat) (s : State) (hK : Keeps s0 s) : KeepsO s0 (execHostDmaTimeout tag s) := by
  unfold execHostDmaTimeout
  repeat' first | (with_reducible first | exact hK | apply keeps_aerLog | apply keeps_hostAbortCount | apply keeps_onHost | apply keeps_readDone | apply keeps_readTake | apply KeepsO.next) | split

theorem keeps_execSubmissionReadDone {s0 : State} (fn : Nat) (x : HostRdAns) (s : State) (hK : Keeps s0 s) : KeepsO s0 (execSubmissionReadDone fn x s) := by
  unfold execSubmissionReadDone
  repeat' first | (with_reducible first | exact hK | apply keeps_readAnswer | apply KeepsO.next) | split

theorem keeps_releasePosts {s0 : State} (s : State) (hK : Keeps s0 s) : Keeps s0 (releasePosts s) := by
  unfold releasePosts; try dsimp only
  repeat' first | (with_reducible first | exact hK | assumption | apply keeps_onHost | apply keeps_send | apply Keeps.foldl_snd) | split | (intro _; intros)

theorem keeps_releaseReads {s0 : State} (s : State) (hK : Keeps s0 s) : Keeps s0 (releaseReads s) := by
  unfold releaseReads
  repeat' first | (with_reducible first | exact hK | assumption | apply keeps_onHost | apply keeps_send | apply Keeps.foldl) | (intro _; intros)

theorem keeps_postRefused {s0 : State} (s : State) (p : HeldPost) (hK : Keeps s0 s) : Keeps s0 (postRefused s p) := by
  unfold postRefused
  repeat' first | (with_reducible first | exact hK | apply keeps_hostAbortCount | apply keeps_loseEvent | apply Keeps.ite)

theorem keeps_transRefuse {s0 : State} (s : State) (fn : Nat) (pasid : Option Nat) (hits : Nat → Bool) (hK : Keeps s0 s) : Keeps s0 (transRefuse s fn pasid hits) := by
  unfold transRefuse
  repeat' first | (with_reducible first | exact hK | assumption | apply keeps_hostAbortCount | apply keeps_onHost | apply keeps_postRefused | apply keeps_readDone | apply Keeps.foldl) | (intro _; intros)

theorem keeps_atcPut {s0 : State} (s : State) (e : AtcEntry) (hK : Keeps s0 s) : Keeps s0 (atcPut s e) := by
  unfold atcPut
  repeat' first | (with_reducible first | exact hK | apply keeps_draw | apply keeps_onHost | apply Keeps.ite)

theorem keeps_execTranslationCompletion {s0 : State} (fn : Nat) (pasid : Option Nat) (addr : Nat) (x : TransAns) (s : State) (hK : Keeps s0 s) : KeepsO s0 (execTranslationCompletion fn pasid addr x s) := by
  unfold execTranslationCompletion; try dsimp only
  repeat' first | (with_reducible first | exact hK | apply keeps_aerLog | apply keeps_atcPut | apply keeps_releasePosts | apply keeps_releaseReads | apply keeps_transRefuse | apply KeepsO.next) | split

theorem keeps_execInvalidateRequest {s0 : State} (fn : Nat) (pasid : Option Nat) (base : Nat) (size : Nat) (tag : Nat) (s : State) (hK : Keeps s0 s) : KeepsO s0 (execInvalidateRequest fn pasid base size tag s) := by
  unfold execInvalidateRequest
  repeat' first | (with_reducible first | exact hK | assumption | apply keeps_onHost | apply keeps_send | apply Keeps.foldl | apply KeepsO.next | apply Keeps.ite | apply KeepsO.ite) | (intro _; intros)

theorem keeps_execHostLinkUp {s0 : State} (rate : Nat) (width : Nat) (s : State) (hK : Keeps s0 s) : KeepsO s0 (execHostLinkUp rate width s) := by
  unfold execHostLinkUp
  repeat' first | (with_reducible first | exact hK | apply keeps_onHost | apply keeps_raiseEvent | apply KeepsO.next | apply Keeps.ite | apply KeepsO.ite)

theorem keeps_execHostLinkFatal {s0 : State} (down : Bool) (s : State) (hK : Keeps s0 s) : KeepsO s0 (execHostLinkFatal down s) := by
  unfold execHostLinkFatal
  repeat' first | (with_reducible first | exact hK | apply keeps_aerLog | apply keeps_onHost | apply keeps_warmReset | apply KeepsO.next | apply Keeps.ite)

theorem keeps_backToD0 {s0 : State} (s : State) (fn : Nat) (hK : Keeps s0 s) : Keeps s0 (backToD0 s fn) := by
  unfold backToD0; try dsimp only
  repeat' first | (with_reducible first | exact hK | apply keeps_eventsLost | apply keeps_msixFlush | apply keeps_onFn | apply keeps_releasePosts | apply keeps_releaseReads | apply keeps_ringKick | apply keeps_writeHeld | apply Keeps.foldl)

theorem keeps_execDStateChange {s0 : State} (fn : Nat) (d3 : Bool) (s : State) (hK : Keeps s0 s) : KeepsO s0 (execDStateChange fn d3 s) := by
  unfold execDStateChange
  repeat' first | (with_reducible first | exact hK | apply keeps_backToD0 | apply keeps_onFn | apply KeepsO.next | apply KeepsO.ite)

end Sys2Proof.Safety
end

