-- ==== Sys2Proof/Laws/KeepsTenants.lean ====
section
/-! SUPPORT. Laws/KeepsTenants.lean: the operations of Tenants.lean keep the queue, the security version and the form of the memories. -/

namespace Sys2Proof.Safety

open Machine

theorem keeps_readsDrop {s0 : State} (s : State) (p : HostRd → Bool) (hK : Keeps s0 s) : Keeps s0 (readsDrop s p) := by
  unfold readsDrop
  repeat' first | (with_reducible first | exact hK | assumption | apply keeps_invalsAfter | apply keeps_onHost | apply Keeps.foldl) | (intro _; intros)

theorem keeps_resizeCancel {s0 : State} (s : State) (hK : Keeps s0 s) : Keeps s0 (resizeCancel s) := by
  unfold resizeCancel
  repeat' first | (with_reducible first | exact hK) | with_reducible apply Keeps.upd

theorem keeps_stopCommand {s0 : State} (fn : Nat) (s : State) (c : OutCmd) (hK : Keeps s0 s) : Keeps s0 (stopCommand fn s c) := by
  unfold stopCommand
  repeat' first | (with_reducible first | exact hK | apply keeps_dropWaiter | apply keeps_onBooth | apply keeps_pressCancel | apply keeps_resizeCancel) | split

theorem keeps_boothStop {s0 : State} (s : State) (fn : Nat) (hK : Keeps s0 s) : Keeps s0 (boothStop s fn) := by
  unfold boothStop
  repeat' first | (with_reducible first | exact hK | apply keeps_onBooth | apply keeps_pressCancel | apply keeps_readsDrop | apply keeps_stopCommand | apply Keeps.foldl | apply Keeps.ite)

theorem keeps_quietly {s0 : State} (s : State) (fn : Nat) (f : State → State) (hf : ∀ u, Keeps s0 u → Keeps s0 (f u)) (hK : Keeps s0 s) :
    Keeps s0 (quietly s fn f) := by
  unfold quietly
  exact keeps_onFn _ _ _ (hf _ (keeps_onFn _ _ _ hK))

theorem keeps_moverClose {s0 : State} (s : State) (q : Nat) (hK : Keeps s0 s) : Keeps s0 (moverClose s q) := by
  unfold moverClose
  repeat' first | (with_reducible first | exact hK | assumption | apply keeps_moverFlush | apply keeps_moverRelease | apply keeps_onMvq | apply keeps_quietly) | split | (intro _; intros)

theorem keeps_storClose {s0 : State} (s : State) (q : Nat) (hK : Keeps s0 s) : Keeps s0 (storClose s q) := by
  unfold storClose
  repeat' first | (with_reducible first | exact hK | assumption | apply keeps_onStq | apply keeps_quietly | apply keeps_storFlush | apply keeps_storRelease) | split | (intro _; intros)

theorem keeps_streamClose {s0 : State} (s : State) (n : Nat) (hK : Keeps s0 s) : Keeps s0 (streamClose s n) := by
  unfold streamClose
  repeat' first | (with_reducible first | exact hK | assumption | apply keeps_codecClose | apply keeps_onStream | apply keeps_quietly) | split | (intro _; intros)

theorem keeps_txqClose {s0 : State} (s : State) (q : Nat) (hK : Keeps s0 s) : Keeps s0 (txqClose s q) := by
  unfold txqClose
  repeat' first | (with_reducible first | exact hK | assumption | apply keeps_onTxq | apply keeps_quietly | apply keeps_txqDestroy) | split | (intro _; intros)

theorem keeps_closeCommit {s0 : State} (s : State) (vf : Nat) (grants : Bool) (hK : Keeps s0 s) : Keeps s0 (closeCommit s vf grants) := by
  unfold closeCommit
  repeat' first | (with_reducible first | exact hK | assumption | apply keeps_commitEpoch | apply keeps_gdpCloseConn | apply keeps_gdpDrain | apply keeps_moverClose | apply keeps_onFn | apply keeps_sessClose | apply keeps_storClose | apply keeps_streamClose | apply keeps_txqClose | apply Keeps.foldl | apply Keeps.ite) | (intro _; intros)

theorem keeps_fnReset {s0 : State} (s : State) (fn : Nat) (hK : Keeps s0 s) : Keeps s0 (fnReset s fn) := by
  unfold fnReset
  repeat' first | (with_reducible first | exact hK | apply keeps_onFn)

theorem keeps_closeKeys {s0 : State} (s : State) (vf : Nat) (hK : Keeps s0 s) : Keeps s0 (closeKeys s vf) := by
  unfold closeKeys
  repeat' first | (with_reducible first | exact hK | apply keeps_keyZeroise | apply keeps_onHost | apply Keeps.foldl)

theorem keeps_closeFailed {s0 : State} (s : State) (vf : Nat) (hK : Keeps s0 s) : Keeps s0 (closeFailed s vf) := by
  unfold closeFailed
  repeat' first | (with_reducible first | exact hK | apply keeps_gdpCloseConn | apply Keeps.foldl)

theorem keeps_detachEnd {s0 : State} (s : State) (d : Detach) (hK : Keeps s0 s) : Keeps s0 (detachEnd s d) := by
  unfold detachEnd
  repeat' first | (with_reducible first | exact hK | apply keeps_dropDoorbells | apply keeps_finish | apply keeps_onFn | apply keeps_shareUpdate) | split

theorem keeps_closeStep {s0 : State} (s : State) (d : Detach) (hK : Keeps s0 s) : Keeps s0 (closeStep s d).2 := by
  unfold closeStep
  split
  · exact hK
  · refine Keeps.of_ite hK ?_
    exact keeps_closeCommit _ _ _ hK
  · have k := keeps_closeFailed s d.vf hK
    have g := keeps_closeKeys (closeFailed s d.vf) d.vf k
    refine Keeps.of_ite k (Keeps.of_ite ?_ ?_)
    · exact keeps_fnReset _ _ g
    · exact keeps_detachEnd _ _ g
  · exact hK

theorem keeps_closeAdvance {s0 : State} (s : State) (hK : Keeps s0 s) : Keeps s0 (closeAdvance s) := by
  unfold closeAdvance
  repeat' first | (with_reducible first | exact hK | assumption | apply keeps_closeStep | apply Keeps.foldl) | (intro _; intros) | with_reducible apply Keeps.upd

theorem keeps_flrStart {s0 : State} (s : State) (vf : Nat) (removed : Bool) (hK : Keeps s0 s) : Keeps s0 (flrStart s vf removed) := by
  unfold flrStart
  repeat' first | (with_reducible first | exact hK | apply keeps_boothStop | apply keeps_closeAdvance | apply keeps_onFn | apply keeps_onHost | apply keeps_readsDrop | apply keeps_releasePosts | apply Keeps.ite) | with_reducible apply Keeps.upd

theorem keeps_execFunctionLevelReset {s0 : State} (vf : Nat) (s : State) (hK : Keeps s0 s) : KeepsO s0 (execFunctionLevelReset vf s) := by
  unfold execFunctionLevelReset
  repeat' first | (with_reducible first | exact hK | apply keeps_flrStart | apply KeepsO.next | apply KeepsO.ite)

theorem keeps_execFlrReady {s0 : State} (vf : Nat) (s : State) (hK : Keeps s0 s) : KeepsO s0 (execFlrReady vf s) := by
  unfold execFlrReady
  repeat' first | (with_reducible first | exact hK | apply keeps_closeAdvance | apply keeps_onFn | apply keeps_raiseEvent | apply keeps_shareUpdate | apply KeepsO.next) | split | with_reducible apply Keeps.upd

theorem keeps_execVfEnableChange {s0 : State} (enable : Bool) (n : Nat) (s : State) (hK : Keeps s0 s) : KeepsO s0 (execVfEnableChange enable n s) := by
  unfold execVfEnableChange
  repeat' first | (with_reducible first | exact hK | assumption | apply keeps_flrStart | apply keeps_onHost | apply Keeps.foldl | apply KeepsO.next | apply KeepsO.ite) | (intro _; intros)

theorem keeps_execManagerFlr {s0 : State} (s : State) (hK : Keeps s0 s) : KeepsO s0 (execManagerFlr s) := by
  unfold execManagerFlr
  repeat' first | (with_reducible first | exact hK | apply keeps_boothStop | apply keeps_fnReset | apply keeps_onHost | apply keeps_pressCancel | apply keeps_readsDrop | apply keeps_releasePosts | apply Keeps.foldl | apply KeepsO.next | apply KeepsO.ite)

theorem keeps_execTenantAttach {s0 : State} (h : Hdr) (vf : Nat) (addr : Nat) (pasid : Nat) (pasidEn : Bool) (caps : Option (HostBlk (List Nat))) (writable : Bool) (s : State) (hK : Keeps s0 s) : KeepsO s0 (execTenantAttach h vf addr pasid pasidEn caps writable s) := by
  unfold execTenantAttach
  repeat' first | (with_reducible first | exact hK | assumption | apply keeps_boothStep | apply keeps_giveDoorbells | apply keeps_onFn | apply keeps_shareUpdate | apply KeepsA.done) | (intro _; intros)

theorem keeps_execTenantDetach {s0 : State} (h : Hdr) (vf : Nat) (s : State) (hK : Keeps s0 s) : KeepsO s0 (execTenantDetach h vf s) := by
  unfold execTenantDetach
  repeat' first | (with_reducible first | exact hK | assumption | apply keeps_boothStep | apply keeps_closeAdvance | apply keeps_onFn | apply KeepsA.long) | (intro _; intros) | with_reducible apply Keeps.upd

theorem keeps_execTenantLimitsSet {s0 : State} (h : Hdr) (vf : Nat) (code : Nat) (cap : Nat) (s : State) (hK : Keeps s0 s) : KeepsO s0 (execTenantLimitsSet h vf code cap s) := by
  unfold execTenantLimitsSet
  repeat' first | (with_reducible first | exact hK | assumption | apply keeps_boothStep | apply keeps_onFn | apply keeps_shareUpdate | apply KeepsA.done) | (intro _; intros)

theorem keeps_execTenantMemorySet {s0 : State} (h : Hdr) (code : Nat) (first : Nat) (count : Nat) (tenant : Nat) (s : State) (hK : Keeps s0 s) : KeepsO s0 (execTenantMemorySet h code first count tenant s) := by
  unfold execTenantMemorySet
  repeat' first | (with_reducible first | exact hK | assumption | apply keeps_boothStep | apply keeps_commitEpoch | apply keeps_shareUpdate | apply Keeps.ite | apply KeepsA.epoch) | (intro _; intros)

theorem keeps_execNop {s0 : State} (h : Hdr) (s : State) (hK : Keeps s0 s) : KeepsO s0 (execNop h s) := by
  unfold execNop
  repeat' first | (with_reducible first | exact hK | assumption | apply keeps_boothStep | apply KeepsA.done) | (intro _; intros)

theorem keeps_addCanceller {s0 : State} (s : State) (fn : Nat) (target : Nat) (id : Nat) (hK : Keeps s0 s) : Keeps s0 (addCanceller s fn target id) := by
  unfold addCanceller
  repeat' first | (with_reducible first | exact hK | apply keeps_onBooth)

theorem keeps_cancelApplied {s0 : State} (s : State) (h : Hdr) (c : OutCmd) (hK : Keeps s0 s) : KeepsA s0 (cancelApplied s h c) := by
  unfold cancelApplied
  repeat' first | (with_reducible first | exact hK | apply keeps_addCanceller | apply keeps_detachGiveUp | apply keeps_finish | apply keeps_initGiveUp | apply keeps_onTrapeze | apply keeps_pressCancel | apply keeps_resizeCancel | apply keeps_sumClear | apply keeps_tpOff | apply KeepsA.done | apply KeepsA.long | apply KeepsA.ite) | split

theorem keeps_execCancel {s0 : State} (h : Hdr) (target : Nat) (s : State) (hK : Keeps s0 s) : KeepsO s0 (execCancel h target s) := by
  unfold execCancel
  repeat' first | (with_reducible first | exact hK | assumption | apply keeps_boothStep | apply keeps_cancelApplied | apply keeps_finish | apply KeepsA.done) | split | (intro _; intros)

theorem keeps_execBoothInfo {s0 : State} (h : Hdr) (s : State) (hK : Keeps s0 s) : KeepsO s0 (execBoothInfo h s) := by
  unfold execBoothInfo
  repeat' first | (with_reducible first | exact hK | assumption | apply keeps_boothStep | apply KeepsA.done) | (intro _; intros)

theorem keeps_execMsixHoldoffSet {s0 : State} (h : Hdr) (v : Nat) (us : Nat) (s : State) (hK : Keeps s0 s) : KeepsO s0 (execMsixHoldoffSet h v us s) := by
  unfold execMsixHoldoffSet
  repeat' first | (with_reducible first | exact hK | assumption | apply keeps_boothStep | apply keeps_onFn | apply KeepsA.done) | (intro _; intros)

end Sys2Proof.Safety
end

