-- ==== Sys2Proof/Laws/KeepsMgmt.lean ====
section
/-! SUPPORT. Laws/KeepsMgmt.lean: the operations of Mgmt.lean keep the queue, the security version and the form of the memories. -/

namespace Sys2Proof.Safety

open Machine

theorem keeps_mctpAnswer {s0 : State} (s : State) (m : MctpReq) (hK : Keeps s0 s) : Keeps s0 (mctpAnswer s m) := by
  unfold mctpAnswer
  repeat' first | (with_reducible first | exact hK | apply keeps_onMgmt | apply keeps_send) | split

theorem keeps_pldmAnswer {s0 : State} (s : State) (sensor : Nat) (reading : Option Nat) (hK : Keeps s0 s) : Keeps s0 (pldmAnswer s sensor reading) := by
  unfold pldmAnswer
  repeat' first | (with_reducible first | exact hK | apply keeps_send)

theorem keeps_fwUpdate {s0 : State} (s : State) (u : FwUpdate) (hK : Keeps s0 s) : Keeps s0 (fwUpdate s u) := by
  unfold fwUpdate
  repeat' first | (with_reducible first | exact hK | apply keeps_onFlash) | split

theorem keeps_fwActivate {s0 : State} (s : State) (hK : Keeps s0 s) : Keeps s0 (fwActivate s) := by
  unfold fwActivate
  repeat' first | (with_reducible first | exact hK | apply keeps_onFlash) | split

theorem keeps_mgmtServe {s0 : State} (s : State) (r : MgmtReq) (hK : Keeps s0 s) : Keeps s0 (mgmtServe s r) := by
  unfold mgmtServe
  repeat' first | (with_reducible first | exact hK | apply keeps_fwActivate | apply keeps_fwUpdate | apply keeps_mctpAnswer | apply keeps_pldmAnswer) | split

theorem keeps_mgmtRequest {s0 : State} (s : State) (r : MgmtReq) (hK : Keeps s0 s) : Keeps s0 (mgmtRequest s r) := by
  unfold mgmtRequest
  repeat' first | (with_reducible first | exact hK | apply keeps_mgmtServe | apply keeps_onMgmt | apply Keeps.ite)

theorem keeps_execMctpMessage {s0 : State} (m : MctpReq) (s : State) (hK : Keeps s0 s) : KeepsO s0 (execMctpMessage m s) := by
  unfold execMctpMessage
  repeat' first | (with_reducible first | exact hK | apply keeps_mgmtRequest | apply KeepsO.next | apply Keeps.ite)

theorem keeps_execPldmSensorRead {s0 : State} (sensor : Nat) (reading : Option Nat) (s : State) (hK : Keeps s0 s) : KeepsO s0 (execPldmSensorRead sensor reading s) := by
  unfold execPldmSensorRead
  repeat' first | (with_reducible first | exact hK | apply keeps_mgmtRequest | apply KeepsO.next)

theorem keeps_execPldmFwUpdate {s0 : State} (u : FwUpdate) (s : State) (hK : Keeps s0 s) : KeepsO s0 (execPldmFwUpdate u s) := by
  unfold execPldmFwUpdate
  repeat' first | (with_reducible first | exact hK | apply keeps_mgmtRequest | apply KeepsO.next)

theorem keeps_execActivateFirmware {s0 : State} (s : State) (hK : Keeps s0 s) : KeepsO s0 (execActivateFirmware s) := by
  unfold execActivateFirmware
  repeat' first | (with_reducible first | exact hK | apply keeps_mgmtRequest | apply KeepsO.next)

theorem keeps_spiLast {s0 : State} (s : State) (code : Nat) (hK : Keeps s0 s) : Keeps s0 (spiLast s code) := by
  unfold spiLast
  repeat' first | (with_reducible first | exact hK | apply keeps_onMgmt)

theorem keeps_msControl {s0 : State} (s : State) (v : Nat) (hK : Keeps s0 s) : Keeps s0 (msControl s v) := by
  unfold msControl
  repeat' first | (with_reducible first | exact hK | apply keeps_warmReset | apply Keeps.ite)

theorem keeps_spiApply {s0 : State} (s : State) (a : Nat) (x : Nat) (x0 : List Nat) (hK : Keeps s0 s) : Keeps s0 (spiApply s a x x0) := by
  induction x0 generalizing s a x with
  | nil => exact hK
  | cons x xs ih =>
    unfold spiApply
    repeat' first | (with_reducible first | apply ih | exact hK | apply keeps_msControl | apply keeps_regWrite | apply Keeps.ite)

theorem keeps_execSpiWriteFrame {s0 : State} (d : List Byte) (clocks : Nat) (x : Nat) (s : State) (hK : Keeps s0 s) : KeepsO s0 (execSpiWriteFrame d clocks x s) := by
  unfold execSpiWriteFrame
  repeat' first | (with_reducible first | exact hK | apply keeps_send | apply keeps_spiApply | apply keeps_spiLast | apply KeepsO.next | apply Keeps.ite | apply KeepsO.ite)

theorem keeps_spiRead {s0 : State} (s : State) (a : Nat) (x0 : Nat) (hK : Keeps s0 s) : Keeps s0 (spiRead s a x0).2 := by
  induction x0 generalizing s a with
  | zero => exact hK
  | succ n ih =>
    unfold spiRead
    repeat' first | (with_reducible first | apply ih | exact hK | apply keeps_draw | apply keeps_regLatch) | split

theorem keeps_spiClear {s0 : State} (s : State) (a : Nat) (x0 : List Nat) (hK : Keeps s0 s) : Keeps s0 (spiClear s a x0) := by
  induction x0 generalizing s a with
  | nil => exact hK
  | cons x xs ih =>
    unfold spiClear
    repeat' first | (with_reducible first | apply ih | exact hK | apply keeps_regClear)

theorem keeps_execSpiReadFrame {s0 : State} (d : List Byte) (clocks : Nat) (s : State) (hK : Keeps s0 s) : KeepsO s0 (execSpiReadFrame d clocks s) := by
  unfold execSpiReadFrame
  repeat' first | (with_reducible first | exact hK | apply keeps_onMgmt | apply keeps_send | apply keeps_spiClear | apply keeps_spiLast | apply keeps_spiRead | apply KeepsO.next | apply Keeps.ite | apply KeepsO.ite)

theorem keeps_regReadRow {s0 : State} (s : State) (off : Nat) (hK : Keeps s0 s) : KeepsO s0 (regReadRow s off) := by
  unfold regReadRow
  repeat' first | (with_reducible first | exact hK | apply keeps_regRead | apply keeps_send | apply KeepsO.next)

theorem keeps_writeRow {s0 : State} (s : State) (off : Nat) (v : Nat) (x : Nat) (hK : Keeps s0 s) : KeepsO s0 (writeRow s off v x) := by
  unfold writeRow
  repeat' first | (with_reducible first | exact hK | apply keeps_regWrite | apply KeepsO.next | apply Keeps.ite)

theorem keeps_execRtcSet {s0 : State} (v : Nat) (s : State) (hK : Keeps s0 s) : KeepsO s0 (execRtcSet v s) := by
  unfold execRtcSet
  repeat' first | (with_reducible first | exact hK | apply keeps_writeRow)

theorem keeps_execAlarmTHiWrite {s0 : State} (n : Nat) (v : Nat) (s : State) (hK : Keeps s0 s) : KeepsO s0 (execAlarmTHiWrite n v s) := by
  unfold execAlarmTHiWrite
  repeat' first | (with_reducible first | exact hK | apply keeps_writeRow)

theorem keeps_execAlarmCtrlWrite {s0 : State} (n : Nat) (period : Bool) (v : Nat) (s : State) (hK : Keeps s0 s) : KeepsO s0 (execAlarmCtrlWrite n period v s) := by
  unfold execAlarmCtrlWrite
  repeat' first | (with_reducible first | exact hK | apply keeps_writeRow)

theorem keeps_execAlarmStatusRead {s0 : State} (n : Nat) (s : State) (hK : Keeps s0 s) : KeepsO s0 (execAlarmStatusRead n s) := by
  unfold execAlarmStatusRead
  repeat' first | (with_reducible first | exact hK | apply keeps_regReadRow)

theorem keeps_execRtcLoRead {s0 : State} (s : State) (hK : Keeps s0 s) : KeepsO s0 (execRtcLoRead s) := by
  unfold execRtcLoRead
  repeat' first | (with_reducible first | exact hK | apply keeps_regReadRow)

theorem keeps_execDevtLoRead {s0 : State} (s : State) (hK : Keeps s0 s) : KeepsO s0 (execDevtLoRead s) := by
  unfold execDevtLoRead
  repeat' first | (with_reducible first | exact hK | apply keeps_regReadRow)

theorem keeps_execRindCounterRead {s0 : State} (id : Nat) (s : State) (hK : Keeps s0 s) : KeepsO s0 (execRindCounterRead id s) := by
  unfold execRindCounterRead
  repeat' first | (with_reducible first | exact hK | apply keeps_regReadRow)

theorem keeps_execRindLogData0Read {s0 : State} (s : State) (hK : Keeps s0 s) : KeepsO s0 (execRindLogData0Read s) := by
  unfold execRindLogData0Read
  repeat' first | (with_reducible first | exact hK | apply keeps_regReadRow)

theorem keeps_execMsStatusRead {s0 : State} (s : State) (hK : Keeps s0 s) : KeepsO s0 (execMsStatusRead s) := by
  unfold execMsStatusRead
  repeat' first | (with_reducible first | exact hK | apply keeps_regReadRow)

theorem keeps_execMwFirstFaultRead {s0 : State} (target : Nat) (high : Bool) (s : State) (hK : Keeps s0 s) : KeepsO s0 (execMwFirstFaultRead target high s) := by
  unfold execMwFirstFaultRead
  repeat' first | (with_reducible first | exact hK | apply keeps_regReadRow | apply KeepsO.next | apply KeepsO.ite)

theorem keeps_execMsControlReset {s0 : State} (v : Nat) (s : State) (hK : Keeps s0 s) : KeepsO s0 (execMsControlReset v s) := by
  unfold execMsControlReset
  repeat' first | (with_reducible first | exact hK | apply keeps_msControl | apply KeepsO.next | apply Keeps.ite)

theorem keeps_execAtbAdcStart {s0 : State} (v : Nat) (x : Nat) (s : State) (hK : Keeps s0 s) : KeepsO s0 (execAtbAdcStart v x s) := by
  unfold execAtbAdcStart
  repeat' first | (with_reducible first | exact hK | apply keeps_writeRow)

theorem keeps_execAtbCaptureSample {s0 : State} (x : Nat) (s : State) (hK : Keeps s0 s) : KeepsO s0 (execAtbCaptureSample x s) := by
  unfold execAtbCaptureSample
  repeat' first | (with_reducible first | exact hK | apply keeps_onTest | apply KeepsO.next | apply Keeps.ite)

theorem keeps_execAlarmFire {s0 : State} (n : Nat) (s : State) (hK : Keeps s0 s) : KeepsO s0 (execAlarmFire n s) := by
  unfold execAlarmFire
  repeat' first | (with_reducible first | exact hK | assumption | apply keeps_onAlarm | apply keeps_rindCount | apply keeps_rindLog | apply Keeps.foldl | apply KeepsO.next | apply Keeps.ite | apply KeepsO.ite) | (intro _; intros)

theorem keeps_execRtcWriteback {s0 : State} (s : State) (hK : Keeps s0 s) : KeepsO s0 (execRtcWriteback s) := by
  unfold execRtcWriteback
  repeat' first | (with_reducible first | exact hK | apply keeps_onClock | apply KeepsO.next | apply KeepsO.ite)

theorem keeps_playbillEnd {s0 : State} (s : State) (st : Status) (hK : Keeps s0 s) : Keeps s0 (playbillEnd s st) := by
  unfold playbillEnd
  repeat' first | (with_reducible first | exact hK | apply keeps_finish | apply keeps_onPlaybill) | split

theorem keeps_execPlaybillPhaseEnd {s0 : State} (s : State) (hK : Keeps s0 s) : KeepsO s0 (execPlaybillPhaseEnd s) := by
  unfold execPlaybillPhaseEnd
  repeat' first | (with_reducible first | exact hK | apply keeps_onPlaybill | apply keeps_playbillEnd | apply keeps_send | apply KeepsO.next | apply KeepsO.ite)

theorem keeps_execPlaybillPanelTimeout {s0 : State} (s : State) (hK : Keeps s0 s) : KeepsO s0 (execPlaybillPanelTimeout s) := by
  unfold execPlaybillPanelTimeout
  repeat' first | (with_reducible first | exact hK | apply keeps_onPlaybill | apply keeps_playbillEnd | apply KeepsO.next | apply KeepsO.ite)

theorem keeps_execPlaybillIntervalEnd {s0 : State} (s : State) (hK : Keeps s0 s) : KeepsO s0 (execPlaybillIntervalEnd s) := by
  unfold execPlaybillIntervalEnd
  repeat' first | (with_reducible first | exact hK | apply keeps_onPlaybill | apply keeps_playbillStart | apply KeepsO.next | apply Keeps.ite)

theorem keeps_execRindCommitTimer {s0 : State} (s : State) (hK : Keeps s0 s) : KeepsO s0 (execRindCommitTimer s) := by
  unfold execRindCommitTimer
  repeat' first | (with_reducible first | exact hK | apply keeps_rindTrigger | apply KeepsO.next)

theorem keeps_execRindRecordDone {s0 : State} (ok : Bool) (s : State) (hK : Keeps s0 s) : KeepsO s0 (execRindRecordDone ok s) := by
  unfold execRindRecordDone
  repeat' first | (with_reducible first | exact hK | assumption | apply keeps_finish | apply keeps_onRind | apply keeps_rindCount | apply keeps_rindLog | apply keeps_rindStartRecord | apply Keeps.foldl | apply KeepsO.next) | split | (intro _; intros)

theorem keeps_halfCycle {s0 : State} (s : State) (hot : Int) (hK : Keeps s0 s) : Keeps s0 (halfCycle s hot) := by
  unfold halfCycle
  repeat' first | (with_reducible first | exact hK | apply keeps_onRind | apply keeps_rindBin) | split

theorem keeps_execRindSecondTick {s0 : State} (x : SecondSample) (s : State) (hK : Keeps s0 s) : KeepsO s0 (execRindSecondTick x s) := by
  unfold execRindSecondTick
  repeat' first | (with_reducible first | exact hK | assumption | apply keeps_halfCycle | apply keeps_rindBin | apply keeps_rindCount | apply Keeps.foldl | apply KeepsO.next | apply Keeps.ite | apply KeepsO.ite) | (intro _; intros)

theorem keeps_execRindMinuteTick {s0 : State} (vbat20 : Nat) (s : State) (hK : Keeps s0 s) : KeepsO s0 (execRindMinuteTick vbat20 s) := by
  unfold execRindMinuteTick
  repeat' first | (with_reducible first | exact hK | assumption | apply keeps_onPower | apply keeps_onRind | apply keeps_rindBin | apply Keeps.foldl | apply KeepsO.next | apply KeepsO.ite) | (intro _; intros)

theorem keeps_execDeviceInfo {s0 : State} (h : Hdr) (s : State) (hK : Keeps s0 s) : KeepsO s0 (execDeviceInfo h s) := by
  unfold execDeviceInfo
  repeat' first | (with_reducible first | exact hK | assumption | apply keeps_boothStep | apply KeepsA.done) | (intro _; intros)

theorem keeps_execDeviceConfigSet {s0 : State} (h : Hdr) (blk : HostBlk ConfigBlock) (len : Nat) (s : State) (hK : Keeps s0 s) : KeepsO s0 (execDeviceConfigSet h blk len s) := by
  unfold execDeviceConfigSet
  repeat' first | (with_reducible first | exact hK | assumption | apply keeps_boothStep | apply keeps_onFlash | apply KeepsA.done) | split | (intro _; intros)

theorem keeps_execTimeSet {s0 : State} (h : Hdr) (time : Nat) (s : State) (hK : Keeps s0 s) : KeepsO s0 (execTimeSet h time s) := by
  unfold execTimeSet
  repeat' first | (with_reducible first | exact hK | assumption | apply keeps_boothStep | apply keeps_onClock | apply KeepsA.done) | (intro _; intros)

theorem keeps_execTimeAdjust {s0 : State} (h : Hdr) (ppb : Nat) (s : State) (hK : Keeps s0 s) : KeepsO s0 (execTimeAdjust h ppb s) := by
  unfold execTimeAdjust
  repeat' first | (with_reducible first | exact hK | assumption | apply keeps_boothStep | apply keeps_onClock | apply KeepsA.done) | (intro _; intros)

theorem keeps_execAlarmSet {s0 : State} (h : Hdr) (n : Nat) (flags : Nat) (time : Nat) (period : Nat) (s : State) (hK : Keeps s0 s) : KeepsO s0 (execAlarmSet h n flags time period s) := by
  unfold execAlarmSet
  repeat' first | (with_reducible first | exact hK | assumption | apply keeps_boothStep | apply keeps_onAlarm | apply KeepsA.done) | (intro _; intros)

theorem keeps_execPlaybillUpdate {s0 : State} (h : Hdr) (blk : HostBlk ContentBlock) (s : State) (hK : Keeps s0 s) : KeepsO s0 (execPlaybillUpdate h blk s) := by
  unfold execPlaybillUpdate
  repeat' first | (with_reducible first | exact hK | assumption | apply keeps_boothStep | apply keeps_onFlash | apply keeps_onPlaybill | apply keeps_playbillStart | apply KeepsA.long) | (intro _; intros)

theorem keeps_execRindRead {s0 : State} (h : Hdr) (section_ : Nat) (blk : OutBlk) (s : State) (hK : Keeps s0 s) : KeepsO s0 (execRindRead h section_ blk s) := by
  unfold execRindRead
  repeat' first | (with_reducible first | exact hK | assumption | apply keeps_boothStep | apply keeps_writeOut) | (intro _; intros)

theorem keeps_execRindCommit {s0 : State} (h : Hdr) (s : State) (hK : Keeps s0 s) : KeepsO s0 (execRindCommit h s) := by
  unfold execRindCommit
  repeat' first | (with_reducible first | exact hK | assumption | apply keeps_boothStep | apply keeps_onRind | apply keeps_rindTrigger | apply KeepsA.long) | (intro _; intros)

end Sys2Proof.Safety
end

