-- ==== Sys2Proof/Laws/KeepsJtag.lean ====
section
/-! SUPPORT. Laws/KeepsJtag.lean: the operations of Jtag.lean keep the queue, the security version and the form of the memories. -/

namespace Sys2Proof.Safety

open Machine

theorem keeps_jtagFree {s0 : State} (s : State) (op : Nat) (hK : Keeps s0 s) : Keeps s0 (jtagFree s op) := by
  unfold jtagFree
  repeat' first | (with_reducible first | exact hK | apply keeps_onTest | apply keeps_warmStart | apply Keeps.ite)

theorem keeps_jtagLoad {s0 : State} (s : State) (op : Nat) (hK : Keeps s0 s) : Keeps s0 (jtagLoad s op) := by
  unfold jtagLoad
  repeat' first | (with_reducible first | exact hK | apply keeps_jtagFree | apply Keeps.ite)

theorem keeps_jtagRestricted {s0 : State} (s : State) (op : Nat) (hK : Keeps s0 s) : Keeps s0 (jtagRestricted s op) := by
  unfold jtagRestricted
  repeat' first | (with_reducible first | exact hK | apply keeps_onTest | apply Keeps.ite)

theorem keeps_execIdcode {s0 : State} (s : State) (hK : Keeps s0 s) : KeepsO s0 (execIdcode s) := by
  unfold execIdcode
  repeat' first | (with_reducible first | exact hK | apply keeps_draw | apply keeps_jtagLoad | apply keeps_send | apply KeepsO.next | apply Keeps.ite)

theorem keeps_execSamplePreload {s0 : State} (s : State) (hK : Keeps s0 s) : KeepsO s0 (execSamplePreload s) := by
  unfold execSamplePreload
  repeat' first | (with_reducible first | exact hK | apply keeps_jtagLoad | apply KeepsO.next)

theorem keeps_execExtest {s0 : State} (s : State) (hK : Keeps s0 s) : KeepsO s0 (execExtest s) := by
  unfold execExtest
  repeat' first | (with_reducible first | exact hK | apply keeps_jtagRestricted | apply KeepsO.next)

theorem keeps_execHighz {s0 : State} (s : State) (hK : Keeps s0 s) : KeepsO s0 (execHighz s) := by
  unfold execHighz
  repeat' first | (with_reducible first | exact hK | apply keeps_jtagRestricted | apply KeepsO.next)

theorem keeps_execClamp {s0 : State} (s : State) (hK : Keeps s0 s) : KeepsO s0 (execClamp s) := by
  unfold execClamp
  repeat' first | (with_reducible first | exact hK | apply keeps_jtagRestricted | apply KeepsO.next)

theorem keeps_execExtestPulse {s0 : State} (s : State) (hK : Keeps s0 s) : KeepsO s0 (execExtestPulse s) := by
  unfold execExtestPulse
  repeat' first | (with_reducible first | exact hK | apply keeps_jtagRestricted | apply KeepsO.next)

theorem keeps_execExtestTrain {s0 : State} (s : State) (hK : Keeps s0 s) : KeepsO s0 (execExtestTrain s) := by
  unfold execExtestTrain
  repeat' first | (with_reducible first | exact hK | apply keeps_jtagRestricted | apply KeepsO.next)

theorem keeps_execHbm1500 {s0 : State} (stack : Nat) (s : State) (hK : Keeps s0 s) : KeepsO s0 (execHbm1500 stack s) := by
  unfold execHbm1500
  repeat' first | (with_reducible first | exact hK | apply keeps_draw | apply keeps_jtagRestricted | apply keeps_onMem | apply keeps_onTest | apply KeepsO.next | apply KeepsO.ite) | exact id

theorem keeps_execAtbJtag {s0 : State} (v : Nat) (s : State) (hK : Keeps s0 s) : KeepsO s0 (execAtbJtag v s) := by
  unfold execAtbJtag
  repeat' first | (with_reducible first | exact hK | apply keeps_atbCtrlSet | apply keeps_jtagLoad | apply KeepsO.next | apply Keeps.ite)

theorem keeps_execBypass {s0 : State} (s : State) (hK : Keeps s0 s) : KeepsO s0 (execBypass s) := by
  unfold execBypass
  repeat' first | (with_reducible first | exact hK | apply keeps_jtagLoad | apply KeepsO.next)

theorem keeps_execTapReset {s0 : State} (s : State) (hK : Keeps s0 s) : KeepsO s0 (execTapReset s) := by
  unfold execTapReset
  repeat' first | (with_reducible first | exact hK | apply keeps_jtagFree | apply KeepsO.next | apply Keeps.ite)

theorem keeps_execRegisterWrite {s0 : State} (r : RegTarget) (v : Nat) (x : Nat) (s : State) (hK : Keeps s0 s) : KeepsO s0 (execRegisterWrite r v x s) := by
  unfold execRegisterWrite
  repeat' first | (with_reducible first | exact hK | apply keeps_onBooth | apply keeps_onFn | apply keeps_regWrite | apply KeepsO.next) | split

end Sys2Proof.Safety
end

