-- ==== Sys2Proof/Laws/KeepsBoothRows.lean ====
section
/-! SUPPORT. Laws/KeepsBoothRows.lean: the operations of BoothRows.lean keep the queue, the security version and the form of the memories. -/

namespace Sys2Proof.Safety

open Machine

theorem keeps_alarmsMissed {s0 : State} (s : State) (hK : Keeps s0 s) : Keeps s0 (alarmsMissed s) := by
  unfold alarmsMissed
  repeat' first | (with_reducible first | exact hK | assumption | apply keeps_onMgmt | apply keeps_raiseEvent | apply Keeps.foldl) | (intro _; intros)

theorem keeps_execBoothEnable {s0 : State} (fn : Nat) (negotiating : Bool) (s : State) (hK : Keeps s0 s) : KeepsO s0 (execBoothEnable fn negotiating s) := by
  unfold execBoothEnable
  repeat' first | (with_reducible first | exact hK | apply keeps_alarmsMissed | apply keeps_onBooth | apply KeepsO.next | apply Keeps.ite | apply KeepsO.ite)

theorem keeps_execBoothDisable {s0 : State} (fn : Nat) (s : State) (hK : Keeps s0 s) : KeepsO s0 (execBoothDisable fn s) := by
  unfold execBoothDisable
  repeat' first | (with_reducible first | exact hK | apply keeps_boothStop | apply KeepsO.next | apply KeepsO.ite)

theorem keeps_execBoothStopComplete {s0 : State} (fn : Nat) (s : State) (hK : Keeps s0 s) : KeepsO s0 (execBoothStopComplete fn s) := by
  unfold execBoothStopComplete
  repeat' first | (with_reducible first | exact hK | apply keeps_onBooth | apply KeepsO.next | apply KeepsO.ite)

theorem keeps_execBoothFetchVisit {s0 : State} (s : State) (hK : Keeps s0 s) : KeepsO s0 (execBoothFetchVisit s) := by
  unfold execBoothFetchVisit
  repeat' first | (with_reducible first | exact hK | apply keeps_hostRead | apply keeps_onBooth | apply keeps_onHost | apply KeepsO.next) | split

theorem keeps_execCommandHandoff {s0 : State} (fn : Nat) (id : Nat) (s : State) (hK : Keeps s0 s) : KeepsO s0 (execCommandHandoff fn id s) := by
  unfold execCommandHandoff
  repeat' first | (with_reducible first | exact hK | apply keeps_markCmd | apply KeepsO.next) | split

theorem keeps_execComponentFault {s0 : State} (c : Nat) (s : State) (hK : Keeps s0 s) : KeepsO s0 (execComponentFault c s) := by
  unfold execComponentFault
  repeat' first | (with_reducible first | exact hK | apply keeps_componentFault | apply KeepsO.next | apply Keeps.ite)

theorem keeps_execSupervisorTimeout {s0 : State} (c : Nat) (s : State) (hK : Keeps s0 s) : KeepsO s0 (execSupervisorTimeout c s) := by
  unfold execSupervisorTimeout
  repeat' first | (with_reducible first | exact hK | apply keeps_componentFault | apply KeepsO.next | apply Keeps.ite)

theorem keeps_execComponentResume {s0 : State} (c : Nat) (s : State) (hK : Keeps s0 s) : KeepsO s0 (execComponentResume c s) := by
  unfold execComponentResume
  repeat' first | (with_reducible first | exact hK | apply keeps_mgmtServe | apply keeps_onComp | apply keeps_onMgmt | apply keeps_writeHeld | apply Keeps.foldl | apply KeepsO.next | apply KeepsO.ite)

end Sys2Proof.Safety
end

