-- ==== Sys2Proof/Laws/KeepsStorCmds.lean ====
section
/-! SUPPORT. Laws/KeepsStorCmds.lean: the operations of StorCmds.lean keep the queue, the security version and the form of the memories. -/

namespace Sys2Proof.Safety

open Machine

theorem keeps_execStoragePortSet {s0 : State} (h : Hdr) (port : Nat) (mode : Nat) (s : State) (hK : Keeps s0 s) : KeepsO s0 (execStoragePortSet h port mode s) := by
  unfold execStoragePortSet
  repeat' first | (with_reducible first | exact hK | assumption | apply keeps_boothStep | apply keeps_commitAll | apply keeps_driveLost | apply Keeps.ite | apply KeepsA.device) | (intro _; intros)

theorem keeps_execDriveAdmin {s0 : State} (h : Hdr) (drive : Nat) (blk : HostBlk (List Byte)) (buf : Nat) (len : Nat) (answer : DriveAnswer) (s : State) (hK : Keeps s0 s) : KeepsO s0 (execDriveAdmin h drive blk buf len answer s) := by
  unfold execDriveAdmin
  repeat' first | (with_reducible first | exact hK | assumption | apply keeps_boothStep | apply keeps_hostPost | apply keeps_send | apply KeepsA.done) | split | (intro _; intros)

theorem keeps_execVolumeCreate {s0 : State} (h : Hdr) (v : VolumeCreate) (s : State) (hK : Keeps s0 s) : KeepsO s0 (execVolumeCreate h v s) := by
  unfold execVolumeCreate
  repeat' first | (with_reducible first | exact hK | assumption | apply keeps_boothStep | apply keeps_commitEpoch | apply keeps_onStor | apply keeps_volScrub | apply keeps_volState | apply Keeps.ite | apply KeepsA.epoch) | (intro _; intros)

theorem keeps_execVolumeDestroy {s0 : State} (h : Hdr) (n : Nat) (s : State) (hK : Keeps s0 s) : KeepsO s0 (execVolumeDestroy h n s) := by
  unfold execVolumeDestroy
  repeat' first | (with_reducible first | exact hK | assumption | apply keeps_boothStep | apply keeps_commitEpoch | apply KeepsA.epoch) | (intro _; intros)

theorem keeps_storRetire {s0 : State} (s : State) (hK : Keeps s0 s) : Keeps s0 (storRetire s) := by
  unfold storRetire
  repeat' first | (with_reducible first | exact hK | apply keeps_onStor)

theorem keeps_execStorQueueCreate {s0 : State} (h : Hdr) (q : QueueCreate) (s : State) (hK : Keeps s0 s) : KeepsO s0 (execStorQueueCreate h q s) := by
  unfold execStorQueueCreate
  repeat' first | (with_reducible first | exact hK | assumption | apply keeps_boothStep | apply keeps_commitEpoch | apply keeps_giveDoorbells | apply keeps_onStor | apply keeps_takeCells | apply KeepsA.epoch) | (intro _; intros)

theorem keeps_execStorQueueFlush {s0 : State} (h : Hdr) (q : Nat) (s : State) (hK : Keeps s0 s) : KeepsO s0 (execStorQueueFlush h q s) := by
  unfold execStorQueueFlush
  repeat' first | (with_reducible first | exact hK | assumption | apply keeps_boothStep | apply keeps_storFlush | apply KeepsA.done) | (intro _; intros)

theorem keeps_storDestroy {s0 : State} (s : State) (q : Nat) (hK : Keeps s0 s) : Keeps s0 (storDestroy s q) := by
  unfold storDestroy
  repeat' first | (with_reducible first | exact hK | apply keeps_onStq | apply keeps_storFlush | apply keeps_storRelease)

theorem keeps_execStorQueueDestroy {s0 : State} (h : Hdr) (q : Nat) (s : State) (hK : Keeps s0 s) : KeepsO s0 (execStorQueueDestroy h q s) := by
  unfold execStorQueueDestroy
  repeat' first | (with_reducible first | exact hK | assumption | apply keeps_boothStep | apply keeps_commitEpoch | apply keeps_storDestroy | apply KeepsA.epoch) | (intro _; intros)

theorem keeps_execNvmetSubsystemSet {s0 : State} (h : Hdr) (sub : Nat) (valid : Nat) (blk : HostBlk SubsystemBlock) (s : State) (hK : Keeps s0 s) : KeepsO s0 (execNvmetSubsystemSet h sub valid blk s) := by
  unfold execNvmetSubsystemSet
  repeat' first | (with_reducible first | exact hK | assumption | apply keeps_boothStep | apply keeps_commitEpoch | apply KeepsA.epoch) | (intro _; intros)

theorem keeps_execNvmetListenerSet {s0 : State} (h : Hdr) (l : ListenerSet) (s : State) (hK : Keeps s0 s) : KeepsO s0 (execNvmetListenerSet h l s) := by
  unfold execNvmetListenerSet
  repeat' first | (with_reducible first | exact hK | assumption | apply keeps_boothStep | apply keeps_commitEpoch | apply KeepsA.epoch) | (intro _; intros)

theorem keeps_execNvmeiConnect {s0 : State} (h : Hdr) (blk : HostBlk InitiatorBlock) (s : State) (hK : Keeps s0 s) : KeepsO s0 (execNvmeiConnect h blk s) := by
  unfold execNvmeiConnect
  repeat' first | (with_reducible first | exact hK | assumption | apply keeps_boothStep | apply keeps_initStart | apply keeps_onStor | apply KeepsA.long) | (intro _; intros)

theorem keeps_execNvmeiDisconnect {s0 : State} (h : Hdr) (c : Nat) (s : State) (hK : Keeps s0 s) : KeepsO s0 (execNvmeiDisconnect h c s) := by
  unfold execNvmeiDisconnect
  repeat' first | (with_reducible first | exact hK | assumption | apply keeps_boothStep | apply keeps_commitEpoch | apply keeps_initReset | apply keeps_onInit | apply KeepsA.epoch) | (intro _; intros)

theorem keeps_execStorageTimeoutSet {s0 : State} (h : Hdr) (seconds : Nat) (s : State) (hK : Keeps s0 s) : KeepsO s0 (execStorageTimeoutSet h seconds s) := by
  unfold execStorageTimeoutSet
  repeat' first | (with_reducible first | exact hK | assumption | apply keeps_boothStep | apply keeps_onStor | apply KeepsA.done) | (intro _; intros)

theorem keeps_execStorageStats {s0 : State} (h : Hdr) (kind : Nat) (n : Nat) (blk : OutBlk) (s : State) (hK : Keeps s0 s) : KeepsO s0 (execStorageStats h kind n blk s) := by
  unfold execStorageStats
  repeat' first | (with_reducible first | exact hK | assumption | apply keeps_boothStep | apply keeps_writeOut) | (intro _; intros)

end Sys2Proof.Safety
end

