-- ==== Sys2Proof/Laws/KeepsEpochRows.lean ====
section
/-! SUPPORT. Laws/KeepsEpochRows.lean: the operations of EpochRows.lean keep the queue, the security version and the form of the memories. -/

namespace Sys2Proof.Safety

open Machine

theorem keeps_doorbellsSync {s0 : State} (s : State) (hK : Keeps s0 s) : Keeps s0 (doorbellsSync s) := by
  unfold doorbellsSync
  repeat' first | (with_reducible first | exact hK) | with_reducible apply Keeps.upd

theorem keeps_islandAdopt {s0 : State} (s : State) (p : Nat) (i : Nat) (hK : Keeps s0 s) : Keeps s0 (islandAdopt s p i) := by
  unfold islandAdopt
  repeat' first | (with_reducible first | exact hK | apply keeps_actAdopt | apply keeps_doorbellsSync | apply keeps_gdpAdopt | apply keeps_netAdopt | apply keeps_sessAdopt | apply Keeps.ite)

theorem keeps_execEpochAdopt {s0 : State} (p : Nat) (i : Nat) (s : State) (hK : Keeps s0 s) : KeepsO s0 (execEpochAdopt p i s) := by
  unfold execEpochAdopt
  repeat' first | (with_reducible first | exact hK | apply keeps_closeAdvance | apply keeps_islandAdopt | apply keeps_leaveSet | apply keeps_releaseDeferred | apply KeepsO.next | apply KeepsO.ite)

theorem keeps_waitsDone {s0 : State} (s : State) (p : Nat) (hK : Keeps s0 s) : Keeps s0 (waitsDone s p) := by
  unfold waitsDone
  repeat' first | (with_reducible first | exact hK | assumption | apply keeps_finish | apply Keeps.foldl) | (intro _; intros)

theorem keeps_retirePart {s0 : State} (s : State) (p : Nat) (hK : Keeps s0 s) : Keeps s0 (retirePart s p) := by
  unfold retirePart
  repeat' first | (with_reducible first | exact hK | apply keeps_netRetire | apply keeps_onPart | apply keeps_ringsRetire | apply keeps_sessRetire | apply keeps_storRetire | apply keeps_waitsDone)

theorem keeps_execEpochRetire {s0 : State} (p : Nat) (s : State) (hK : Keeps s0 s) : KeepsO s0 (execEpochRetire p s) := by
  unfold execEpochRetire
  repeat' first | (with_reducible first | exact hK | apply keeps_closeAdvance | apply keeps_retirePart | apply KeepsO.next) | split

theorem keeps_execResizeScrubDone {s0 : State} (s : State) (hK : Keeps s0 s) : KeepsO s0 (execResizeScrubDone s) := by
  unfold execResizeScrubDone
  repeat' first | (with_reducible first | exact hK | apply keeps_closeAdvance | apply keeps_resizeScrubbed | apply KeepsO.next)

theorem keeps_execShareStatusUpdate {s0 : State} (vf : Nat) (s : State) (hK : Keeps s0 s) : KeepsO s0 (execShareStatusUpdate vf s) := by
  unfold execShareStatusUpdate
  repeat' first | (with_reducible first | exact hK | apply keeps_shareUpdate | apply KeepsO.next | apply KeepsO.ite)

theorem keeps_execEpochInfo {s0 : State} (h : Hdr) (s : State) (hK : Keeps s0 s) : KeepsO s0 (execEpochInfo h s) := by
  unfold execEpochInfo
  repeat' first | (with_reducible first | exact hK | assumption | apply keeps_boothStep | apply KeepsA.done) | (intro _; intros)

theorem keeps_execEpochWait {s0 : State} (h : Hdr) (e : Nat) (s : State) (hK : Keeps s0 s) : KeepsO s0 (execEpochWait h e s) := by
  unfold execEpochWait
  repeat' first | (with_reducible first | exact hK | assumption | apply keeps_boothStep | apply keeps_setArg | apply KeepsA.ite | apply KeepsA.done | apply KeepsA.long) | (intro _; intros)

theorem keeps_execHandshakeTransfer {s0 : State} (receiver : Nat) (sender : Nat) (traffic : Nat) (i : Nat) (freed : Nat) (returned : Nat) (s : State) (hK : Keeps s0 s) : KeepsO s0 (execHandshakeTransfer receiver sender traffic i freed returned s) := by
  unfold execHandshakeTransfer
  repeat' first | (with_reducible first | exact hK | apply KeepsO.next | apply KeepsO.ite) | with_reducible apply Keeps.upd

theorem keeps_execLedgerAudit {s0 : State} (h : Hdr) (blk : OutBlk) (kind : Nat) (index : Nat) (s : State) (hK : Keeps s0 s) :
    KeepsO s0 (execLedgerAudit h blk kind index s) := by
  unfold execLedgerAudit
  refine keeps_boothStep _ _ _ _ _ hK (fun u k => ?_)
  dsimp only
  have w := keeps_writeOut h blk (((auditsNamed u kind index).filter (mayAudit u h)).flatMap (auditRecord u)) u k
  generalize writeOut h blk (((auditsNamed u kind index).filter (mayAudit u h)).flatMap (auditRecord u)) u = a at w
  split
  · cases w with
    | done g => exact .done g
  · exact w

theorem keeps_execLedgerAuditSample {s0 : State} (kind : Nat) (island : Nat) (index : Nat) (held : Nat) (inUse : Nat) (s : State) (hK : Keeps s0 s) : KeepsO s0 (execLedgerAuditSample kind island index held inUse s) := by
  unfold execLedgerAuditSample
  repeat' first | (with_reducible first | exact hK | apply keeps_ledgerFault | apply KeepsO.next | apply KeepsO.ite) | split | with_reducible apply Keeps.upd

end Sys2Proof.Safety
end

