-- ==== Sys2Proof/Laws/KeepsMidwayRows.lean ====
section
/-! SUPPORT. Laws/KeepsMidwayRows.lean: the operations of MidwayRows.lean keep the queue, the security version and the form of the memories. -/

namespace Sys2Proof.Safety

open Machine

theorem keeps_lockBreak {s0 : State} (s : State) (t : Nat) (master : Nat) (addr : Nat) (ended : Bool) (hK : Keeps s0 s) : Keeps s0 (lockBreak s t master addr ended) := by
  unfold lockBreak
  repeat' first | (with_reducible first | exact hK | apply keeps_onTarget | apply keeps_rindCount | apply keeps_rindLog | apply keeps_rindMinute)

theorem keeps_correctedCount {s0 : State} (s : State) (a : Nat) (hK : Keeps s0 s) : Keeps s0 (correctedCount s a) := by
  unfold correctedCount
  repeat' first | (with_reducible first | exact hK | apply keeps_onTarget | apply keeps_rindCount | apply keeps_rindMinute) | split

theorem keeps_mwErrors {s0 : State} (s : State) (r : MwReq) (n : Nat) (hK : Keeps s0 s) : Keeps s0 (mwErrors s r n) := by
  unfold mwErrors
  repeat' first | (with_reducible first | exact hK | apply keeps_correctedCount | apply keeps_onMem | apply Keeps.ite) | exact id

theorem keeps_mwAtomic {s0 : State} (s : State) (t : Nat) (r : MwReq) (f : Nat → Nat) (m : Nat → TpMsg) (hK : Keeps s0 s) : Keeps s0 (mwAtomic s t r f m) := by
  unfold mwAtomic
  repeat' first | (with_reducible first | exact hK | apply keeps_atomicAt | apply keeps_mwAnswer | apply keeps_mwErrors | apply keeps_refuseCount | apply keeps_tpEnqueue) | split | with_reducible apply Keeps.upd

theorem keeps_mwRead {s0 : State} (s : State) (t : Nat) (r : MwReq) (n : Nat) (hK : Keeps s0 s) : Keeps s0 (mwRead s t r n) := by
  unfold mwRead
  repeat' first | (with_reducible first | exact hK | apply keeps_controlRead | apply keeps_hostRead | apply keeps_memLoad | apply keeps_mwAnswer | apply keeps_mwErrors | apply keeps_refuseCount | apply keeps_tpEnqueue) | split | with_reducible apply Keeps.upd

theorem keeps_mwControl {s0 : State} (s : State) (o : Nat) (d : List Byte) (hK : Keeps s0 s) : Keeps s0 (mwControl s o d) := by
  unfold mwControl
  repeat' first | (with_reducible first | exact hK | assumption | apply keeps_draw | apply keeps_regWrite | apply Keeps.foldl) | (intro _; intros)

theorem keeps_mwWrite {s0 : State} (s : State) (t : Nat) (r : MwReq) (d : List Byte) (hK : Keeps s0 s) : Keeps s0 (mwWrite s t r d) := by
  unfold mwWrite
  repeat' first | (with_reducible first | exact hK | apply keeps_mwAnswer | apply keeps_mwControl | apply keeps_mwErrors | apply keeps_refuseCount | apply keeps_storeOne) | split | with_reducible apply Keeps.upd

theorem keeps_mwPerform {s0 : State} (s : State) (t : Nat) (r : MwReq) (hK : Keeps s0 s) : Keeps s0 (mwPerform s t r) := by
  unfold mwPerform
  repeat' first | (with_reducible first | exact hK | apply keeps_mwAtomic | apply keeps_mwRead | apply keeps_mwWrite) | split

theorem keeps_mwGranted {s0 : State} (s : State) (t : Nat) (r : MwReq) (hK : Keeps s0 s) : Keeps s0 (mwGranted s t r) := by
  unfold mwGranted
  repeat' first | (with_reducible first | exact hK | apply keeps_lockBreak | apply keeps_mwAnswer | apply keeps_mwPerform | apply keeps_onTarget | apply Keeps.ite) | split

theorem keeps_execMidwayGrant {s0 : State} (t : Nat) (rs : List MwReq) (s : State) (hK : Keeps s0 s) : KeepsO s0 (execMidwayGrant t rs s) := by
  unfold execMidwayGrant; try dsimp only
  repeat' first | (with_reducible first | exact hK | apply keeps_mwGranted | apply keeps_onTarget | apply KeepsO.next) | split

theorem keeps_execLockWatchdog {s0 : State} (t : Nat) (s : State) (hK : Keeps s0 s) : KeepsO s0 (execLockWatchdog t s) := by
  unfold execLockWatchdog
  repeat' first | (with_reducible first | exact hK | apply keeps_lockBreak | apply KeepsO.next) | split

theorem keeps_execPatrolScrub {s0 : State} (a : Nat) (corrected : Bool) (uncorrectable : Bool) (s : State) (hK : Keeps s0 s) : KeepsO s0 (execPatrolScrub a corrected uncorrectable s) := by
  unfold execPatrolScrub
  repeat' first | (with_reducible first | exact hK | apply keeps_correctedCount | apply keeps_memError | apply keeps_onMem | apply KeepsO.next | apply Keeps.ite | apply KeepsO.ite) | exact id

end Sys2Proof.Safety
end

