-- ==== Sys2Proof/Laws/KeepsPressCmds.lean ====
section
/-! SUPPORT. Laws/KeepsPressCmds.lean: the operations of PressCmds.lean keep the queue, the security version and the form of the memories. -/

namespace Sys2Proof.Safety

open Machine

theorem keeps_execPressArm {s0 : State} (h : Hdr) (jn : Nat) (blk : HostBlk ArmBlock) (s : State) (hK : Keeps s0 s) : KeepsO s0 (execPressArm h jn blk s) := by
  unfold execPressArm
  repeat' first | (with_reducible first | exact hK | assumption | apply keeps_boothStep | apply KeepsA.ite | apply KeepsA.done) | (intro _; intros) | with_reducible apply Keeps.upd

theorem keeps_pressStart {s0 : State} (s : State) (jn : Nat) (o : PressOp) (hK : Keeps s0 s) : Keeps s0 (pressStart s jn o) := by
  unfold pressStart
  repeat' first | (with_reducible first | exact hK | apply keeps_onJob | apply keeps_pressAbort | apply keeps_sumStart) | split | with_reducible apply Keeps.upd

theorem keeps_execPressCheckpoint {s0 : State} (h : Hdr) (jn : Nat) (flush : Bool) (step : Nat) (s : State) (hK : Keeps s0 s) : KeepsO s0 (execPressCheckpoint h jn flush step s) := by
  unfold execPressCheckpoint
  repeat' first | (with_reducible first | exact hK | assumption | apply keeps_boothStep | apply keeps_pressStart | apply KeepsA.long) | (intro _; intros)

theorem keeps_execPressRestore {s0 : State} (h : Hdr) (jn : Nat) (blk : HostBlk Manifest) (s : State) (hK : Keeps s0 s) : KeepsO s0 (execPressRestore h jn blk s) := by
  unfold execPressRestore
  repeat' first | (with_reducible first | exact hK | assumption | apply keeps_boothStep | apply keeps_pressStart | apply KeepsA.long) | split | (intro _; intros)

theorem keeps_execPressDisarm {s0 : State} (h : Hdr) (jn : Nat) (s : State) (hK : Keeps s0 s) : KeepsO s0 (execPressDisarm h jn s) := by
  unfold execPressDisarm
  repeat' first | (with_reducible first | exact hK | assumption | apply keeps_boothStep | apply keeps_gdpFetch | apply Keeps.foldl | apply KeepsA.done) | (intro _; intros) | with_reducible apply Keeps.upd

theorem keeps_execPressStatus {s0 : State} (h : Hdr) (jn : Nat) (s : State) (hK : Keeps s0 s) : KeepsO s0 (execPressStatus h jn s) := by
  unfold execPressStatus
  repeat' first | (with_reducible first | exact hK | assumption | apply keeps_boothStep | apply KeepsA.done) | split | (intro _; intros)

theorem keeps_pressMsg {s0 : State} (s : State) (typ : PressType) (m : PressMsg) (f : State → PressOp → State)
    (hf : ∀ u o, Keeps s0 u → Keeps s0 (f u o)) (hK : Keeps s0 s) : Keeps s0 (pressMsg s typ m f) := by
  unfold pressMsg
  split
  · exact hK
  · split
    · exact hK
    · split
      · exact keeps_onJob _ _ _ hK
      · split
        · exact hK
        · exact hf _ _ hK

theorem keeps_execPressReady {s0 : State} (m : PressMsg) (s : State) (hK : Keeps s0 s) : KeepsO s0 (execPressReady m s) := by
  unfold execPressReady
  repeat' first | (with_reducible first | exact hK | assumption | apply keeps_onOp | apply keeps_pressMsg | apply keeps_pressReadyCheck | apply KeepsO.next) | (intro _; intros)

theorem keeps_execPressDrained {s0 : State} (m : PressMsg) (s : State) (hK : Keeps s0 s) : KeepsO s0 (execPressDrained m s) := by
  unfold execPressDrained
  repeat' first | (with_reducible first | exact hK | assumption | apply keeps_onOp | apply keeps_pressDrainCheck | apply keeps_pressMsg | apply KeepsO.next) | (intro _; intros)

theorem keeps_execPressCopied {s0 : State} (m : PressMsg) (s : State) (hK : Keeps s0 s) : KeepsO s0 (execPressCopied m s) := by
  unfold execPressCopied
  repeat' first | (with_reducible first | exact hK | assumption | apply keeps_onOp | apply keeps_pressMsg | apply keeps_pressReleaseCheck | apply KeepsO.next) | (intro _; intros)

theorem keeps_execPressAbandon {s0 : State} (m : PressMsg) (s : State) (hK : Keeps s0 s) : KeepsO s0 (execPressAbandon m s) := by
  unfold execPressAbandon
  repeat' first | (with_reducible first | exact hK | assumption | apply keeps_pressAbort | apply keeps_pressMsg | apply KeepsO.next) | split | (intro _; intros)

theorem keeps_pressAt {s0 : State} (s : State) (jn : Nat) (f : PressJob → PressOp → State) (hf : ∀ j o, Keeps s0 (f j o)) (hK : Keeps s0 s) :
    Keeps s0 (pressAt s jn f) := by
  unfold pressAt
  split
  · exact hK
  · split
    · exact hK
    · exact hf _ _

theorem keeps_execPressDrainDone {s0 : State} (jn : Nat) (s : State) (hK : Keeps s0 s) : KeepsO s0 (execPressDrainDone jn s) := by
  unfold execPressDrainDone
  repeat' first | (with_reducible first | exact hK | apply keeps_onOp | apply keeps_pressAt | apply keeps_pressDrainCheck | apply keeps_pressSend | apply KeepsO.next | apply Keeps.ite) | (intro _; intros)

theorem keeps_execPressSetTimeout {s0 : State} (jn : Nat) (s : State) (hK : Keeps s0 s) : KeepsO s0 (execPressSetTimeout jn s) := by
  unfold execPressSetTimeout
  repeat' first | (with_reducible first | exact hK | apply keeps_pressAt | apply keeps_pressFail | apply KeepsO.next) | split | (intro _; intros)

theorem keeps_readRegions {s0 : State} (s : State) (rs : List (PressRegion × List Byte)) (hK : Keeps s0 s) : Keeps s0 (readRegions s rs).2.2 := by
  unfold readRegions
  repeat' first | (with_reducible first | exact hK | assumption | apply keeps_memLoad | apply Keeps.foldl_snd_snd) | split | (intro _; intros)

theorem keeps_copyOut {s0 : State} (s : State) (jn : Nat) (j : PressJob) (o : PressOp) (data : List (List Byte)) (hK : Keeps s0 s) : Keeps s0 (copyOut s jn j o data) := by
  unfold copyOut
  repeat' first | (with_reducible first | exact hK | assumption | apply keeps_onOp | apply keeps_pressFail | apply keeps_pressNext | apply keeps_readRegions | apply keeps_stageWrite | apply Keeps.foldl | apply Keeps.ite) | (intro _; intros)

theorem keeps_writeTarget {s0 : State} (s : State) (jn : Nat) (a : ArmBlock) (t : PressTarget) (addr : Nat) (d : List Byte) (hK : Keeps s0 s) : Keeps s0 (writeTarget s jn a t addr d).2 := by
  unfold writeTarget
  repeat' first | (with_reducible first | exact hK | assumption | apply keeps_memStore | apply keeps_onOp | apply keeps_tpEnqueue | apply Keeps.foldl) | split | (intro _; intros)

theorem keeps_copyIn {s0 : State} (s : State) (jn : Nat) (j : PressJob) (o : PressOp) (data : List (List Byte)) (hK : Keeps s0 s) : Keeps s0 (copyIn s jn j o data) := by
  unfold copyIn
  repeat' first | (with_reducible first | exact hK | assumption | apply keeps_onOp | apply keeps_pressAt | apply keeps_pressCopiedOut | apply keeps_pressFail | apply keeps_pressRecord | apply keeps_writeTarget | apply Keeps.foldl_snd | apply Keeps.ite) | split | (intro _; intros)

theorem keeps_execPressCopyDone {s0 : State} (jn : Nat) (data : List (List Byte)) (fail : Option Status) (s : State) (hK : Keeps s0 s) : KeepsO s0 (execPressCopyDone jn data fail s) := by
  unfold execPressCopyDone
  repeat' first | (with_reducible first | exact hK | apply keeps_copyIn | apply keeps_copyOut | apply keeps_pressAt | apply keeps_pressFail | apply KeepsO.next) | split | (intro _; intros)

theorem keeps_execPressVerifyDone {s0 : State} (jn : Nat) (crcs : List Nat) (manifestOk : Bool) (fail : Option Status) (s : State) (hK : Keeps s0 s) : KeepsO s0 (execPressVerifyDone jn crcs manifestOk fail s) := by
  unfold execPressVerifyDone
  repeat' first | (with_reducible first | exact hK | apply keeps_onJob | apply keeps_pressAbort | apply keeps_pressAt | apply keeps_pressCancelled | apply keeps_pressCopiedOut | apply keeps_pressFail | apply keeps_pressNext | apply keeps_pressRecord | apply keeps_rindCount | apply keeps_stageWrite | apply KeepsO.next | apply Keeps.ite) | split | (intro _; intros)

theorem keeps_pressFailLog {s0 : State} (s : State) (jn : Nat) (stage : Nat) (st : Status) (hK : Keeps s0 s) : Keeps s0 (pressFailLog s jn stage st) := by
  unfold pressFailLog
  repeat' first | (with_reducible first | exact hK | apply keeps_rindLog)

theorem keeps_execPressReleaseTimeout {s0 : State} (jn : Nat) (s : State) (hK : Keeps s0 s) : KeepsO s0 (execPressReleaseTimeout jn s) := by
  unfold execPressReleaseTimeout
  repeat' first | (with_reducible first | exact hK | apply keeps_pressAt | apply keeps_pressFail | apply KeepsO.next) | split | (intro _; intros)

theorem keeps_execPressFlushDone {s0 : State} (jn : Nat) (st : Status) (s : State) (hK : Keeps s0 s) : KeepsO s0 (execPressFlushDone jn st s) := by
  unfold execPressFlushDone
  repeat' first | (with_reducible first | exact hK | apply keeps_pressAt | apply keeps_pressEnd | apply keeps_pressFailLog | apply keeps_pressRecord | apply KeepsO.next) | split | (intro _; intros)

end Sys2Proof.Safety
end

