-- ==== Sys2Proof/Laws/KeepsTick.lean ====
section
/-! SUPPORT. Laws/KeepsTick.lean: the operations of Tick.lean keep the queue, the security version and the form of the memories. -/

namespace Sys2Proof.Safety

open Machine

theorem keeps_idleTick {s0 : State} (s : State) (hK : Keeps s0 s) : Keeps s0 (idleTick s) := by
  unfold idleTick
  repeat' first | (with_reducible first | exact hK | apply keeps_closeAdvance | apply keeps_onClock | apply Keeps.ite)

end Sys2Proof.Safety
end

