-- ==== Sys2Proof/Tests/Slice0.lean ====
section
/-! SUPPORT. Tests/Slice0.lean: the model's own tests. The `witness_` theorems show, for each statement with hypotheses,
concrete states and operands that meet them: each clause stands with its conclusion replaced by `False`, and is refuted by
an instance. The `test_` theorems are checks of well-formedness and worked examples of the manual. -/

set_option linter.all false
set_option maxRecDepth 20000

namespace Sys2Proof.Tests

open Sys2Proof Sys2Proof.Machine Sys2Proof.Safety

/-- A command of a group, handed to its component on the booth of a function. -/
def cmd (s : State) (fn g c : Nat) : State :=
  s.onBooth fn (fun b => { b with outst := b.outst ++ [{ id := 7, group := g, code := c, part := 0, tenant := 0, fence := false, signal := false, context := 0, state := .handed, cancellers := [], arg := 0 }] })

/-- What a header needs for its command to be handed. -/
theorem hand (s : State) (h : Hdr) (g c : Nat) (k : (match outCmd s h.fn h.id with
    | some x => x.group == g && x.code == c && inTurn (s.fn h.fn).booth x && h.paramsClean | none => false) = true) : handed s h g c := by
  unfold handed
  cases e : outCmd s h.fn h.id with
  | none => rw [e] at k; cases k
  | some x =>
    rw [e] at k
    simp only [Bool.and_eq_true, beq_iff_eq] at k
    exact ⟨x, rfl, k.1.1.1, k.1.1.2, k.1.2, k.2⟩

/-- A header of a function and a partition. -/
def hdr (fn part : Nat) : Hdr := { fn := fn, id := 7, part := part, tenant := 0, fence := false, signal := false, context := 0, rsvZero := true, paramsClean := true }

/-- A host window, a session, a ring, a binding and a key block whose fields pass their checks. -/
def win : HostWindow := { hostBase := 0, offset := 0, sizeLog2 := 16, part := 0, tenant := 0, fn := 0, pasid := 0, pasidEn := false, valid := true, write := true, read := true }
def sess0 : SessionBlock := { profile := 0, ipVersion := 4, localPort := 5004, remotePort := 5004, lport := 0, learn := false, suppress := false, anyRemote := false, localAddr := 0, remoteAddr := 0, tci := 0, period := 10, depth := 2, delay := 1, slotCode := 0, spf := 960, ssrcIn := 1, ssrcOut := 2, ptSet := [96, 255, 255, 255], ptOut := 96, rocInInit := 0, rocOutInit := 0, keyRx := 0xFFFF, keyTx := 0xFFFF, meter := 0xFFFF, txq := 0, binding := 0, rtcpRing := 0xFFFF, seed := 1, rsvZero := true }
def ring0 : RingBind := { ring := 0xFFFF, log2 := 4, entryArray := 0x400000000000, dataArea := 0x400000100000, dataLen := 65536, control := 0x010000000000 }
def bind0 : ActBinding := { binding := 0, act := 0, entry := 0, priority := 0, serial := false, dump := false, tumblers := [0], allowance := 1024,  inputBase := 0, inputWords := 512, hbmBase := 0, dumpOffset := 0, arg := 0 }
def key0 : KeyBlock := { alg := 1, use := 1, dir := 1, tenant := 0, material := List.replicate 64 0, rsvZero := true }
def txq0 : TxqCfg := { part := 0, tenant := 0, fn := 0, lport := 0, cls := 0, share := 1, internal := false, meter := 0xFFFF, base := 0, log2 := 4, vector := 0, frameLimit := 16, shaper := {} }
def tpWin0 : TpWindow := { accBase := 0, offset := 0, sizeLog2 := 32, part := 0, tenant := 0, valid := true, atomic := true, write := true, read := true }
def rule0 : RxRule := { priority := 0, ring := 0, meter := 0xFFFF, etherType := 0, ipVersion := 4, protocol := 0, dscp := 0, matchBits := 0, srcPort := 0, dstPort := 0, srcAddr := 0, dstAddr := 0, srcPrefix := 0, dstPrefix := 0, lport := 0xFF, rsvZero := true }
def port0 : PortConfig := { lport := 0, maxFrame := 9216, defaultVid := 0, promiscuous := false, strip := false, lossless := 0, xoff := [], xon := [], rxHoldMaxUs := 100, pauseWatchdogMs := 10 }
def create0 : QueueCreate := { queue := 0xFFFF, log2 := 4, vector := 0, descBase := 0, compBase := 0, pasidEn := false, pasid := 0, bounceCells := 0 }
def mover0 : QueueCfg := { part := 0, tenant := 0, fn := 0, q := create0 }
def region0 : RegionSet := { region := 0xFFFF, loc := true, rWrite := true, rRead := true, rAtomic := true, valid := true, key := 0, base := 0, length := 4096 }
def meter0 : MeterSet := { meter := 0xFFFF, algorithm := 0, colourAware := false, mode := 0, actGreen := 0, actYellow := 0, actRed := 2, cir := 1000, pir := 0, cbs := 1000, ebs := 0, dscp := 0 }
def frame0 : TxFrame := { use := .ring 0 0 false, data := List.replicate 60 0, enqueued := 0 }
def rxRing0 : RxRingCfg := { part := 0, tenant := 0, fn := 0, base := 0, log2 := 4, bufCode := 0, vector := 0, isDefault := false, lport := 0 }
def conn0 : ConnCfg := { part := 0, tenant := 0, fn := 0, blk := { connDefaults noConnect with remoteAddr := 1 } }

def img0 : List Byte :=
  let rest := le 8 0 ++ zeros 120 ++ le 8 (504 * 2 ^ 27)
  le 8 0o514123516061 ++ le 8 262145 ++ le 8 1 ++ le 8 1 ++ le 8 0 ++ le 8 (crc32 rest) ++ zeros 16 ++ rest
def codec0 : CodecOpen := { unit := 0, dir := 0, standard := 0, profile := 66, levelMax := 51, bitDepth := 8, priority := 3, sliceRows := 64, maxWidth := 64, maxHeight := 64, descLog2 := 4, compLog2 := 4, vector := 0, descBase := 0, compBase := 0, workBase := 0, workLen := 2 ^ 27, rcMode := 0, quantiser := 0, gop := 0, rate := 0, maxRate := 0, keyInterval := 0 }
def stream0 : StreamCfg := { part := 0, tenant := 0, fn := 0, blk := codec0 }
def vol0 : VolumeCreate := { volume := 0xFFFF, backing := 0, source := 0, nsid := 1, startLba := 0, blocks := 100, keySlot := 0xFFFF, readOnly := false, preserve := true }
def space0 : NamespaceInfo := { nsid := 1, blocks := 100, blockSize := 512, zeroDealloc := true, ident := 0 }
def volume0 : VolumeCfg := { part := 0, tenant := 0, fn := 0, v := { vol0 with volume := 0 }, blockSize := 512 }
def init0 : InitiatorBlock := { addr := 0, tcpPort := 4420, ipVersion := 4, lport := 0, txq := 0, ioQueues := 1, digests := 0, ctrlLossTmo := 0, subNqn := [], hostNqn := [] }
def arm0 : ArmBlock := { (default : ArmBlock) with members := 1, regions := [{ region := 0, kind := 0, member := 0, source := 0, length := 4096, crc := 0, wheelOffset := 0 }], stagingLen := 2 ^ 20, rsvZero := true }
def arm1 : ArmBlock := { (default : ArmBlock) with mode := 1, members := 1, targets := [], stagingLen := 2 ^ 20, rsvZero := true }
def content0 : ContentBlock := { nodeName := List.replicate 24 0, serviceCode := List.replicate 12 0x30, cal := false, cfgName := false, text := List.replicate 74 0, rsvZero := true }

/-- A request for an entry of a return ring that passes its checks. -/
theorem returnOk (s : State) (r : PortReq) (c : FeedCfg) (f : Ret)
    (h1 : tget (cfgOf s r.part r.epoch).sess.returns (field (reqWord r 6) 0 12) = some c) (h2 : tget s.sess.returns (field (reqWord r 6) 0 12) = some f)
    (h3 : (seesTenant r c.part c.tenant && sessionOk r (cfgOf s r.part r.epoch) (field (reqWord r 2) 0 16)) = true) (h4 : f.error = false)
    (h5 : (readCount s c.bind.control).1 = .ok) (h6 : ¬ 2 ^ c.bind.log2 < modSub 32 (readCount s c.bind.control).2.1 f.cons)
    (h7 : ¬ modSub 32 (readCount s c.bind.control).2.1 f.cons ≤ modSub 32 (reqWord r 7) f.cons) :
    returnReq s r = .inr (c, f, (readCount s c.bind.control).2.2) := by
  rw [Bool.and_eq_true] at h3
  unfold returnReq
  simp only [h1, h2, h3.1, h3.2, h4, h5]
  simp [h6, h7]

/-- An invocation, and tumbler 0 at the word `w` of its act. -/
def inv0 : Invocation := { part := 0, binding := 0, tenant := 0, epoch := 1, session := 0, kind := 2, words := [], allowance := 100 }
def issuing (w : Word) : State :=
  (State.reset.onTumbler 0 (fun t => { t with run := some inv0 })).onMem (fun m => { m with im := [(0, w)] })

/-- States and operands that meet the hypotheses of each clause of `GeneralAndEpochCommands`: its hypotheses are not contradictory. -/
theorem witness_GeneralAndEpochCommands :
    (¬ (∀ (s : State) (h : Hdr), handed s h 1 1 → False))
    ∧ (¬ (∀ (s : State) (h : Hdr), ∀ (target : Nat) c, handed s h 1 2 → outCmd s h.fn target = some c → ¬ (c.group = 1 ∧ c.code = 2) → c.state ≠ .applied →
        False))
    ∧ (¬ (∀ (s : State) (h : Hdr), handed s h 1 3 → False))
    ∧ (¬ (∀ (s : State) (h : Hdr), ∀ (v : Nat) (us : Nat), handed s h 1 4 → v < vectorsOf h.fn → us ≤ 1023 →
        False))
    ∧ (¬ (∀ (s : State) (h : Hdr), handed s h 4 1 → False))
    ∧ (¬ (∀ (s : State) (h : Hdr), ∀ (e : Nat), handed s h 4 2 → newer 16 e (s.part (hp h)).epoch = false → waitOver s (hp h) e = true →
        False))
    ∧ (¬ (∀ (s : State) (h : Hdr), ∀ (e : Nat), handed s h 4 2 → newer 16 e (s.part (hp h)).epoch = false → waitOver s (hp h) e = false →
        False))
    ∧ (¬ (∀ (s : State) (h : Hdr), ∀ (blk : OutBlk) (kind : Nat), handed s h 4 3 → kind ≤ 8 → (h.fn ≠ 0 → kind ≠ 1 ∧ kind ≠ 7) →
        let l := (auditsNamed (applied s h) kind 0xFFFF).filter (mayAudit (applied s h) h)
        let d := l.flatMap (auditRecord (applied s h))
        d.length ≤ blk.len →
        False)) :=
  ⟨fun k => k (cmd State.reset 0 1 1) (hdr 0 0)  (hand _ _ _ _ (by decide)),
   fun k => k ((cmd State.reset 0 1 2).onBooth 0 (fun b => { b with outst := b.outst ++ [{ id := 8, group := 1, code := 1, part := 0, tenant := 0, fence := false, signal := false, context := 0, state := .waiting, cancellers := [], arg := 0 }] })) (hdr 0 0) 8 ({ id := 8, group := 1, code := 1, part := 0, tenant := 0, fence := false, signal := false, context := 0, state := .waiting, cancellers := [], arg := 0 }) (hand _ _ _ _ (by decide)) rfl (by decide) (by decide),
   fun k => k (cmd State.reset 0 1 3) (hdr 0 0)  (hand _ _ _ _ (by decide)),
   fun k => k (cmd State.reset 0 1 4) (hdr 0 0) 0 1023 (hand _ _ _ _ (by decide)) (by decide) (by decide),
   fun k => k (cmd State.reset 0 4 1) (hdr 0 0)  (hand _ _ _ _ (by decide)),
   fun k => k (cmd State.reset 0 4 2) (hdr 0 0) 1 (hand _ _ _ _ (by decide)) (by decide) (by decide),
   fun k => k ((cmd State.reset 0 4 2).onPart 0 (fun p => { p with old := some (0, {}) })) (hdr 0 0) 1 (hand _ _ _ _ (by decide)) (by decide) (by decide),
   fun k => k (cmd State.reset 0 4 3) (hdr 0 0) ({ addr := 0, len := 65536 }) 2 (hand _ _ _ _ (by decide)) (by decide) (by decide) (by decide)⟩

/-- States and operands that meet the hypotheses of each clause of `PartitionCommands`: its hypotheses are not contradictory. -/
theorem witness_PartitionCommands :
    (¬ (∀ (s : State) (h : Hdr), ∀ m : List Nat, let r : Resize := { fn := h.fn, id := h.id, stage := .shrink, moves := mapMoves s m, cancelled := false }
        handed s h 2 1 → s.fixedMode = false → m.length = 256 → (∀ b ∈ m, b ≤ 15 ∨ b = 255) → s.resize = none →
        tany s.press.jobs (fun _ j => (resizeParts r).contains j.arm.partition) = false → (∀ p ∈ resizeParts r, twoEpochs s p = false) →
        (losers r).findSome? (fun p => shrinkFault (applied s h) p (leavingOf r p)) = none →
        False))
    ∧ (¬ (∀ (s : State) (h : Hdr), ∀ (blk : OutBlk), handed s h 2 2 →
        let d := partitionBlock (applied s h) (hp h) ++ (if h.fn == 0 then (List.range 256).map (fun j => byteOf (unitOwner (applied s h) (applied s h).cfg j)) else [])
        d.length ≤ blk.len → False))
    ∧ (¬ (∀ (s : State) (h : Hdr), ∀ l : List Nat, handed s h 2 3 → allFree s → l.length = 616 → (∀ b ∈ l, b ≤ 15) →
        False))
    ∧ (¬ (∀ (s : State) (h : Hdr), ∀ (n : Nat) (w : HostWindow) old, handed s h 2 4 → epochFree s h → n < 4096 → w.valid = true → tget s.cfg.own.windows n = some old → old.valid = true →
        old.part = hp h → notMine h old.part old.tenant = false → hostWindowBroken s h w = false →
        tany s.cfg.own.windows (fun j o => j != n && o.valid && hostWindowsMeet w o) = false →
        False))
    ∧ (¬ (∀ (s : State) (h : Hdr), ∀ (vf : Nat) (base : Nat) (entry : Nat), handed s h 2 5 → epochFree s h → h.fn = 0 → vfExists s vf = true → h.part = partOf vf → entry ≤ 3 → base % 0x1000000 = 0 →
        inHbmOrStage base 0x1000000 = true →
        False))
    ∧ (¬ (∀ (s : State) (h : Hdr), ∀ (base : Nat) (entry : Nat), handed s h 2 5 → epochFree s h → h.fn ≠ 0 → entry ≤ 3 →
        False))
    ∧ (¬ (∀ (s : State) (h : Hdr), ∀ (us : Nat), handed s h 2 6 → 1000 ≤ us → us ≤ 1000000 →
        False))
    ∧ (¬ (∀ (s : State) (h : Hdr), ∀ (island : Nat), handed s h 2 7 → island ≤ 127 → quarantined s island = true → (tgetD s.islands island {}).faults ≤ 3 →
        False)) :=
  ⟨fun k => k ({ cmd State.reset 0 2 1 with fixedMode := false }) (hdr 0 0) (List.replicate 256 15) (hand _ _ _ _ (by decide)) (by decide) (by decide) (by decide) rfl (by decide) (by decide) rfl,
   fun k => k (cmd State.reset 0 2 2) (hdr 0 0) ({ addr := 0, len := 65536 }) (hand _ _ _ _ (by decide)) (by decide),
   fun k => k (cmd State.reset 0 2 3) (hdr 0 0) (List.replicate 616 15) (hand _ _ _ _ (by decide)) (by unfold allFree; decide) (by decide) (by decide),
   fun k => k ((cmd State.reset 0 2 4).onCfg (fun c => { c with own := { c.own with windows := [(4095, win)] } })) (hdr 0 0) 4095 win win (hand _ _ _ _ (by decide)) ⟨by decide, by decide⟩ (by decide) (by decide) rfl (by decide) (by decide) (by decide) (by decide) (by decide),
   fun k => k ((cmd State.reset 0 2 5).onHost (fun h => { h with vfEnable := true, numVfs := 1 })) (hdr 0 0) 1 0 3 (hand _ _ _ _ (by decide)) ⟨by decide, by decide⟩ (by decide) (by decide) (by decide) (by decide) (by decide) (by decide),
   fun k => k (cmd State.reset 1 2 5) (hdr 1 0) 0 3 (hand _ _ _ _ (by decide)) ⟨by decide, by decide⟩ (by decide) (by decide),
   fun k => k (cmd State.reset 0 2 6) (hdr 0 0) 1000 (hand _ _ _ _ (by decide)) (by decide) (by decide),
   fun k => k ((cmd State.reset 0 2 7).onIsland 127 (fun x => { x with quarantined := true, faults := 3 })) (hdr 0 0) 127 (hand _ _ _ _ (by decide)) (by decide) (by decide) (by decide)⟩

/-- States and operands that meet the hypotheses of each clause of `TenantCommands`: its hypotheses are not contradictory. -/
theorem witness_TenantCommands :
    (¬ (∀ (s : State) (h : Hdr), ∀ (vf : Nat) (addr : Nat), handed s h 3 1 → vfExists s vf = true → addr % 16384 = 0 → (s.fn vf).attached = false → doorbellsFree s vf 1 = true →
        doorbellsFree s 0 1 = true → issuable s vf = true →
        let s1 := (applied s h).onFn vf (fun f => { f with attached := true, parleyAddr := addr, parleyPasid := none })
        let t := giveDoorbells (shareUpdate s1 vf) vf [.parleyOfTenant]
        let m := giveDoorbells t.2 0 [.parleyOfManager vf]
        let dt := listGet t.1 0 0
        let dm := listGet m.1 0 0
        False))
    ∧ (¬ (∀ (s : State) (h : Hdr), ∀ (vf : Nat), handed s h 3 2 → vfExists s vf = true → (s.fn vf).attached = true → (s.fn vf).detaching = false →
        let e := (applied s h).onFn vf (fun f => { f with detaching := true })
        False))
    ∧ (¬ (∀ (s : State) (h : Hdr), ∀ (vf : Nat) (code : Nat) (cap : Nat), handed s h 3 3 → vfExists s vf = true → capCode code = true → cap ≠ 0xFFFFFFFF →
        False))
    ∧ (¬ (∀ (s : State) (h : Hdr), ∀ (first : Nat) (count : Nat) (tenant : Nat), handed s h 3 4 → epochFree s h → 0 < tenant → tenant ≤ 63 → first + count ≤ 256 →
        (∀ g, first ≤ g → g < first + count → unitOwner s s.cfg g = hp h) →
        False)) :=
  ⟨fun k => k ((cmd State.reset 0 3 1).onHost (fun h => { h with vfEnable := true, numVfs := 1 })) (hdr 0 0) 1 16384 (hand _ _ _ _ (by decide)) (by decide) (by decide) (by decide) (by decide) (by decide) (by decide),
   fun k => k (((cmd State.reset 0 3 2).onHost (fun h => { h with vfEnable := true, numVfs := 1 })).onFn 1 (fun f => { f with attached := true })) (hdr 0 0) 1 (hand _ _ _ _ (by decide)) (by decide) (by decide) (by decide),
   fun k => k ((cmd State.reset 0 3 3).onHost (fun h => { h with vfEnable := true, numVfs := 1 })) (hdr 0 0) 1 4 0 (hand _ _ _ _ (by decide)) (by decide) (by decide) (by decide),
   fun k => k (cmd State.reset 0 3 4) (hdr 0 0) 15 1 63 (hand _ _ _ _ (by decide)) ⟨by decide, by decide⟩ (by decide) (by decide) (by decide) (by intro g h1 h2; cases (by omega : g = 15); decide)⟩

/-- States and operands that meet the hypotheses of each clause of `SessionCommands`: its hypotheses are not contradictory. -/
theorem witness_SessionCommands :
    (¬ (∀ (s : State) (h : Hdr), ∀ (n : Nat) k (b : SessionBlock), handed s h 5 1 → epochFree s h → (n = 0xFFFF ∨ n < 16384) → sessFieldsBad s h b = false →
        pickNumber s.sess.sess s.fixedMode (hp h) 1024 16384 n = some k → thas s.sess.sess k = false → (s.fixedMode = true → k / 1024 = hp h) →
        allClear (roomChecks s (hp h) (hcharge h) 4 1 .noSessions) → sessCells b ≤ (freeCells s (hp h) (sessCells b)).length →
        allClear (sessKeyChecks s h b none) → sessBindingBad s h b = false →
        let cells := freeCells (applied s h) (hp h) (sessCells b)
        let x : Sess := { part := hp h, charge := hcharge h, outIndex := b.rocOutInit * 65536, outTs := (draw s).1 % 2 ^ 32,
                          delay := b.delay, seedNext := some b.seed, cells := cells }
        let e := (takeCells (draw (applied s h)).2 (hp h) h.tenant cells).onSess (fun z => { z with sess := tset z.sess k x })
        False))
    ∧ (¬ (∀ (s : State) (h : Hdr), ∀ (n : Nat) c (b : SessionBlock), handed s h 5 2 → epochFree s h → allClear (sessNamed s h n) → tget s.cfg.sess.sessions n = some c → sessFieldsBad s h b = false →
        sessFixed c.blk b = true → allClear (sessKeyChecks s h b (some c.blk)) → sessBindingBad s h b = false →
        let e := if c.blk.keyTx != b.keyTx then keySpend (applied s h) c.blk.keyTx else applied s h
        False))
    ∧ (¬ (∀ (s : State) (h : Hdr), ∀ (n : Nat), handed s h 5 3 → epochFree s h → allClear (sessNamed s h n) →
        False))
    ∧ (¬ (∀ (s : State) (h : Hdr), ∀ (n : Nat) x (blk : OutBlk), handed s h 5 4 → allClear (sessNamed s h n) → tget s.sess.sess n = some x →
        let d := statsBlock s n (counters x.counts 17) []
        d.length ≤ blk.len → False))
    ∧ (¬ (∀ (s : State) (h : Hdr), ∀ (r : RingBind) k, handed s h 5 5 → epochFree s h → bindFieldsBad r = false → (r.ring = 0xFFFF ∨ r.ring < 4096) →
        pickNumber s.cfg.sess.feeds s.fixedMode (hp h) 256 4096 r.ring = some k → thas s.sess.feeds k = false → (s.fixedMode = true → k / 256 = hp h) →
        allClear (roomChecks s (hp h) (hcharge h) 15 1 .noResource) → bindRangesBad s (hp h) r = false →
        let e := (zeroArray (applied s h) (hp h) h.tenant r false).onSess (fun x => { x with feeds := tset x.feeds k {} })
        False))
    ∧ (¬ (∀ (s : State) (h : Hdr), ∀ (r : RingBind) k (binding : Nat), handed s h 5 6 → epochFree s h → bindFieldsBad r = false → (r.ring = 0xFFFF ∨ r.ring < 4096) →
        pickNumber s.cfg.sess.returns s.fixedMode (hp h) 256 4096 r.ring = some k → thas s.sess.returns k = false → (s.fixedMode = true → k / 256 = hp h) →
        allClear (roomChecks s (hp h) (hcharge h) 16 1 .noResource) → bindRangesBad s (hp h) r = false → binding ≤ 63 →
        (∃ x, tget s.cfg.acts.bindings (64 * hp h + binding) = some x ∧ (x.tenant != 0 && h.tenant != 0 && x.tenant != h.tenant) = false) →
        let e := (zeroArray (applied s h) (hp h) h.tenant r false).onSess (fun x => { x with returns := tset x.returns k {} })
        False))
    ∧ (¬ (∀ (s : State) (h : Hdr), ∀ (n : Nat) c f, handed s h 5 7 → epochFree s h → allClear (ringNamed h s.cfg.sess.feeds n) → tget s.cfg.sess.feeds n = some c → tget s.sess.feeds n = some f →
        let e := f.inflight.foldl (fun s r => reply s r.reply 6 r.tag 0 0) (applied s h)
        False))
    ∧ (¬ (∀ (s : State) (h : Hdr), ∀ (n : Nat) c, handed s h 5 8 → epochFree s h → allClear (ringNamed h s.cfg.sess.returns n) → tget s.cfg.sess.returns n = some c →
        False))
    ∧ (¬ (∀ (s : State) (h : Hdr), ∀ (n : Nat), handed s h 5 9 → epochFree s h → allClear (ringNamed h s.cfg.sess.feeds n) →
        False))
    ∧ (¬ (∀ (s : State) (h : Hdr), ∀ (n : Nat), handed s h 5 10 → epochFree s h → allClear (ringNamed h s.cfg.sess.returns n) →
        False))
    ∧ (¬ (∀ (s : State) (h : Hdr), ∀ (seed : Nat), handed s h 5 11 → epochFree s h → False)) :=
  ⟨fun k => k (((cmd State.reset 0 5 1).onCfg (fun c => { c with acts := { c.acts with bindings := [(0, { part := 0, tenant := 0, fn := 0, b := bind0 })] } })).onCfg (fun c => { c with net := { c.net with txqs := [(0, txq0)] } })) (hdr 0 0) 0xFFFF 0 sess0 (hand _ _ _ _ (by decide)) ⟨by decide, by decide⟩ (by decide) (by decide) rfl (by decide) (by decide) (by unfold allClear; decide) (by decide) (by unfold allClear; decide) (by decide),
   fun k => k (((((cmd State.reset 0 5 2).onCfg (fun c => { c with sess := { c.sess with sessions := [(0, { part := 0, tenant := 0, fn := 0, blk := sess0 })] } })).onSess (fun x => { x with sess := [(0, { part := 0, charge := 0, outIndex := 0, outTs := 0, delay := 1, seedNext := none, cells := [] })] })).onCfg (fun c => { c with acts := { c.acts with bindings := [(0, { part := 0, tenant := 0, fn := 0, b := bind0 })] } })).onCfg (fun c => { c with net := { c.net with txqs := [(0, txq0)] } })) (hdr 0 0) 0 ({ part := 0, tenant := 0, fn := 0, blk := sess0 }) sess0 (hand _ _ _ _ (by decide)) ⟨by decide, by decide⟩ (by unfold allClear; decide) rfl (by decide) (by decide) (by unfold allClear; decide) (by decide),
   fun k => k (((cmd State.reset 0 5 3).onCfg (fun c => { c with sess := { c.sess with sessions := [(0, { part := 0, tenant := 0, fn := 0, blk := sess0 })] } })).onSess (fun x => { x with sess := [(0, { part := 0, charge := 0, outIndex := 0, outTs := 0, delay := 1, seedNext := none, cells := [] })] })) (hdr 0 0) 0 (hand _ _ _ _ (by decide)) ⟨by decide, by decide⟩ (by unfold allClear; decide),
   fun k => k (((cmd State.reset 0 5 4).onCfg (fun c => { c with sess := { c.sess with sessions := [(0, { part := 0, tenant := 0, fn := 0, blk := sess0 })] } })).onSess (fun x => { x with sess := [(0, { part := 0, charge := 0, outIndex := 0, outTs := 0, delay := 1, seedNext := none, cells := [] })] })) (hdr 0 0) 0 ({ part := 0, charge := 0, outIndex := 0, outTs := 0, delay := 1, seedNext := none, cells := [] }) ({ addr := 0, len := 65536 }) (hand _ _ _ _ (by decide)) (by unfold allClear; decide) rfl (by decide),
   fun k => k ((cmd State.reset 0 5 5).onCfg (fun c => { c with tp := { c.tp with outWin := [(0, tpWin0)] } })) (hdr 0 0) ring0 0 (hand _ _ _ _ (by decide)) ⟨by decide, by decide⟩ (by decide) (by decide) rfl (by decide) (by decide) (by unfold allClear; decide) (by decide),
   fun k => k (((cmd State.reset 0 5 6).onCfg (fun c => { c with acts := { c.acts with bindings := [(0, { part := 0, tenant := 0, fn := 0, b := bind0 })] } })).onCfg (fun c => { c with tp := { c.tp with outWin := [(0, tpWin0)] } })) (hdr 0 0) ring0 0 0 (hand _ _ _ _ (by decide)) ⟨by decide, by decide⟩ (by decide) (by decide) rfl (by decide) (by decide) (by unfold allClear; decide) (by decide) (by decide) ⟨_, rfl, rfl⟩,
   fun k => k (((cmd State.reset 0 5 7).onCfg (fun c => { c with sess := { c.sess with feeds := [(0, { part := 0, tenant := 0, fn := 0, bind := ring0, binding := 0 })], returns := [(0, { part := 0, tenant := 0, fn := 0, bind := ring0, binding := 0 })] } })).onSess (fun x => { x with feeds := [(0, {})] })) (hdr 0 0) 0 ({ part := 0, tenant := 0, fn := 0, bind := ring0, binding := 0 }) ({}) (hand _ _ _ _ (by decide)) ⟨by decide, by decide⟩ (by unfold allClear; decide) rfl rfl,
   fun k => k ((cmd State.reset 0 5 8).onCfg (fun c => { c with sess := { c.sess with feeds := [(0, { part := 0, tenant := 0, fn := 0, bind := ring0, binding := 0 })], returns := [(0, { part := 0, tenant := 0, fn := 0, bind := ring0, binding := 0 })] } })) (hdr 0 0) 0 ({ part := 0, tenant := 0, fn := 0, bind := ring0, binding := 0 }) (hand _ _ _ _ (by decide)) ⟨by decide, by decide⟩ (by unfold allClear; decide) rfl,
   fun k => k ((cmd State.reset 0 5 9).onCfg (fun c => { c with sess := { c.sess with feeds := [(0, { part := 0, tenant := 0, fn := 0, bind := ring0, binding := 0 })], returns := [(0, { part := 0, tenant := 0, fn := 0, bind := ring0, binding := 0 })] } })) (hdr 0 0) 0 (hand _ _ _ _ (by decide)) ⟨by decide, by decide⟩ (by unfold allClear; decide),
   fun k => k ((cmd State.reset 0 5 10).onCfg (fun c => { c with sess := { c.sess with feeds := [(0, { part := 0, tenant := 0, fn := 0, bind := ring0, binding := 0 })], returns := [(0, { part := 0, tenant := 0, fn := 0, bind := ring0, binding := 0 })] } })) (hdr 0 0) 0 (hand _ _ _ _ (by decide)) ⟨by decide, by decide⟩ (by unfold allClear; decide),
   fun k => k (cmd State.reset 0 5 11) (hdr 0 0) 1 (hand _ _ _ _ (by decide)) ⟨by decide, by decide⟩⟩

/-- States and operands that meet the hypotheses of each clause of `KeyCommands`: its hypotheses are not contradictory. -/
theorem witness_KeyCommands :
    (¬ (∀ (s : State) (h : Hdr), ∀ slot n (b : KeyBlock), handed s h 6 1 → (slot = 0xFFFF ∨ (slot < 32768 ∧ slotDenied s h slot = false)) → b.rsvZero = true → b.tenant = h.tenant →
        keyTypeOk b.alg b.use b.dir = true → materialOk b.alg b.material = true → pickNumber s.cipher.slots s.fixedMode (hp h) 2048 32768 slot = some n →
        thas s.cipher.slots n = false → allClear (roomChecks s (hp h) (hcharge h) 5 1 .noResource) →
        False))
    ∧ (¬ (∀ (s : State) (h : Hdr), ∀ (slot : Nat) k, handed s h 6 2 → slot < 32768 → slotDenied s h slot = false → tget s.cipher.slots slot = some k → k.state = .loaded →
        False))
    ∧ (¬ (∀ (s : State) (h : Hdr), ∀ (slot : Nat), handed s h 6 2 → slot < 32768 → slotDenied s h slot = false → tget s.cipher.slots slot = none →
        False))
    ∧ (¬ (∀ (s : State) (h : Hdr), ∀ (slot : Nat) k, handed s h 6 3 → slot < 32768 → slotDenied s h slot = false → tget s.cipher.slots slot = some k → k.state = .loaded →
        bindingsOf s (hp h) slot = [] → False))
    ∧ (¬ (∀ (s : State) (h : Hdr), handed s h 6 4 → False)) :=
  ⟨fun k => k (cmd State.reset 0 6 1) (hdr 0 0) 0xFFFF 0 key0 (hand _ _ _ _ (by decide)) (by decide) (by decide) (by decide) (by decide) (by decide) rfl (by decide) (by unfold allClear; decide),
   fun k => k ((cmd State.reset 0 6 2).onCipher (fun c => { c with slots := [(0, { state := .loaded, part := 0, tenant := 0, charge := 0, alg := 1, use := 1, dir := 1, material := [], spent := false, counter := 0 })] })) (hdr 0 0) 0 ({ state := .loaded, part := 0, tenant := 0, charge := 0, alg := 1, use := 1, dir := 1, material := [], spent := false, counter := 0 }) (hand _ _ _ _ (by decide)) (by decide) (by decide) rfl (by decide),
   fun k => k (cmd State.reset 0 6 2) (hdr 0 0) 0 (hand _ _ _ _ (by decide)) (by decide) (by decide) rfl,
   fun k => k ((cmd State.reset 0 6 3).onCipher (fun c => { c with slots := [(0, { state := .loaded, part := 0, tenant := 0, charge := 0, alg := 1, use := 1, dir := 1, material := [], spent := false, counter := 0 })] })) (hdr 0 0) 0 ({ state := .loaded, part := 0, tenant := 0, charge := 0, alg := 1, use := 1, dir := 1, material := [], spent := false, counter := 0 }) (hand _ _ _ _ (by decide)) (by decide) (by decide) rfl (by decide) (by decide),
   fun k => k (cmd State.reset 0 6 4) (hdr 0 0)  (hand _ _ _ _ (by decide))⟩

/-- States and operands that meet the hypotheses of each clause of `ActCommands`: its hypotheses are not contradictory. -/
theorem witness_ActCommands :
    (¬ (∀ (s : State) (h : Hdr), ∀ (act : Nat) (image : HostBlk (List Byte)) (g : ActImage) (k : Nat), handed s h 7 1 →
        allClear ([(63 < act && act != 255, .badRequest), (image.isNone, .hostAbort)]) →
        parseImage (image.getD []) (fun a n => (troupesOf (applied s h) (hp h)).all (fun t => troupeRange (applied s h) (hp h) t a n)) = .inr g →
        pick8 s.acts.acts (hp h) act = some k →
        (act != 255 && thas s.acts.acts (64 * hp h + k)) = false →
        (tfilter s.acts.acts (fun j _ => j / 64 == hp h)).any (fun e => e.2.imBase < g.imBase + g.code.length && g.imBase < e.2.imBase + e.2.codeWords) = false →
        False))
    ∧ (¬ (∀ (s : State) (h : Hdr), ∀ (act : Nat) (a : Act), handed s h 7 2 →
        allClear ([(63 < act || !thas s.acts.acts (64 * hp h + act), .badRequest), (actNamed s (hp h) act, .actInUse)]) →
        tget s.acts.acts (64 * hp h + act) = some a →
        False))
    ∧ (¬ (∀ (s : State) (h : Hdr), ∀ (b : ActBinding), handed s h 7 3 → epochFree s h →
        allClear ([(bindRangesOut b || (63 < b.binding && b.binding != 255), .badRequest), (b.binding != 255 && thas s.cfg.acts.bindings (64 * hp h + b.binding), .badRequest), (bindBad s (hp h) b [], .badBinding), ((pick8 s.cfg.acts.bindings (hp h) b.binding).isNone, .noBindings)]) →
        let k := (pick8 s.cfg.acts.bindings (hp h) b.binding).getD 0;
        False))
    ∧ (¬ (∀ (s : State) (h : Hdr), ∀ (b : ActBinding), handed s h 7 4 → epochFree s h →
        allClear ([(bindRangesOut b || 63 < b.binding, .badRequest)] ++ bindNamed s h b.binding ++ [((match tget s.cfg.acts.bindings (64 * hp h + b.binding) with | some o => o.tenant != h.tenant | none => false), .badRequest), (bindBad s (hp h) b (sessionsOf s.cfg (hp h) b.binding), .badBinding)]) →
        False))
    ∧ (¬ (∀ (s : State) (h : Hdr), ∀ (n : Nat), handed s h 7 5 → epochFree s h →
        allClear (bindNamed s h n ++ [(bindingNamed s.cfg (hp h) n, .actInUse)]) →
        False))
    ∧ (¬ (∀ (s : State) (h : Hdr), ∀ (timer : Nat) (binding : Nat) (period : Nat) (first : Nat), handed s h 7 6 → epochFree s h →
        allClear ([(63 < timer || (binding != 255 && period < 10), .badRequest)] ++ refBad s h binding ++ (match tget s.cfg.acts.timers (64 * hp h + timer) with | some t => [(notMine h (hp h) t.tenant, .notPermitted)] | none => [])) →
        let t : TimerCfg := { binding := binding, tenant := (match tget s.cfg.acts.bindings (64 * hp h + binding) with | some b => b.tenant | none => 0), periodUs := period, first := (if first == 0 then none else some (s.clock.cadence + (first - s.clock.now))), epoch := modAdd 16 (s.part (hp h)).epoch 1 };
        False))
    ∧ (¬ (∀ (s : State) (h : Hdr), ∀ (doorbell : Nat) (binding : Nat), handed s h 7 7 → epochFree s h →
        allClear ([(decide (63 < doorbell), .badRequest)] ++ refBad s h binding ++ (match tget s.cfg.acts.doorbells (64 * hp h + doorbell) with | some b => (match tget s.cfg.acts.bindings (64 * hp h + b) with | some x => [(notMine h x.part x.tenant, .notPermitted)] | none => []) | none => [])) →
        False))
    ∧ (¬ (∀ (s : State) (h : Hdr), ∀ (n : Nat) (clear : Nat) (blk : OutBlk), handed s h 7 8 →
        allClear ((1 < clear, .badRequest) :: bindNamed s h n) →
        let x := tgetD s.acts.stats (64 * hp h + n) {};
        let d := statsBlock s n [x.invocations, x.cycles, x.overruns, x.faults, x.eventsDropped, x.doorbellDenied, x.repliesDiscarded] [x.hwCycles];
        d.length ≤ blk.len →
        False)) :=
  ⟨fun k => k (cmd State.reset 0 7 1) (hdr 0 0) 0 (some img0) ({ imBase := 0, code := [504 * 2 ^ 27], entries := [0], segments := [] }) 0 (hand _ _ _ _ (by decide)) (by unfold allClear; decide) (by decide +kernel) rfl (by decide +kernel) (by decide +kernel),
   fun k => k ((cmd State.reset 0 7 2).onActs (fun x => { x with acts := [(0, { imBase := 0, code := [0], entries := [0], segments := [] })] })) (hdr 0 0) 0 ({ imBase := 0, code := [0], entries := [0], segments := [] }) (hand _ _ _ _ (by decide)) (by unfold allClear; decide) rfl,
   fun k => k ((cmd State.reset 0 7 3).onActs (fun x => { x with acts := [(0, { imBase := 0, code := [0], entries := [0], segments := [] })] })) (hdr 0 0) ({ bind0 with binding := 255 }) (hand _ _ _ _ (by decide)) ⟨by decide, by decide⟩ (by unfold allClear; decide),
   fun k => k (((cmd State.reset 0 7 4).onActs (fun x => { x with acts := [(0, { imBase := 0, code := [0], entries := [0], segments := [] })] })).onCfg (fun c => { c with acts := { c.acts with bindings := [(0, { part := 0, tenant := 0, fn := 0, b := bind0 })] } })) (hdr 0 0) bind0 (hand _ _ _ _ (by decide)) ⟨by decide, by decide⟩ (by unfold allClear; decide),
   fun k => k ((cmd State.reset 0 7 5).onCfg (fun c => { c with acts := { c.acts with bindings := [(0, { part := 0, tenant := 0, fn := 0, b := bind0 })] } })) (hdr 0 0) 0 (hand _ _ _ _ (by decide)) ⟨by decide, by decide⟩ (by unfold allClear; decide),
   fun k => k (cmd State.reset 0 7 6) (hdr 0 0) 63 255 0 0 (hand _ _ _ _ (by decide)) ⟨by decide, by decide⟩ (by unfold allClear; decide),
   fun k => k (cmd State.reset 0 7 7) (hdr 0 0) 63 255 (hand _ _ _ _ (by decide)) ⟨by decide, by decide⟩ (by unfold allClear; decide),
   fun k => k ((cmd State.reset 0 7 8).onCfg (fun c => { c with acts := { c.acts with bindings := [(0, { part := 0, tenant := 0, fn := 0, b := bind0 })] } })) (hdr 0 0) 0 1 ({ addr := 0, len := 65536 }) (hand _ _ _ _ (by decide)) (by unfold allClear; decide) (by decide)⟩

/-- States and operands that meet the hypotheses of each clause of `NetworkConfigCommands`: its hypotheses are not contradictory. -/
theorem witness_NetworkConfigCommands :
    (¬ (∀ (s : State) (h : Hdr), ∀ (port : Nat) (mode : Nat),
        let old := fun (s : State) => modePorts port (tgetD s.cfg.net.portMode port 0);
         handed s h 8 1 → allFree s →
        allClear ([(decide (4 ≤ port) || decide (4 ≤ mode), .badRequest), ((old s).any (fun n => !(modePorts port mode).contains n && lportNamed s.cfg n), .portInUse)]) →
        let e := (modePorts port mode).foldl (fun s n => s.send (.linkTraining n)) ((modePorts port (tgetD s.cfg.net.portMode port 0)).foldl linkDown (applied s h));
        False))
    ∧ (¬ (∀ (s : State) (h : Hdr), ∀ (p : PortConfig), handed s h 8 2 → allFree s →
        allClear ([(!lportExists s.cfg p.lport || p.maxFrame < 64 || 9216 < p.maxFrame || 4095 < p.defaultVid || p.rxHoldMaxUs < 100 || 100000 < p.rxHoldMaxUs || p.pauseWatchdogMs < 10 || 2000 < p.pauseWatchdogMs, .badRequest), (rulesTooSmall s.cfg p.lport p.maxFrame, .bufferSmall)]) →
        False))
    ∧ (¬ (∀ (s : State) (h : Hdr), ∀ (lport : Nat) (vid : Nat) (part : Nat), handed s h 8 3 → allFree s →
        allClear ([(!lportExists s.cfg lport || 4095 < vid || (15 < part && part != 0xFF), .badRequest)]) →
        False))
    ∧ (¬ (∀ (s : State) (h : Hdr), ∀ (lport : Nat) (list_ : Nat) (index : Nat) (valid : Bool) (mac : Nat),
        let put := fun (t : Tbl Nat) => if valid then tset t index mac else tdel t index;
         handed s h 8 4 → allFree s →
        allClear ([(!lportExists s.cfg lport || 1 < list_ || 1023 < index, .badRequest)]) →
        False))
    ∧ (¬ (∀ (s : State) (h : Hdr), ∀ (r : RxRingCreate), handed s h 8 5 → epochFree s h →
        allClear ([(r.log2 < 4 || 12 < r.log2 || 1 < r.bufCode || vectorsOf h.fn ≤ r.vector || !lportExists s.cfg r.lport || !baseOk r.base 16, .badRequest), ((tfreeIn s.net.rings 0 65535).isNone, .noResource), (!doorbellsFree s h.fn 2, .noDoorbells)]) →
        let n := (tfreeIn s.net.rings 0 65535).getD 0;
        let d := giveDoorbells (applied s h) h.fn [.rxBuf n, .rxComp n];
        False))
    ∧ (¬ (∀ (s : State) (h : Hdr), ∀ (ring : Nat), handed s h 8 6 → epochFree s h →
        allClear (match tget s.cfg.net.rings ring with | none => [(true, .badRequest)] | some c => [(notMine h c.part c.tenant, .notPermitted)]) →
        False))
    ∧ (¬ (∀ (s : State) (h : Hdr), ∀ (rule : Nat) (valid : Bool) (blk : HostBlk RxRule),
        let b := blk.getD { priority := 0, ring := 0, meter := 0xFFFF, etherType := 0, ipVersion := 4, protocol := 0, dscp := 0, matchBits := 0, srcPort := 0, dstPort := 0, srcAddr := 0, dstAddr := 0, srcPrefix := 0, dstPrefix := 0, lport := 0xFF, rsvZero := true };
        let pick := fun (s : State) => pickNumber s.cfg.net.rules s.fixedMode (hp h) 256 4096 rule;
         handed s h 8 7 → epochFree s h →
        allClear (let n := (pick s).getD 4096
          let old := tget s.cfg.net.rules n
          [(!choose16 rule && 4095 < rule, .badRequest), (!valid && choose16 rule, .badRequest),
           ((match old with | some c => notMine h c.part c.tenant | none => false), .notPermitted),
           (valid && blk.isNone, .hostAbort), (valid && ruleFieldsBad s b, .badRequest),
           (valid && (match tget s.cfg.net.rings b.ring with
              | some g => (g.fn != 0 && notMine h g.part g.tenant) | none => true), .badRequest),
           (valid && meterBad s h b.meter, .badRequest),
           (valid && (match tget s.cfg.net.rings b.ring with
              | some g => (List.range 32).any (fun p => (b.lport == 0xFF || b.lport == p) && lportExists s.cfg p
                  && decide (bufSize g < (lportCfg s.cfg p).maxFrame))
              | none => false), .bufferSmall),
           (valid && ((pick s).isNone || (s.fixedMode && n / 256 != hp h)), .noResource)]
          ++ (if valid && old.isNone then roomChecks s (hp h) (hcharge h) 13 1 .noResource else [])) →
        let n := (pick s).getD 0;
        False))
    ∧ (¬ (∀ (s : State) (h : Hdr), ∀ (q : TxqCreate),
        let pick := fun (s : State) => pickNumber s.net.txqs s.fixedMode (hp h) 512 8192 q.queue;
         handed s h 8 8 → epochFree s h →
        allClear ([((!choose16 q.queue && 8191 < q.queue) || !lportExists s.cfg q.lport || 7 < q.cls || 255 < q.share || meterBad s h q.meter || q.size == 0 || (if q.internal then q.base != 0 else (q.log2 < 4 || 12 < q.log2 || vectorsOf h.fn ≤ q.vector || !baseOk q.base 16)), .badRequest), ((match pick s with | some n => thas s.net.txqs n || (s.fixedMode && n / 512 != hp h) | none => true), .noResource)] ++ roomChecks s (hp h) (hcharge h) 12 1 .noResource ++ [(!q.internal && !doorbellsFree s h.fn 2, .noDoorbells)]) →
        let n := (pick s).getD 0;
        let sh : Shaper := { rate := q.rateKbps, size := q.size };
        let c : TxqCfg := { part := hp h, tenant := h.tenant, fn := h.fn, lport := q.lport, cls := q.cls, share := q.share, internal := q.internal, meter := q.meter, base := q.base, log2 := q.log2, vector := q.vector, frameLimit := q.frameLimit, shaper := sh };
        let d := if q.internal then ([], applied s h) else giveDoorbells (applied s h) h.fn [.txProd n, .txComp n];
        False))
    ∧ (¬ (∀ (s : State) (h : Hdr), ∀ (q : Nat), handed s h 8 9 → epochFree s h →
        allClear (txqNamed h q s) →
        False))
    ∧ (¬ (∀ (s : State) (h : Hdr), ∀ (port : Nat) (meter : Nat), handed s h 8 19 → epochFree s h →
        allClear ([(port == 0 || meterBad s h meter, .badRequest)]) →
        False)) :=
  ⟨fun k => k (cmd State.reset 0 8 1) (hdr 0 0) 3 3 (hand _ _ _ _ (by decide)) (by unfold allFree; decide) (by unfold allClear; decide),
   fun k => k (cmd State.reset 0 8 2) (hdr 0 0) port0 (hand _ _ _ _ (by decide)) (by unfold allFree; decide) (by unfold allClear; decide),
   fun k => k (cmd State.reset 0 8 3) (hdr 0 0) 0 4095 15 (hand _ _ _ _ (by decide)) (by unfold allFree; decide) (by unfold allClear; decide),
   fun k => k (cmd State.reset 0 8 4) (hdr 0 0) 0 1 1023 true 0 (hand _ _ _ _ (by decide)) (by unfold allFree; decide) (by unfold allClear; decide),
   fun k => k (cmd State.reset 0 8 5) (hdr 0 0) ({ base := 0, log2 := 4, bufCode := 1, vector := 0, isDefault := true, lport := 0 }) (hand _ _ _ _ (by decide)) ⟨by decide, by decide⟩ (by unfold allClear; decide),
   fun k => k ((cmd State.reset 0 8 6).onCfg (fun c => { c with net := { c.net with rings := [(0, rxRing0)] } })) (hdr 0 0) 0 (hand _ _ _ _ (by decide)) ⟨by decide, by decide⟩ (by unfold allClear; decide),
   fun k => k ((cmd State.reset 0 8 7).onCfg (fun c => { c with net := { c.net with rings := [(0, rxRing0)] } })) (hdr 0 0) 0xFFFF true (some rule0) (hand _ _ _ _ (by decide)) ⟨by decide, by decide⟩ (by unfold allClear; decide),
   fun k => k (cmd State.reset 0 8 8) (hdr 0 0) ({ queue := 0xFFFF, lport := 0, cls := 7, share := 255, internal := false, meter := 0xFFFF, base := 0, log2 := 4, vector := 0, frameLimit := 0, rateKbps := 0, size := 1 }) (hand _ _ _ _ (by decide)) ⟨by decide, by decide⟩ (by unfold allClear; decide),
   fun k => k (((cmd State.reset 0 8 9).onCfg (fun c => { c with net := { c.net with txqs := [(0, txq0)] } })).onNet (fun n => { n with txqs := [(0, { frames := [frame0] })] })) (hdr 0 0) 0 (hand _ _ _ _ (by decide)) ⟨by decide, by decide⟩ (by unfold allClear; decide),
   fun k => k (cmd State.reset 0 8 19) (hdr 0 0) 1 0xFFFF (hand _ _ _ _ (by decide)) ⟨by decide, by decide⟩ (by unfold allClear; decide)⟩

/-- States and operands that meet the hypotheses of each clause of `NetworkTrafficCommands`: its hypotheses are not contradictory. -/
theorem witness_NetworkTrafficCommands :
    (¬ (∀ (s : State) (h : Hdr), ∀ (q : Nat) (count : Nat) (f : TxFrame), handed s h 8 10 →
        allClear (txqNamed h q s ++ [((descPlace s q count).isNone, .notFound)]) →
        descPlace s q count = some (.inl f) →
        False))
    ∧ (¬ (∀ (s : State) (h : Hdr), ∀ (q : Nat), handed s h 8 11 →
        allClear (txqNamed h q s) →
        let a := txFlushAll (applied s h) q 1;
        let b := txFlushWaits a.1 q 1;
        False))
    ∧ (¬ (∀ (s : State) (h : Hdr), ∀ (m : MeterSet),
        let pick := fun (s : State) => pickNumber s.cfg.net.meters s.fixedMode (hp h) 1024 16384 m.meter;
         handed s h 8 12 → epochFree s h →
        allClear (let n := (pick s).getD 16384
          let old := tget s.cfg.net.meters n
          [((!choose16 m.meter && 16383 < m.meter) || 2 < m.algorithm || 2 < m.mode || 2 < m.actGreen || 2 < m.actYellow || 2 < m.actRed
              || m.cbs == 0 || (m.algorithm != 0 && m.ebs == 0) || 63 < m.dscp, .badRequest),
           ((match old with | some c => notMine h c.part c.tenant | none => false), .notPermitted),
           ((pick s).isNone || (s.fixedMode && n / 1024 != hp h), .noResource)]
          ++ (if old.isNone then roomChecks s (hp h) (hcharge h) 14 1 .noResource else [])) →
        let n := (pick s).getD 0;
        let c : MeterCfg := { part := hp h, tenant := h.tenant, fn := h.fn, algorithm := m.algorithm, colourAware := m.colourAware, actGreen := m.actGreen, actYellow := m.actYellow, actRed := m.actRed, cir := m.cir, pir := m.pir, cbs := m.cbs, ebs := m.ebs, dscp := m.dscp };
        let e := (commitEpoch (applied s h) (hp h) (fun g => { g with net := { g.net with meters := tset g.net.meters n c } })).onNet (fun x => { x with
          meters := tset x.meters n { (tgetD x.meters n { cur := c }) with adopt := some (c, m.mode) } });
        False))
    ∧ (¬ (∀ (s : State) (h : Hdr), ∀ (shaper : Nat) (mode : Nat) (rate : Nat) (size : Nat), handed s h 8 13 → epochFree s h → shaper < 8192 → mode ≤ 2 → size ≠ 0 → allClear (txqNamed h shaper s) →
        let sh : Shaper := { rate := rate, size := size }
        let e := commitEpoch (applied s h) (hp h) (fun g => { g with net := { g.net with txqs := tmod g.net.txqs shaper (fun q => { q with shaper := sh }) } })
        False))
    ∧ (¬ (∀ (s : State) (h : Hdr), ∀ (shaper : Nat) (mode : Nat) (rate : Nat) (size : Nat), handed s h 8 13 → allFree s → 8192 ≤ shaper → shaper ≤ 8447 → mode ≤ 2 → size ≠ 0 →
        lportExists s.cfg ((shaper - 8192) / 8) = true → s.fixedMode = false →
        let sh : Shaper := { rate := rate, size := size }
        let e := commitAll (applied s h) (fun g => { g with net := { g.net with classShapers := tset g.net.classShapers (shaper - 8192) sh } })
        False))
    ∧ (¬ (∀ (s : State) (h : Hdr), ∀ (lport : Nat) (ws : List Nat), handed s h 8 14 → allFree s →
        allClear ([(!lportExists s.cfg lport, .badRequest), (s.fixedMode && (List.range 8).any (fun k => listGet ws k 1 == 0), .fixedMode), (strictOver s lport ws, .strictOvercommit)]) →
        False))
    ∧ (¬ (∀ (s : State) (h : Hdr), ∀ (port : Nat) (n : Nat) (cycle : Nat) (base : Nat) (blk : HostBlk (List GclEntry)),
        let es := blk.getD [];
        let g : Gcl := { entries := es, cycle := cycle, base := base };
         handed s h 8 15 → allFree s →
        allClear ([(3 < port || 512 < n, .badRequest), (n != 0 && (cycle % 8 != 0 || cycle < 1000 || 4294967288 < cycle), .badRequest), (n != 0 && blk.isNone, .hostAbort), (n != 0 && (es.length != n || es.any (fun e => e.interval == 0 || 536870911 < e.interval)), .badRequest), (n != 0 && 8 * (es.map (·.interval)).sum != cycle, .gclCycleMismatch), (n != 0 && gateShort s port g, .gateWindowShort)]) →
        let e := commitAll (applied s h) (fun c => { c with net := { c.net with
          gcls := if n == 0 then tdel c.net.gcls port else tset c.net.gcls port g } });
        False))
    ∧ (¬ (∀ (s : State) (h : Hdr), ∀ (x : SampleSet),
        let isIt := fun (d : DbTarget) => d == .sample x.queue;
        let unbind := fun (s : State) => match tget s.net.samplers x.queue with | some m => (dropDoorbells s m.fn isIt).onNet (fun n => { n with samplers := tdel n.samplers x.queue }) | none => s;
         handed s h 8 16 →
        allClear (txqNamed h x.queue s ++ [(1000000 < x.periodUs || (x.periodUs != 0 && (x.log2 < 4 || 12 < x.log2 || vectorsOf h.fn ≤ x.vector || !baseOk x.base 32)), .badRequest), (x.periodUs != 0 && 16000000 < sampleRate s x.queue + ceilDiv 1000000 x.periodUs, .sampleRate), (x.periodUs != 0 && !doorbellsFree (unbind s) h.fn 1, .noDoorbells)]) →
        x.periodUs ≠ 0 →
        let d := giveDoorbells (unbind (applied s h)) h.fn [.sample x.queue];
        let m : Sampler := { periodUs := x.periodUs, base := x.base, log2 := x.log2, vector := x.vector, fn := h.fn, prod := 0, cons := 0, seq := 0 };
        False))
    ∧ (¬ (∀ (s : State) (h : Hdr), ∀ (q : Nat) (clear : Bool) (blk : OutBlk), handed s h 8 17 →
        allClear (txqNamed h q s) →
        let x := tgetD s.net.txqs q {};
        let d := statsBlock s q (x.sent :: (List.range 7).map (fun k => tgetD x.flushed (k + 1) 0)) [x.hwDepth, x.hwSojourn];
        d.length ≤ blk.len →
        False))
    ∧ (¬ (∀ (s : State) (h : Hdr), ∀ (n : Nat) (clear : Bool) (blk : OutBlk), handed s h 8 18 →
        allClear ([(if n < 0x80 then !lportExists s.cfg n else decide (0x83 < n), .badRequest)]) →
        n < 0x80 →
        let l := lportOf s n;
        let d := statsBlock s n ([l.rxFrames, l.rxOctets, l.txFrames, l.txOctets] ++ counters l.rxPfc 8 ++ counters l.txPfc 8 ++ [l.rxPauseIgnored] ++ counters l.drops 12) [];
        d.length ≤ blk.len →
        False)) :=
  ⟨fun k => k (((cmd State.reset 0 8 10).onCfg (fun c => { c with net := { c.net with txqs := [(0, txq0)] } })).onNet (fun n => { n with txqs := [(0, { frames := [frame0] })] })) (hdr 0 0) 0 0 frame0 (hand _ _ _ _ (by decide)) (by unfold allClear; decide) rfl,
   fun k => k (((cmd State.reset 0 8 11).onCfg (fun c => { c with net := { c.net with txqs := [(0, txq0)] } })).onNet (fun n => { n with txqs := [(0, { frames := [frame0] })] })) (hdr 0 0) 0 (hand _ _ _ _ (by decide)) (by unfold allClear; decide),
   fun k => k (cmd State.reset 0 8 12) (hdr 0 0) meter0 (hand _ _ _ _ (by decide)) ⟨by decide, by decide⟩ (by unfold allClear; decide),
   fun k => k (((cmd State.reset 0 8 13).onCfg (fun c => { c with net := { c.net with txqs := [(0, txq0)] } })).onNet (fun n => { n with txqs := [(0, { frames := [frame0] })] })) (hdr 0 0) 0 2 0 1 (hand _ _ _ _ (by decide)) ⟨by decide, by decide⟩ (by decide) (by decide) (by decide) (by unfold allClear; decide),
   fun k => k ({ cmd State.reset 0 8 13 with fixedMode := false }) (hdr 0 0) 8192 2 0 1 (hand _ _ _ _ (by decide)) (by unfold allFree; decide) (by decide) (by decide) (by decide) (by decide) (by decide) (by decide),
   fun k => k (cmd State.reset 0 8 14) (hdr 0 0) 0 [1, 1, 1, 1, 1, 1, 1, 255] (hand _ _ _ _ (by decide)) (by unfold allFree; decide) (by unfold allClear; decide),
   fun k => k (cmd State.reset 0 8 15) (hdr 0 0) 3 1 1000 0 (some [{ gates := 255, interval := 125 }]) (hand _ _ _ _ (by decide)) (by unfold allFree; decide) (by unfold allClear; decide),
   fun k => k (((cmd State.reset 0 8 16).onCfg (fun c => { c with net := { c.net with txqs := [(0, txq0)] } })).onNet (fun n => { n with txqs := [(0, { frames := [frame0] })] })) (hdr 0 0) ({ queue := 0, periodUs := 1000000, base := 0, log2 := 4, vector := 0 }) (hand _ _ _ _ (by decide)) (by unfold allClear; decide) (by decide),
   fun k => k (((cmd State.reset 0 8 17).onCfg (fun c => { c with net := { c.net with txqs := [(0, txq0)] } })).onNet (fun n => { n with txqs := [(0, { frames := [frame0] })] })) (hdr 0 0) 0 true ({ addr := 0, len := 65536 }) (hand _ _ _ _ (by decide)) (by unfold allClear; decide) (by decide),
   fun k => k (cmd State.reset 0 8 18) (hdr 0 0) 0 true ({ addr := 0, len := 65536 }) (hand _ _ _ _ (by decide)) (by unfold allClear; decide) (by decide) (by decide)⟩

/-- States and operands that meet the hypotheses of each clause of `GdpAndMoverCommands`: its hypotheses are not contradictory. -/
theorem witness_GdpAndMoverCommands :
    (¬ (∀ (s : State) (h : Hdr), ∀ (r : RegionSet),
        let pick := fun (s : State) => pickNumber s.cfg.gdp.regions s.fixedMode (hp h) 1024 16384 r.region;
         handed s h 9 1 → epochFree s h →
        allClear (let n := (pick s).getD 16384; let old := tget s.cfg.gdp.regions n; [((!choose16 r.region && 16383 < r.region) || (!r.valid && choose16 r.region), .badRequest), ((match old with | some c => notMine h c.part c.tenant | none => false), .notPermitted), (r.valid && regionBad s (hp h) r, .regionBad), (r.valid && ((pick s).isNone || (s.fixedMode && n / 1024 != hp h)), .noResource)] ++ (if r.valid && old.isNone then roomChecks s (hp h) (hcharge h) 9 1 .noResource else [])) →
        let n := (pick s).getD 0;
        False))
    ∧ (¬ (∀ (s : State) (h : Hdr), ∀ (blk : HostBlk ConnectBlock),
        let b := connDefaults (blk.getD noConnect);
        let pick := fun (s : State) => pickNumber s.gdp.conns s.fixedMode (hp h) 256 4096 b.localConn;
         handed s h 9 2 → epochFree s h →
        allClear ([(blk.isNone, .hostAbort), ((!choose16 b.localConn && 4095 < b.localConn) || connFieldsBad s h b, .badRequest), ((match pick s with | some n => thas s.gdp.conns n || (s.fixedMode && n / 256 != hp h) | none => true), .noConnections)] ++ roomChecks s (hp h) (hcharge h) 7 1 .noConnections ++ [(gdpLoop s b, .gdpCycle), (decide ((lportCfg s.cfg b.lport).maxFrame < fullPacket b), .tooLarge), (!doorbellsFree s h.fn 3, .noDoorbells)] ++ (if b.prot then keyChecks s (hp h) h.tenant b.keyTx 2 2 [b.alg] ++ keyChecks s (hp h) h.tenant b.keyRx 2 1 [b.alg] ++ [(!gdpAlgs.contains b.alg, .keyBadType)] else [])) →
        let n := (pick s).getD 0;
        let d := giveDoorbells (applied s h) h.fn [.gdpOp n, .gdpRecv n, .gdpComp n];
        let g : GdpConn := { progressAt := s.clock.cadence, window := b.initWindow, roundW := b.initWindow };
        False))
    ∧ (¬ (∀ (s : State) (h : Hdr), ∀ (m : GdpModify),
        let next := fun (s : State) => connModified (match tget s.cfg.gdp.conns m.conn with | some c => c.blk | none => noConnect) m;
         handed s h 9 3 → epochFree s h →
        allClear (let b := next s; connNamed h m.conn s ++ [(64 ≤ m.mask || (bit m.mask 0 && gdpTxqBad s h b.txq b.lport) || b.paths < 1 || 64 < b.paths || gdpLimitsBad b.retryLimit b.targetUs b.winMin b.winMax (max b.winMin (min b.winMax b.initWindow)) b.progressMs, .badRequest)]) →
        False))
    ∧ (¬ (∀ (s : State) (h : Hdr), ∀ (n : Nat), handed s h 9 4 → epochFree s h →
        allClear (connNamed h n s ++ [((connOf s n).state == .draining, .badRequest)]) →
        False))
    ∧ (¬ (∀ (s : State) (h : Hdr), ∀ (n : Nat) (blk : OutBlk), handed s h 9 5 →
        allClear (connNamed h n s) →
        let g := connOf s n;
        let d := statsBlock s n (counters g.counts 12 ++ [g.hwOutstanding, g.window, g.srtt.getD 0, g.alpha]) [];
        d.length ≤ blk.len →
        False))
    ∧ (¬ (∀ (s : State) (h : Hdr), ∀ (q : QueueCreate), handed s h 10 1 → epochFree s h →
        allClear (let n := pickNumber s.mover.queues s.fixedMode (hp h) 64 1024 q.queue; [(q.log2 < 4 || 12 < q.log2 || vectorsOf h.fn ≤ q.vector || !baseOk q.descBase 64 || !baseOk q.compBase 16 || (q.pasidEn && !(s.fn h.fn).pasidCap) || (!choose16 q.queue && 1024 ≤ q.queue), .badRequest), (n.isNone || (match n with | some k => thas s.mover.queues k || (s.fixedMode && k / 64 != hp h) | none => true), .noResource)] ++ roomChecks s (hp h) (hcharge h) 20 1 .noResource ++ [(!doorbellsFree s h.fn 2, .noDoorbells)]) →
        let n := (pickNumber s.mover.queues s.fixedMode (hp h) 64 1024 q.queue).getD 0;
        let own : QueueCfg := { part := hp h, tenant := h.tenant, fn := h.fn, q := { q with queue := n } };
        let d := giveDoorbells (applied s h) h.fn [.moverProd n, .moverComp n];
        False))
    ∧ (¬ (∀ (s : State) (h : Hdr), ∀ (q : Nat), handed s h 10 2 →
        allClear (moverOf s h q) →
        False))
    ∧ (¬ (∀ (s : State) (h : Hdr), ∀ (q : Nat), handed s h 10 3 → epochFree s h →
        allClear (moverOf s h q) →
        let e := (moverFlush (applied s h) q).1.onMvq q (fun m => { m with closing := true });
        False))
    ∧ (¬ (∀ (s : State) (h : Hdr), ∀ (q : Nat) (blk : OutBlk), handed s h 10 4 →
        allClear (moverOf s h q) →
        let d := statsBlock s q (counters (match tget s.mover.queues q with | some m => m.counts | none => []) 16) [];
        d.length ≤ blk.len →
        False)) :=
  ⟨fun k => k (cmd State.reset 0 9 1) (hdr 0 0) region0 (hand _ _ _ _ (by decide)) ⟨by decide, by decide⟩ (by unfold allClear; decide),
   fun k => k (((cmd State.reset 0 9 2).onCfg (fun c => { c with net := { c.net with txqs := [(0, txq0)] } })).onNet (fun n => { n with txqs := [(0, { frames := [frame0] })] })) (hdr 0 0) (some { noConnect with localConn := 0xFFFF, remoteAddr := 1 }) (hand _ _ _ _ (by decide)) ⟨by decide, by decide⟩ (by unfold allClear; decide),
   fun k => k ((cmd State.reset 0 9 3).onCfg (fun c => { c with gdp := { c.gdp with conns := [(0, conn0)] } })) (hdr 0 0) ({ conn := 0, txq := 0, paths := 64, retryLimit := 0, mask := 0, targetUs := 0, winMin := 0, winMax := 0, progressMs := 0 }) (hand _ _ _ _ (by decide)) ⟨by decide, by decide⟩ (by unfold allClear; decide),
   fun k => k ((cmd State.reset 0 9 4).onCfg (fun c => { c with gdp := { c.gdp with conns := [(0, conn0)] } })) (hdr 0 0) 0 (hand _ _ _ _ (by decide)) ⟨by decide, by decide⟩ (by unfold allClear; decide),
   fun k => k ((cmd State.reset 0 9 5).onCfg (fun c => { c with gdp := { c.gdp with conns := [(0, conn0)] } })) (hdr 0 0) 0 ({ addr := 0, len := 65536 }) (hand _ _ _ _ (by decide)) (by unfold allClear; decide) (by decide),
   fun k => k (cmd State.reset 0 10 1) (hdr 0 0) create0 (hand _ _ _ _ (by decide)) ⟨by decide, by decide⟩ (by unfold allClear; decide),
   fun k => k (((cmd State.reset 0 10 2).onCfg (fun c => { c with movers := [(0, mover0)] })).onMover (fun x => { x with queues := [(0, { own := mover0 })] })) (hdr 0 0) 0 (hand _ _ _ _ (by decide)) (by unfold allClear; decide),
   fun k => k (((cmd State.reset 0 10 3).onCfg (fun c => { c with movers := [(0, mover0)] })).onMover (fun x => { x with queues := [(0, { own := mover0 })] })) (hdr 0 0) 0 (hand _ _ _ _ (by decide)) ⟨by decide, by decide⟩ (by unfold allClear; decide),
   fun k => k (((cmd State.reset 0 10 4).onCfg (fun c => { c with movers := [(0, mover0)] })).onMover (fun x => { x with queues := [(0, { own := mover0 })] })) (hdr 0 0) 0 ({ addr := 0, len := 65536 }) (hand _ _ _ _ (by decide)) (by unfold allClear; decide) (by decide)⟩

/-- States and operands that meet the hypotheses of each clause of `CodecCommands`: its hypotheses are not contradictory. -/
theorem witness_CodecCommands :
    (¬ (∀ (s : State) (h : Hdr), ∀ (i : Nat) (mode : Nat) (age : Nat) (idle : Nat) (watchdog : Nat),
        let range := fun (v : Nat) => v != 0 && (v < 1000 || 1000000 < v);
         handed s h 11 1 → allFree s →
        allClear (let now := (instCfg s.cfg i).exclusive; [(1 < i || 1 < mode || range age || range idle || (watchdog != 0 && (watchdog < 10000 || 1000000 < watchdog)), .badRequest), ((mode == 1) != now && tany s.cfg.codec.streams (fun k _ => k / 256 == i), .codecBusy), (mode == 1 && s.fixedMode, .fixedMode)]) →
        False))
    ∧ (¬ (∀ (s : State) (h : Hdr), ∀ (n : Nat) (blk : HostBlk CodecOpen),
        let b := blk.getD noCodec;
         handed s h 11 2 → epochFree s h →
        allClear ([(blk.isNone, .hostAbort), (codecFieldsBad s h b || (!choose16 n && 511 < n), .badRequest), (quarantined s (142 + b.unit), .islandQuarantined), ((streamPick s b.unit n).isNone || decide (limitOf s (hp h) 24 < streamsUsed s b.unit (hp h) none + 1) || ((instCfg s.cfg b.unit).exclusive && 64 ≤ tcount s.codec.streams (fun k _ => k / 256 == b.unit)), .noStreams), (hcharge h != 0 && (match capOf s (hp h) (hcharge h) 24 with | some c => decide (c < streamsUsed s b.unit (hp h) (some (hcharge h)) + 1) | none => false), .tenantLimit), (!doorbellsFree s h.fn 2, .noDoorbells)]) →
        workBytes b ≤ b.workLen →
        let k := (streamPick s b.unit n).getD 0;
        let own : StreamCfg := { part := hp h, tenant := h.tenant, fn := h.fn, blk := { b with sliceRows := if b.sliceRows == 0 then 4 else b.sliceRows } };
        let d := giveDoorbells (applied s h) h.fn [.codecDesc k, .codecComp k];
        let e := d.2.onCodec (fun c => { c with streams := tset c.streams k { own := own } });
        False))
    ∧ (¬ (∀ (s : State) (h : Hdr), ∀ (m : CodecModify),
        let put := fun (b : CodecOpen) => { b with
          priority := if bit m.mask 0 then m.priority else b.priority
          rcMode := if bit m.mask 1 then m.rcMode else b.rcMode
          quantiser := if bit m.mask 1 then m.quantiser else b.quantiser
          rate := if bit m.mask 1 then m.rate else b.rate
          maxRate := if bit m.mask 1 then m.maxRate else b.maxRate };
        handed s h 11 3 → epochFree s h → allClear (streamNamed h m.stream s) → m.mask ≤ 3 → (bit m.mask 0 = true → m.priority ≤ 3) →
        (∀ c, tget s.cfg.codec.streams m.stream = some c → rateBad (put c.blk) = false) →
        False))
    ∧ (¬ (∀ (s : State) (h : Hdr), ∀ (n : Nat), handed s h 11 4 →
        allClear (streamNamed h n s) →
        False))
    ∧ (¬ (∀ (s : State) (h : Hdr), ∀ (n : Nat), handed s h 11 5 → epochFree s h →
        allClear (streamNamed h n s) →
        False))
    ∧ (¬ (∀ (s : State) (h : Hdr), ∀ (x : CodecBuffer), handed s h 11 6 →
        allClear (streamNamed h x.stream s ++ [(decide (31 < x.index), .badRequest), (match tget s.cfg.codec.streams x.stream with | some c => bufferBad s c x | none => false, .bufferBad), (match tget s.codec.streams x.stream with | some y => (match tget y.bufs x.index with | some b => b.held | none => false) | none => true, .bufferBusy)]) →
        let e := (applied s h).onStream x.stream (fun y => { y with bufs := tset y.bufs x.index { luma := x.luma, chroma := x.chroma, pitch := x.pitch, held := y.own.blk.dir == 0, busy := false, output := none, noRef := false } });
        False))
    ∧ (¬ (∀ (s : State) (h : Hdr), ∀ (n : Nat) (blk : OutBlk), handed s h 11 7 →
        allClear (streamNamed h n s) →
        let d := statsBlock s n (counters (match tget s.codec.streams n with | some x => x.counts | none => []) 20) [];
        d.length ≤ blk.len →
        False)) :=
  ⟨fun k => k (cmd State.reset 0 11 1) (hdr 0 0) 1 0 1000 1000000 0 (hand _ _ _ _ (by decide)) (by unfold allFree; decide) (by unfold allClear; decide),
   fun k => k (cmd State.reset 0 11 2) (hdr 0 0) 0xFFFF (some codec0) (hand _ _ _ _ (by decide)) ⟨by decide, by decide⟩ (by unfold allClear; decide) (by decide),
   fun k => k (((cmd State.reset 0 11 3).onCfg (fun c => { c with codec := { c.codec with streams := [(0, stream0)] } })).onCodec (fun c => { c with streams := [(0, { own := stream0 })] })) (hdr 0 0) ({ stream := 0, mask := 1, priority := 3, rcMode := 0, quantiser := 0, rate := 0, maxRate := 0 }) (hand _ _ _ _ (by decide)) ⟨by decide, by decide⟩ (by unfold allClear; decide) (by decide) (by decide) (fun c h => by cases h; decide),
   fun k => k (((cmd State.reset 0 11 4).onCfg (fun c => { c with codec := { c.codec with streams := [(0, stream0)] } })).onCodec (fun c => { c with streams := [(0, { own := stream0 })] })) (hdr 0 0) 0 (hand _ _ _ _ (by decide)) (by unfold allClear; decide),
   fun k => k (((cmd State.reset 0 11 5).onCfg (fun c => { c with codec := { c.codec with streams := [(0, stream0)] } })).onCodec (fun c => { c with streams := [(0, { own := stream0 })] })) (hdr 0 0) 0 (hand _ _ _ _ (by decide)) ⟨by decide, by decide⟩ (by unfold allClear; decide),
   fun k => k (((cmd State.reset 0 11 6).onCfg (fun c => { c with codec := { c.codec with streams := [(0, stream0)] } })).onCodec (fun c => { c with streams := [(0, { own := stream0 })] })) (hdr 0 0) ({ stream := 0, index := 31, pitch := 64, luma := 2 ^ 28, chroma := 2 ^ 29 }) (hand _ _ _ _ (by decide)) (by unfold allClear; decide),
   fun k => k (((cmd State.reset 0 11 7).onCfg (fun c => { c with codec := { c.codec with streams := [(0, stream0)] } })).onCodec (fun c => { c with streams := [(0, { own := stream0 })] })) (hdr 0 0) 0 ({ addr := 0, len := 65536 }) (hand _ _ _ _ (by decide)) (by unfold allClear; decide) (by decide)⟩

/-- States and operands that meet the hypotheses of each clause of `StorageCommands`, part 1: its hypotheses are not contradictory. -/
theorem witness_StorageCommands_1 :
    (¬ (∀ (s : State) (h : Hdr), ∀ (port : Nat) (mode : Nat), handed s h 12 1 → allFree s →
        allClear ([(decide (1 < port) || decide (1 < mode), .badRequest), (mode == 0 && s.cfg.stor.x4.contains port && driveInUse s (2 * port + 1) none, .driveInUse)]) →
        let e := commitAll (applied s h) (fun c => { c with stor := { c.stor with
          x4 := c.stor.x4.filter (fun k => k != port) ++ (if mode == 1 then [port] else []) } });
        False))
    ∧ (¬ (∀ (s : State) (h : Hdr), ∀ (drive : Nat) (blk : (List Byte)) (buf : Nat) (len : Nat) cqe (data : List Byte), handed s h 12 2 → drive ≤ 3 → [0x06, 0x02, 0x0A].contains (o8 (fit 64 blk) 0) = true → (tgetD s.stor.drives drive {}).st = .up →
        data ≠ [] → len ≠ 0 → ofLe (((fit 16 cqe).drop 14).take 2) / 2 = 0 →
        False))
    ∧ (¬ (∀ (s : State) (h : Hdr), ∀ (v : VolumeCreate),
        let pick := fun (s : State) => pickNumber s.stor.volumes s.fixedMode (hp h) 64 1024 v.volume;
         handed s h 12 3 → epochFree s h →
        allClear (let n := pick s; [((!choose16 v.volume && decide (1023 < v.volume)) || decide (1 < v.backing) || backingBad s h v || v.blocks == 0 || (match (spacesOf s v.backing v.source).find? (fun x => x.nsid == v.nsid) with | some x => decide (x.blocks < v.startLba + v.blocks) | none => true), .badRequest), ((volumesOn s v.backing v.source).any (fun e => e.2.v.nsid == v.nsid && decide (e.2.v.startLba < v.startLba + v.blocks) && decide (v.startLba < e.2.v.startLba + e.2.v.blocks)), .volumeOverlap), ((match n with | some k => thas s.stor.volumes k || (s.fixedMode && k / 64 != hp h) | none => true), .noVolumes)] ++ roomChecks s (hp h) (hcharge h) 22 1 .noVolumes ++ (if v.keySlot == 0xFFFF then [] else keyChecks s (hp h) h.tenant v.keySlot 3 3 [7])) →
        let n := (pick s).getD 0;
        let spaces := spacesOf s v.backing v.source;
        let c : VolumeCfg := { part := hp h, tenant := h.tenant, fn := h.fn, v := { v with volume := n }, blockSize := (match spaces.find? (fun x => x.nsid == v.nsid) with | some x => x.blockSize | none => 512) };
        let e := volState (commitEpoch ((applied s h).onStor (fun x => { x with volumes := tset x.volumes n {} })) (hp h) (fun g => { g with stor := { g.stor with volumes := tset g.stor.volumes n c } })) n c .creating 0;
        let up := backingUp e v.backing v.source;
        False))
    ∧ (¬ (∀ (s : State) (h : Hdr), ∀ (n : Nat), handed s h 12 4 → epochFree s h →
        allClear (volNamed s h n .volumeUnknown) →
        False))
    ∧ (¬ (∀ (s : State) (h : Hdr), ∀ (q : QueueCreate),
        let pick := fun (s : State) => pickNumber s.stor.queues s.fixedMode (hp h) 64 1024 q.queue;
         handed s h 12 5 → epochFree s h →
        allClear (let n := pick s; [(q.log2 < 4 || 12 < q.log2 || vectorsOf h.fn ≤ q.vector || !baseOk q.descBase 64 || !baseOk q.compBase 16 || (q.pasidEn && !(s.fn h.fn).pasidCap) || (!choose16 q.queue && 1024 ≤ q.queue) || (q.bounceCells != 0 && (q.bounceCells < 64 || 4096 < q.bounceCells)), .badRequest), ((match n with | some k => thas s.stor.queues k || (s.fixedMode && k / 64 != hp h) | none => true), .noResource)] ++ roomChecks s (hp h) (hcharge h) 21 1 .noResource ++ [(decide ((freeCells s (hp h) q.bounceCells).length < q.bounceCells), .noCells), (!doorbellsFree s h.fn 2, .noDoorbells)]) →
        let n := (pick s).getD 0;
        let own : QueueCfg := { part := hp h, tenant := h.tenant, fn := h.fn, q := { q with queue := n } };
        let cells := freeCells (applied s h) (hp h) q.bounceCells;
        let d := giveDoorbells (applied s h) h.fn [.storProd n, .storComp n];
        let e := (takeCells d.2 (hp h) h.tenant cells).onStor (fun x => { x with queues := tset x.queues n { own := own, cells := cells, freeCells := cells } });
        False))
    ∧ (¬ (∀ (s : State) (h : Hdr), ∀ (q : Nat), handed s h 12 6 →
        allClear (storNamed s h q) →
        False))
    ∧ (¬ (∀ (s : State) (h : Hdr), ∀ (q : Nat), handed s h 12 7 → epochFree s h →
        allClear (storNamed s h q) →
        False))
    ∧ (¬ (∀ (s : State) (h : Hdr), ∀ (sub : Nat) (valid : Nat) (blk : HostBlk SubsystemBlock),
        let b := blk.getD { nqn := [], hosts := [], namespaces := [] };
         handed s h 12 8 → epochFree s h →
        allClear ([(decide (3 < sub) || decide (1 < valid), .badRequest), (valid == 1 && blk.isNone, .hostAbort), (valid == 1 && b.namespaces.any (fun v => v != 0xFFFF && (match tget s.cfg.stor.volumes v with | some c => c.part != hp h | none => true)), .volumeUnknown)]) →
        False))
    ∧ (¬ (∀ (s : State) (h : Hdr), ∀ (l : ListenerSet),
        let remove := l.subsystem == 0xFF;
         handed s h 12 9 → epochFree s h →
        allClear ([(decide (3 < l.listener) || (!remove && (decide (3 < l.subsystem) || (l.ipVersion != 4 && l.ipVersion != 6) || !lportExists s.cfg l.lport || storTxqBad s h l.txq l.lport || meterBad s h l.meter)), .badRequest)]) →
        False))
    ∧ (¬ (∀ (s : State) (h : Hdr), ∀ (blk : HostBlk InitiatorBlock),
        let b := blk.getD { addr := 0, tcpPort := 0, ipVersion := 4, lport := 0, txq := 0, ioQueues := 1, digests := 0, ctrlLossTmo := 0, subNqn := [], hostNqn := [] };
        let b := { b with ctrlLossTmo := if b.ctrlLossTmo == 0 then 600 else b.ctrlLossTmo };
         handed s h 12 10 → epochFree s h →
        allClear ([(blk.isNone, .hostAbort), ((b.ipVersion != 4 && b.ipVersion != 6) || !lportExists s.cfg b.lport || storTxqBad s h b.txq b.lport || b.ioQueues == 0 || decide (16 < b.ioQueues) || b.digests % 2 != 0 || decide (7 < b.digests) || decide (b.ctrlLossTmo < 10) || decide (3600 < b.ctrlLossTmo), .badRequest), ((tfreeIn s.stor.inits 0 256).isNone || decide (1024 < s.stor.tcps.length + 1 + b.ioQueues), .noResource)] ++ roomChecks s (hp h) (hcharge h) 23 (1 + b.ioQueues) .noResource) →
        let c := (tfreeIn s.stor.inits 0 256).getD 0;
        let own : InitCfg := { part := hp h, tenant := h.tenant, blk := b };
        False))
    ∧ (¬ (∀ (s : State) (h : Hdr), ∀ (c : Nat), handed s h 12 11 → epochFree s h →
        allClear (match tget s.cfg.stor.initiators c with | none => [(true, .badRequest)] | some i => [(i.part != hp h, .notPermitted), (!(volumesOn s 1 c).isEmpty, .driveInUse)]) →
        let e := onInit (initReset (applied s h) c) c (fun i => { i with up := false, lost := false });
        False))
    ∧ (¬ (∀ (s : State) (h : Hdr), ∀ (seconds : Nat), handed s h 12 12 →
        allClear ([(seconds == 0 || decide (255 < seconds), .badRequest)]) →
        False)) :=
  ⟨fun k => k (cmd State.reset 0 12 1) (hdr 0 0) 1 1 (hand _ _ _ _ (by decide)) (by unfold allFree; decide) (by unfold allClear; decide),
   fun k => k ((cmd State.reset 0 12 2).onStor (fun x => { x with drives := [(0, { st := .up, spaces := [space0] })] })) (hdr 0 0) 0 [6] 0 4096 [] [1] (hand _ _ _ _ (by decide)) (by decide) (by decide) (by decide) (by decide) (by decide) (by decide),
   fun k => k ((cmd State.reset 0 12 3).onStor (fun x => { x with drives := [(0, { st := .up, spaces := [space0] })] })) (hdr 0 0) vol0 (hand _ _ _ _ (by decide)) ⟨by decide, by decide⟩ (by unfold allClear; decide),
   fun k => k (((cmd State.reset 0 12 4).onCfg (fun c => { c with stor := { c.stor with volumes := [(0, volume0)], queues := [(0, mover0)], initiators := [(0, { part := 0, tenant := 0, blk := init0 })] } })).onStor (fun x => { x with volumes := [(0, {})], queues := [(0, { own := mover0 })], inits := [(0, { up := true })] })) (hdr 0 0) 0 (hand _ _ _ _ (by decide)) ⟨by decide, by decide⟩ (by unfold allClear; decide),
   fun k => k (cmd State.reset 0 12 5) (hdr 0 0) ({ create0 with bounceCells := 64 }) (hand _ _ _ _ (by decide)) ⟨by decide, by decide⟩ (by unfold allClear; decide),
   fun k => k (((cmd State.reset 0 12 6).onCfg (fun c => { c with stor := { c.stor with volumes := [(0, volume0)], queues := [(0, mover0)], initiators := [(0, { part := 0, tenant := 0, blk := init0 })] } })).onStor (fun x => { x with volumes := [(0, {})], queues := [(0, { own := mover0 })], inits := [(0, { up := true })] })) (hdr 0 0) 0 (hand _ _ _ _ (by decide)) (by unfold allClear; decide),
   fun k => k (((cmd State.reset 0 12 7).onCfg (fun c => { c with stor := { c.stor with volumes := [(0, volume0)], queues := [(0, mover0)], initiators := [(0, { part := 0, tenant := 0, blk := init0 })] } })).onStor (fun x => { x with volumes := [(0, {})], queues := [(0, { own := mover0 })], inits := [(0, { up := true })] })) (hdr 0 0) 0 (hand _ _ _ _ (by decide)) ⟨by decide, by decide⟩ (by unfold allClear; decide),
   fun k => k (cmd State.reset 0 12 8) (hdr 0 0) 3 1 (some { nqn := [], hosts := [], namespaces := [0xFFFF] }) (hand _ _ _ _ (by decide)) ⟨by decide, by decide⟩ (by unfold allClear; decide),
   fun k => k (((cmd State.reset 0 12 9).onCfg (fun c => { c with net := { c.net with txqs := [(0, txq0)] } })).onNet (fun n => { n with txqs := [(0, { frames := [frame0] })] })) (hdr 0 0) ({ listener := 3, subsystem := 3, ipVersion := 6, lport := 0, tcpPort := 4420, meter := 0xFFFF, txq := 0, discovery := false, headerDigest := false, dataDigest := false, addr := 0 }) (hand _ _ _ _ (by decide)) ⟨by decide, by decide⟩ (by unfold allClear; decide),
   fun k => k (((cmd State.reset 0 12 10).onCfg (fun c => { c with net := { c.net with txqs := [(0, txq0)] } })).onNet (fun n => { n with txqs := [(0, { frames := [frame0] })] })) (hdr 0 0) (some init0) (hand _ _ _ _ (by decide)) ⟨by decide, by decide⟩ (by unfold allClear; decide),
   fun k => k (((cmd State.reset 0 12 11).onCfg (fun c => { c with stor := { c.stor with volumes := [(0, volume0)], queues := [(0, mover0)], initiators := [(0, { part := 0, tenant := 0, blk := init0 })] } })).onStor (fun x => { x with volumes := [(0, {})], queues := [(0, { own := mover0 })], inits := [(0, { up := true })] })) (hdr 0 0) 0 (hand _ _ _ _ (by decide)) ⟨by decide, by decide⟩ (by unfold allClear; decide),
   fun k => k (cmd State.reset 0 12 12) (hdr 0 0) 255 (hand _ _ _ _ (by decide)) (by unfold allClear; decide)⟩

/-- States and operands that meet the hypotheses of each clause of `StorageCommands`, part 2: its hypotheses are not contradictory. -/
theorem witness_StorageCommands_2 :
    ¬ (∀ (s : State) (h : Hdr), ∀ (kind : Nat) (n : Nat) (blk : OutBlk), handed s h 12 13 →
        allClear ([(decide (1 < kind) || (kind == 1 && decide (3 < n)), .badRequest), (kind == 1 && h.fn != 0, .notPermitted)] ++ (if kind == 0 then volNamed s h n .badRequest else [])) →
        let v := tgetD s.stor.drives n {};
        let d := statsBlock s n (if kind == 0 then counters (match tget s.stor.volumes n with | some v => v.counts | none => []) 27 else [v.dmaDenied, v.resets, v.timeouts]) [];
        d.length ≤ blk.len →
        False) :=
  fun k => k (cmd State.reset 0 12 13) (hdr 0 0) 1 3 ({ addr := 0, len := 65536 }) (hand _ _ _ _ (by decide)) (by unfold allClear; decide) (by decide)

/-- States and operands that meet the hypotheses of each clause of `TrapezeCommands`: its hypotheses are not contradictory. -/
theorem witness_TrapezeCommands :
    (¬ (∀ (s : State) (h : Hdr), ∀ (p : Nat), handed s h 13 1 →
        allClear ([(3 < p, .badRequest), (quarantined s (134 + p), .islandQuarantined)]) →
        tpUp (s.tport p) = true →
        False))
    ∧ (¬ (∀ (s : State) (h : Hdr), ∀ (p : Nat), handed s h 13 1 →
        allClear ([(3 < p, .badRequest), (quarantined s (134 + p), .islandQuarantined)]) →
        tpUp (s.tport p) = false →
        ((s.tport p).st == .training) = false →
        False))
    ∧ (¬ (∀ (s : State) (h : Hdr), ∀ (p : Nat), handed s h 13 2 →
        allClear ([(decide (3 < p), .badRequest)]) →
        False))
    ∧ (¬ (∀ (s : State) (h : Hdr), ∀ (p : Nat) (k : Nat) (e : TpWindow) (rsvZero : Bool), handed s h 13 3 → epochFree s h →
        allClear (let t := s.cfg.tp.outWin; let i := 1024 * p + (windowEntry t (1024 * p) 1024 k).getD 0; let fresh := e.valid && (match tget t i with | some x => !x.valid | none => true); [((decide (3 < p) || (!choose16 k && decide (1023 < k))), .badRequest), ((windowEntry t (1024 * p) 1024 k).isNone, .noResource)] ++ windowChecks h t (1024 * p) 1024 k e rsvZero false ++ [(fresh && decide (limitOf s (hp h) 18 < windowsUsed s p (hp h) none + 1), .noResource), (fresh && hcharge h != 0 && (match capOf s (hp h) (hcharge h) 18 with | some c => decide (c < windowsUsed s p (hp h) (some (hcharge h)) + 1) | none => false), .tenantLimit)]) →
        let n := (windowEntry s.cfg.tp.outWin (1024 * p) 1024 k).getD 0;
        False))
    ∧ (¬ (∀ (s : State) (h : Hdr), ∀ (p : Nat) (k : Nat) (e : TpWindow) (rsvZero : Bool), handed s h 13 4 → epochFree s h →
        allClear (let t := s.cfg.tp.inWin; [((decide (3 < p) || (!choose16 k && decide (255 < k))), .badRequest), ((windowEntry t (256 * p) 256 k).isNone, .noResource)] ++ windowChecks h t (256 * p) 256 k e rsvZero (!inHbmOrStage e.accBase (2 ^ e.sizeLog2))) →
        let n := (windowEntry s.cfg.tp.inWin (256 * p) 256 k).getD 0;
        False))
    ∧ (¬ (∀ (s : State) (h : Hdr), ∀ (p : Nat) (base : Nat) (log2 : Nat) (vector : Nat), handed s h 13 5 →
        allClear ([(decide (3 < p) || (base != 0 && (log2 < 4 || 12 < log2 || vectorsOf h.fn ≤ vector || !baseOk base 64)), .badRequest), (base != 0 && (s.tport p).telemRing.isNone && !doorbellsFree s h.fn 1, .noDoorbells)]) →
        base ≠ 0 →
        let d := giveDoorbells (dropDoorbells (applied s h) h.fn (isTelem p)) h.fn [.telem p];
        False))
    ∧ (¬ (∀ (s : State) (h : Hdr), ∀ (c : SumCmd), handed s h 13 6 →
        allClear ([(15 < c.members || 51 < c.value || c.timeoutUs == 0 || 1000000 < c.timeoutUs, .badRequest), (c.scalar && !bit (s.fn h.fn).booth.featEn 6, .unsupported), (!(membersOf c.members).all (fun p => tpUp (s.tport p)), .portDown)]) →
        False))
    ∧ (¬ (∀ (s : State) (h : Hdr), ∀ (p : Nat) (creditUs : Nat) (readUs : Nat), handed s h 13 7 →
        allClear ([(decide (3 < p) || creditUs < 100 || 100000 < creditUs || readUs < 50 || 50000 < readUs, .badRequest)]) →
        False))
    ∧ (¬ (∀ (s : State) (h : Hdr), ∀ (p : Nat) (blk : OutBlk), handed s h 13 8 →
        allClear ([(decide (3 < p), .badRequest)]) →
        let d := statsBlock s p (counters (s.tport p).counts 13) [];
        d.length ≤ blk.len →
        False)) :=
  ⟨fun k => k ((cmd State.reset 0 13 1).onTp 0 (fun t => { t with st := .active })) (hdr 0 0) 0 (hand _ _ _ _ (by decide)) (by unfold allClear; decide) (by decide),
   fun k => k (cmd State.reset 0 13 1) (hdr 0 0) 3 (hand _ _ _ _ (by decide)) (by unfold allClear; decide) (by decide) (by decide),
   fun k => k (cmd State.reset 0 13 2) (hdr 0 0) 3 (hand _ _ _ _ (by decide)) (by unfold allClear; decide),
   fun k => k (cmd State.reset 0 13 3) (hdr 0 0) 3 0xFFFF tpWin0 true (hand _ _ _ _ (by decide)) ⟨by decide, by decide⟩ (by unfold allClear; decide),
   fun k => k (cmd State.reset 0 13 4) (hdr 0 0) 3 255 ({ tpWin0 with sizeLog2 := 16 }) true (hand _ _ _ _ (by decide)) ⟨by decide, by decide⟩ (by unfold allClear; decide),
   fun k => k (cmd State.reset 0 13 5) (hdr 0 0) 3 64 12 0 (hand _ _ _ _ (by decide)) (by unfold allClear; decide) (by decide),
   fun k => k ((cmd State.reset 0 13 6).onTp 0 (fun t => { t with st := .active })) (hdr 0 0) ({ scalar := false, members := 1, value := 51, stepNo := 0, timeoutUs := 1000000 }) (hand _ _ _ _ (by decide)) (by unfold allClear; decide),
   fun k => k (cmd State.reset 0 13 7) (hdr 0 0) 3 100 50000 (hand _ _ _ _ (by decide)) (by unfold allClear; decide),
   fun k => k (cmd State.reset 0 13 8) (hdr 0 0) 3 ({ addr := 0, len := 65536 }) (hand _ _ _ _ (by decide)) (by unfold allClear; decide) (by decide)⟩

/-- States and operands that meet the hypotheses of each clause of `PressCommands`: its hypotheses are not contradictory. -/
theorem witness_PressCommands :
    (¬ (∀ (s : State) (h : Hdr), ∀ (jn : Nat) (blk : HostBlk ArmBlock),
        let a := blk.getD default;
         handed s h 14 1 →
        allClear ([(blk.isNone, .hostAbort), (s.resize.isSome, .resizeBusy), (thas s.press.jobs jn || 4 ≤ s.press.jobs.length || tany s.press.jobs (fun _ j => (membersOf a.members).any (bit j.arm.members)), .pressState), (armFieldsBad s a, .badRequest), (a.mode == 0 && (a.regions.any (regionBroken s a) || somePair regionsMeet a.regions), .badRequest)]) →
        (if a.mode == 0 then wheelBytes a else 4096) ≤ a.stagingLen →
        (a.mode == 0 && (a.shards.any (shardBroken a.regions) || somePair shardsMeet a.shards)) = false →
        let arm : ArmBlock := { a with setTimeoutMs := if a.setTimeoutMs == 0 then 1000 else a.setTimeoutMs };
        False))
    ∧ (¬ (∀ (s : State) (h : Hdr), ∀ (jn : Nat) (flush : Bool) (step : Nat) (j : PressJob), handed s h 14 2 →
        allClear ([(!pressReadyFor s jn 0, .pressState), (flush && (match tget s.press.jobs jn with | some j => j.arm.flushKind == 0 | none => true), .badRequest)]) →
        tget s.press.jobs jn = some j →
        False))
    ∧ (¬ (∀ (s : State) (h : Hdr), ∀ (jn : Nat) (blk : HostBlk Manifest),
        let m := blk.getD default;
         handed s h 14 3 →
        allClear (let a := match tget s.press.jobs jn with | some j => j.arm | none => default; [(blk.isNone, .hostAbort), (!pressReadyFor s jn 1, .pressState), (m.magic != 0x57484C31 || m.version != 1 || !m.crcOk || m.verified != 1 || a.stagingLen < m.wheelBytes, .pressImageBad), (a.targets.any (fun t => (targetPieces m t t.objectOffset (m.shards.length + 1)).isNone || (t.kind == 0 && !bit a.members t.member) || (t.kind != 0 && !inPartHbm s a.partition t.target t.length)) || somePair targetsMeet a.targets, .pressShardMap)]) →
        False))
    ∧ (¬ (∀ (s : State) (h : Hdr), ∀ (jn : Nat) (j : PressJob), handed s h 14 4 →
        allClear ([(match tget s.press.jobs jn with | some j => j.op.isSome | none => true, .pressState)]) →
        tget s.press.jobs jn = some j →
        False))
    ∧ (¬ (∀ (s : State) (h : Hdr), ∀ (jn : Nat), handed s h 14 5 →
        let r := fun (state stage step gen : Nat) => [byteOf state, byteOf stage] ++ zeros 6 ++ le 8 step ++ le 8 gen;
        False)) :=
  ⟨fun k => k (cmd State.reset 0 14 1) (hdr 0 0) 0 (some arm0) (hand _ _ _ _ (by decide)) (by unfold allClear; decide) (by decide) (by decide),
   fun k => k ({ cmd State.reset 0 14 2 with press := { jobs := [(0, { arm := arm0, generation := 0 })] } }) (hdr 0 0) 0 false 5 ({ arm := arm0, generation := 0 }) (hand _ _ _ _ (by decide)) (by unfold allClear; decide) rfl,
   fun k => k ({ cmd State.reset 0 14 3 with press := { jobs := [(0, { arm := arm1, generation := 0 })] } }) (hdr 0 0) 0 (some { (default : Manifest) with magic := 0x57484C31, version := 1, crcOk := true, verified := 1 }) (hand _ _ _ _ (by decide)) (by unfold allClear; decide),
   fun k => k ({ cmd State.reset 0 14 4 with press := { jobs := [(0, { arm := arm0, generation := 0 })] } }) (hdr 0 0) 0 ({ arm := arm0, generation := 0 }) (hand _ _ _ _ (by decide)) (by unfold allClear; decide) rfl,
   fun k => k (cmd State.reset 0 14 5) (hdr 0 0) 0 (hand _ _ _ _ (by decide))⟩

/-- States and operands that meet the hypotheses of each clause of `ManagementCommands`: its hypotheses are not contradictory. -/
theorem witness_ManagementCommands :
    (¬ (∀ (s : State) (h : Hdr), handed s h 15 1 →
        False))
    ∧ (¬ (∀ (s : State) (h : Hdr), ∀ (c : ConfigBlock), handed s h 15 2 → configOk c = true →
        False))
    ∧ (¬ (∀ (s : State) (h : Hdr), ∀ (time : Nat), handed s h 15 3 →
        False))
    ∧ (¬ (∀ (s : State) (h : Hdr), ∀ (ppb : Nat),
        let v : Int := if ppb < 2 ^ 31 then ppb else (ppb : Int) - 2 ^ 32;
         handed s h 15 4 →
        allClear ([(decide (500000 < v) || decide (v < -500000), .badRequest)]) →
        False))
    ∧ (¬ (∀ (s : State) (h : Hdr), ∀ (n : Nat) (flags : Nat) (time : Nat) (period : Nat), handed s h 15 5 →
        allClear ([(decide (3 < n) || decide (7 < flags) || decide (2 ^ 63 ≤ time) || period == 0, .badRequest), (s.clock.timeInvalid, .timeInvalid)]) →
        False))
    ∧ (¬ (∀ (s : State) (h : Hdr), ∀ (blk : HostBlk ContentBlock), handed s h 15 6 →
        allClear ([(blk.isNone, .hostAbort), ((match blk with | some c => contentBad c | none => false), .badRequest), (!s.power.vstby || s.mgmt.config.playbill == 0, .noStandby), (s.mgmt.playbill.interval || s.mgmt.playbill.phase != 0, .playbillRate)]) →
        False))
    ∧ (¬ (∀ (s : State) (h : Hdr), ∀ (section_ : Nat) (blk : OutBlk), handed s h 15 7 →
        allClear ([(2 < section_, .badRequest)]) →
        let body := (match section_ with
          | 0 => (256, (List.range 256).flatMap (fun i => le 8 (tgetD s.rind.counters i 0)))
          | 1 => (64, (List.range 2048).flatMap (fun i => le 4 (tgetD s.rind.hists i 0)))
          | _ => (s.rind.log.length, s.rind.log.flatMap logBytes));
        let d := le 8 s.clock.now ++ le 4 body.1 ++ le 4 section_ ++ body.2;
        d.length ≤ blk.len →
        False))
    ∧ (¬ (∀ (s : State) (h : Hdr), handed s h 15 8 →
        False)) :=
  ⟨fun k => k (cmd State.reset 0 15 1) (hdr 0 0)  (hand _ _ _ _ (by decide)),
   fun k => k (cmd State.reset 0 15 2) (hdr 0 0) ({ magicOk := true, shareMode := 1, smbusAddr := 0x77, playbill := 1, featureDisable := 0, nodeName := [], rsvZero := true }) (hand _ _ _ _ (by decide)) (by decide),
   fun k => k (cmd State.reset 0 15 3) (hdr 0 0) 5 (hand _ _ _ _ (by decide)),
   fun k => k (cmd State.reset 0 15 4) (hdr 0 0) 500000 (hand _ _ _ _ (by decide)) (by unfold allClear; decide),
   fun k => k ((cmd State.reset 0 15 5).onClock (fun c => { c with timeInvalid := false })) (hdr 0 0) 3 7 0 1 (hand _ _ _ _ (by decide)) (by unfold allClear; decide),
   fun k => k (cmd State.reset 0 15 6) (hdr 0 0) (some content0) (hand _ _ _ _ (by decide)) (by unfold allClear; decide),
   fun k => k (cmd State.reset 0 15 7) (hdr 0 0) 2 ({ addr := 0, len := 65536 }) (hand _ _ _ _ (by decide)) (by unfold allClear; decide) (by decide),
   fun k => k (cmd State.reset 0 15 8) (hdr 0 0)  (hand _ _ _ _ (by decide))⟩

/-- States and operands that meet the hypotheses of each clause of `BoothServiceEvents`: its hypotheses are not contradictory. -/
theorem witness_BoothServiceEvents :
    (¬ (∀ (s : State), ∀ (fn : Nat) (negotiating : Bool),
        let t := s.onBooth fn (fun b => { b with
            enable := true
            negotiating := negotiating
            ready := true
            error := 0
            featEn := b.featReq &&& featuresOffered s
            minor := b.reqMinor
            subProd := 0
            subCons := 0
            cmpProd := 0
            cmpCons := 0
            evtProd := 0
            evtCons := 0
            lost := 0
            lostTotal := 0
            reading := 0
            readFailed := false
            outst := []
            done := []
            held := [] });
        fnAnswers s fn = true →
        (s.fn fn).booth.enable = false →
        (s.fn fn).booth.stopping = false →
        enableError s fn (s.fn fn).booth negotiating = 0 →
        False))
    ∧ (¬ (∀ (s : State), ∀ (fn : Nat),
        fnAnswers s fn = true →
        False))
    ∧ (¬ (∀ (s : State), ∀ (fn : Nat),
        (s.fn fn).booth.stopping = true →
        (s.fn fn).booth.outst = [] →
        False))
    ∧ (¬ (∀ (s : State), ∀ (fn : Nat),
        ((List.range 1009).map (fun i => (s.host.boothNext + i) % 1009)).find? (visitable s) = some fn →
        False))
    ∧ (¬ (∀ (s : State), ∀ (fn : Nat) (d : List Byte) (r : HostRd),
        s.host.reads.find? (fun r => r.use == .submission fn) = some r →
        s.host.reads.find? (fun x => x.tag == r.tag) = some r →
        False))
    ∧ (¬ (∀ (s : State), ∀ (fn : Nat) (id : Nat) (c : OutCmd),
        outCmd s fn id = some c →
        mayHand s fn c = true →
        False))
    ∧ (¬ (∀ (s : State), ∀ (c : Nat),
        s.power.st = .run →
        False))
    ∧ (¬ (∀ (s : State), ∀ (c : Nat),
        s.power.st = .run →
        False))
    ∧ (¬ (∀ (s : State), ∀ (c : Nat),
        let t := s.onComp c (fun k => { k with state := .running });
        (tgetD s.comps c {}).state = .restarting →
        False)) :=
  ⟨fun k => k (State.reset.onBooth 0 (fun b => { b with subLog2 := 12, cmpLog2 := 4, evtLog2 := 4, reqMajor := 1, reqMinor := 2 })) 0 false (by decide) (by decide) (by decide) (by decide),
   fun k => k State.reset 0 (by decide),
   fun k => k (State.reset.onBooth 0 (fun b => { b with stopping := true })) 0 (by decide) (by decide),
   fun k => k (State.reset.onBooth 0 (fun b => { b with enable := true, ready := true, subLog2 := 4, subProd := 3 })) 0 rfl,
   fun k => k (State.reset.onHost (fun h => { h with reads := [{ tag := 5, fn := 0, pasid := none, addr := 0, len := 64, use := .submission 0, at_ := 0 }] })) 0 [1, 2, 3] ({ tag := 5, fn := 0, pasid := none, addr := 0, len := 64, use := .submission 0, at_ := 0 }) rfl rfl,
   fun k => k (State.reset.onBooth 0 (fun b => { b with outst := [{ id := 9, group := 1, code := 1, part := 0, tenant := 0, fence := false, signal := false, context := 0, state := .waiting, cancellers := [], arg := 0 }] })) 0 9 ({ id := 9, group := 1, code := 1, part := 0, tenant := 0, fence := false, signal := false, context := 0, state := .waiting, cancellers := [], arg := 0 }) rfl (by decide),
   fun k => k State.reset 3 (by decide),
   fun k => k State.reset 8 (by decide),
   fun k => k (State.reset.onComp 1 (fun k => { k with state := .restarting })) 1 (by decide)⟩

/-- States and operands that meet the hypotheses of each clause of `DoorbellWrites`: its hypotheses are not contradictory. -/
theorem witness_DoorbellWrites :
    (¬ (∀ (s : State), ∀ (fn : Nat) (v : Nat),
        ingress s = true →
        (fn = 0 ∨ vfExists s fn = true) →
        v < 2 ^ 32 →
        boothHeard s fn = true →
        prodOk v (s.fn fn).booth.subCons (2 ^ (s.fn fn).booth.subLog2) = true →
        False))
    ∧ (¬ (∀ (s : State), ∀ (fn : Nat) (v : Nat),
        ingress s = true →
        (fn = 0 ∨ vfExists s fn = true) →
        v < 2 ^ 32 →
        boothHeard s fn = true →
        consOk v (s.fn fn).booth.cmpProd (2 ^ (s.fn fn).booth.cmpLog2) = true →
        False))
    ∧ (¬ (∀ (s : State), ∀ (fn : Nat) (v : Nat),
        ingress s = true →
        (fn = 0 ∨ vfExists s fn = true) →
        v < 2 ^ 32 →
        boothHeard s fn = true →
        consOk v (s.fn fn).booth.evtProd (2 ^ (s.fn fn).booth.evtLog2) = true →
        False))
    ∧ (¬ (∀ (s : State), ∀ (fn : Nat) (off : Nat) (v : Nat) (d : Doorbell) (count entries : Nat),
        ingress s = true →
        (fn = 0 ∨ vfExists s fn = true) →
        v < 2 ^ 32 →
        off % 4 = 0 →
        0x200 ≤ off →
        off < (if fn = 0 then 0x10000 else 0x1000) →
        tget (s.fn fn).doorbells ((off - 0x200) / 4) = some d →
        dbHeard s fn = true →
        ringView s d.target = some (true, count, entries) →
        prodOk v count entries = true →
        False))
    ∧ (¬ (∀ (s : State), ∀ (fn : Nat) (off : Nat) (v : Nat) (d : Doorbell) (count entries : Nat),
        ingress s = true →
        (fn = 0 ∨ vfExists s fn = true) →
        v < 2 ^ 32 →
        off % 4 = 0 →
        0x200 ≤ off →
        off < (if fn = 0 then 0x10000 else 0x1000) →
        tget (s.fn fn).doorbells ((off - 0x200) / 4) = some d →
        dbHeard s fn = true →
        ringView s d.target = some (false, count, entries) →
        consOk v count entries = true →
        False))
    ∧ (¬ (∀ (s : State), ∀ (fn : Nat) (k : Nat) (v : Nat) (n : Nat) (b : BindCfg),
        let ev : Event := {
            kind := 5
            binding := 64 * partOf fn + n
            session := 0
            epoch := epochAt s (partOf fn) 129
            words := [word (kindWord 5 + k % 64), word (tenantOf fn), 0, word v, 0]
            payload := []
            source := k % 64 };
        ingress s = true →
        fn ≠ 0 →
        vfExists s fn = true →
        v < 2 ^ 32 →
        dbHeard s fn = true →
        tget (cfgAt s (partOf fn) 129).acts.doorbells (64 * partOf fn + k % 64) = some n →
        tget (cfgAt s (partOf fn) 129).acts.bindings (64 * partOf fn + n) = some b →
        (b.tenant = 0 ∨ b.tenant = tenantOf fn) →
        False))
    ∧ (¬ (∀ (s : State), ∀ (fn : Nat) (off : Nat) (v : Nat) (d : Doorbell) (w : Nat) (up : Bool),
        ingress s = true →
        (fn = 0 ∨ vfExists s fn = true) →
        v < 2 ^ 32 →
        off % 4 = 0 →
        0x200 ≤ off →
        off < (if fn = 0 then 0x10000 else 0x1000) →
        tget (s.fn fn).doorbells ((off - 0x200) / 4) = some d →
        dbHeard s fn = true →
        d.target = (if up then .parleyOfTenant else .parleyOfManager w) →
        (up = true → w = fn) →
        False))
    ∧ (¬ (∀ (s : State), ∀ (vf : Nat) (up : Bool),
        (parleyOf s vf up).running = true →
        False)) :=
  ⟨fun k => k ((State.reset.onHost (fun h => { h with linkUp := true })).onBooth 0 (fun b => { b with enable := true, ready := true, subLog2 := 4, cmpLog2 := 4, evtLog2 := 4 })) 0 16 (by decide) (by decide) (by decide) (by decide) (by decide),
   fun k => k ((State.reset.onHost (fun h => { h with linkUp := true })).onBooth 0 (fun b => { b with enable := true, ready := true, subLog2 := 4, cmpLog2 := 4, evtLog2 := 4 })) 0 0 (by decide) (by decide) (by decide) (by decide) (by decide),
   fun k => k ((State.reset.onHost (fun h => { h with linkUp := true })).onBooth 0 (fun b => { b with enable := true, ready := true, subLog2 := 4, cmpLog2 := 4, evtLog2 := 4 })) 0 0 (by decide) (by decide) (by decide) (by decide) (by decide),
   fun k => k (((State.reset.onHost (fun h => { h with linkUp := true })).onFn 0 (fun f => { f with doorbells := [(0, { target := .moverProd 0 })] })).onMover (fun x => { x with queues := [(0, { own := mover0 })] })) 0 0x200 16 ({ target := .moverProd 0 }) 0 16 (by decide) (by decide) (by decide) (by decide) (by decide) (by decide) rfl (by decide) rfl (by decide),
   fun k => k (((State.reset.onHost (fun h => { h with linkUp := true })).onFn 0 (fun f => { f with doorbells := [(0, { target := .moverComp 0 })] })).onMover (fun x => { x with queues := [(0, { own := mover0 })] })) 0 0x200 0 ({ target := .moverComp 0 }) 0 16 (by decide) (by decide) (by decide) (by decide) (by decide) (by decide) rfl (by decide) rfl (by decide),
   fun k => k ((State.reset.onHost (fun h => { h with linkUp := true, vfEnable := true, numVfs := 1 })).onCfg (fun c => { c with acts := { c.acts with doorbells := [(63, 0)], bindings := [(0, { part := 0, tenant := 0, fn := 1, b := bind0 })] } })) 1 63 7 0 ({ part := 0, tenant := 0, fn := 1, b := bind0 }) (by decide) (by decide) (by decide) (by decide) (by decide) rfl rfl (by decide),
   fun k => k ((State.reset.onHost (fun h => { h with linkUp := true })).onFn 0 (fun f => { f with doorbells := [(0, { target := .parleyOfManager 1 })] })) 0 0x200 9 ({ target := .parleyOfManager 1 }) 1 false (by decide) (by decide) (by decide) (by decide) (by decide) (by decide) rfl (by decide) (by decide) (by decide),
   fun k => k (State.reset.onFn 1 (fun f => { f with toManager := { running := true }, toTenant := { running := true } })) 1 true (by decide)⟩

/-- States and operands that meet the hypotheses of each clause of `HostPortEvents`, part 1: its hypotheses are not contradictory. -/
theorem witness_HostPortEvents_1 :
    (¬ (∀ (s : State), ∀ (fn : Nat) (off : Nat) (len : Nat) (r : Bar0),
        ingress s = true →
        fnExists s fn = true →
        bar0At fn off len = some r →
        False))
    ∧ (¬ (∀ (s : State), ∀ (fn : Nat) (off : Nat) (d : List Byte),
        ingress s = true →
        fnExists s fn = true →
        bar0At fn off d.length = some .doorbells →
        False))
    ∧ (¬ (∀ (s : State), ∀ (fn : Nat) (off : Nat) (d : List Byte) (o : Nat),
        ingress s = true →
        fnExists s fn = true →
        bar0At fn off d.length = some (.table o) →
        (s.fn fn).flr = false →
        False))
    ∧ (¬ (∀ (s : State), ∀ (fn : Nat) (off : Nat) (len : Nat),
        ingress s = true →
        fnExists s fn = true →
        (let r : Status × List Byte × State := (pieces (len + 1) off len).foldl (fun acc pc =>
          if acc.1 != .ok then acc
          else let x := bar2ReadPiece acc.2.2 fn pc.1 pc.2; (x.1, acc.2.1 ++ x.2.1, x.2.2)) (.ok, [], s); r.1) = .ok →
        False))
    ∧ (¬ (∀ (s : State), ∀ (fn : Nat) (off : Nat) (d : List Byte),
        let r : Status × State := (pieces (d.length + 1) off d.length).foldl (fun acc pc =>
          if acc.1 != .ok then acc else bar2WritePiece acc.2 fn pc.1 ((d.drop (pc.1 - off)).take pc.2)) (.ok, s);
        ingress s = true →
        fnExists s fn = true →
        r.1 = .ok →
        False))
    ∧ (¬ (∀ (s : State), ∀ (fn : Nat) (off : Nat) (d : List Byte),
        ingress s = true →
        fnExists s fn = true →
        (s.fn fn).flr = false →
        off + d.length ≤ 16 * vectorsOf fn →
        False))
    ∧ (¬ (∀ (s : State), ∀ (fn : Nat) (enable mask : Bool),
        ingress s = true →
        fnExists s fn = true →
        (s.fn fn).flr = false →
        False))
    ∧ (¬ (∀ (s : State), ∀ (fn : Nat) (v : Nat),
        (tgetD (s.fn fn).msix v {}).held = true →
        False))
    ∧ (¬ (∀ (s : State), ∀ (enable : Bool) (n : Nat),
        ingress s = true →
        (s.host.vfEnable = false ∨ enable = false) →
        False))
    ∧ (¬ (∀ (s : State), ∀ (vf : Nat),
        ingress s = true →
        vfExists s vf = true →
        (s.fn vf).flr = false →
        False))
    ∧ (¬ (∀ (s : State), ∀ (vf : Nat) (d : Detach),
        let e : State := { s with detaches := s.detaches.filter (fun x => x != d) };
        let t := raiseEvent (e.onFn vf (fun f => { f with flr := false })) 0 0x0015 (partOf vf) (tenantOf vf) (le 2 vf);
        s.detaches.find? (fun d => d.vf == vf && d.flr && d.stage == .ready) = some d →
        d.removed = false →
        False))
    ∧ (¬ (∀ (s : State), ∀ (vf : Nat) (d : Detach),
        let e : State := { s with detaches := s.detaches.filter (fun x => x != d) };
        let t := (raiseEvent (e.onFn vf (fun f => { f with flr := false })) 0 0x0015 (partOf vf) (tenantOf vf) (le 2 vf)).onFn vf (fun f => { f with detaching := true });
        s.detaches.find? (fun d => d.vf == vf && d.flr && d.stage == .ready) = some d →
        d.removed = true →
        False)) :=
  ⟨fun k => k State.reset 0 0x20000 4 (.info 0) (by decide) (by decide) rfl,
   fun k => k State.reset 0 0xFFFC [0, 0, 0, 0] (by decide) (by decide) (by decide),
   fun k => k (State.reset.onHost (fun h => { h with vfEnable := true, numVfs := 1 })) 1 0x2000 [0, 0, 0, 0] 0 (by decide) (by decide) rfl (by decide),
   fun k => k State.reset 0 0 4 (by decide) (by decide) (by decide),
   fun k => k State.reset 0 0 [1, 2] (by decide) (by decide) (by decide),
   fun k => k State.reset 0 16 [1, 2, 3, 4] (by decide) (by decide) (by decide) (by decide),
   fun k => k State.reset 0 true false (by decide) (by decide) (by decide),
   fun k => k (State.reset.onFn 0 (fun f => { f with msix := [(2, { held := true })] })) 0 2 (by decide),
   fun k => k State.reset true 1008 (by decide) (by decide),
   fun k => k (State.reset.onHost (fun h => { h with vfEnable := true, numVfs := 1 })) 1 (by decide) (by decide) (by decide),
   fun k => k ({ State.reset with detaches := [{ vf := 1, flr := true, removed := false, cmd := none, stage := .ready }] }) 1 ({ vf := 1, flr := true, removed := false, cmd := none, stage := .ready }) rfl (by decide),
   fun k => k ({ State.reset with detaches := [{ vf := 1, flr := true, removed := true, cmd := none, stage := .ready }] }) 1 ({ vf := 1, flr := true, removed := true, cmd := none, stage := .ready }) rfl (by decide)⟩

/-- States and operands that meet the hypotheses of each clause of `HostPortEvents`, part 2: its hypotheses are not contradictory. -/
theorem witness_HostPortEvents_2 :
    (¬ (∀ (s : State), let e := releasePosts ((readsDrop s (fun r => r.fn == 0)).onHost (fun h => { h with
          heldPosts := h.heldPosts.filter (fun p => p.fn != 0)
          atc := h.atc.filter (fun e => e.fn != 0) }));
        let b := boothStop e 0;
        ingress s = true →
        False))
    ∧ (¬ (∀ (s : State), ∀ (fn : Nat) (d3 : Bool),
        ingress s = true →
        fnExists s fn = true →
        (s.fn fn).flr = false →
        (s.fn fn).d3 ≠ d3 →
        False))
    ∧ (¬ (∀ (s : State), ∀ (fn : Nat) (tag : Nat) (d : List Byte) (r : HostRd),
        s.host.reads.find? (fun r => r.tag == tag) = some r →
        False))
    ∧ (¬ (∀ (s : State), ∀ (tag : Nat) (r : HostRd),
        let e := (readTake s tag).onHost (fun h => { h with deadTags := h.deadTags ++ [tag] });
        s.host.reads.find? (fun r => r.tag == tag) = some r →
        False))
    ∧ (¬ (∀ (s : State), ∀ (fn : Nat) (pasid : Option Nat) (addr : Nat) (base size : Nat) (read write : Bool),
        let e := atcPut s { fn := fn, pasid := pasid, base := base, size := size, read := read, write := write };
        (s.host.heldPosts.any (fun p => p.msix.isNone && p.fn == fn && p.pasid == pasid && p.addr == addr)
          || s.host.heldReads.any (fun r => r.fn == fn && r.pasid == pasid && r.addr == addr)) = true →
        False))
    ∧ (¬ (∀ (s : State), ∀ (fn : Nat) (pasid : Option Nat) (base : Nat) (size : Nat) (tag : Nat),
        let hit := fun (e : AtcEntry) => e.fn == fn && e.pasid == pasid && e.base < base + size && base < e.base + e.size;
        let used := fun (f : Nat) (ps : Option Nat) (a : Nat) => (s.host.atc.filter hit).any (fun e => e.fn == f && e.pasid == ps && e.base ≤ a && a < e.base + e.size);
        let waits := (s.host.reads.filter (fun r => used r.fn r.pasid r.addr)).map (·.tag);
        let e := (s.host.heldPosts.filter (fun p => p.msix.isNone && used p.fn p.pasid p.addr)).foldl
          (fun s p => s.send (.translationRequest p.fn p.pasid p.addr)) (s.onHost (fun h => { h with atc := h.atc.filter (fun e => !hit e) }));
        ingress s = true →
        s.host.invals.length < 32 →
        False))
    ∧ (¬ (∀ (s : State), ∀ (rate : Nat) (width : Nat),
        let e := s.onHost (fun h => { h with linkUp := true, linkRate := rate, linkWidth := width, deadTags := [] });
        s.power.vmain = true →
        s.power.shutdown = false →
        False))
    ∧ (¬ (∀ (s : State), ∀ (down : Bool),
        False)) :=
  ⟨fun k => k State.reset  (by decide),
   fun k => k (State.reset.onHost (fun h => { h with vfEnable := true, numVfs := 1 })) 1 true (by decide) (by decide) (by decide) (by decide),
   fun k => k (State.reset.onHost (fun h => { h with reads := [{ tag := 5, fn := 0, pasid := none, addr := 0, len := 64, use := .submission 0, at_ := 0 }] })) 0 5 [1] ({ tag := 5, fn := 0, pasid := none, addr := 0, len := 64, use := .submission 0, at_ := 0 }) rfl,
   fun k => k (State.reset.onHost (fun h => { h with reads := [{ tag := 5, fn := 0, pasid := none, addr := 0, len := 64, use := .submission 0, at_ := 0 }] })) 5 ({ tag := 5, fn := 0, pasid := none, addr := 0, len := 64, use := .submission 0, at_ := 0 }) rfl,
   fun k => k (State.reset.onHost (fun h => { h with heldReads := [{ tag := 5, fn := 0, pasid := none, addr := 4096, len := 64, use := .submission 0, at_ := 0 }] })) 0 none 4096 4096 4096 true true (by decide),
   fun k => k State.reset 0 none 4096 4096 3 (by decide) (by decide),
   fun k => k State.reset 5 16 (by decide) (by decide),
   fun k => k State.reset true ⟩

/-- States and operands that meet the hypotheses of each clause of `MidwayAndEpochEvents`: its hypotheses are not contradictory. -/
theorem witness_MidwayAndEpochEvents :
    (¬ (∀ (s : State), ∀ (t : Nat) (rs : List MwReq) (hd : MwHead),
        let a := s.onTarget t (fun g => mwLatch t { g with slot := if s.fixedMode then (g.slot + 1) % 17 else g.slot } rs);
        t ≤ 21 →
        mwChoose a t ((tgetD a.mem.targets t {}).heads.filter (mwEligible a (tgetD a.mem.targets t {}) (tgetD a.mem.targets t {}).slot)) = some hd →
        False))
    ∧ (¬ (∀ (s : State), ∀ (t : Nat) (l : MwLock),
        (tgetD s.mem.targets t {}).lock = some l →
        False))
    ∧ (¬ (∀ (s : State), ∀ (a : Nat) (corrected : Bool) (uncorrectable : Bool),
        let u := (unitAt a).1;
        protectedMem a = true →
        s.power.vmain = true →
        s.power.st ≠ .faulted →
        False))
    ∧ (¬ (∀ (s : State), ∀ (receiver : Nat) (sender : Nat) (traffic : Nat) (i : Nat) (freed : Nat) (returned : Nat),
        let k := chanKey receiver sender traffic i;
        let c := tgetD s.chans k {};
        let a := { c with freed := modAdd 16 c.freed (min freed (chanOccupied c)) };
        let b := { a with freedSeen := modAdd 16 a.freedSeen (min returned (modSub 16 a.freed a.freedSeen)) };
        quarantined s sender = false →
        quarantined s receiver = false →
        False))
    ∧ (¬ (∀ (s : State), ∀ (kind : Nat) (island : Nat) (index : Nat) (held : Nat) (inUse : Nat) (a : Audit),
        let mine := fun (r : AuditRun) => r.kind == kind && r.island == island && r.index == index;
        let run := match s.audits.find? mine with | some r => r.run | none => 0;
        let v := verdict kind held inUse a.total a.slack;
        let without : State := { s with audits := s.audits.filter (fun r => !mine r) };
        let latch : Nat → State := fun (n : Nat) => { without with audits := without.audits ++
          [{ kind := kind, island := island, index := index, run := n, held := held, inUse := inUse, total := a.total }] };
        (auditsNamed s kind index).find? (fun a => a.island == island && a.index == index) = some a →
        auditIgnored s kind island index = false →
        False))
    ∧ (¬ (∀ (s : State), ∀ (p : Nat) (i : Nat),
        (s.part p).remaining.contains i = true →
        quarantined s i = false →
        (i < 128 → (tgetD s.acts.tumblers i {}).run = none) →
        False))
    ∧ (¬ (∀ (s : State), ∀ (p : Nat) (e : Nat × Cfg),
        (s.part p).old = some e →
        (s.part p).remaining = [] →
        oldWork s p e.1 = false →
        False))
    ∧ (¬ (∀ (s : State), False))
    ∧ (¬ (∀ (s : State), ∀ (slot : Nat) (k : KeySlot),
        tget s.cipher.slots slot = some k →
        k.state = .zeroising →
        False))
    ∧ (¬ (∀ (s : State), ∀ (c : Nat) (u : CellUse),
        tget s.mem.cells c = some u →
        u.released = true →
        False))
    ∧ (¬ (∀ (s : State), ∀ (vf : Nat),
        shareStale s vf = true →
        (s.fn vf).ssUpdatedAt + 100000 ≤ s.clock.cadence →
        False)) :=
  ⟨fun k => k (State.reset.onTarget 0 (fun g => { g with slot := 15, heads := [{ req := { master := 5, part := 0, tenant := 0, priv := true, epoch := 1, addr := 0, kind := .read 4, lock := false, unlock := false, corrected := false, uncorrectable := [] }, arrival := 0, others := 0 }] })) 0 [] ({ req := { master := 5, part := 0, tenant := 0, priv := true, epoch := 1, addr := 0, kind := .read 4, lock := false, unlock := false, corrected := false, uncorrectable := [] }, arrival := 0, others := 0 }) (by decide) rfl,
   fun k => k (State.reset.onTarget 21 (fun g => { g with lock := some { master := 5, count := 1, addr := 0 } })) 21 ({ master := 5, count := 1, addr := 0 }) rfl,
   fun k => k State.reset 0x7FFFFFFFF true false (by decide) (by decide) (by decide),
   fun k => k State.reset 0 1 0 0 0 0 (by decide) (by decide),
   fun k => k State.reset 7 128 0 256 0 ({ kind := 7, island := 128, index := 0, held := 0, inUse := 256, total := 256, slack := 0 }) rfl (by decide),
   fun k => k (State.reset.onPart 15 (fun p => { p with epoch := 2, old := some (1, {}), remaining := [138] })) 15 138 (by decide) (by decide) (by decide),
   fun k => k (State.reset.onPart 15 (fun p => { p with epoch := 2, old := some (1, {}) })) 15 (1, {}) rfl (by decide) (by decide),
   fun k => k State.reset  ,
   fun k => k (State.reset.onCipher (fun c => { c with slots := [(0, { state := .zeroising, part := 0, tenant := 0, charge := 0, alg := 1, use := 1, dir := 1, material := [], spent := false, counter := 0 })] })) 0 ({ state := .zeroising, part := 0, tenant := 0, charge := 0, alg := 1, use := 1, dir := 1, material := [], spent := false, counter := 0 }) rfl (by decide),
   fun k => k (State.reset.onMem (fun m => { m with cells := [(131071, { part := 0, tenant := 0, released := true })] })) 131071 ({ part := 0, tenant := 0, released := true }) rfl (by decide),
   fun k => k ((State.reset.onFn 1 (fun f => { f with attached := true })).onClock (fun c => { c with cadence := 100000 })) 1 (by decide) (by decide)⟩

/-- States and operands that meet the hypotheses of each clause of `NetworkEvents`, part 1: its hypotheses are not contradictory. -/
theorem witness_NetworkEvents_1 :
    (¬ (∀ (s : State), ∀ (lport : Nat) (d : List Byte) (corrected : Nat) (part : Nat) (dest : RxDest) (meter : Option Nat),
        let e := if corrected == 0 then s else rindMinute s (14 + lport / 8) corrected;
        let a := (ingressMark e (lport / 8) (d.length + 4)).onLPort lport (fun x => { x with
            rxFrames := modAdd 64 x.rxFrames 1
            rxOctets := modAdd 64 x.rxOctets (d.length + 4) });
        let m := match meter with
          | some k => meterFrame a k (d.length + 4) (tagged d && bit (tciOf d) 12)
          | none => (3, 0, none, a);
        ingress s = true →
        lportExists (portCfg s (lport / 8)) lport = true →
        (lportOf s lport).up = true →
        quarantined s (130 + lport / 8) = false →
        64 ≤ d.length + 4 →
        d.length + 4 ≤ (lportCfg (portCfg s (lport / 8)) lport).maxFrame →
        macControl d = none →
        macAccepts (lportCfg (portCfg s (lport / 8)) lport) d = true →
        tget (lportCfg (portCfg s (lport / 8)) lport).vlan (if tagged d then tciOf d % 4096 else (lportCfg (portCfg s (lport / 8)) lport).defaultVid) = some part →
        classify a (cfgAt a part (130 + lport / 8)) part lport d (parseFrame d) = .inr (dest, meter) →
        m.2.1 ≠ 2 →
        False))
    ∧ (¬ (∀ (s : State), ∀ (lport : Nat) (quanta : List (Nat × Nat)),
        lportExists (portCfg s (lport / 8)) lport = true →
        (lportOf s lport).up = true →
        False))
    ∧ (¬ (∀ (s : State), ∀ (lport : Nat) (prio : Nat),
        False))
    ∧ (¬ (∀ (s : State), ∀ (lport : Nat) (prio : Nat),
        (tgetD (lportOf s lport).pfc prio {}).sent = true →
        False))
    ∧ (¬ (∀ (s : State), ∀ (lport : Nat) (prio : Nat),
        (tgetD (lportOf s lport).pfc prio {}).paused = true →
        False))
    ∧ (¬ (∀ (s : State), ∀ (lport : Nat) (prio : Nat),
        False))
    ∧ (¬ (∀ (s : State), ∀ (lport : Nat) (prio : Nat) (f : Held) (t u : State),
        heldFirst s lport prio = some (f, t) →
        rxHand t f = some u →
        False))
    ∧ (¬ (∀ (s : State), ∀ (lport : Nat) (prio : Nat) (f : Held) (t : State),
        heldFirst s lport prio = some (f, t) →
        False))
    ∧ (¬ (∀ (s : State), ∀ (lport : Nat) (cls : Nat) (deficits : Tbl Nat) (cls2 q : Nat) (qd : List (Nat × Nat)) (spare : Bool) (k : TxqCfg),
        let c := portCfg s (lport / 8);
        let lp := lportOf s lport;
        let t := (portQueues s lport).foldl (fun s e => flushNever s c e.1 e.2.1 e.2.2.frames.length) s;
        let qs := (portQueues t lport).filter (fun e => candidate t c e.2.1 e.2.2);
        let picks := (List.range 8).filterMap (fun k => (pickQueue lp k qs).map (fun r => (k, r)));
        let weights := (lportCfg c lport).classes;
        let strict := (picks.filter (fun x => listGet weights x.1 1 == 0)).getLast?;
        let lenOf := fun (q : Nat) => match qs.find? (fun e => e.1 == q) with
            | some e => (match e.2.2.frames with | f :: _ => f.data.length + 4 | [] => 0)
            | none => 0;
        let choice : Option (Nat × Tbl Nat) := match strict with
            | some x => some (x.1, lp.classDeficit)
            | none => drrPick (picks.map (fun x => (x.1, listGet weights x.1 1 * 64, lenOf x.2.1))) lp.classNext lp.classDeficit;
        let u := t.onLPort lport (fun l => { l with
            classDeficit := deficits
            classNext := if strict.isSome then l.classNext else cls
            drrNext := tset l.drrNext (if spare then cls + 8 else cls) q });
        (lportOf s lport).up = true →
        (lportOf s lport).wire = none →
        lportExists c lport = true →
        choice = some (cls, deficits) →
        picks.find? (fun x => x.1 == cls) = some (cls2, q, qd, spare) →
        txqCfg t q = some k →
        False))
    ∧ (¬ (∀ (s : State), ∀ (lport : Nat) (time : Nat) (w : OnWire),
        (lportOf s lport).wire = some w →
        False))
    ∧ (¬ (∀ (s : State), ∀ (lport : Nat),
        False))
    ∧ (¬ (∀ (s : State), ∀ (lport : Nat),
        ingress s = true →
        lportExists (portCfg s (lport / 8)) lport = true →
        s.clock.eref = true →
        quarantined s (130 + lport / 8) = false →
        False)) :=
  ⟨fun k => k ((State.reset.onLPort 0 (fun x => { x with up := true })).onCfg (fun c => { c with net := { c.net with lports := [(0, { vlan := [(0, 0)], promiscuous := true })], rings := [(0, { rxRing0 with isDefault := true })] } })) 0 (List.replicate 60 0) 0 0 (.ring 0 none) none (by decide) (by decide) (by decide) (by decide) (by decide) (by decide) rfl (by decide) rfl rfl (by decide),
   fun k => k (State.reset.onLPort 0 (fun x => { x with up := true })) 0 [(7, 65535)] (by decide) (by decide),
   fun k => k State.reset 0 7 ,
   fun k => k (State.reset.onLPort 0 (fun x => { x with pfc := [(0, { sent := true })] })) 0 0 (by decide),
   fun k => k (State.reset.onLPort 0 (fun x => { x with pfc := [(0, { paused := true })] })) 0 0 (by decide),
   fun k => k State.reset 31 7 ,
   fun k => k (State.reset.onNet (fun n => { n with held := [{ lport := 0, prio := 0, part := 0, epoch := 1, dest := .nvme, colour := 0, data := [], time := 0, since := 0 }] })) 0 0 ({ lport := 0, prio := 0, part := 0, epoch := 1, dest := .nvme, colour := 0, data := [], time := 0, since := 0 }) State.reset State.reset rfl rfl,
   fun k => k (State.reset.onNet (fun n => { n with held := [{ lport := 0, prio := 0, part := 0, epoch := 1, dest := .nvme, colour := 0, data := [], time := 0, since := 0 }] })) 0 0 ({ lport := 0, prio := 0, part := 0, epoch := 1, dest := .nvme, colour := 0, data := [], time := 0, since := 0 }) State.reset rfl,
   fun k => k ({ ((State.reset.onCfg (fun c => { c with net := { c.net with txqs := [(0, txq0)] } })).onNet (fun n => { n with txqs := [(0, { frames := [frame0] })], lports := [(0, { up := true })] })) with fixedMode := false }) 0 0 [(0, 0)] 0 0 [(0, 0)] false txq0 (by decide) rfl (by decide) rfl rfl rfl,
   fun k => k (State.reset.onLPort 0 (fun x => { x with wire := some { queue := 0, frame := frame0, grantedAt := 0 } })) 0 0 ({ queue := 0, frame := frame0, grantedAt := 0 }) rfl,
   fun k => k State.reset 0 ,
   fun k => k State.reset 0 (by decide) (by decide) (by decide) (by decide)⟩

/-- States and operands that meet the hypotheses of each clause of `NetworkEvents`, part 2: its hypotheses are not contradictory. -/
theorem witness_NetworkEvents_2 :
    (¬ (∀ (s : State), ∀ (port : Nat),
        let e := s.onNet (fun n => { n with carTurn := tupd n.carTurn port 0 (fun t => modAdd 48 t 1) });
        ((tget s.net.gclActive port).isSome ∨ (tget s.net.gclPending port).isSome) →
        s.parts.any (fun e => e.2.remaining.contains (130 + port)) = false →
        False))
    ∧ (¬ (∀ (s : State), False))
    ∧ (¬ (∀ (s : State), ∀ (q : Nat) (m : Sampler) (c : TxqCfg) (x : Txq),
        let a := s.onNet (fun n => { n with samplers := tmod n.samplers q (fun m => { m with seq := modAdd 32 m.seq 1 }) });
        let delay := match x.frames with | f :: _ => min (s.clock.now - f.enqueued) 0xFFFFFFFF | [] => 0;
        let neg := fun (b : Bucket) => b.cur.rate != 0xFFFFFFFF && decide (b.tokens < 0);
        let flags := b2n (gateOpen s c.lport c.cls) + 2 * b2n (tgetD (lportOf s c.lport).pfc c.cls {}).paused + 4 * b2n (neg x.bucket || neg (classBucket s c.lport c.cls)) + 8 * b2n (!(lportOf s c.lport).up);
        let rcd := le 9 q ++ [byteOf flags] ++ le 2 (min x.frames.length 65535) ++ le 4 (txDepth x) ++ le 4 delay ++ le 4 m.seq ++ le 8 s.clock.now;
        tget s.net.samplers q = some m →
        txqCfg s q = some c →
        tget s.net.txqs q = some x →
        modSub 32 m.prod m.cons < 2 ^ m.log2 →
        False)) :=
  ⟨fun k => k (State.reset.onNet (fun n => { n with gclPending := [(1, none)] })) 1 (by decide) (by decide),
   fun k => k State.reset  ,
   fun k => k (((State.reset.onCfg (fun c => { c with net := { c.net with txqs := [(0, txq0)] } })).onNet (fun n => { n with txqs := [(0, { frames := [frame0] })], lports := [(0, { up := true })] })).onNet (fun n => { n with samplers := [(0, { periodUs := 10, base := 0, log2 := 4, vector := 0, fn := 0, prod := 15, cons := 0, seq := 0 })] })) 0 ({ periodUs := 10, base := 0, log2 := 4, vector := 0, fn := 0, prod := 15, cons := 0, seq := 0 }) txq0 ({ frames := [frame0] }) rfl rfl rfl (by decide)⟩

/-- States and operands that meet the hypotheses of each clause of `CipherAndSessionEvents`, part 1: its hypotheses are not contradictory. -/
theorem witness_CipherAndSessionEvents_1 :
    (¬ (∀ (s : State), ∀ (p : Nat) (k : Nat) (x : VhPkt),
        tfind s.cipher.pkts (fun _ x => x.part == p && x.state == .intake) = some (k, x) →
        usedOf s p none 6 + x.granules ≤ limitOf s p 6 →
        quarantined s 139 = false →
        False))
    ∧ (¬ (∀ (s : State), ∀ (k : Nat) (x : VhPkt) (c : SessCfg) (key : KeySlot),
        let nonce := srtpNonce key (ofBe ((x.aad.drop 8).take 4)) x.index;
        let r := sessFinal s x.session c x.index x.aad (fit (x.body.length - tagLen key.alg) (Config.aeadOpen key.alg key.material nonce x.aad x.body));
        tget s.cipher.pkts k = some x →
        s.cipher.pkts.any (fun e => e.1 < k && e.2.session == x.session && (e.2.state == .intake || e.2.state == .decrypting)) = false →
        x.state = .decrypting →
        tget (cfgOf s x.part x.epoch).sess.sessions x.session = some c →
        tget s.cipher.slots c.blk.keyRx = some key →
        False))
    ∧ (¬ (∀ (s : State), ∀ (k : Nat) (x : VhPkt),
        tget s.cipher.pkts k = some x →
        x.state = .releasing →
        False))
    ∧ (¬ (∀ (s : State), ∀ (k : Nat) (x : VhPkt),
        tget s.cipher.pkts k = some x →
        x.state = .scrubbing →
        False))
    ∧ (¬ (∀ (s : State), ∀ (n : Nat) (x y : Sess) (c : SessCfg),
        let m := match x.shift with
            | some neg => s.onSession n (fun x => { x with shift := none, shifted := if neg then x.shifted - 1 else x.shifted + 1 })
            | none => s;
        let e := x.due + (x.delay - c.blk.delay);
        let a := (dropLate m n c.blk x.due (x.delay - c.blk.delay)).onSession n (fun y => { y with due := e, delay := c.blk.delay });
        let here := match tget y.slots (e % c.blk.depth) with | some g => if g.frame == e then some g else none | none => none;
        let ahead := tcount y.slots (fun _ g => e < g.frame);
        let read : Status × List Byte × State := match here with
            | some g => memLoad a (slotAddr y c.blk (e % c.blk.depth)) g.len
            | none => (.ok, [], a);
        let held := if read.1 == .ok then here else none;
        let free := draw read.2.2;
        let t := if held.isSome then read.2.2 else free.2;
        let g := held.getD { frame := e, marker := bit free.1 60, pt := field free.1 50 7, index := free.1 % 2 ^ 48, len := 0 };
        let words := [word (kindWord 1 + b2n g.marker * 2 ^ 20 + b2n held.isSome * 2 ^ 18 + n), word (g.index / 2 ^ 24),
            word (g.pt * 2 ^ 24 + g.index % 2 ^ 24), word t.clock.now, word (ahead * 2 ^ 18 + g.len)];
        tget s.sess.sess n = some x →
        sessCfg s n = some c →
        x.anchor.isSome = true →
        quarantined s 138 = false →
        c.blk.delay ≤ x.delay →
        tget a.sess.sess n = some y →
        False))
    ∧ (¬ (∀ (s : State), ∀ (r : PortReq) (c : SessCfg) (x : Sess),
        let n := reqWord r 0 % 65536;
        let cfg := cfgOf s r.part r.epoch;
        let s0 := takeReq s r;
        let troupe := r.tumbler / 8;
        let addr := field (reqWord r 1) 0 30;
        let len := field (reqWord r 2) 0 16;
        let extra := 12 + profileTag c.blk.profile + 8 + (if c.blk.ipVersion == 4 then 20 else 40) + (if c.blk.tci == 0 then 14 else 18);
        let ts := if bit (reqWord r 0) 19 then reqWord r 3 % 2 ^ 32 else x.outTs;
        let hdr := [byteOf 0x80, byteOf (b2n (bit (reqWord r 0) 20) * 128 + c.blk.ptOut % 128)] ++ be 2 (x.outIndex % 65536) ++ be 4 ts ++ be 4 c.blk.ssrcOut;
        let pay := troupeOctets s troupe addr len;
        let body := match c.blk.profile, tget s.cipher.slots c.blk.keyTx with
            | 0, _ => pay
            | _, some key => fit (len + profileTag c.blk.profile) (Config.aeadSeal key.alg key.material (srtpNonce key c.blk.ssrcOut x.outIndex) hdr pay)
            | _, none => pay;
        let macs := drawBytes s0 12;
        let f := etherFrame macs.1 c.blk.tci c.blk.ipVersion (ipUdp c.blk.ipVersion c.blk.localAddr c.blk.remoteAddr c.blk.localPort c.blk.remotePort 0 0 (hdr ++ body));
        headReq s 0 = some r →
        reqOp r = 1 →
        quarantined s 138 = false →
        (field (reqWord r 0) 21 6 != 0 || field (reqWord r 0) 16 3 != 0 || reqWord r 1 / 2 ^ 30 != 0 || reqWord r 2 / 2 ^ 16 != 0 || reqWord r 3 / 2 ^ 32 != 0) = false →
        tget cfg.sess.sessions n = some c →
        tget s.sess.sess n = some x →
        seesTenant r c.part c.tenant = true →
        txFull s c.blk.txq = false →
        (decide (1048576 < addr + ceilDiv len 4) || !(List.range (ceilDiv len 4)).all (fun i => troupeOwned s cfg r.part r.tenant troupe (addr + i))) = false →
        len + extra + 4 ≤ (lportCfg cfg c.blk.lport).maxFrame →
        x.outIndex < 2 ^ 48 - 1 →
        False))
    ∧ (¬ (∀ (s : State), ∀ (r : PortReq) (c : SessCfg) (x : Sess),
        headReq s 0 = some r →
        reqOp r = 2 →
        quarantined s 138 = false →
        (field (reqWord r 0) 16 11 != 0 || reqWord r 1 != 0 || reqWord r 2 / 2 != 0 || reqWord r 3 != 0) = false →
        tget (cfgOf s r.part r.epoch).sess.sessions (reqWord r 0 % 65536) = some c →
        tget s.sess.sess (reqWord r 0 % 65536) = some x →
        seesTenant r c.part c.tenant = true →
        x.shift = none →
        False))
    ∧ (¬ (∀ (s : State), ∀ (r : PortReq) (c : FeedCfg) (f : Feed) (off used : Nat),
        let w0 := reqWord r 0;
        let session := field (reqWord r 2) 0 16;
        let ring := field (reqWord r 6) 0 12;
        let cfg := cfgOf s r.part r.epoch;
        let d := dims (reqWord r 3);
        let e := dims (reqWord r 4);
        let bytes := tensorBytes (field w0 21 3) (field w0 0 18);
        let cons := readCount (takeReq s r) c.bind.control;
        let x := feedSource cons.2.2 r cfg (field w0 24 3) (field w0 0 18);
        let k := signed 8 (field (reqWord r 2) 16 8);
        let t := convTensor (field w0 21 3) (bit w0 19) (bit w0 20) (x.2.1.map (fun v => (scaleFV v.1 k, v.2))) (genOf x.2.2 session r.part);
        let a := genPut x.2.2 session r.part t.2.gen;
        let entry := le 2 (1 - f.res / 2 ^ c.bind.log2 % 2) ++ zeros 16 ++ le 2 r.epoch ++ [byteOf (field w0 21 3), byteOf (field (reqWord r 2) 16 8)]
                      ++ le 2 session ++ le 4 off ++ le 4 bytes ++ le 4 (field w0 0 18) ++ le 2 d.1 ++ le 2 d.2 ++ le 2 e.1 ++ le 2 e.2
                      ++ le 4 (reqWord r 5 % 2 ^ 32) ++ le 6 r.index ++ le 2 0 ++ le 8 a.clock.now;
        let res : FeedRes := { count := f.res, reply := r.reply, dataOff := off, used := used, bytes := bytes, entry := entry, tumbler := r.tumbler, tag := reqWord r 5 % 2 ^ 32, beyond := t.2.beyond, nans := t.2.nans, epoch := r.epoch, part := r.part };
        let b := onFeed a ring (fun g => { g with
            res := modAdd 32 g.res 1
            inflight := g.inflight ++ [res]
            spans := liveSpans g cons.2.1 ++ [(g.res, off, used)]
            ptr := (off + ceilDiv bytes 64 * 64) % dataArea c.bind });
        let wr := storeAll b 11 { part := r.part, tenant := r.tenant, priv := false, cfg := cfg } (.feedData ring f.res) (c.bind.dataArea + off) t.1;
        headReq s 1 = some r →
        reqOp r = 1 →
        quarantined s 138 = false →
        formatBitsOk r = true →
        tget cfg.sess.feeds ring = some c →
        tget s.sess.feeds ring = some f →
        seesTenant r c.part c.tenant = true →
        sessionOk r cfg session = true →
        (field w0 24 3 == 7 && !bit w0 18) = false →
        field w0 0 18 ≠ 0 →
        d.1 * d.2 * e.1 * e.2 = field w0 0 18 →
        f.error = false →
        bytes ≤ dataArea c.bind →
        cons.1 = .ok →
        modSub 32 f.prod cons.2.1 ≤ 2 ^ c.bind.log2 →
        modSub 32 f.res cons.2.1 < 2 ^ c.bind.log2 →
        allocSpan f (dataArea c.bind) cons.2.1 bytes = some (off, used) →
        x.1 = .ok →
        wr.1 = .ok →
        False))
    ∧ (¬ (∀ (s : State), ∀ (ring : Nat) (f : Feed) (r : FeedRes) (rest : List FeedRes) (c : FeedCfg),
        let x := storeOne s 11 { part := r.part, tenant := c.tenant, priv := false, cfg := cfgOf s r.part r.epoch } (c.bind.entryArray + 64 * (r.count % 2 ^ c.bind.log2)) r.entry (.feedEntry ring r.count);
        tget s.sess.feeds ring = some f →
        f.inflight = r :: rest →
        tget (cfgOf s r.part r.epoch).sess.feeds ring = some c →
        quarantined s 138 = false →
        x.1 = .ok →
        False))
    ∧ (¬ (∀ (s : State), ∀ (entry : List Byte) (data : List Byte) (r : PortReq) (c : FeedCfg) (f : Ret) (e0 : State),
        let w0 := reqWord r 0;
        let dst := field w0 21 3;
        let count := field w0 0 18;
        let session := field (reqWord r 2) 0 16;
        let cfg := cfgOf s r.part r.epoch;
        let w : Actor := { part := r.part, tenant := r.tenant, priv := false, cfg := cfg };
        let en := loadAll e0 11 w (c.bind.entryArray + 64 * (reqWord r 7 % 2 ^ c.bind.log2)) 64 entry;
        let e := en.2.2.1;
        let at_ := fun (o n : Nat) => ofLe ((e.drop o).take n);
        let fmt := at_ 20 1;
        let off := at_ 24 4;
        let bytes := at_ 28 4;
        let troupe := r.tumbler / 8;
        let addr := field (reqWord r 1) 0 30;
        let k := troupeWords dst count;
        let x := loadAll en.2.2.2 11 w (c.bind.dataArea + off) bytes data;
        let sc := signed 8 (field (reqWord r 2) 16 8);
        let t := convElems dst (bit w0 19) (bit w0 20) ((readTensor fmt count x.2.2.1).map (fun v => (scaleFV v.1 sc, v.2))) (genOf x.2.2.2 session r.part);
        let z := genPut x.2.2.2 session r.part t.gen;
        let base := 0x030100000000 + troupe * 0x800000 + addr * 8;
        headReq s 1 = some r →
        reqOp r = 2 →
        quarantined s 138 = false →
        formatBitsOk r = true →
        returnReq (takeReq s r) r = .inr (c, f, e0) →
        dst ≠ 7 →
        count ≠ 0 →
        en.1 = .ok →
        (7 < fmt || bytes != tensorBytes fmt (at_ 32 4) || dataArea c.bind < off + bytes
          || !(at_ 22 2 == 0xFFFF || (match tget cfg.sess.sessions (at_ 22 2) with | some x => x.part == r.part | none => false))) = false →
        fmt = field (reqWord r 0) 24 3 →
        at_ 32 4 = count →
        (decide (1048576 < addr + k) || !(List.range k).all (fun i => troupeOwned en.2.2.2 cfg r.part r.tenant troupe (addr + i))) = false →
        x.1 = .ok →
        False))
    ∧ (¬ (∀ (s : State), ∀ (r : PortReq) (c : FeedCfg) (f : Ret) (e0 : State),
        let n := reqWord r 7 % 2 ^ 32;
        let ring := field (reqWord r 6) 0 12;
        let rel := if f.released.contains n then f.released else f.released ++ [n];
        let cons := modAdd 32 f.cons (((List.range rel.length).takeWhile (fun i => rel.contains (modAdd 32 f.cons i))).length);
        headReq s 1 = some r →
        reqOp r = 3 →
        quarantined s 138 = false →
        formatBitsOk r = true →
        returnReq (takeReq s r) r = .inr (c, f, e0) →
        False))
    ∧ (¬ (∀ (s : State), ∀ (r : PortReq),
        let e := takeReq s r;
        let fn := match tget (cfgOf e r.part r.epoch).acts.bindings r.binding with | some b => b.fn | none => 0;
        headReq s 2 = some r →
        False)) :=
  ⟨fun k => k (State.reset.onCipher (fun c => { c with pkts := [(0, { part := 0, session := 0, index := 0, aad := [], body := [], epoch := 1, granules := 1, state := .intake })] })) 0 0 ({ part := 0, session := 0, index := 0, aad := [], body := [], epoch := 1, granules := 1, state := .intake }) rfl (by decide) (by decide),
   fun k => k (((State.reset.onCipher (fun c => { c with pkts := [(0, { part := 0, session := 0, index := 0, aad := [], body := [], epoch := 1, granules := 1, state := .decrypting })] })).onCfg (fun c => { c with sess := { c.sess with sessions := [(0, { part := 0, tenant := 0, fn := 0, blk := { sess0 with profile := 1, keyRx := 0 } })] } })).onCipher (fun c => { c with slots := [(0, { state := .loaded, part := 0, tenant := 0, charge := 0, alg := 1, use := 1, dir := 1, material := [], spent := false, counter := 0 })] })) 0 ({ part := 0, session := 0, index := 0, aad := [], body := [], epoch := 1, granules := 1, state := .decrypting }) ({ part := 0, tenant := 0, fn := 0, blk := { sess0 with profile := 1, keyRx := 0 } }) ({ state := .loaded, part := 0, tenant := 0, charge := 0, alg := 1, use := 1, dir := 1, material := [], spent := false, counter := 0 }) rfl (by decide) (by decide) rfl rfl,
   fun k => k (State.reset.onCipher (fun c => { c with pkts := [(0, { part := 0, session := 0, index := 0, aad := [], body := [], epoch := 1, granules := 1, state := .releasing })] })) 0 ({ part := 0, session := 0, index := 0, aad := [], body := [], epoch := 1, granules := 1, state := .releasing }) rfl (by decide),
   fun k => k (State.reset.onCipher (fun c => { c with pkts := [(0, { part := 0, session := 0, index := 0, aad := [], body := [], epoch := 1, granules := 1, state := .scrubbing })] })) 0 ({ part := 0, session := 0, index := 0, aad := [], body := [], epoch := 1, granules := 1, state := .scrubbing }) rfl (by decide),
   fun k => k ((State.reset.onCfg (fun c => { c with sess := { c.sess with sessions := [(0, { part := 0, tenant := 0, fn := 0, blk := sess0 })] } })).onSess (fun x => { x with sess := [(0, { part := 0, anchor := some (0, 0), delay := 1 })] })) 0 ({ part := 0, anchor := some (0, 0), delay := 1 }) ({ part := 0, anchor := some (0, 0), delay := 1 }) ({ part := 0, tenant := 0, fn := 0, blk := sess0 }) rfl rfl (by decide) (by decide) (by decide) rfl,
   fun k => k ((((State.reset.onCfg (fun c => { c with sess := { c.sess with sessions := [(0, { part := 0, tenant := 0, fn := 0, blk := sess0 })] }, net := { c.net with txqs := [(0, txq0)] } })).onNet (fun n => { n with txqs := [(0, {})] })).onSess (fun x => { x with sess := [(0, { part := 0, anchor := some (0, 0), delay := 1 })] })).onSess (fun x => { x with requests := [{ tumbler := 0, port := 0, words := [word (2 ^ 27)], part := 0, tenant := 0, binding := 0, epoch := 1, index := 0, reply := 0 }] })) ({ tumbler := 0, port := 0, words := [word (2 ^ 27)], part := 0, tenant := 0, binding := 0, epoch := 1, index := 0, reply := 0 }) ({ part := 0, tenant := 0, fn := 0, blk := sess0 }) ({ part := 0, anchor := some (0, 0), delay := 1 }) rfl (by decide) (by decide) (by decide) rfl rfl (by decide) (by decide) (by decide) (by decide) (by decide),
   fun k => k (((State.reset.onCfg (fun c => { c with sess := { c.sess with sessions := [(0, { part := 0, tenant := 0, fn := 0, blk := sess0 })] } })).onSess (fun x => { x with sess := [(0, { part := 0, anchor := some (0, 0), delay := 1 })] })).onSess (fun x => { x with requests := [{ tumbler := 0, port := 0, words := [word (2 ^ 28)], part := 0, tenant := 0, binding := 0, epoch := 1, index := 0, reply := 0 }] })) ({ tumbler := 0, port := 0, words := [word (2 ^ 28)], part := 0, tenant := 0, binding := 0, epoch := 1, index := 0, reply := 0 }) ({ part := 0, tenant := 0, fn := 0, blk := sess0 }) ({ part := 0, anchor := some (0, 0), delay := 1 }) rfl (by decide) (by decide) (by decide) rfl rfl (by decide) rfl,
   fun k => k (((State.reset.onCfg (fun c => { c with sess := { c.sess with feeds := [(0, { part := 0, tenant := 0, fn := 0, bind := { ring0 with entryArray := 0, dataArea := 0x10000, control := 0x8000 }, binding := 0 })] } })).onSess (fun x => { x with feeds := [(0, {})] })).onSess (fun x => { x with requests := [{ tumbler := 0, port := 1, words := [word (2 ^ 27 + 1), 0, word 0xFFFF, word (2 ^ 18 + 1), word (2 ^ 18 + 1), 0, 0, 0], part := 0, tenant := 0, binding := 0, epoch := 1, index := 0, reply := 0 }] })) ({ tumbler := 0, port := 1, words := [word (2 ^ 27 + 1), 0, word 0xFFFF, word (2 ^ 18 + 1), word (2 ^ 18 + 1), 0, 0, 0], part := 0, tenant := 0, binding := 0, epoch := 1, index := 0, reply := 0 }) ({ part := 0, tenant := 0, fn := 0, bind := { ring0 with entryArray := 0, dataArea := 0x10000, control := 0x8000 }, binding := 0 }) ({}) 0 64 rfl (by decide) (by decide) (by decide) rfl rfl (by decide) (by decide) (by decide) (by decide) (by decide) (by decide) (by decide) (by decide) (by decide) (by decide) rfl (by decide) (by decide),
   fun k => k ((State.reset.onCfg (fun c => { c with sess := { c.sess with feeds := [(0, { part := 0, tenant := 0, fn := 0, bind := { ring0 with entryArray := 0x010000000000, dataArea := 0x010000010000, control := 0x010000008000 }, binding := 0 })] }, own := { c.own with units := [] } })).onSess (fun x => { x with feeds := [(0, { inflight := [{ count := 0, reply := 0, dataOff := 0, used := 0, bytes := 0, entry := [], tumbler := 0, tag := 0, beyond := 0, nans := 0, epoch := 1, part := 0 }] })] })) 0 ({ inflight := [{ count := 0, reply := 0, dataOff := 0, used := 0, bytes := 0, entry := [], tumbler := 0, tag := 0, beyond := 0, nans := 0, epoch := 1, part := 0 }] }) ({ count := 0, reply := 0, dataOff := 0, used := 0, bytes := 0, entry := [], tumbler := 0, tag := 0, beyond := 0, nans := 0, epoch := 1, part := 0 }) [] ({ part := 0, tenant := 0, fn := 0, bind := { ring0 with entryArray := 0x010000000000, dataArea := 0x010000010000, control := 0x010000008000 }, binding := 0 }) rfl (by decide) rfl (by decide) (by decide),
   fun k => k ((((State.reset.onCfg (fun c => { c with sess := { c.sess with returns := [(0, { part := 0, tenant := 0, fn := 0, bind := { ring0 with entryArray := 0, dataArea := 0x10000, control := 16 }, binding := 0 })] } })).onSess (fun x => { x with returns := [(0, {})] })).onSess (fun x => { x with requests := [{ tumbler := 0, port := 1, words := [word (2 ^ 28 + 1), 0, word 0xFFFF, 0, 0, 0, 0, 0], part := 0, tenant := 0, binding := 0, epoch := 1, index := 0, reply := 0 }] })).onMem (fun m => { m with bytes := [(16, 1), (22, 255), (23, 255), (28, 1), (32, 1)] })) [] [] ({ tumbler := 0, port := 1, words := [word (2 ^ 28 + 1), 0, word 0xFFFF, 0, 0, 0, 0, 0], part := 0, tenant := 0, binding := 0, epoch := 1, index := 0, reply := 0 }) ({ part := 0, tenant := 0, fn := 0, bind := { ring0 with entryArray := 0, dataArea := 0x10000, control := 16 }, binding := 0 }) ({}) _ rfl (by decide) (by decide) (by decide) (returnOk _ _ _ _ rfl rfl rfl rfl (by decide) (by decide) (by decide)) (by decide) (by decide) (by decide) (by decide) (by decide) (by decide) (by decide) (by decide),
   fun k => k ((((State.reset.onCfg (fun c => { c with sess := { c.sess with returns := [(0, { part := 0, tenant := 0, fn := 0, bind := { ring0 with entryArray := 0, dataArea := 0x10000, control := 16 }, binding := 0 })] } })).onSess (fun x => { x with returns := [(0, {})] })).onSess (fun x => { x with requests := [{ tumbler := 0, port := 1, words := [word (3 * 2 ^ 27), 0, word 0xFFFF, 0, 0, 0, 0, 0], part := 0, tenant := 0, binding := 0, epoch := 1, index := 0, reply := 0 }] })).onMem (fun m => { m with bytes := [(16, 1)] })) ({ tumbler := 0, port := 1, words := [word (3 * 2 ^ 27), 0, word 0xFFFF, 0, 0, 0, 0, 0], part := 0, tenant := 0, binding := 0, epoch := 1, index := 0, reply := 0 }) ({ part := 0, tenant := 0, fn := 0, bind := { ring0 with entryArray := 0, dataArea := 0x10000, control := 16 }, binding := 0 }) ({}) _ rfl (by decide) (by decide) (by decide) (returnOk _ _ _ _ rfl rfl rfl rfl (by decide) (by decide) (by decide)),
   fun k => k (State.reset.onSess (fun x => { x with requests := [{ tumbler := 0, port := 2, words := [0], part := 0, tenant := 0, binding := 0, epoch := 1, index := 0, reply := 0 }] })) ({ tumbler := 0, port := 2, words := [0], part := 0, tenant := 0, binding := 0, epoch := 1, index := 0, reply := 0 }) rfl⟩

/-- States and operands that meet the hypotheses of each clause of `CipherAndSessionEvents`, part 2: its hypotheses are not contradictory. -/
theorem witness_CipherAndSessionEvents_2 :
    ¬ (∀ (s : State), ∀ (ring : Nat) (sessions : List Nat),
        quarantined s 138 = false →
        False) :=
  fun k => k State.reset 0 [] (by decide)

/-- States and operands that meet the hypotheses of each clause of `TumblerEvents`: its hypotheses are not contradictory. -/
theorem witness_TumblerEvents :
    (¬ (∀ (s : State), ∀ (n : Nat) (p i : Nat) (e : Event) (b : BindCfg) (pc : Nat),
        let present := e.kind == 1 && bit (listGet e.words 0 0).toNat 18;
        let area := inputArea b.b n;
        let ws := [listGet e.words 0 0, listGet e.words 1 0, listGet e.words 2 0, listGet e.words 3 0, listGet e.words 4 0,
            word b.b.arg, if present then word area else 0, word n];
        let inv : Invocation := { part := p, binding := e.binding, tenant := b.tenant, epoch := e.epoch, session := e.session, kind := e.kind, words := e.words, allowance := b.b.allowance };
        let a := s.onActs (fun a => { a with queues := tset a.queues p ((tgetD s.acts.queues p []).eraseIdx i) });
        let m := if present then a.onMem (fun m => { m with
            troupe := wordsWrite m.troupe (n / 8 * 1048576 + area) (payloadWords e.payload) }) else a;
        let t := m.onStat e.binding (fun x => { x with invocations := modAdd 64 x.invocations 1 });
        tumblerOwner s s.cfg n = some p →
        (tgetD s.acts.tumblers n {}).run = none →
        quarantined s n = false →
        quarantined s 138 = false →
        chooseEvent s p n = some (i, e) →
        bindingAt s p e.epoch e.binding = some b →
        entryOf s p b.b = some pc →
        False))
    ∧ (¬ (∀ (s : State), ∀ (p : Nat) (k : Nat) (d : TimerDyn),
        let ev : Event := {
            kind := 4
            binding := 64 * p + d.cfg.binding
            session := 0
            epoch := epochAt s p 138
            words := [word (kindWord 4 + k), 0, 0, word (s.clock.now + d.due - s.clock.cadence), 0]
            payload := []
            source := k };
        tget s.acts.timers (64 * p + k) = some d →
        quarantined s 138 = false →
        k ≤ 63 →
        False))
    ∧ (¬ (∀ (s : State), ∀ (n : Nat) (inv : Invocation),
        (tgetD s.acts.tumblers n {}).run = some inv →
        False))
    ∧ (¬ (∀ (s : State), ∀ (n : Nat) (port : Nat) (stall : Nat) (r : PortRep) (w0 w1 w : Word) (inv : Invocation),
        let a := (s.onSess (fun x => { x with replies := x.replies.filter (fun y => y.id != r.id) })).onTumbler n (fun t => { t with arrived := t.arrived ++ [(port, w0, w1)] });
        s.sess.replies.find? (fun r => r.tumbler == n && r.port == port) = some r →
        r.words = some (w0, w1) →
        (tgetD a.acts.tumblers n {}).run = some inv →
        (tgetD a.acts.tumblers n {}).stall = .take w →
        False))
    ∧ (¬ (∀ (s : State), ∀ (n : Nat) (stall : Nat) (inv : Invocation) (w : Word) (a : Nat),
        let t := tgetD s.acts.tumblers n {};
        let x := loadAll s (24 + n / 32) (tumblerActor s inv) a 4 [];
        let b := fun (i : Nat) => 256 + (listGet x.2.2.1 i 0).toNat;
        t.run = some inv →
        t.stall = .load w a →
        x.1 = .ok →
        False))
    ∧ (¬ (∀ (s : State), ∀ (n : Nat) (inv : Invocation) (c : Nat) (cs : List Nat),
        (tgetD s.acts.tumblers n {}).run = some inv →
        (tgetD s.acts.tumblers n {}).stores = c :: cs →
        False)) :=
  ⟨fun k => k ((State.reset.onCfg (fun c => { c with acts := { c.acts with bindings := [(0, { part := 0, tenant := 0, fn := 0, b := bind0 })] } })).onActs (fun a => { a with queues := [(0, [{ kind := 2, binding := 0, session := 0, epoch := 1, words := [], payload := [], source := 0 }])], acts := [(0, { imBase := 0, code := [0], entries := [0], segments := [] })] })) 0 0 0 ({ kind := 2, binding := 0, session := 0, epoch := 1, words := [], payload := [], source := 0 }) ({ part := 0, tenant := 0, fn := 0, b := bind0 }) 0 rfl rfl (by decide) (by decide) rfl rfl rfl,
   fun k => k (State.reset.onActs (fun a => { a with timers := [(1023, { due := 0, cfg := { binding := 0, tenant := 0, periodUs := 10, first := none, epoch := 1 } })] })) 15 63 ({ due := 0, cfg := { binding := 0, tenant := 0, periodUs := 10, first := none, epoch := 1 } }) rfl (by decide) (by decide),
   fun k => k (State.reset.onTumbler 127 (fun t => { t with run := some { part := 0, binding := 0, tenant := 0, epoch := 1, session := 0, kind := 2, words := [], allowance := 1024 } })) 127 ({ part := 0, binding := 0, tenant := 0, epoch := 1, session := 0, kind := 2, words := [], allowance := 1024 }) rfl,
   fun k => k ((State.reset.onTumbler 0 (fun t => { t with run := some { part := 0, binding := 0, tenant := 0, epoch := 1, session := 0, kind := 2, words := [], allowance := 1024 }, stall := .take 0 })).onSess (fun x => { x with replies := [{ id := 0, tumbler := 0, port := 0, words := some (0, 0) }] })) 0 0 0 ({ id := 0, tumbler := 0, port := 0, words := some (0, 0) }) 0 0 0 ({ part := 0, binding := 0, tenant := 0, epoch := 1, session := 0, kind := 2, words := [], allowance := 1024 }) rfl rfl rfl (by decide),
   fun k => k (State.reset.onTumbler 0 (fun t => { t with run := some { part := 0, binding := 0, tenant := 0, epoch := 1, session := 0, kind := 2, words := [], allowance := 1024 }, stall := .load 0 0 })) 0 0 ({ part := 0, binding := 0, tenant := 0, epoch := 1, session := 0, kind := 2, words := [], allowance := 1024 }) 0 0 rfl (by decide) (by decide),
   fun k => k (State.reset.onTumbler 0 (fun t => { t with run := some { part := 0, binding := 0, tenant := 0, epoch := 1, session := 0, kind := 2, words := [], allowance := 1024 }, stores := [5] })) 0 ({ part := 0, binding := 0, tenant := 0, epoch := 1, session := 0, kind := 2, words := [], allowance := 1024 }) 5 [] rfl (by decide)⟩

/-- States and operands that meet the hypotheses of each clause of `BelporSums`, part 1: its hypotheses are not contradictory. -/
theorem witness_BelporSums_1 :
    (¬ (∀ (s : State) (n : Nat), ∀ inv w, issues n .add s inv w → inTime s n inv 1 → False))
    ∧ (¬ (∀ (s : State) (n : Nat), ∀ inv w, issues n .adc s inv w → inTime s n inv 1 → False))
    ∧ (¬ (∀ (s : State) (n : Nat), ∀ inv w, issues n .sub s inv w → inTime s n inv 1 → False))
    ∧ (¬ (∀ (s : State) (n : Nat), ∀ inv w, issues n .sbc s inv w → inTime s n inv 1 → False))
    ∧ (¬ (∀ (s : State) (n : Nat), ∀ inv w, issues n .cmp s inv w → inTime s n inv 1 → False))
    ∧ (¬ (∀ (s : State) (n : Nat), ∀ inv w, issues n .neg s inv w → inTime s n inv 1 → False))
    ∧ (¬ (∀ (s : State) (n : Nat), ∀ inv w, issues n .addi s inv w → inTime s n inv 1 → False))
    ∧ (¬ (∀ (s : State) (n : Nat), ∀ inv w, issues n .cmpi s inv w → inTime s n inv 1 → False))
    ∧ (¬ (∀ (s : State) (n : Nat), ∀ inv w, issues n .adds s inv w → inTime s n inv 1 → False))
    ∧ (¬ (∀ (s : State) (n : Nat), ∀ inv w, issues n .subs s inv w → inTime s n inv 1 → False))
    ∧ (¬ (∀ (s : State) (n : Nat), ∀ inv w, issues n .sat s inv w → inTime s n inv 1 → False))
    ∧ (¬ (∀ (s : State) (n : Nat), ∀ inv w, issues n .macs s inv w → inTime s n inv 2 → False)) :=
  ⟨fun k => k ((issuing (word (1 * 2 ^ 27 + 0)))) 0 inv0 (word (1 * 2 ^ 27 + 0)) ⟨rfl, rfl, by decide⟩ (by unfold inTime; decide),
   fun k => k ((issuing (word (2 * 2 ^ 27 + 0)))) 0 inv0 (word (2 * 2 ^ 27 + 0)) ⟨rfl, rfl, by decide⟩ (by unfold inTime; decide),
   fun k => k ((issuing (word (3 * 2 ^ 27 + 0)))) 0 inv0 (word (3 * 2 ^ 27 + 0)) ⟨rfl, rfl, by decide⟩ (by unfold inTime; decide),
   fun k => k ((issuing (word (4 * 2 ^ 27 + 0)))) 0 inv0 (word (4 * 2 ^ 27 + 0)) ⟨rfl, rfl, by decide⟩ (by unfold inTime; decide),
   fun k => k ((issuing (word (5 * 2 ^ 27 + 0)))) 0 inv0 (word (5 * 2 ^ 27 + 0)) ⟨rfl, rfl, by decide⟩ (by unfold inTime; decide),
   fun k => k ((issuing (word (6 * 2 ^ 27 + 0)))) 0 inv0 (word (6 * 2 ^ 27 + 0)) ⟨rfl, rfl, by decide⟩ (by unfold inTime; decide),
   fun k => k ((issuing (word (128 * 2 ^ 27 + 0)))) 0 inv0 (word (128 * 2 ^ 27 + 0)) ⟨rfl, rfl, by decide⟩ (by unfold inTime; decide),
   fun k => k ((issuing (word (129 * 2 ^ 27 + 0)))) 0 inv0 (word (129 * 2 ^ 27 + 0)) ⟨rfl, rfl, by decide⟩ (by unfold inTime; decide),
   fun k => k ((issuing (word (7 * 2 ^ 27 + 0)))) 0 inv0 (word (7 * 2 ^ 27 + 0)) ⟨rfl, rfl, by decide⟩ (by unfold inTime; decide),
   fun k => k ((issuing (word (8 * 2 ^ 27 + 0)))) 0 inv0 (word (8 * 2 ^ 27 + 0)) ⟨rfl, rfl, by decide⟩ (by unfold inTime; decide),
   fun k => k ((issuing (word (64 * 2 ^ 27 + 36)))) 0 inv0 (word (64 * 2 ^ 27 + 36)) ⟨rfl, rfl, by decide⟩ (by unfold inTime; decide),
   fun k => k ((issuing (word (60 * 2 ^ 27 + 0)))) 0 inv0 (word (60 * 2 ^ 27 + 0)) ⟨rfl, rfl, by decide⟩ (by unfold inTime; decide)⟩

/-- States and operands that meet the hypotheses of each clause of `BelporSums`, part 2: its hypotheses are not contradictory. -/
theorem witness_BelporSums_2 :
    ¬ (∀ (s : State) (n : Nat), ∀ inv w, issues n .macp s inv w → inTime s n inv 2 → False) :=
  fun k => k ((issuing (word (61 * 2 ^ 27 + 0)))) 0 inv0 (word (61 * 2 ^ 27 + 0)) ⟨rfl, rfl, by decide⟩ (by unfold inTime; decide)

/-- States and operands that meet the hypotheses of each clause of `BelporLogicAndShifts`, part 1: its hypotheses are not contradictory. -/
theorem witness_BelporLogicAndShifts_1 :
    (¬ (∀ (s : State) (n : Nat), ∀ inv w, issues n .and_ s inv w → inTime s n inv 1 → False))
    ∧ (¬ (∀ (s : State) (n : Nat), ∀ inv w, issues n .or_ s inv w → inTime s n inv 1 → False))
    ∧ (¬ (∀ (s : State) (n : Nat), ∀ inv w, issues n .xor_ s inv w → inTime s n inv 1 → False))
    ∧ (¬ (∀ (s : State) (n : Nat), ∀ inv w, issues n .andn s inv w → inTime s n inv 1 → False))
    ∧ (¬ (∀ (s : State) (n : Nat), ∀ inv w, issues n .andi s inv w → inTime s n inv 1 → False))
    ∧ (¬ (∀ (s : State) (n : Nat), ∀ inv w, issues n .ori s inv w → inTime s n inv 1 → False))
    ∧ (¬ (∀ (s : State) (n : Nat), ∀ inv w, issues n .xori s inv w → inTime s n inv 1 → False))
    ∧ (¬ (∀ (s : State) (n : Nat), ∀ inv w, issues n .shl s inv w → inTime s n inv 1 → False))
    ∧ (¬ (∀ (s : State) (n : Nat), ∀ inv w, issues n .shr s inv w → inTime s n inv 1 → False))
    ∧ (¬ (∀ (s : State) (n : Nat), ∀ inv w, issues n .sar s inv w → inTime s n inv 1 → False))
    ∧ (¬ (∀ (s : State) (n : Nat), ∀ inv w, issues n .ror s inv w → inTime s n inv 1 → False))
    ∧ (¬ (∀ (s : State) (n : Nat), ∀ inv w, issues n .mul s inv w → inTime s n inv 2 → False)) :=
  ⟨fun k => k ((issuing (word (16 * 2 ^ 27 + 0)))) 0 inv0 (word (16 * 2 ^ 27 + 0)) ⟨rfl, rfl, by decide⟩ (by unfold inTime; decide),
   fun k => k ((issuing (word (17 * 2 ^ 27 + 0)))) 0 inv0 (word (17 * 2 ^ 27 + 0)) ⟨rfl, rfl, by decide⟩ (by unfold inTime; decide),
   fun k => k ((issuing (word (18 * 2 ^ 27 + 0)))) 0 inv0 (word (18 * 2 ^ 27 + 0)) ⟨rfl, rfl, by decide⟩ (by unfold inTime; decide),
   fun k => k ((issuing (word (19 * 2 ^ 27 + 0)))) 0 inv0 (word (19 * 2 ^ 27 + 0)) ⟨rfl, rfl, by decide⟩ (by unfold inTime; decide),
   fun k => k ((issuing (word (130 * 2 ^ 27 + 0)))) 0 inv0 (word (130 * 2 ^ 27 + 0)) ⟨rfl, rfl, by decide⟩ (by unfold inTime; decide),
   fun k => k ((issuing (word (131 * 2 ^ 27 + 0)))) 0 inv0 (word (131 * 2 ^ 27 + 0)) ⟨rfl, rfl, by decide⟩ (by unfold inTime; decide),
   fun k => k ((issuing (word (132 * 2 ^ 27 + 0)))) 0 inv0 (word (132 * 2 ^ 27 + 0)) ⟨rfl, rfl, by decide⟩ (by unfold inTime; decide),
   fun k => k ((issuing (word (24 * 2 ^ 27 + 0)))) 0 inv0 (word (24 * 2 ^ 27 + 0)) ⟨rfl, rfl, by decide⟩ (by unfold inTime; decide),
   fun k => k ((issuing (word (25 * 2 ^ 27 + 0)))) 0 inv0 (word (25 * 2 ^ 27 + 0)) ⟨rfl, rfl, by decide⟩ (by unfold inTime; decide),
   fun k => k ((issuing (word (26 * 2 ^ 27 + 0)))) 0 inv0 (word (26 * 2 ^ 27 + 0)) ⟨rfl, rfl, by decide⟩ (by unfold inTime; decide),
   fun k => k ((issuing (word (27 * 2 ^ 27 + 0)))) 0 inv0 (word (27 * 2 ^ 27 + 0)) ⟨rfl, rfl, by decide⟩ (by unfold inTime; decide),
   fun k => k ((issuing (word (56 * 2 ^ 27 + 0)))) 0 inv0 (word (56 * 2 ^ 27 + 0)) ⟨rfl, rfl, by decide⟩ (by unfold inTime; decide)⟩

/-- States and operands that meet the hypotheses of each clause of `BelporLogicAndShifts`, part 2: its hypotheses are not contradictory. -/
theorem witness_BelporLogicAndShifts_2 :
    (¬ (∀ (s : State) (n : Nat), ∀ inv w, issues n .mac s inv w → inTime s n inv 2 → False))
    ∧ (¬ (∀ (s : State) (n : Nat), ∀ inv w, issues n .mulhs s inv w → inTime s n inv 2 → False))
    ∧ (¬ (∀ (s : State) (n : Nat), ∀ inv w, issues n .mulhu s inv w → inTime s n inv 2 → False)) :=
  ⟨fun k => k ((issuing (word (59 * 2 ^ 27 + 0)))) 0 inv0 (word (59 * 2 ^ 27 + 0)) ⟨rfl, rfl, by decide⟩ (by unfold inTime; decide),
   fun k => k ((issuing (word (57 * 2 ^ 27 + 0)))) 0 inv0 (word (57 * 2 ^ 27 + 0)) ⟨rfl, rfl, by decide⟩ (by unfold inTime; decide),
   fun k => k ((issuing (word (58 * 2 ^ 27 + 0)))) 0 inv0 (word (58 * 2 ^ 27 + 0)) ⟨rfl, rfl, by decide⟩ (by unfold inTime; decide)⟩

/-- States and operands that meet the hypotheses of each clause of `BelporFieldsAndPairs`: its hypotheses are not contradictory. -/
theorem witness_BelporFieldsAndPairs :
    (¬ (∀ (s : State) (n : Nat), ∀ inv w, issues n .bfx s inv w → inTime s n inv 1 → False))
    ∧ (¬ (∀ (s : State) (n : Nat), ∀ inv w, issues n .bfxs s inv w → inTime s n inv 1 → False))
    ∧ (¬ (∀ (s : State) (n : Nat), ∀ inv w, issues n .bfi s inv w → inTime s n inv 1 → False))
    ∧ (¬ (∀ (s : State) (n : Nat), ∀ inv w, issues n .cnt s inv w → inTime s n inv 1 → False))
    ∧ (¬ (∀ (s : State) (n : Nat), ∀ inv w, issues n .nperm s inv w → inTime s n inv 1 → False))
    ∧ (¬ (∀ (s : State) (n : Nat), ∀ inv w, issues n .addp s inv w → inTime s n inv 1 → False))
    ∧ (¬ (∀ (s : State) (n : Nat), ∀ inv w, issues n .subp s inv w → inTime s n inv 1 → False))
    ∧ (¬ (∀ (s : State) (n : Nat), ∀ inv w, issues n .addps s inv w → inTime s n inv 1 → False))
    ∧ (¬ (∀ (s : State) (n : Nat), ∀ inv w, issues n .subps s inv w → inTime s n inv 1 → False))
    ∧ (¬ (∀ (s : State) (n : Nat), ∀ inv w, issues n .seth s inv w → inTime s n inv 1 → False))
    ∧ (¬ (∀ (s : State) (n : Nat), ∀ inv w, issues n .setl s inv w → inTime s n inv 1 → False)) :=
  ⟨fun k => k ((issuing (word (32 * 2 ^ 27 + 1)))) 0 inv0 (word (32 * 2 ^ 27 + 1)) ⟨rfl, rfl, by decide⟩ (by unfold inTime; decide),
   fun k => k ((issuing (word (33 * 2 ^ 27 + 36)))) 0 inv0 (word (33 * 2 ^ 27 + 36)) ⟨rfl, rfl, by decide⟩ (by unfold inTime; decide),
   fun k => k ((issuing (word (34 * 2 ^ 27 + 2241)))) 0 inv0 (word (34 * 2 ^ 27 + 2241)) ⟨rfl, rfl, by decide⟩ (by unfold inTime; decide),
   fun k => k ((issuing (word (40 * 2 ^ 27 + 3)))) 0 inv0 (word (40 * 2 ^ 27 + 3)) ⟨rfl, rfl, by decide⟩ (by unfold inTime; decide),
   fun k => k ((issuing (word (41 * 2 ^ 27 + 4095)))) 0 inv0 (word (41 * 2 ^ 27 + 4095)) ⟨rfl, rfl, by decide⟩ (by unfold inTime; decide),
   fun k => k ((issuing (word (48 * 2 ^ 27 + 0)))) 0 inv0 (word (48 * 2 ^ 27 + 0)) ⟨rfl, rfl, by decide⟩ (by unfold inTime; decide),
   fun k => k ((issuing (word (49 * 2 ^ 27 + 0)))) 0 inv0 (word (49 * 2 ^ 27 + 0)) ⟨rfl, rfl, by decide⟩ (by unfold inTime; decide),
   fun k => k ((issuing (word (50 * 2 ^ 27 + 0)))) 0 inv0 (word (50 * 2 ^ 27 + 0)) ⟨rfl, rfl, by decide⟩ (by unfold inTime; decide),
   fun k => k ((issuing (word (51 * 2 ^ 27 + 0)))) 0 inv0 (word (51 * 2 ^ 27 + 0)) ⟨rfl, rfl, by decide⟩ (by unfold inTime; decide),
   fun k => k ((issuing (word (136 * 2 ^ 27 + 0)))) 0 inv0 (word (136 * 2 ^ 27 + 0)) ⟨rfl, rfl, by decide⟩ (by unfold inTime; decide),
   fun k => k ((issuing (word (137 * 2 ^ 27 + 0)))) 0 inv0 (word (137 * 2 ^ 27 + 0)) ⟨rfl, rfl, by decide⟩ (by unfold inTime; decide)⟩

/-- States and operands that meet the hypotheses of each clause of `BelporLoadsAndStores`, part 1: its hypotheses are not contradictory. -/
theorem witness_BelporLoadsAndStores_1 :
    (¬ (∀ (s : State) (n : Nat), ∀ inv w k, issues n .ldw s inv w → inTime s n inv 2 → 
        bankFor s inv (tum s n) w = .troupe k →
        troupeOk s inv n k = true →
        troupeBad s n k = false →
        False))
    ∧ (¬ (∀ (s : State) (n : Nat), ∀ inv w k, issues n .ldh s inv w → inTime s n inv 2 → 
        bankFor s inv (tum s n) w = .troupe k →
        troupeOk s inv n k = true →
        troupeBad s n k = false →
        False))
    ∧ (¬ (∀ (s : State) (n : Nat), ∀ inv w k, issues n .ldhs s inv w → inTime s n inv 2 → 
        bankFor s inv (tum s n) w = .troupe k →
        troupeOk s inv n k = true →
        troupeBad s n k = false →
        False))
    ∧ (¬ (∀ (s : State) (n : Nat), ∀ inv w k, issues n .ldn s inv w → inTime s n inv 2 → 
        bankFor s inv (tum s n) w = .troupe k →
        troupeOk s inv n k = true →
        troupeBad s n k = false →
        False))
    ∧ (¬ (∀ (s : State) (n : Nat), ∀ inv w a, issues n .ldw s inv w → 
        bankFor s inv (tum s n) w = .midway a →
        False))
    ∧ (¬ (∀ (s : State) (n : Nat), ∀ inv w a, issues n .ldh s inv w → 
        bankFor s inv (tum s n) w = .midway a →
        False))
    ∧ (¬ (∀ (s : State) (n : Nat), ∀ inv w a, issues n .ldhs s inv w → 
        bankFor s inv (tum s n) w = .midway a →
        False))
    ∧ (¬ (∀ (s : State) (n : Nat), ∀ inv w a, issues n .ldn s inv w → 
        bankFor s inv (tum s n) w = .midway a →
        False))
    ∧ (¬ (∀ (s : State) (n : Nat), ∀ inv w k, issues n .stw s inv w → inTime s n inv 1 → 
        bankFor s inv (tum s n) w = .troupe k →
        troupeOk s inv n k = true →
        False))
    ∧ (¬ (∀ (s : State) (n : Nat), ∀ inv w k, issues n .sth s inv w → inTime s n inv 1 → 
        bankFor s inv (tum s n) w = .troupe k →
        troupeOk s inv n k = true →
        troupeBad s n k = false →
        False))
    ∧ (¬ (∀ (s : State) (n : Nat), ∀ inv w k, issues n .stn s inv w → inTime s n inv 1 → 
        bankFor s inv (tum s n) w = .troupe k →
        troupeOk s inv n k = true →
        troupeBad s n k = false →
        False))
    ∧ (¬ (∀ (s : State) (n : Nat), ∀ inv w k, issues n .aadd s inv w → inTime s n inv 3 → 
        bankFor s inv (tum s n) w = .troupe k →
        troupeOk s inv n k = true →
        troupeBad s n k = false →
        False)) :=
  ⟨fun k => k ((issuing (word (256 * 2 ^ 27 + 0)))) 0 inv0 (word (256 * 2 ^ 27 + 0)) 0 ⟨rfl, rfl, by decide⟩ (by unfold inTime; decide) (by decide) (by decide) (by decide),
   fun k => k ((issuing (word (258 * 2 ^ 27 + 0)))) 0 inv0 (word (258 * 2 ^ 27 + 0)) 0 ⟨rfl, rfl, by decide⟩ (by unfold inTime; decide) (by decide) (by decide) (by decide),
   fun k => k ((issuing (word (260 * 2 ^ 27 + 0)))) 0 inv0 (word (260 * 2 ^ 27 + 0)) 0 ⟨rfl, rfl, by decide⟩ (by unfold inTime; decide) (by decide) (by decide) (by decide),
   fun k => k ((issuing (word (264 * 2 ^ 27 + 0)))) 0 inv0 (word (264 * 2 ^ 27 + 0)) 0 ⟨rfl, rfl, by decide⟩ (by unfold inTime; decide) (by decide) (by decide) (by decide),
   fun k => k (((issuing (word (256 * 2 ^ 27 + 0))).onTumbler 0 (fun t => { t with bk := [512, 0, 0, 0] }))) 0 inv0 (word (256 * 2 ^ 27 + 0)) 0 ⟨rfl, rfl, by decide⟩ (by decide),
   fun k => k (((issuing (word (258 * 2 ^ 27 + 0))).onTumbler 0 (fun t => { t with bk := [512, 0, 0, 0] }))) 0 inv0 (word (258 * 2 ^ 27 + 0)) 0 ⟨rfl, rfl, by decide⟩ (by decide),
   fun k => k (((issuing (word (260 * 2 ^ 27 + 0))).onTumbler 0 (fun t => { t with bk := [512, 0, 0, 0] }))) 0 inv0 (word (260 * 2 ^ 27 + 0)) 0 ⟨rfl, rfl, by decide⟩ (by decide),
   fun k => k (((issuing (word (264 * 2 ^ 27 + 0))).onTumbler 0 (fun t => { t with bk := [512, 0, 0, 0] }))) 0 inv0 (word (264 * 2 ^ 27 + 0)) 0 ⟨rfl, rfl, by decide⟩ (by decide),
   fun k => k ((issuing (word (257 * 2 ^ 27 + 0)))) 0 inv0 (word (257 * 2 ^ 27 + 0)) 0 ⟨rfl, rfl, by decide⟩ (by unfold inTime; decide) (by decide) (by decide),
   fun k => k ((issuing (word (262 * 2 ^ 27 + 0)))) 0 inv0 (word (262 * 2 ^ 27 + 0)) 0 ⟨rfl, rfl, by decide⟩ (by unfold inTime; decide) (by decide) (by decide) (by decide),
   fun k => k ((issuing (word (268 * 2 ^ 27 + 0)))) 0 inv0 (word (268 * 2 ^ 27 + 0)) 0 ⟨rfl, rfl, by decide⟩ (by unfold inTime; decide) (by decide) (by decide) (by decide),
   fun k => k ((issuing (word (272 * 2 ^ 27 + 0)))) 0 inv0 (word (272 * 2 ^ 27 + 0)) 0 ⟨rfl, rfl, by decide⟩ (by unfold inTime; decide) (by decide) (by decide) (by decide)⟩

/-- States and operands that meet the hypotheses of each clause of `BelporLoadsAndStores`, part 2: its hypotheses are not contradictory. -/
theorem witness_BelporLoadsAndStores_2 :
    ¬ (∀ (s : State) (n : Nat), ∀ inv w k, issues n .acas s inv w → inTime s n inv 3 → 
        bankFor s inv (tum s n) w = .troupe k →
        troupeOk s inv n k = true →
        troupeBad s n k = false →
        False) :=
  fun k => k ((issuing (word (273 * 2 ^ 27 + 0)))) 0 inv0 (word (273 * 2 ^ 27 + 0)) 0 ⟨rfl, rfl, by decide⟩ (by unfold inTime; decide) (by decide) (by decide) (by decide)

/-- States and operands that meet the hypotheses of each clause of `BelporTransfers`, part 1: its hypotheses are not contradictory. -/
theorem witness_BelporTransfers_1 :
    (¬ (∀ (s : State) (n : Nat), ∀ inv w, issues n .b s inv w → inTime s n inv 2 → 
        condHolds (tum s n).fl (fCond w) = true →
        atLoopEnd (tum s n) = false →
        (inBody (tum s n) (tum s n).pc = true → inBody (tum s n) (fTarget w) = true) →
        False))
    ∧ (¬ (∀ (s : State) (n : Nat), ∀ inv w, issues n .b s inv w → inTime s n inv 1 → 
        condHolds (tum s n).fl (fCond w) = false →
        False))
    ∧ (¬ (∀ (s : State) (n : Nat), ∀ inv w, issues n .br s inv w → inTime s n inv 2 → 
        condHolds (tum s n).fl (fCond w) = true →
        atLoopEnd (tum s n) = false →
        (inBody (tum s n) (tum s n).pc = true → inBody (tum s n) (regTarget (tum s n) w) = true) →
        False))
    ∧ (¬ (∀ (s : State) (n : Nat), ∀ inv w, issues n .br s inv w → inTime s n inv 1 → 
        condHolds (tum s n).fl (fCond w) = false →
        False))
    ∧ (¬ (∀ (s : State) (n : Nat), ∀ inv w, issues n .call s inv w → inTime s n inv 2 → 
        condHolds (tum s n).fl (fCond w) = true →
        atLoopEnd (tum s n) = false →
        False))
    ∧ (¬ (∀ (s : State) (n : Nat), ∀ inv w, issues n .call s inv w → inTime s n inv 1 → 
        condHolds (tum s n).fl (fCond w) = false →
        atLoopEnd (tum s n) = false →
        False))
    ∧ (¬ (∀ (s : State) (n : Nat), ∀ inv w, issues n .callr s inv w → inTime s n inv 2 → 
        condHolds (tum s n).fl (fCond w) = true →
        atLoopEnd (tum s n) = false →
        False))
    ∧ (¬ (∀ (s : State) (n : Nat), ∀ inv w, issues n .callr s inv w → inTime s n inv 1 → 
        condHolds (tum s n).fl (fCond w) = false →
        atLoopEnd (tum s n) = false →
        False))
    ∧ (¬ (∀ (s : State) (n : Nat), ∀ inv w, issues n .ret s inv w → inTime s n inv 2 → 
        condHolds (tum s n).fl (fCond w) = true →
        atLoopEnd (tum s n) = false →
        False))
    ∧ (¬ (∀ (s : State) (n : Nat), ∀ inv w, issues n .ret s inv w → inTime s n inv 1 → 
        condHolds (tum s n).fl (fCond w) = false →
        atLoopEnd (tum s n) = false →
        False))
    ∧ (¬ (∀ (s : State) (n : Nat), ∀ inv w, issues n .loopi s inv w → inTime s n inv 1 → 
        depth (tum s n) < 4 →
        (tum s n).pc + 1 ≤ fTarget w →
        fCount w < 2 ^ 24 →
        (0 < depth (tum s n) → fTarget w ≤ listGet (tum s n).le (depth (tum s n) - 1) 0) →
        atLoopEnd (tum s n) = false →
        0 < fCount w →
        False))
    ∧ (¬ (∀ (s : State) (n : Nat), ∀ inv w, issues n .loopi s inv w → inTime s n inv 1 → 
        depth (tum s n) < 4 →
        (tum s n).pc + 1 ≤ fTarget w →
        fCount w < 2 ^ 24 →
        (0 < depth (tum s n) → fTarget w ≤ listGet (tum s n).le (depth (tum s n) - 1) 0) →
        atLoopEnd (tum s n) = false →
        fCount w = 0 →
        False)) :=
  ⟨fun k => k (((issuing (word (320 * 2 ^ 27 + 14 * 2 ^ 23 + 9))).onTumbler 0 (fun t => { t with ls := [0, 0, 0, 0], le := [9, 0, 0, 0], lc := [5, 0, 0, 0] }))) 0 inv0 (word (320 * 2 ^ 27 + 14 * 2 ^ 23 + 9)) ⟨rfl, rfl, by decide⟩ (by unfold inTime; decide) (by decide) (by decide) (by decide),
   fun k => k ((issuing (word (320 * 2 ^ 27 + 9)))) 0 inv0 (word (320 * 2 ^ 27 + 9)) ⟨rfl, rfl, by decide⟩ (by unfold inTime; decide) (by decide),
   fun k => k (((issuing (word (321 * 2 ^ 27 + 14 * 2 ^ 23 + 0))).onTumbler 0 (fun t => { t with ls := [0, 0, 0, 0], le := [9, 0, 0, 0], lc := [5, 0, 0, 0] }))) 0 inv0 (word (321 * 2 ^ 27 + 14 * 2 ^ 23 + 0)) ⟨rfl, rfl, by decide⟩ (by unfold inTime; decide) (by decide) (by decide) (by decide),
   fun k => k ((issuing (word (321 * 2 ^ 27 + 0)))) 0 inv0 (word (321 * 2 ^ 27 + 0)) ⟨rfl, rfl, by decide⟩ (by unfold inTime; decide) (by decide),
   fun k => k (((issuing (word (322 * 2 ^ 27 + 14 * 2 ^ 23 + 9))).onTumbler 0 (fun t => { t with ls := [0, 0, 0, 0], le := [9, 0, 0, 0], lc := [5, 0, 0, 0] }))) 0 inv0 (word (322 * 2 ^ 27 + 14 * 2 ^ 23 + 9)) ⟨rfl, rfl, by decide⟩ (by unfold inTime; decide) (by decide) (by decide),
   fun k => k (((issuing (word (322 * 2 ^ 27 + 9))).onTumbler 0 (fun t => { t with ls := [0, 0, 0, 0], le := [9, 0, 0, 0], lc := [5, 0, 0, 0] }))) 0 inv0 (word (322 * 2 ^ 27 + 9)) ⟨rfl, rfl, by decide⟩ (by unfold inTime; decide) (by decide) (by decide),
   fun k => k ((issuing (word (323 * 2 ^ 27 + 14 * 2 ^ 23 + 0)))) 0 inv0 (word (323 * 2 ^ 27 + 14 * 2 ^ 23 + 0)) ⟨rfl, rfl, by decide⟩ (by unfold inTime; decide) (by decide) (by decide),
   fun k => k ((issuing (word (323 * 2 ^ 27 + 0)))) 0 inv0 (word (323 * 2 ^ 27 + 0)) ⟨rfl, rfl, by decide⟩ (by unfold inTime; decide) (by decide) (by decide),
   fun k => k ((issuing (word (324 * 2 ^ 27 + 14 * 2 ^ 23 + 0)))) 0 inv0 (word (324 * 2 ^ 27 + 14 * 2 ^ 23 + 0)) ⟨rfl, rfl, by decide⟩ (by unfold inTime; decide) (by decide) (by decide),
   fun k => k ((issuing (word (324 * 2 ^ 27 + 0)))) 0 inv0 (word (324 * 2 ^ 27 + 0)) ⟨rfl, rfl, by decide⟩ (by unfold inTime; decide) (by decide) (by decide),
   fun k => k (((issuing (word (384 * 2 ^ 27 + 127 * 2 ^ 20 + 9))).onTumbler 0 (fun t => { t with ls := [0, 0, 0, 0], le := [9, 0, 0, 0], lc := [5, 0, 0, 0] }))) 0 inv0 (word (384 * 2 ^ 27 + 127 * 2 ^ 20 + 9)) ⟨rfl, rfl, by decide⟩ (by unfold inTime; decide) (by decide) (by decide) (by decide) (by decide) (by decide) (by decide),
   fun k => k ((issuing (word (384 * 2 ^ 27 + 9)))) 0 inv0 (word (384 * 2 ^ 27 + 9)) ⟨rfl, rfl, by decide⟩ (by unfold inTime; decide) (by decide) (by decide) (by decide) (by decide) (by decide) (by decide)⟩

/-- States and operands that meet the hypotheses of each clause of `BelporTransfers`, part 2: its hypotheses are not contradictory. -/
theorem witness_BelporTransfers_2 :
    (¬ (∀ (s : State) (n : Nat), ∀ inv w, issues n .loopr s inv w → inTime s n inv 1 → 
        depth (tum s n) < 4 →
        (tum s n).pc + 1 ≤ fTarget w →
        ((tum s n).get (fRd w)).toNat < 2 ^ 24 →
        (0 < depth (tum s n) → fTarget w ≤ listGet (tum s n).le (depth (tum s n) - 1) 0) →
        atLoopEnd (tum s n) = false →
        0 < ((tum s n).get (fRd w)).toNat →
        False))
    ∧ (¬ (∀ (s : State) (n : Nat), ∀ inv w, issues n .loopr s inv w → inTime s n inv 1 → 
        depth (tum s n) < 4 →
        (tum s n).pc + 1 ≤ fTarget w →
        ((tum s n).get (fRd w)).toNat < 2 ^ 24 →
        (0 < depth (tum s n) → fTarget w ≤ listGet (tum s n).le (depth (tum s n) - 1) 0) →
        atLoopEnd (tum s n) = false →
        ((tum s n).get (fRd w)).toNat = 0 →
        False))
    ∧ (¬ (∀ (s : State) (n : Nat), ∀ inv w, issues n .lexit s inv w → inTime s n inv 2 → 
        0 < depth (tum s n) →
        atLoopEnd (tum s n) = false →
        False)) :=
  ⟨fun k => k ((((issuing (word (385 * 2 ^ 27 + 2 ^ 22 + 9))).onTumbler 0 (fun t => { t with ls := [0, 0, 0, 0], le := [9, 0, 0, 0], lc := [5, 0, 0, 0] })).onTumbler 0 (fun t => { t with w := [(1, 0xFFFFFF)] }))) 0 inv0 (word (385 * 2 ^ 27 + 2 ^ 22 + 9)) ⟨rfl, rfl, by decide⟩ (by unfold inTime; decide) (by decide) (by decide) (by decide) (by decide) (by decide) (by decide),
   fun k => k ((issuing (word (385 * 2 ^ 27 + 9)))) 0 inv0 (word (385 * 2 ^ 27 + 9)) ⟨rfl, rfl, by decide⟩ (by unfold inTime; decide) (by decide) (by decide) (by decide) (by decide) (by decide) (by decide),
   fun k => k (((issuing (word (386 * 2 ^ 27 + 20))).onTumbler 0 (fun t => { t with ls := [0, 0, 0, 0], le := [9, 0, 0, 0], lc := [5, 0, 0, 0] }))) 0 inv0 (word (386 * 2 ^ 27 + 20)) ⟨rfl, rfl, by decide⟩ (by unfold inTime; decide) (by decide) (by decide)⟩

/-- States and operands that meet the hypotheses of each clause of `BelporPortsAndEnds`: its hypotheses are not contradictory. -/
theorem witness_BelporPortsAndEnds :
    (¬ (∀ (s : State) (n : Nat), ∀ inv w, issues n .post s inv w → inTime s n inv (1 + portLen (fPort w)) → 
        fPort w ≤ 2 →
        untaken s n (tum s n) < 8 →
        (tum s n).stores = [] →
        (tum s n).storeFailed = none →
        (∀ i, i < portLen (fPort w) → ((tum s n).get (fRa w)).toNat % 1048576 + i < 1048576 ∧ troupeOk s inv n (((tum s n).get (fRa w)).toNat % 1048576 + i) = true ∧ troupeBad s n (((tum s n).get (fRa w)).toNat % 1048576 + i) = false) →
        False))
    ∧ (¬ (∀ (s : State) (n : Nat), ∀ inv w p w0 w1, issues n .take s inv w → inTime s n inv (1 + 0) → 
        fPort w ≤ 2 →
        (tum s n).arrived.find? (fun r => r.1 == fPort w) = some (p, w0, w1) →
        False))
    ∧ (¬ (∀ (s : State) (n : Nat), ∀ inv w, issues n .poll s inv w → inTime s n inv 1 → 
        fPort w ≤ 2 →
        False))
    ∧ (¬ (∀ (s : State) (n : Nat), ∀ inv w, issues n .mfs s inv w → inTime s n inv 1 → 
        False))
    ∧ (¬ (∀ (s : State) (n : Nat), ∀ inv w, issues n .mts s inv w → inTime s n inv 1 → 
        fRd w < 4 →
        False))
    ∧ (¬ (∀ (s : State) (n : Nat), ∀ inv w, issues n .mts s inv w → inTime s n inv 1 → 
        fRd w = 16 →
        False))
    ∧ (¬ (∀ (s : State) (n : Nat), ∀ inv w, issues n .endact s inv w → inTime s n inv 1 → 
        (tum s n).stores = [] →
        (tum s n).storeFailed = none →
        False))
    ∧ (¬ (∀ (s : State) (n : Nat), ∀ inv w, issues n .brk s inv w → inTime s n inv 1 → 
        False)) :=
  ⟨fun k => k ((issuing (word (448 * 2 ^ 27 + 0)))) 0 inv0 (word (448 * 2 ^ 27 + 0)) ⟨rfl, rfl, by decide⟩ (by unfold inTime; decide) (by decide) (by decide) (by decide) rfl (by decide),
   fun k => k (((issuing (word (449 * 2 ^ 27 + 0))).onTumbler 0 (fun t => { t with arrived := [(0, 0, 0)] }))) 0 inv0 (word (449 * 2 ^ 27 + 0)) 0 0 0 ⟨rfl, rfl, by decide⟩ (by unfold inTime; decide) (by decide) rfl,
   fun k => k ((issuing (word (450 * 2 ^ 27 + 2 * 2 ^ 14)))) 0 inv0 (word (450 * 2 ^ 27 + 2 * 2 ^ 14)) ⟨rfl, rfl, by decide⟩ (by unfold inTime; decide) (by decide),
   fun k => k ((issuing (word (456 * 2 ^ 27 + 0)))) 0 inv0 (word (456 * 2 ^ 27 + 0)) ⟨rfl, rfl, by decide⟩ (by unfold inTime; decide),
   fun k => k ((issuing (word (457 * 2 ^ 27 + 3 * 2 ^ 22)))) 0 inv0 (word (457 * 2 ^ 27 + 3 * 2 ^ 22)) ⟨rfl, rfl, by decide⟩ (by unfold inTime; decide) (by decide),
   fun k => k ((issuing (word (457 * 2 ^ 27 + 16 * 2 ^ 22)))) 0 inv0 (word (457 * 2 ^ 27 + 16 * 2 ^ 22)) ⟨rfl, rfl, by decide⟩ (by unfold inTime; decide) (by decide),
   fun k => k ((issuing (word (504 * 2 ^ 27 + 0)))) 0 inv0 (word (504 * 2 ^ 27 + 0)) ⟨rfl, rfl, by decide⟩ (by unfold inTime; decide) (by decide) rfl,
   fun k => k ((issuing (word (511 * 2 ^ 27 + 0)))) 0 inv0 (word (511 * 2 ^ 27 + 0)) ⟨rfl, rfl, by decide⟩ (by unfold inTime; decide)⟩

/-- States and operands that meet the hypotheses of each clause of `TrapezeAccesses`: its hypotheses are not contradictory. -/
theorem witness_TrapezeAccesses :
    (¬ (∀ (s : State), ∀ (x : TpAccess) (data : List Byte)  (e : TpWindow),
        let w := actor s e.part e.tenant (134 + x.port);
        let a := e.accBase + (x.addr - e.offset * 65536);
        let q := storeAll s (20 + x.port) w .other a data;
        let r : Status × TpMsg × State := (q.1, .wcomp x.tag, q.2.2.1);
        tpUp (s.tport x.port) = true →
        inWindow s x.port x.addr (data.length) = some e →
        e.write = true →
        False))
    ∧ (¬ (∀ (s : State), ∀ (x : TpAccess) (len : Nat)  (e : TpWindow),
        let w := actor s e.part e.tenant (134 + x.port);
        let a := e.accBase + (x.addr - e.offset * 65536);
        let q := loadAll s (20 + x.port) w a len [];
        let r : Status × TpMsg × State := (q.1, .rdcomp x.tag q.2.2.1, q.2.2.2);
        tpUp (s.tport x.port) = true →
        inWindow s x.port x.addr (len) = some e →
        e.read = true →
        False))
    ∧ (¬ (∀ (s : State), ∀ (x : TpAccess) (addend : Nat)  (e : TpWindow),
        let w := actor s e.part e.tenant (134 + x.port);
        let a := e.accBase + (x.addr - e.offset * 65536);
        let q := atomicAt s (20 + x.port) w a (fun old => modAdd 64 old addend);
        let r : Status × TpMsg × State := (q.1, .atcomp x.tag q.2.1, q.2.2);
        tpUp (s.tport x.port) = true →
        inWindow s x.port x.addr (8) = some e →
        e.atomic = true →
        False))
    ∧ (¬ (∀ (s : State), ∀ (x : TpAccess) (compare : Nat) (swap : Nat)  (e : TpWindow),
        let w := actor s e.part e.tenant (134 + x.port);
        let a := e.accBase + (x.addr - e.offset * 65536);
        let q := atomicAt s (20 + x.port) w a (fun old => if old == compare then swap else old);
        let r : Status × TpMsg × State := (q.1, .atcomp x.tag q.2.1, q.2.2);
        tpUp (s.tport x.port) = true →
        inWindow s x.port x.addr (8) = some e →
        e.atomic = true →
        False))
    ∧ (¬ (∀ (s : State), ∀ (p : Nat) (tag : Nat) (data : List Byte) (r : TpReq),
        tpUp (s.tport p) = true →
        (s.tport p).reads.find? (fun r => tagOf r.msg == tag && (match r.msg with | .read .. => true | _ => false)) = some r →
        False))
    ∧ (¬ (∀ (s : State), ∀ (p : Nat) (tag : Nat) (old : Nat) (r : TpReq),
        tpUp (s.tport p) = true →
        (s.tport p).reads.find? (fun r => tagOf r.msg == tag && (match r.msg with | .read .. => false | _ => true)) = some r →
        False))
    ∧ (¬ (∀ (s : State), ∀ (p : Nat) (tag : Nat),
        let covered := fun (r : TpReq) => decide (modSub 16 tag (tagOf r.msg) < 32768);
        tpUp (s.tport p) = true →
        (s.tport p).writes.any (fun r => tagOf r.msg == tag) = true →
        False))
    ∧ (¬ (∀ (s : State), ∀ (p : Nat) (tag : Nat) (code : Nat) (st : Status) (r : TpReq),
        tpUp (s.tport p) = true →
        errStatus code = some st →
        (s.tport p).writes.find? (fun r => tagOf r.msg == tag) = some r →
        False))
    ∧ (¬ (∀ (s : State), ∀ (p : Nat) (tag : Nat) (code : Nat) (st : Status) (r : TpReq),
        tpUp (s.tport p) = true →
        errStatus code = some st →
        (s.tport p).writes.find? (fun r => tagOf r.msg == tag) = none →
        (s.tport p).reads.find? (fun r => tagOf r.msg == tag) = some r →
        False))
    ∧ (¬ (∀ (s : State), ∀ (p : Nat) (tag : Nat) (r : TpReq),
        (s.tport p).reads.find? (fun r => tagOf r.msg == tag) = some r →
        False))
    ∧ (¬ (∀ (s : State), ∀ (p : Nat),
        tpUp (s.tport p) = true →
        ((s.tport p).queue.isEmpty && (s.tport p).responses.isEmpty && (s.tport p).controls.isEmpty) = false →
        False))
    ∧ (¬ (∀ (s : State), ∀ (p : Nat) (ring : Nat) (sessions : List Nat) (prod : Nat) (c : FeedCfg) (k : Nat),
        tpUp (s.tport p) = true →
        tget s.cfg.sess.returns ring = some c →
        region c.bind.entryArray = .trapeze p k →
        quarantined s 138 = false →
        False)) :=
  ⟨fun k => k ((State.reset.onTp 0 (fun t => { t with st := .active })).onCfg (fun c => { c with tp := { c.tp with inWin := [(0, tpWin0)] } })) ({ port := 0, tag := 0, addr := 0 }) [1, 2] tpWin0 (by decide) rfl (by decide),
   fun k => k ((State.reset.onTp 0 (fun t => { t with st := .active })).onCfg (fun c => { c with tp := { c.tp with inWin := [(0, tpWin0)] } })) ({ port := 0, tag := 0, addr := 0 }) 4 tpWin0 (by decide) rfl (by decide),
   fun k => k ((State.reset.onTp 0 (fun t => { t with st := .active })).onCfg (fun c => { c with tp := { c.tp with inWin := [(0, tpWin0)] } })) ({ port := 0, tag := 0, addr := 0 }) 1 tpWin0 (by decide) rfl (by decide),
   fun k => k ((State.reset.onTp 0 (fun t => { t with st := .active })).onCfg (fun c => { c with tp := { c.tp with inWin := [(0, tpWin0)] } })) ({ port := 0, tag := 0, addr := 0 }) 1 1 tpWin0 (by decide) rfl (by decide),
   fun k => k (State.reset.onTp 0 (fun t => { t with st := .active, reads := [{ msg := .read 3 0 0 0 4, use := .other, issuedAt := 0, sentAt := 0 }] })) 0 3 [1, 2, 3, 4] ({ msg := .read 3 0 0 0 4, use := .other, issuedAt := 0, sentAt := 0 }) (by decide) rfl,
   fun k => k (State.reset.onTp 0 (fun t => { t with st := .active, reads := [{ msg := .fadd 3 0 0 0 1, use := .other, issuedAt := 0, sentAt := 0 }] })) 0 3 7 ({ msg := .fadd 3 0 0 0 1, use := .other, issuedAt := 0, sentAt := 0 }) (by decide) rfl,
   fun k => k (State.reset.onTp 0 (fun t => { t with st := .active, writes := [{ msg := .write 3 0 0 0 [1], use := .other, issuedAt := 0, sentAt := 0 }] })) 0 3 (by decide) (by decide),
   fun k => k (State.reset.onTp 0 (fun t => { t with st := .active, writes := [{ msg := .write 3 0 0 0 [1], use := .other, issuedAt := 0, sentAt := 0 }] })) 0 3 1 _ ({ msg := .write 3 0 0 0 [1], use := .other, issuedAt := 0, sentAt := 0 }) (by decide) rfl rfl,
   fun k => k (State.reset.onTp 0 (fun t => { t with st := .active, reads := [{ msg := .read 3 0 0 0 4, use := .other, issuedAt := 0, sentAt := 0 }] })) 0 3 1 _ ({ msg := .read 3 0 0 0 4, use := .other, issuedAt := 0, sentAt := 0 }) (by decide) rfl rfl rfl,
   fun k => k (State.reset.onTp 0 (fun t => { t with st := .active, reads := [{ msg := .read 3 0 0 0 4, use := .other, issuedAt := 0, sentAt := 0 }] })) 0 3 ({ msg := .read 3 0 0 0 4, use := .other, issuedAt := 0, sentAt := 0 }) rfl,
   fun k => k (State.reset.onTp 0 (fun t => { t with st := .active, queue := [{ msg := .write 3 0 0 0 [1], use := .other, issuedAt := 0, sentAt := 0 }] })) 0 (by decide) (by decide),
   fun k => k ((State.reset.onTp 0 (fun t => { t with st := .active })).onCfg (fun c => { c with sess := { c.sess with returns := [(0, { part := 0, tenant := 0, fn := 0, bind := ring0, binding := 0 })] } })) 0 0 [] 1 ({ part := 0, tenant := 0, fn := 0, bind := ring0, binding := 0 }) 0 (by decide) rfl (by decide) (by decide)⟩

/-- States and operands that meet the hypotheses of each clause of `TrapezePortEvents`, part 1: its hypotheses are not contradictory. -/
theorem witness_TrapezePortEvents_1 :
    (¬ (∀ (s : State), ∀ (p : Nat) (f : Flit),
        let a := (tpCount s p 1).onTp p (fun t => tpHeader t f);
        let b := if f.null then a else if f.fseq == (a.tport p).expected then tpAccept a p f else tpNak a p;
        ingress s = true →
        tpUp (s.tport p) = true →
        f.crcOk = true →
        f.nak = false →
        False))
    ∧ (¬ (∀ (s : State), ∀ (p : Nat) (f : Flit),
        ingress s = true →
        tpUp (s.tport p) = true →
        f.crcOk = false →
        f.null = false →
        False))
    ∧ (¬ (∀ (s : State), ∀ (p : Nat),
        tpUp (s.tport p) = true →
        0 < (s.tport p).unacked →
        False))
    ∧ (¬ (∀ (s : State), ∀ (p : Nat) (d : List Byte),
        let at_ := fun (o n : Nat) => ofBe ((d.drop o).take n);
        (s.tport p).st = .training →
        (s.tport p).step = 6 →
        at_ 0 2 = 1 →
        512 ≤ at_ 2 2 ∧ at_ 2 2 ≤ 2047 →
        512 ≤ at_ 4 2 ∧ at_ 4 2 ≤ 2047 →
        64 ≤ at_ 6 2 ∧ at_ 6 2 ≤ 2047 →
        at_ 12 4 = 0 →
        at_ 20 12 = 0 →
        False))
    ∧ (¬ (∀ (s : State), ∀ (p : Nat) (fibre : Nat) (lane : Nat),
        let fs := modAdd 12 (s.tport p).nextSeq 32;
        tpUp (s.tport p) = true →
        fibreBit (s.tport p).fibreDropped fibre = false →
        lastFibre (s.tport p) fibre = false →
        False))
    ∧ (¬ (∀ (s : State), ∀ (p : Nat) (fibre : Nat) (lane : Nat) (fs : Nat),
        False))
    ∧ (¬ (∀ (s : State), ∀ (p : Nat) (seq : Nat) (data : List Byte),
        let a := s.onTp p (fun t => { t with telem := be 4 seq ++ fit 64 data, telemTime := s.clock.now, telemAt := some s.clock.cadence });
        tpUp (s.tport p) = true →
        (∀ x, (s.tport p).telemAt = some x → x + 10000 ≤ s.clock.cadence) →
        False))
    ∧ (¬ (∀ (s : State), ∀ (p : Nat) (w : TpSwap),
        let e := (s.onTp p (fun t => { t with swaps := t.swaps.erase w })).onTp p (fun t => { t with
          laneMap := tset t.laneMap (16 * w.fibre + w.lane) 16
          spareUsed := t.spareUsed ||| 2 ^ (3 - w.fibre)
          counts := bump t.counts 4 });
        (s.tport p).swaps.find? (fun w => w.fs.isSome) = some w →
        w.dropFibre = false →
        fibreBit (s.tport p).spareUsed w.fibre = false →
        False))
    ∧ (¬ (∀ (s : State), ∀ (p : Nat) (w : TpSwap),
        let e := s.onTp p (fun t => { t with swaps := t.swaps.erase w });
        (s.tport p).swaps.find? (fun w => w.fs.isSome) = some w →
        (w.dropFibre || fibreBit (s.tport p).spareUsed w.fibre) = true →
        False))
    ∧ (¬ (∀ (s : State), ∀ (p : Nat) (fibre : Nat) (lane : Nat),
        tpUp (s.tport p) = true →
        fibreBit (s.tport p).fibreDropped fibre = false →
        (s.tport p).swaps.any (fun w => w.fibre == fibre && w.lane == lane) = false →
        lastFibre (s.tport p) fibre = false →
        False))
    ∧ (¬ (∀ (s : State), ∀ (p : Nat) (fibre : Nat) (lane : Nat),
        tpUp (s.tport p) = true →
        fibreBit (s.tport p).fibreDropped fibre = false →
        (s.tport p).swaps.any (fun w => w.fibre == fibre && w.lane == lane) = false →
        lastFibre (s.tport p) fibre = false →
        2 ≤ fibre →
        False))
    ∧ (¬ (∀ (s : State), ∀ (p : Nat) (fibre : Nat) (lane : Nat) (w : TpSwap),
        let e := s.onTp p (fun t => { t with swaps := t.swaps.erase w });
        (s.tport p).swaps.find? (fun w => w.fibre == fibre && w.lane == lane && w.fs.isNone) = some w →
        tpUp (s.tport p) = true →
        False)) :=
  ⟨fun k => k (State.reset.onTp 0 (fun t => { t with st := .active })) 0 ({ crcOk := true, null := false, nak := false, fseq := 0, ackSeq := 4095, crReq := 0, crRsp := 0, crCtl := 0, slotsReq := 0, slotsRsp := 0, slotsCtl := 0, badMsgs := 0 }) (by decide) (by decide) (by decide) (by decide),
   fun k => k (State.reset.onTp 0 (fun t => { t with st := .active })) 0 ({ crcOk := false, null := false, nak := false, fseq := 0, ackSeq := 4095, crReq := 0, crRsp := 0, crCtl := 0, slotsReq := 0, slotsRsp := 0, slotsCtl := 0, badMsgs := 0 }) (by decide) (by decide) (by decide) (by decide),
   fun k => k (State.reset.onTp 0 (fun t => { t with st := .active, unacked := 32 })) 0 (by decide) (by decide),
   fun k => k (State.reset.onTp 0 (fun t => { t with st := .training, step := 6 })) 0 (be 2 1 ++ be 2 512 ++ be 2 2047 ++ be 2 64 ++ zeros 24) (by decide) (by decide) (by decide) (by decide) (by decide) (by decide) (by decide) (by decide),
   fun k => k (State.reset.onTp 0 (fun t => { t with st := .active })) 0 3 15 (by decide) (by decide) (by decide),
   fun k => k State.reset 3 3 15 4095 ,
   fun k => k ((State.reset.onTp 0 (fun t => { t with st := .active, telemAt := some 0 })).onClock (fun c => { c with cadence := 10000 })) 0 1 (zeros 64) (by decide) (by intro x h; cases h; decide),
   fun k => k (State.reset.onTp 0 (fun t => { t with st := .active, swaps := [{ fibre := 0, lane := 3, fs := some 5, dropFibre := false }] })) 0 ({ fibre := 0, lane := 3, fs := some 5, dropFibre := false }) rfl (by decide) (by decide),
   fun k => k (State.reset.onTp 0 (fun t => { t with st := .active, swaps := [{ fibre := 0, lane := 3, fs := some 5, dropFibre := true }] })) 0 ({ fibre := 0, lane := 3, fs := some 5, dropFibre := true }) rfl (by decide),
   fun k => k (State.reset.onTp 0 (fun t => { t with st := .active })) 0 3 15 (by decide) (by decide) (by decide) (by decide),
   fun k => k (State.reset.onTp 0 (fun t => { t with st := .active })) 0 3 15 (by decide) (by decide) (by decide) (by decide) (by decide),
   fun k => k (State.reset.onTp 0 (fun t => { t with st := .degraded, swaps := [{ fibre := 0, lane := 3, fs := none, dropFibre := false }] })) 0 0 3 ({ fibre := 0, lane := 3, fs := none, dropFibre := false }) rfl (by decide)⟩

/-- States and operands that meet the hypotheses of each clause of `TrapezePortEvents`, part 2: its hypotheses are not contradictory. -/
theorem witness_TrapezePortEvents_2 :
    (¬ (∀ (s : State), ∀ (p : Nat),
        tpUp (s.tport p) = true →
        False))
    ∧ (¬ (∀ (s : State), ∀ (p : Nat) (delay : Nat),
        let e := (s.onTp p (fun t => { t with step := t.step + 1, combOk := t.combOk || t.step == 2 })).send (.tpTrain p ((s.tport p).step + 1));
        (s.tport p).st = .training →
        (s.tport p).step < 6 →
        False))
    ∧ (¬ (∀ (s : State), ∀ (p : Nat) (delay : Nat),
        (s.tport p).st = .training →
        (s.tport p).step = 7 →
        s.tp.sumOpen = none →
        False))
    ∧ (¬ (∀ (s : State), ∀ (p : Nat),
        (s.tport p).st = .down →
        (s.tport p).retryWait = true →
        False)) :=
  ⟨fun k => k (State.reset.onTp 0 (fun t => { t with st := .active })) 0 (by decide),
   fun k => k (State.reset.onTp 0 (fun t => { t with st := .training, step := 5 })) 0 0 (by decide) (by decide),
   fun k => k (State.reset.onTp 0 (fun t => { t with st := .training, step := 7 })) 0 0 (by decide) (by decide) rfl,
   fun k => k (State.reset.onTp 0 (fun t => { t with st := .down, retryWait := true })) 0 (by decide) (by decide)⟩

/-- States and operands that meet the hypotheses of each clause of `TrapezeSumEvents`: its hypotheses are not contradictory. -/
theorem witness_TrapezeSumEvents :
    (¬ (∀ (s : State), ∀ (p : Nat) (job : Nat) (stepNo : Nat) (o : SumOp),
        let b : SumOp := { o with boundaries := if o.boundaries.contains p then o.boundaries else o.boundaries ++ [p] };
        let e := s.onTrapeze (fun t => { t with sumOpen := some b });
        s.tp.sumOpen = some o →
        o.scalar = false →
        o.won = false →
        bit o.members p = true →
        tpUp (s.tport p) = true →
        (∀ j, o.use = .press j → j = job) →
        stepNo = o.stepNo →
        False))
    ∧ (¬ (∀ (s : State), ∀ (light : Nat) (o : SumOp),
        s.tp.sumOpen = some o →
        o.won = false →
        (membersOf o.members).all (fun p => tpUp (s.tport p)) = true →
        o.scalar = true →
        False))
    ∧ (¬ (∀ (s : State), ∀ (light : Nat) (o : SumOp),
        let n := min 5 ((light + 1000 * b2n (unitOn s o) + 500) / 1000);
        s.tp.sumOpen = some o →
        o.won = false →
        (membersOf o.members).all (fun p => tpUp (s.tport p)) = true →
        o.scalar = false →
        sumCount o ≤ n →
        False))
    ∧ (¬ (∀ (s : State), ∀ (o : SumOp),
        s.tp.sumOpen = some o →
        o.reached = true →
        o.won = false →
        allBoundaries o = false →
        False))
    ∧ (¬ (∀ (s : State), ∀ (delays : List (Nat × Nat)),
        s.tp.sumOpen = none →
        False))
    ∧ (¬ (∀ (s : State), ∀ (delays : List (Nat × Nat)) (o : SumOp),
        s.tp.sumOpen = some o →
        False))
    ∧ (¬ (∀ (s : State), ∀ (o : SumOp) (f k : Nat),
        s.tp.sumOpen = some o →
        o.use = .command f k →
        o.scalar = false →
        o.reached = false →
        False)) :=
  ⟨fun k => k ((State.reset.onTp 0 (fun t => { t with st := .active })).onTrapeze (fun t => { t with sumOpen := some { use := .command 0 7, scalar := false, op := 1, members := 1, value := 51, stepNo := 0, job := 0, boundaries := [], reached := false, won := false } })) 0 0 0 ({ use := .command 0 7, scalar := false, op := 1, members := 1, value := 51, stepNo := 0, job := 0, boundaries := [], reached := false, won := false }) rfl (by decide) (by decide) (by decide) (by decide) (by intro j h; cases h) rfl,
   fun k => k ((State.reset.onTp 0 (fun t => { t with st := .active })).onTrapeze (fun t => { t with sumOpen := some { use := .command 0 7, scalar := true, op := 1, members := 1, value := 51, stepNo := 0, job := 0, boundaries := [], reached := false, won := false } })) 500 ({ use := .command 0 7, scalar := true, op := 1, members := 1, value := 51, stepNo := 0, job := 0, boundaries := [], reached := false, won := false }) rfl (by decide) (by decide) (by decide),
   fun k => k ((State.reset.onTp 0 (fun t => { t with st := .active })).onTrapeze (fun t => { t with sumOpen := some { use := .command 0 7, scalar := false, op := 1, members := 1, value := 51, stepNo := 0, job := 0, boundaries := [], reached := false, won := false } })) 2000 ({ use := .command 0 7, scalar := false, op := 1, members := 1, value := 51, stepNo := 0, job := 0, boundaries := [], reached := false, won := false }) rfl (by decide) (by decide) (by decide) (by decide),
   fun k => k ((State.reset.onTp 0 (fun t => { t with st := .active })).onTrapeze (fun t => { t with sumOpen := some { use := .command 0 7, scalar := false, op := 1, members := 1, value := 51, stepNo := 0, job := 0, boundaries := [], reached := true, won := false } })) ({ use := .command 0 7, scalar := false, op := 1, members := 1, value := 51, stepNo := 0, job := 0, boundaries := [], reached := true, won := false }) rfl (by decide) (by decide) (by decide),
   fun k => k State.reset [(0, 0)] rfl,
   fun k => k ((State.reset.onTp 0 (fun t => { t with st := .active })).onTrapeze (fun t => { t with sumOpen := some { use := .command 0 7, scalar := false, op := 1, members := 1, value := 51, stepNo := 0, job := 0, boundaries := [], reached := false, won := false } })) [] ({ use := .command 0 7, scalar := false, op := 1, members := 1, value := 51, stepNo := 0, job := 0, boundaries := [], reached := false, won := false }) rfl,
   fun k => k ((State.reset.onTp 0 (fun t => { t with st := .active })).onTrapeze (fun t => { t with sumOpen := some { use := .command 0 7, scalar := false, op := 1, members := 1, value := 51, stepNo := 0, job := 0, boundaries := [], reached := false, won := false } })) ({ use := .command 0 7, scalar := false, op := 1, members := 1, value := 51, stepNo := 0, job := 0, boundaries := [], reached := false, won := false }) 0 7 rfl (by decide) (by decide) (by decide)⟩

/-- States and operands that meet the hypotheses of each clause of `GdpEvents`, part 1: its hypotheses are not contradictory. -/
theorem witness_GdpEvents_1 :
    (¬ (∀ (s : State), ∀ (n : Nat) (ext : List Byte) (c : ConnCfg) (g : GdpConn) (d : GdpDesc) (ds : List GdpDesc),
        let e := s.onConn n (fun g => { g with waiting := ds });
        connCfg s n = some c →
        tget s.gdp.conns n = some g →
        g.waiting = d :: ds →
        usedOf s c.part none 8 + 1 ≤ limitOf s c.part 8 →
        g.state = .open_ →
        (d.fence = true → g.ops = []) →
        mayStart s g = true →
        g.sent.any (·.lost) = false →
        pressOwns s n = false →
        pressHolds s n = false →
        gdpOpBad s c d = none →
        d.op = 2 →
        False))
    ∧ (¬ (∀ (s : State), ∀ (n : Nat) (ext : List Byte) (c : ConnCfg) (g : GdpConn) (d : GdpDesc) (ds : List GdpDesc),
        let e := s.onConn n (fun g => { g with waiting := ds });
        connCfg s n = some c →
        tget s.gdp.conns n = some g →
        g.waiting = d :: ds →
        usedOf s c.part none 8 + 1 ≤ limitOf s c.part 8 →
        g.state = .open_ →
        (d.fence = true → g.ops = []) →
        mayStart s g = true →
        g.sent.any (·.lost) = false →
        pressOwns s n = false →
        pressHolds s n = false →
        gdpOpBad s c d = none →
        d.op = 4 →
        False))
    ∧ (¬ (∀ (s : State), ∀ (n : Nat) (ext : List Byte) (c : ConnCfg) (g : GdpConn) (d : GdpDesc) (ds : List GdpDesc),
        let e := s.onConn n (fun g => { g with waiting := ds });
        connCfg s n = some c →
        tget s.gdp.conns n = some g →
        g.waiting = d :: ds →
        usedOf s c.part none 8 + 1 ≤ limitOf s c.part 8 →
        g.state = .open_ →
        (d.fence = true → g.ops = []) →
        mayStart s g = true →
        g.sent.any (·.lost) = false →
        pressOwns s n = false →
        pressHolds s n = false →
        gdpOpBad s c d = none →
        d.op = 5 →
        False))
    ∧ (¬ (∀ (s : State), ∀ (n : Nat) (ext : List Byte) (c : ConnCfg) (g : GdpConn) (d : GdpDesc) (ds : List GdpDesc),
        let e := s.onConn n (fun g => { g with waiting := ds });
        let here := (regionUse e c d.localRegion d.localOffset d.length none (·.loc)).getD 0;
        let r := if d.length == 0 then (Status.ok, [], e) else gdpRead e c here d.length ext;
        connCfg s n = some c →
        tget s.gdp.conns n = some g →
        g.waiting = d :: ds →
        usedOf s c.part none 8 + 1 ≤ limitOf s c.part 8 →
        g.state = .open_ →
        (d.fence = true → g.ops = []) →
        mayStart s g = true →
        g.sent.any (·.lost) = false →
        pressOwns s n = false →
        pressHolds s n = false →
        gdpOpBad s c d = none →
        d.op = 1 →
        r.1 = .ok →
        False))
    ∧ (¬ (∀ (s : State), ∀ (n : Nat) (ext : List Byte) (c : ConnCfg) (g : GdpConn) (d : GdpDesc) (ds : List GdpDesc),
        let e := s.onConn n (fun g => { g with waiting := ds });
        let here := (regionUse e c d.localRegion d.localOffset d.length none (·.loc)).getD 0;
        let r := if d.length == 0 then (Status.ok, [], e) else gdpRead e c here d.length ext;
        connCfg s n = some c →
        tget s.gdp.conns n = some g →
        g.waiting = d :: ds →
        usedOf s c.part none 8 + 1 ≤ limitOf s c.part 8 →
        g.state = .open_ →
        (d.fence = true → g.ops = []) →
        mayStart s g = true →
        g.sent.any (·.lost) = false →
        pressOwns s n = false →
        pressHolds s n = false →
        gdpOpBad s c d = none →
        d.op = 7 →
        r.1 = .ok →
        False))
    ∧ (¬ (∀ (s : State), ∀ (h : GdpHdr) (pay : List Byte) (c : ConnCfg) (d : List Byte) (e : State) (a : Nat),
        let r := gdpPlace e h.dstConn c 0 h.msn a (fit h.len d);
        gdpData s h pay = .inl (c, d, e) →
        bitmapFree e c h 1 = true →
        msgStatus e h.dstConn 1 h.msn = .ok →
        regionUse e c h.region h.offset h.len (some h.rkey) (·.rWrite) = some a →
        False))
    ∧ (¬ (∀ (s : State), ∀ (h : GdpHdr) (pay : List Byte) (ext : List Byte) (c : ConnCfg) (d : List Byte) (e : State) (a : Nat),
        let r := if h.msgLen == 0 then (Status.ok, [], e) else gdpRead e c a h.msgLen ext;
        gdpData s h pay = .inl (c, d, e) →
        bitmapFree e c h 2 = true →
        serviceFull e c = false →
        regionUse e c h.region h.offset h.msgLen (some h.rkey) (·.rRead) = some a →
        r.1 = .ok →
        False))
    ∧ (¬ (∀ (s : State), ∀ (h : GdpHdr) (pay : List Byte) (c : ConnCfg) (d : List Byte) (e : State) (a : Nat),
        let r := gdpPlace e h.dstConn c 1 h.msn a (fit h.len d);
        gdpData s h pay = .inl (c, d, e) →
        bitmapFree e c h 3 = true →
        (connOf e h.dstConn).ops.any (fun o => o.msn == h.msn && o.desc.op == 2) = true →
        msgStatus e h.dstConn 3 h.msn = .ok →
        regionUse e c h.region h.offset h.len (some h.rkey) (·.loc) = some a →
        False))
    ∧ (¬ (∀ (s : State), ∀ (h : GdpHdr) (pay : List Byte) (c : ConnCfg) (d : List Byte) (e : State) (a : Nat),
        let r := atomicAt e 13 (gdpActor e c) a (fun old => modAdd 64 old (ofLe (d.take 8)));
        gdpData s h pay = .inl (c, d, e) →
        bitmapFree e c h 4 = true →
        serviceFull e c = false →
        regionUse e c h.region h.offset 8 (some h.rkey) (·.rAtomic) = some a →
        (∀ p o, region a ≠ .trapeze p o) →
        r.1 = .ok →
        False))
    ∧ (¬ (∀ (s : State), ∀ (h : GdpHdr) (pay : List Byte) (c : ConnCfg) (d : List Byte) (e : State) (a p o : Nat) (w : TpWindow),
        gdpData s h pay = .inl (c, d, e) → bitmapFree e c h 4 = true → serviceFull e c = false → regionUse e c h.region h.offset 8 (some h.rkey) (·.rAtomic) = some a →
        region a = .trapeze p o → accessCheck e (gdpActor e c) a 8 .atomic = .ok → outWindow (gdpActor e c).cfg p o = some w →
        False))
    ∧ (¬ (∀ (s : State), ∀ (h : GdpHdr) (pay : List Byte) (c : ConnCfg) (d : List Byte) (e : State) (a p o : Nat) (w : TpWindow),
        gdpData s h pay = .inl (c, d, e) → bitmapFree e c h 4 = true → serviceFull e c = false → regionUse e c h.region h.offset 8 (some h.rkey) (·.rAtomic) = some a →
        region a = .trapeze p o → accessCheck e (gdpActor e c) a 8 .atomic = .ok → outWindow (gdpActor e c).cfg p o = some w →
        False))
    ∧ (¬ (∀ (s : State), ∀ (h : GdpHdr) (pay : List Byte) (c : ConnCfg) (d : List Byte) (e : State) (a : Nat),
        let r := atomicAt e 13 (gdpActor e c) a (fun old => if old == ofLe (d.take 8) then ofLe ((d.drop 8).take 8) else old);
        gdpData s h pay = .inl (c, d, e) →
        bitmapFree e c h 4 = true →
        serviceFull e c = false →
        regionUse e c h.region h.offset 8 (some h.rkey) (·.rAtomic) = some a →
        (∀ p o, region a ≠ .trapeze p o) →
        r.1 = .ok →
        False)) :=
  ⟨fun k => k ({ State.reset.onCfg (fun c => { c with gdp := { c.gdp with conns := [(0, conn0)], regions := [(0, { part := 0, tenant := 0, fn := 0, set := region0 })] } }) with gdp := { conns := [(0, { state := .open_, waiting := [{ fence := false, signal := true, op := 2, tag := 0, operand1 := 0, operand0 := 0, length := 8, remoteKey := 0, localOffset := 0, localRegion := 0, remoteOffset := 0, remoteRegion := 0, rsvBad := false }] })] } }) 0 [] conn0 ({ state := .open_, waiting := [{ fence := false, signal := true, op := 2, tag := 0, operand1 := 0, operand0 := 0, length := 8, remoteKey := 0, localOffset := 0, localRegion := 0, remoteOffset := 0, remoteRegion := 0, rsvBad := false }] }) ({ fence := false, signal := true, op := 2, tag := 0, operand1 := 0, operand0 := 0, length := 8, remoteKey := 0, localOffset := 0, localRegion := 0, remoteOffset := 0, remoteRegion := 0, rsvBad := false }) [] rfl rfl (by decide) (by decide) (by decide) (by decide) (by decide) (by decide) (by decide) (by decide) rfl (by decide),
   fun k => k ({ State.reset.onCfg (fun c => { c with gdp := { c.gdp with conns := [(0, conn0)], regions := [(0, { part := 0, tenant := 0, fn := 0, set := region0 })] } }) with gdp := { conns := [(0, { state := .open_, waiting := [{ fence := false, signal := true, op := 4, tag := 0, operand1 := 0, operand0 := 0, length := 8, remoteKey := 0, localOffset := 0, localRegion := 0, remoteOffset := 0, remoteRegion := 0, rsvBad := false }] })] } }) 0 [] conn0 ({ state := .open_, waiting := [{ fence := false, signal := true, op := 4, tag := 0, operand1 := 0, operand0 := 0, length := 8, remoteKey := 0, localOffset := 0, localRegion := 0, remoteOffset := 0, remoteRegion := 0, rsvBad := false }] }) ({ fence := false, signal := true, op := 4, tag := 0, operand1 := 0, operand0 := 0, length := 8, remoteKey := 0, localOffset := 0, localRegion := 0, remoteOffset := 0, remoteRegion := 0, rsvBad := false }) [] rfl rfl (by decide) (by decide) (by decide) (by decide) (by decide) (by decide) (by decide) (by decide) rfl (by decide),
   fun k => k ({ State.reset.onCfg (fun c => { c with gdp := { c.gdp with conns := [(0, conn0)], regions := [(0, { part := 0, tenant := 0, fn := 0, set := region0 })] } }) with gdp := { conns := [(0, { state := .open_, waiting := [{ fence := false, signal := true, op := 5, tag := 0, operand1 := 0, operand0 := 0, length := 8, remoteKey := 0, localOffset := 0, localRegion := 0, remoteOffset := 0, remoteRegion := 0, rsvBad := false }] })] } }) 0 [] conn0 ({ state := .open_, waiting := [{ fence := false, signal := true, op := 5, tag := 0, operand1 := 0, operand0 := 0, length := 8, remoteKey := 0, localOffset := 0, localRegion := 0, remoteOffset := 0, remoteRegion := 0, rsvBad := false }] }) ({ fence := false, signal := true, op := 5, tag := 0, operand1 := 0, operand0 := 0, length := 8, remoteKey := 0, localOffset := 0, localRegion := 0, remoteOffset := 0, remoteRegion := 0, rsvBad := false }) [] rfl rfl (by decide) (by decide) (by decide) (by decide) (by decide) (by decide) (by decide) (by decide) rfl (by decide),
   fun k => k ({ State.reset.onCfg (fun c => { c with gdp := { c.gdp with conns := [(0, conn0)], regions := [(0, { part := 0, tenant := 0, fn := 0, set := region0 })] } }) with gdp := { conns := [(0, { state := .open_, waiting := [{ fence := false, signal := true, op := 1, tag := 0, operand1 := 0, operand0 := 0, length := 8, remoteKey := 0, localOffset := 0, localRegion := 0, remoteOffset := 0, remoteRegion := 0, rsvBad := false }] })] } }) 0 [] conn0 ({ state := .open_, waiting := [{ fence := false, signal := true, op := 1, tag := 0, operand1 := 0, operand0 := 0, length := 8, remoteKey := 0, localOffset := 0, localRegion := 0, remoteOffset := 0, remoteRegion := 0, rsvBad := false }] }) ({ fence := false, signal := true, op := 1, tag := 0, operand1 := 0, operand0 := 0, length := 8, remoteKey := 0, localOffset := 0, localRegion := 0, remoteOffset := 0, remoteRegion := 0, rsvBad := false }) [] rfl rfl (by decide) (by decide) (by decide) (by decide) (by decide) (by decide) (by decide) (by decide) rfl (by decide) (by decide),
   fun k => k ({ State.reset.onCfg (fun c => { c with gdp := { c.gdp with conns := [(0, conn0)], regions := [(0, { part := 0, tenant := 0, fn := 0, set := region0 })] } }) with gdp := { conns := [(0, { state := .open_, waiting := [{ fence := false, signal := true, op := 7, tag := 0, operand1 := 0, operand0 := 0, length := 8, remoteKey := 0, localOffset := 0, localRegion := 0, remoteOffset := 0, remoteRegion := 0, rsvBad := false }] })] } }) 0 [] conn0 ({ state := .open_, waiting := [{ fence := false, signal := true, op := 7, tag := 0, operand1 := 0, operand0 := 0, length := 8, remoteKey := 0, localOffset := 0, localRegion := 0, remoteOffset := 0, remoteRegion := 0, rsvBad := false }] }) ({ fence := false, signal := true, op := 7, tag := 0, operand1 := 0, operand0 := 0, length := 8, remoteKey := 0, localOffset := 0, localRegion := 0, remoteOffset := 0, remoteRegion := 0, rsvBad := false }) [] rfl rfl (by decide) (by decide) (by decide) (by decide) (by decide) (by decide) (by decide) (by decide) rfl (by decide) (by decide),
   fun k => k ({ State.reset.onCfg (fun c => { c with gdp := { c.gdp with conns := [(0, conn0)], regions := [(0, { part := 0, tenant := 0, fn := 0, set := region0 })] } }) with gdp := { conns := [(0, { state := .open_ })] } }) ({ part := 0, prot := false, ackReq := true, dstConn := 0, incarnation := 0, path := 0, psn := 1, ts := 0, msn := 0, pidx := 0, chunk := 0, len := 8, region := 0, rkey := 0, msgLen := 8, offset := 0, ce := false, aad := [], ctr := 0, tag := [] }) (zeros 8) _ _ _ _ rfl (by decide) (by decide) rfl,
   fun k => k ({ State.reset.onCfg (fun c => { c with gdp := { c.gdp with conns := [(0, conn0)], regions := [(0, { part := 0, tenant := 0, fn := 0, set := region0 })] } }) with gdp := { conns := [(0, { state := .open_ })] } }) ({ part := 0, prot := false, ackReq := true, dstConn := 0, incarnation := 0, path := 0, psn := 1, ts := 0, msn := 0, pidx := 0, chunk := 0, len := 8, region := 0, rkey := 0, msgLen := 8, offset := 0, ce := false, aad := [], ctr := 0, tag := [] }) (zeros 16) [] _ _ _ _ rfl (by decide) (by decide) rfl (by decide),
   fun k => k ({ State.reset.onCfg (fun c => { c with gdp := { c.gdp with conns := [(0, conn0)], regions := [(0, { part := 0, tenant := 0, fn := 0, set := region0 })] } }) with gdp := { conns := [(0, { state := .open_, ops := [{ msn := 0, desc := { fence := false, signal := true, op := 2, tag := 0, operand1 := 0, operand0 := 0, length := 8, remoteKey := 0, localOffset := 0, localRegion := 0, remoteOffset := 0, remoteRegion := 0, rsvBad := false }, internal := false, status := 0 }] })] } }) ({ part := 0, prot := false, ackReq := true, dstConn := 0, incarnation := 0, path := 0, psn := 1, ts := 0, msn := 0, pidx := 0, chunk := 0, len := 8, region := 0, rkey := 0, msgLen := 8, offset := 0, ce := false, aad := [], ctr := 0, tag := [] }) (zeros 8) _ _ _ _ rfl (by decide) (by decide) (by decide) rfl,
   fun k => k ({ State.reset.onCfg (fun c => { c with gdp := { c.gdp with conns := [(0, conn0)], regions := [(0, { part := 0, tenant := 0, fn := 0, set := region0 })] } }) with gdp := { conns := [(0, { state := .open_ })] } }) ({ part := 0, prot := false, ackReq := true, dstConn := 0, incarnation := 0, path := 0, psn := 1, ts := 0, msn := 0, pidx := 0, chunk := 0, len := 8, region := 0, rkey := 0, msgLen := 8, offset := 0, ce := false, aad := [], ctr := 0, tag := [] }) (zeros 8) _ _ _ _ rfl (by decide) (by decide) rfl (by intro p o h; cases h) (by decide),
   fun k => k ({ (((State.reset.onCfg (fun c => { c with gdp := { c.gdp with conns := [(0, conn0)], regions := [(0, { part := 0, tenant := 0, fn := 0, set := { region0 with base := 0x400000000000 } })] } })).onTp 0 (fun t => { t with st := .active })).onCfg (fun c => { c with tp := { c.tp with outWin := [(0, tpWin0)] } })) with gdp := { conns := [(0, { state := .open_ })] } }) ({ part := 0, prot := false, ackReq := true, dstConn := 0, incarnation := 0, path := 0, psn := 1, ts := 0, msn := 0, pidx := 0, chunk := 0, len := 8, region := 0, rkey := 0, msgLen := 8, offset := 0, ce := false, aad := [], ctr := 0, tag := [] }) (zeros 16) _ _ _ _ _ _ _ rfl (by decide) (by decide) rfl rfl (by decide) rfl,
   fun k => k ({ (((State.reset.onCfg (fun c => { c with gdp := { c.gdp with conns := [(0, conn0)], regions := [(0, { part := 0, tenant := 0, fn := 0, set := { region0 with base := 0x400000000000 } })] } })).onTp 0 (fun t => { t with st := .active })).onCfg (fun c => { c with tp := { c.tp with outWin := [(0, tpWin0)] } })) with gdp := { conns := [(0, { state := .open_ })] } }) ({ part := 0, prot := false, ackReq := true, dstConn := 0, incarnation := 0, path := 0, psn := 1, ts := 0, msn := 0, pidx := 0, chunk := 0, len := 8, region := 0, rkey := 0, msgLen := 8, offset := 0, ce := false, aad := [], ctr := 0, tag := [] }) (zeros 16) _ _ _ _ _ _ _ rfl (by decide) (by decide) rfl rfl (by decide) rfl,
   fun k => k ({ State.reset.onCfg (fun c => { c with gdp := { c.gdp with conns := [(0, conn0)], regions := [(0, { part := 0, tenant := 0, fn := 0, set := region0 })] } }) with gdp := { conns := [(0, { state := .open_ })] } }) ({ part := 0, prot := false, ackReq := true, dstConn := 0, incarnation := 0, path := 0, psn := 1, ts := 0, msn := 0, pidx := 0, chunk := 0, len := 8, region := 0, rkey := 0, msgLen := 8, offset := 0, ce := false, aad := [], ctr := 0, tag := [] }) (zeros 16) _ _ _ _ rfl (by decide) (by decide) rfl (by intro p o h; cases h) (by decide)⟩

/-- States and operands that meet the hypotheses of each clause of `GdpEvents`, part 2: its hypotheses are not contradictory. -/
theorem witness_GdpEvents_2 :
    (¬ (∀ (s : State), ∀ (h : GdpHdr) (pay : List Byte) (c : ConnCfg) (d : List Byte) (e : State) (o : GdpOp),
        gdpData s h pay = .inl (c, d, e) →
        bitmapFree e c h 6 = true →
        (connOf (gdpSingle e h false) h.dstConn).ops.find? (fun o => o.msn == h.msn && (o.desc.op == 4 || o.desc.op == 5)) = some o →
        False))
    ∧ (¬ (∀ (s : State), ∀ (h : GdpHdr) (pay : List Byte) (c : ConnCfg) (d : List Byte) (e : State) (b : GdpRecv) (a : Nat),
        let r := gdpPlace e h.dstConn c 0 h.msn a (fit h.len d);
        gdpData s h pay = .inl (c, d, e) →
        bitmapFree e c h 7 = true →
        pressOwns e h.dstConn = false →
        tget (connOf e h.dstConn).recvs h.rkey = some b →
        msgStatus e h.dstConn 7 h.msn = .ok →
        h.offset + h.len ≤ b.length →
        regionUse e c b.region (b.offset + h.offset) h.len none (·.loc) = some a →
        False))
    ∧ (¬ (∀ (s : State), ∀ (h : GdpHdr) (b : GdpAckBody) (x : ConnCfg × List Byte) (e : State),
        gdpAdmit s h false [] = (some x, e) →
        False))
    ∧ (¬ (∀ (s : State), ∀ (h : GdpHdr) (localConn : Nat) (log2Payload : Nat) (alg : Nat) (prot : Bool) (x : ConnCfg × List Byte) (e : State),
        gdpAdmit s h false [] = (some x, e) →
        (connOf e h.dstConn).state = .connecting →
        localConn = x.1.blk.peerConn →
        log2Payload = x.1.blk.log2Payload →
        alg = x.1.blk.alg →
        prot = x.1.blk.prot →
        helloUnlike s h = false →
        False))
    ∧ (¬ (∀ (s : State), ∀ (h : GdpHdr) (x : ConnCfg × List Byte) (e : State),
        gdpAdmit s h false [] = (some x, e) →
        ((connOf e h.dstConn).state = .open_ ∨ (connOf e h.dstConn).state = .draining) →
        False))
    ∧ (¬ (∀ (s : State), ∀ (n : Nat) (c : ConnCfg) (g : GdpConn),
        connCfg s n = some c →
        tget s.gdp.conns n = some g →
        g.state = .connecting →
        False))
    ∧ (¬ (∀ (s : State), ∀ (n : Nat) (c : ConnCfg) (g : GdpConn),
        connCfg s n = some c →
        tget s.gdp.conns n = some g →
        g.state = .draining →
        1 ≤ g.closes →
        False))
    ∧ (¬ (∀ (s : State), ∀ (n : Nat) (g : GdpConn) (d : Nat),
        tget s.gdp.conns n = some g →
        g.ackDueAt = some d →
        False))
    ∧ (¬ (∀ (s : State), ∀ (n : Nat) (psn : Nat) (c : ConnCfg) (g : GdpConn) (x : GdpSent),
        connCfg s n = some c →
        tget s.gdp.conns n = some g →
        g.sent.find? (fun x => x.psn == psn) = some x →
        x.lost = false →
        x.at_ + rtoOf g x.retries ≤ s.clock.cadence →
        False))
    ∧ (¬ (∀ (s : State), ∀ (n : Nat) (g : GdpConn),
        tget s.gdp.conns n = some g →
        g.state ≠ .error →
        (g.state = .open_ → g.ops ≠ []) →
        False))
    ∧ (¬ (∀ (s : State), ∀ (n : Nat) (msn : Nat) (c : ConnCfg) (m : GdpMsg),
        connCfg s n = some c →
        (connOf s n).msgs.find? (sameMsg 1 msn) = some m →
        gdpWhole c m = true →
        m.writes = 0 →
        m.op ≠ 7 →
        False))
    ∧ (¬ (∀ (s : State), ∀ (n : Nat) (g : GdpConn),
        tget s.gdp.conns n = some g →
        g.paced = true →
        False)) :=
  ⟨fun k => k ({ State.reset.onCfg (fun c => { c with gdp := { c.gdp with conns := [(0, conn0)], regions := [(0, { part := 0, tenant := 0, fn := 0, set := region0 })] } }) with gdp := { conns := [(0, { state := .open_, ops := [{ msn := 0, desc := { fence := false, signal := true, op := 4, tag := 0, operand1 := 0, operand0 := 0, length := 8, remoteKey := 0, localOffset := 0, localRegion := 0, remoteOffset := 0, remoteRegion := 0, rsvBad := false }, internal := false, status := 0 }] })] } }) ({ part := 0, prot := false, ackReq := true, dstConn := 0, incarnation := 0, path := 0, psn := 1, ts := 0, msn := 0, pidx := 0, chunk := 0, len := 8, region := 0, rkey := 0, msgLen := 8, offset := 0, ce := false, aad := [], ctr := 0, tag := [] }) (zeros 8) _ _ _ _ rfl (by decide) rfl,
   fun k => k ({ State.reset.onCfg (fun c => { c with gdp := { c.gdp with conns := [(0, conn0)], regions := [(0, { part := 0, tenant := 0, fn := 0, set := region0 })] } }) with gdp := { conns := [(0, { state := .open_, recvs := [(0, { offset := 0, region := 0, length := 8, tag := 0 })] })] } }) ({ part := 0, prot := false, ackReq := true, dstConn := 0, incarnation := 0, path := 0, psn := 1, ts := 0, msn := 0, pidx := 0, chunk := 0, len := 8, region := 0, rkey := 0, msgLen := 8, offset := 0, ce := false, aad := [], ctr := 0, tag := [] }) (zeros 8) _ _ _ ({ offset := 0, region := 0, length := 8, tag := 0 }) _ rfl (by decide) (by decide) rfl (by decide) (by decide) rfl,
   fun k => k ({ State.reset.onCfg (fun c => { c with gdp := { c.gdp with conns := [(0, conn0)], regions := [(0, { part := 0, tenant := 0, fn := 0, set := region0 })] } }) with gdp := { conns := [(0, { state := .open_ })] } }) ({ part := 0, prot := false, ackReq := true, dstConn := 0, incarnation := 0, path := 0, psn := 1, ts := 0, msn := 0, pidx := 0, chunk := 0, len := 8, region := 0, rkey := 0, msgLen := 8, offset := 0, ce := false, aad := [], ctr := 0, tag := [] }) ({ cumPsn := 0, sackBase := 0, sacked := [], echoTs := 0, echoPath := 0, echoCe := false, ceCount := 0, comps := [] }) _ _ rfl,
   fun k => k ({ State.reset.onCfg (fun c => { c with gdp := { c.gdp with conns := [(0, conn0)], regions := [(0, { part := 0, tenant := 0, fn := 0, set := region0 })] } }) with gdp := { conns := [(0, {})] } }) ({ part := 0, prot := false, ackReq := true, dstConn := 0, incarnation := 0, path := 0, psn := 1, ts := 0, msn := 0, pidx := 0, chunk := 0, len := 8, region := 0, rkey := 0, msgLen := 8, offset := 0, ce := false, aad := [], ctr := 0, tag := [] }) 0 conn0.blk.log2Payload 0 false _ _ rfl (by decide) (by decide) (by decide) (by decide) (by decide) (by decide),
   fun k => k ({ State.reset.onCfg (fun c => { c with gdp := { c.gdp with conns := [(0, conn0)], regions := [(0, { part := 0, tenant := 0, fn := 0, set := region0 })] } }) with gdp := { conns := [(0, { state := .open_ })] } }) ({ part := 0, prot := false, ackReq := true, dstConn := 0, incarnation := 0, path := 0, psn := 1, ts := 0, msn := 0, pidx := 0, chunk := 0, len := 8, region := 0, rkey := 0, msgLen := 8, offset := 0, ce := false, aad := [], ctr := 0, tag := [] }) _ _ rfl (.inl (by decide)),
   fun k => k ({ State.reset.onCfg (fun c => { c with gdp := { c.gdp with conns := [(0, conn0)], regions := [(0, { part := 0, tenant := 0, fn := 0, set := region0 })] } }) with gdp := { conns := [(0, {})] } }) 0 conn0 ({}) rfl rfl (by decide),
   fun k => k ({ State.reset.onCfg (fun c => { c with gdp := { c.gdp with conns := [(0, conn0)], regions := [(0, { part := 0, tenant := 0, fn := 0, set := region0 })] } }) with gdp := { conns := [(0, { state := .draining, closes := 1 })] } }) 0 conn0 ({ state := .draining, closes := 1 }) rfl rfl (by decide) (by decide),
   fun k => k ({ State.reset.onCfg (fun c => { c with gdp := { c.gdp with conns := [(0, conn0)], regions := [(0, { part := 0, tenant := 0, fn := 0, set := region0 })] } }) with gdp := { conns := [(0, { state := .open_, ackDueAt := some 0 })] } }) 0 ({ state := .open_, ackDueAt := some 0 }) 0 rfl rfl,
   fun k => k (({ State.reset.onCfg (fun c => { c with gdp := { c.gdp with conns := [(0, conn0)], regions := [(0, { part := 0, tenant := 0, fn := 0, set := region0 })] } }) with gdp := { conns := [(0, { state := .open_, sent := [{ psn := 1, op := 1, msn := 0, chunk := 0, pidx := 0, region := 0, rkey := 0, msgLen := 8, offset := 0, payload := [], path := 0, ts := 0, at_ := 0, order := 0, laterAcked := 0, retries := 0, lost := false }] })] } }).onClock (fun c => { c with cadence := 10000000000 })) 0 1 conn0 ({ state := .open_, sent := [{ psn := 1, op := 1, msn := 0, chunk := 0, pidx := 0, region := 0, rkey := 0, msgLen := 8, offset := 0, payload := [], path := 0, ts := 0, at_ := 0, order := 0, laterAcked := 0, retries := 0, lost := false }] }) ({ psn := 1, op := 1, msn := 0, chunk := 0, pidx := 0, region := 0, rkey := 0, msgLen := 8, offset := 0, payload := [], path := 0, ts := 0, at_ := 0, order := 0, laterAcked := 0, retries := 0, lost := false }) rfl rfl rfl (by decide) (by decide),
   fun k => k ({ State.reset.onCfg (fun c => { c with gdp := { c.gdp with conns := [(0, conn0)], regions := [(0, { part := 0, tenant := 0, fn := 0, set := region0 })] } }) with gdp := { conns := [(0, { state := .draining })] } }) 0 ({ state := .draining }) rfl (by decide) (by intro h; cases h),
   fun k => k ({ State.reset.onCfg (fun c => { c with gdp := { c.gdp with conns := [(0, conn0)], regions := [(0, { part := 0, tenant := 0, fn := 0, set := region0 })] } }) with gdp := { conns := [(0, { state := .open_, msgs := [{ msn := 0, op := 1, msgLen := 8, ssn := 0, chunks := [(0, 1)], status := .ok, writes := 0 }] })] } }) 0 0 conn0 ({ msn := 0, op := 1, msgLen := 8, ssn := 0, chunks := [(0, 1)], status := .ok, writes := 0 }) rfl rfl (by decide) (by decide) (by decide),
   fun k => k ({ State.reset.onCfg (fun c => { c with gdp := { c.gdp with conns := [(0, conn0)], regions := [(0, { part := 0, tenant := 0, fn := 0, set := region0 })] } }) with gdp := { conns := [(0, { paced := true })] } }) 0 ({ paced := true }) rfl (by decide)⟩

/-- States and operands that meet the hypotheses of each clause of `PressEvents`: its hypotheses are not contradictory. -/
theorem witness_PressEvents :
    (¬ (∀ (s : State), ∀ (m : PressMsg) (j : PressJob) (o : PressOp),
        tget s.press.jobs m.job = some j →
        j.op = some o →
        m.magicOk = true →
        j.arm.peers.contains m.conn = true →
        m.step = o.step →
        m.generation = o.generation →
        False))
    ∧ (¬ (∀ (s : State), ∀ (m : PressMsg) (j : PressJob) (o : PressOp),
        tget s.press.jobs m.job = some j →
        j.op = some o →
        m.magicOk = true →
        j.arm.peers.contains m.conn = true →
        m.step = o.step →
        m.generation = o.generation →
        False))
    ∧ (¬ (∀ (s : State), ∀ (m : PressMsg) (j : PressJob) (o : PressOp),
        tget s.press.jobs m.job = some j →
        j.op = some o →
        m.magicOk = true →
        j.arm.peers.contains m.conn = true →
        m.step = o.step →
        m.generation = o.generation →
        False))
    ∧ (¬ (∀ (s : State), ∀ (m : PressMsg) (j : PressJob) (o : PressOp),
        tget s.press.jobs m.job = some j →
        j.op = some o →
        m.magicOk = true →
        j.arm.peers.contains m.conn = true →
        m.step = o.step →
        m.generation = o.generation →
        o.stage ≠ .flush →
        False))
    ∧ (¬ (∀ (s : State), ∀ (jn : Nat) (j : PressJob) (o : PressOp) ,
        tget s.press.jobs jn = some j →
        j.op = some o →
        o.stage = .drain →
        o.sentDrained = false →
        pressDrained s j o = true →
        False))
    ∧ (¬ (∀ (s : State), ∀ (jn : Nat) (data : List (List Byte)) (j : PressJob) (o : PressOp) ,
        tget s.press.jobs jn = some j →
        j.op = some o →
        o.stage = .copy →
        o.copying = false →
        o.restore = true →
        False))
    ∧ (¬ (∀ (s : State), ∀ (jn : Nat) (data : List (List Byte)) (j : PressJob) (o : PressOp) ,
        tget s.press.jobs jn = some j →
        j.op = some o →
        o.stage = .copy →
        o.copying = false →
        o.restore = false →
        False))
    ∧ (¬ (∀ (s : State), ∀ (jn : Nat) (crcs : List Nat) (manifestOk : Bool) (j : PressJob) (o : PressOp) ,
        tget s.press.jobs jn = some j →
        j.op = some o →
        o.stage = .verify →
        o.restore = true →
        lowestBad o.manifest.regions (o.manifest.regions.map (·.crc)) crcs = none →
        False))
    ∧ (¬ (∀ (s : State), ∀ (jn : Nat) (crcs : List Nat) (j : PressJob) (o : PressOp) ,
        let a := (stageWrite (stageWrite s j.arm 42 [1]) j.arm 52 (le 4 0xFFFFFFFF)).onJob jn (fun j => { j with generation := modAdd 64 j.generation 1 });
        let b := pressRecord a jn 5 0;
        tget s.press.jobs jn = some j →
        j.op = some o →
        o.stage = .verify →
        o.restore = false →
        lowestBad j.arm.regions o.crcs crcs = none →
        False))
    ∧ (¬ (∀ (s : State), ∀ (jn : Nat) (st : Status) (j : PressJob) (o : PressOp) ,
        let st2 := if j.arm.flushKind == 1 && !thas s.cfg.stor.volumes j.arm.flushTarget then .volumeUnknown else st;
        let a := pressRecord s jn 7 st2.code;
        tget s.press.jobs jn = some j →
        j.op = some o →
        o.stage = .flush →
        False))
    ∧ (¬ (∀ (s : State), ∀ (jn : Nat) (j : PressJob) (o : PressOp),
        tget s.press.jobs jn = some j →
        j.op = some o →
        (o.stage = .set ∨ o.stage = .drain) →
        False))
    ∧ (¬ (∀ (s : State), ∀ (jn : Nat) (j : PressJob) (o : PressOp) ,
        tget s.press.jobs jn = some j →
        j.op = some o →
        o.stage = .release →
        False)) :=
  ⟨fun k => k ({ State.reset with press := { jobs := [(0, { arm := { arm0 with peers := [5] }, generation := 1, op := some ({ (default : PressOp) with restore := false, cmd := none, step := 3, generation := 1, stage := .set }) })] } }) ({ conn := 5, magicOk := true, job := 0, step := 3, generation := 1, status := 1 }) ({ arm := { arm0 with peers := [5] }, generation := 1, op := some ({ (default : PressOp) with restore := false, cmd := none, step := 3, generation := 1, stage := .set }) }) ({ (default : PressOp) with restore := false, cmd := none, step := 3, generation := 1, stage := .set }) rfl rfl (by decide) (by decide) (by decide) (by decide),
   fun k => k ({ State.reset with press := { jobs := [(0, { arm := { arm0 with peers := [5] }, generation := 1, op := some ({ (default : PressOp) with restore := false, cmd := none, step := 3, generation := 1, stage := .set }) })] } }) ({ conn := 5, magicOk := true, job := 0, step := 3, generation := 1, status := 1 }) ({ arm := { arm0 with peers := [5] }, generation := 1, op := some ({ (default : PressOp) with restore := false, cmd := none, step := 3, generation := 1, stage := .set }) }) ({ (default : PressOp) with restore := false, cmd := none, step := 3, generation := 1, stage := .set }) rfl rfl (by decide) (by decide) (by decide) (by decide),
   fun k => k ({ State.reset with press := { jobs := [(0, { arm := { arm0 with peers := [5] }, generation := 1, op := some ({ (default : PressOp) with restore := false, cmd := none, step := 3, generation := 1, stage := .set }) })] } }) ({ conn := 5, magicOk := true, job := 0, step := 3, generation := 1, status := 1 }) ({ arm := { arm0 with peers := [5] }, generation := 1, op := some ({ (default : PressOp) with restore := false, cmd := none, step := 3, generation := 1, stage := .set }) }) ({ (default : PressOp) with restore := false, cmd := none, step := 3, generation := 1, stage := .set }) rfl rfl (by decide) (by decide) (by decide) (by decide),
   fun k => k ({ State.reset with press := { jobs := [(0, { arm := { arm0 with peers := [5] }, generation := 1, op := some ({ (default : PressOp) with restore := false, cmd := none, step := 3, generation := 1, stage := .set }) })] } }) ({ conn := 5, magicOk := true, job := 0, step := 3, generation := 1, status := 1 }) ({ arm := { arm0 with peers := [5] }, generation := 1, op := some ({ (default : PressOp) with restore := false, cmd := none, step := 3, generation := 1, stage := .set }) }) ({ (default : PressOp) with restore := false, cmd := none, step := 3, generation := 1, stage := .set }) rfl rfl (by decide) (by decide) (by decide) (by decide) (by decide),
   fun k => k ({ State.reset with press := { jobs := [(0, { arm := { arm0 with peers := [5] }, generation := 1, op := some ({ (default : PressOp) with restore := false, cmd := none, step := 3, generation := 1, stage := .drain }) })] } }) 0 ({ arm := { arm0 with peers := [5] }, generation := 1, op := some ({ (default : PressOp) with restore := false, cmd := none, step := 3, generation := 1, stage := .drain }) }) ({ (default : PressOp) with restore := false, cmd := none, step := 3, generation := 1, stage := .drain }) rfl rfl (by decide) (by decide) (by decide),
   fun k => k ({ State.reset with press := { jobs := [(0, { arm := { arm0 with peers := [5] }, generation := 1, op := some ({ (default : PressOp) with restore := true, cmd := none, step := 3, generation := 1, stage := .copy }) })] } }) 0 [[1]] ({ arm := { arm0 with peers := [5] }, generation := 1, op := some ({ (default : PressOp) with restore := true, cmd := none, step := 3, generation := 1, stage := .copy }) }) ({ (default : PressOp) with restore := true, cmd := none, step := 3, generation := 1, stage := .copy }) rfl rfl (by decide) (by decide) (by decide),
   fun k => k ({ State.reset with press := { jobs := [(0, { arm := { arm0 with peers := [5] }, generation := 1, op := some ({ (default : PressOp) with restore := false, cmd := none, step := 3, generation := 1, stage := .copy }) })] } }) 0 [[1]] ({ arm := { arm0 with peers := [5] }, generation := 1, op := some ({ (default : PressOp) with restore := false, cmd := none, step := 3, generation := 1, stage := .copy }) }) ({ (default : PressOp) with restore := false, cmd := none, step := 3, generation := 1, stage := .copy }) rfl rfl (by decide) (by decide) (by decide),
   fun k => k ({ State.reset with press := { jobs := [(0, { arm := { arm0 with peers := [5] }, generation := 1, op := some ({ (default : PressOp) with restore := true, cmd := none, step := 3, generation := 1, stage := .verify }) })] } }) 0 [] true ({ arm := { arm0 with peers := [5] }, generation := 1, op := some ({ (default : PressOp) with restore := true, cmd := none, step := 3, generation := 1, stage := .verify }) }) ({ (default : PressOp) with restore := true, cmd := none, step := 3, generation := 1, stage := .verify }) rfl rfl (by decide) (by decide) rfl,
   fun k => k ({ State.reset with press := { jobs := [(0, { arm := { arm0 with peers := [5] }, generation := 1, op := some ({ (default : PressOp) with restore := false, cmd := none, step := 3, generation := 1, stage := .verify, crcs := [9] }) })] } }) 0 [9] ({ arm := { arm0 with peers := [5] }, generation := 1, op := some ({ (default : PressOp) with restore := false, cmd := none, step := 3, generation := 1, stage := .verify, crcs := [9] }) }) ({ (default : PressOp) with restore := false, cmd := none, step := 3, generation := 1, stage := .verify, crcs := [9] }) rfl rfl (by decide) (by decide) rfl,
   fun k => k ({ State.reset with press := { jobs := [(0, { arm := { arm0 with peers := [5] }, generation := 1, op := some ({ (default : PressOp) with restore := false, cmd := none, step := 3, generation := 1, stage := .flush }) })] } }) 0 .ok ({ arm := { arm0 with peers := [5] }, generation := 1, op := some ({ (default : PressOp) with restore := false, cmd := none, step := 3, generation := 1, stage := .flush }) }) ({ (default : PressOp) with restore := false, cmd := none, step := 3, generation := 1, stage := .flush }) rfl rfl (by decide),
   fun k => k ({ State.reset with press := { jobs := [(0, { arm := { arm0 with peers := [5] }, generation := 1, op := some ({ (default : PressOp) with restore := false, cmd := none, step := 3, generation := 1, stage := .drain }) })] } }) 0 ({ arm := { arm0 with peers := [5] }, generation := 1, op := some ({ (default : PressOp) with restore := false, cmd := none, step := 3, generation := 1, stage := .drain }) }) ({ (default : PressOp) with restore := false, cmd := none, step := 3, generation := 1, stage := .drain }) rfl rfl (.inr (by decide)),
   fun k => k ({ State.reset with press := { jobs := [(0, { arm := { arm0 with peers := [5] }, generation := 1, op := some ({ (default : PressOp) with restore := false, cmd := none, step := 3, generation := 1, stage := .release }) })] } }) 0 ({ arm := { arm0 with peers := [5] }, generation := 1, op := some ({ (default : PressOp) with restore := false, cmd := none, step := 3, generation := 1, stage := .release }) }) ({ (default : PressOp) with restore := false, cmd := none, step := 3, generation := 1, stage := .release }) rfl rfl (by decide)⟩

/-- States and operands that meet the hypotheses of each clause of `MoverAndCodecEvents`: its hypotheses are not contradictory. -/
theorem witness_MoverAndCodecEvents :
    (¬ (∀ (s : State), ∀ (engine : Nat) (p q : Nat) (m : MvQueue) (d : MvDesc) (ds : List MvDesc),
        let e := tgetD s.mover.engines engine {};
        let qs := (s.mover.queues.filter (fun x => moverEligible s x.1 x.2)).map (fun x => (x.1, x.2.own.part));
        let parts := ((List.range 16).filter (fun p => qs.any (fun x => x.2 == p) && (!s.fixedMode || p == engine)));
        let a := (s.onMvq q (fun m => { m with waiting := ds })).onMover (fun x => { x with
            lastQueue := tset x.lastQueue p q
            engines := tupd x.engines engine {} (fun e => { e with lastPart := p }) });
        let r : MvRun := { queue := q, desc := d, staged := stagedCopy d, epoch := epochAt a p 141, serial := a.mover.nextSerial };
        let b := a.onMover (fun x => { x with
            nextSerial := x.nextSerial + 1
            engines := tupd x.engines engine {} (fun e => { e with runs := e.runs ++ [r] }) });
        let f := if stagedCopy d then b.onMvq q (fun m => { m with counts := bump m.counts 2 }) else b;
        firstAfter parts e.lastPart = some p →
        firstAfter ((qs.filter (fun x => x.2 == p)).map (·.1)) (tgetD s.mover.lastQueue p 1024) = some q →
        e.runs.length < 4 →
        quarantined s 141 = false →
        tget s.mover.queues q = some m →
        m.waiting = d :: ds →
        moverChecks d = none →
        False))
    ∧ (¬ (∀ (s : State), ∀ (engine : Nat) (i : Nat) (ext : List Byte) (srcFail : Option (Status × Nat)) (r : MvRun) (m : MvQueue),
        let d := r.desc;
        let w := runActor s m r;
        let dstRows := rowsOf d.dst d.dstPitchZ d.dstPitchY d.y d.z;
        let rd : Status × Nat × List (List Byte) × State :=
          if d.op == 2 then (.ok, 0, dstRows.map (fun _ => fillRow d.src d.x), s)
          else match r.fail, srcFail with
            | some f, _ => (f.1, f.2.1, [], s)
            | none, some f => (f.1, f.2, [], s)
            | none, none => readRows s (moverMaster engine) w d.srcHost d.x ext r.got (rowsOf d.src d.srcPitchZ d.srcPitchY d.y d.z);
        let wr := writeRows rd.2.2.2 (moverMaster engine) w engine r.serial m.own d.dstHost (roOf s m.own.fn d.roHint) (dstRows.zip rd.2.2.1);
        let x : MvRun := { r with
            moved := true
            writes := wr.2.2.2
            got := []
            fail := if wr.1 == .ok then none else some (wr.1, wr.2.1, true) };
        (tgetD s.mover.engines engine {}).runs[i]? = some r →
        tget s.mover.queues r.queue = some m →
        r.moved = false →
        (0 < r.reads → r.fail.isSome = true) →
        bufferBusy (tgetD s.mover.engines engine {}) r = false →
        rd.1 = .ok →
        False))
    ∧ (¬ (∀ (s : State), ∀ (n : Nat) (x : Stream) (d : CdDesc) (ds : List CdDesc),
        let a := s.onStream n (fun x => { x with waiting := ds });
        let p : Picture := { stream := n, desc := d, epoch := epochAt a x.own.part (142 + n / 256), buf := if d.typ == 3 then some d.buf else none, chunk := none, ready := false, order := 0, waitFrom := 0 };
        let e := a.onStream n (fun x => { x with
            pics := x.pics ++ [p]
            bufs := if d.typ == 3 then tmod x.bufs d.buf (fun b => { b with held := true, busy := true }) else x.bufs });
        tget s.codec.streams n = some x →
        x.waiting = d :: ds →
        quarantined s (142 + n / 256) = false →
        d.rsvBad = false →
        (match d.typ with
          | 1 => x.own.blk.dir = 0 ∧ d.length ≠ 0 ∧ d.length ≤ 268435456
          | 3 => x.own.blk.dir ≠ 0 ∧ thas x.bufs d.buf = true
          | 5 => True
          | _ => False) →
        False))
    ∧ (¬ (∀ (s : State), ∀ (n : Nat) (x : Stream) (d : CdDesc) (ds : List CdDesc),
        let a := s.onStream n (fun x => { x with waiting := ds });
        tget s.codec.streams n = some x →
        x.waiting = d :: ds →
        quarantined s (142 + n / 256) = false →
        d.rsvBad = false →
        d.typ = 4 →
        x.own.blk.dir ≠ 0 →
        d.length ≠ 0 →
        d.length ≤ 268435456 →
        False))
    ∧ (¬ (∀ (s : State), ∀ (n : Nat) (x : Stream) (d : CdDesc) (ds : List CdDesc),
        let a := s.onStream n (fun x => { x with waiting := ds });
        tget s.codec.streams n = some x →
        x.waiting = d :: ds →
        quarantined s (142 + n / 256) = false →
        d.rsvBad = false →
        d.typ = 2 →
        x.own.blk.dir = 0 →
        thas x.bufs d.buf = true →
        False))
    ∧ (¬ (∀ (s : State), ∀ (i : Nat) (e : Stream × Picture),
        (instOf s i).running = none →
        quarantined s (142 + i) = false →
        bestPic s (grantable s i) = some e →
        False))
    ∧ (¬ (∀ (s : State), ∀ (i : Nat) (n : Nat) (y : Stream) (p : Picture) (ps : List Picture) (e : Stream × Picture),
        (instOf s i).running = some n →
        tget s.codec.streams n = some y →
        y.pics = p :: ps →
        (instCfg s.cfg i).exclusive = false →
        bestPic s ((grantable s i).filter (fun e => e.2.stream != n)) = some e →
        effPriority s y p (instOf s i).grantedAt < effPriority s e.1 e.2 s.clock.cadence →
        False))
    ∧ (¬ (∀ (s : State), ∀ (i : Nat) (r : CdResult) (n : Nat) (y : Stream) (p : Picture) (ps : List Picture),
        (instOf s i).running = some n →
        tget s.codec.streams n = some y →
        y.pics = p :: ps →
        False))
    ∧ (¬ (∀ (s : State), ∀ (i : Nat) (n : Nat) (y : Stream) (p : Picture) (ps : List Picture),
        let w : Actor := { part := y.own.part, tenant := y.own.tenant, priv := false, cfg := cfgOf s y.own.part p.epoch };
        let dec := y.own.blk.dir == 0;
        let k := p.buf.getD 0;
        let a := match tget y.bufs k with
          | some b => if dec && p.desc.typ == 1 then (planes y.own.blk b.luma b.chroma b.pitch).foldl (fun s x => spoilRows s w x.2 false [x.1]) s else s
          | none => s;
        let c := (codecTakeOff a i n).onStream n (fun y => { y with bufs := tmod y.bufs k (fun b => { b with busy := false, noRef := dec, held := dec }), forceKey := y.forceKey || !dec });
        (instOf s i).running = some n →
        tget s.codec.streams n = some y →
        y.pics = p :: ps →
        False))
    ∧ (¬ (∀ (s : State), ∀ (i : Nat),
        s.fixedMode = true →
        False))
    ∧ (¬ (∀ (s : State), ∀ (i : Nat),
        (instCfg s.cfg i).exclusive = true →
        (instOf s i).running = none →
        grantable s i = [] →
        False)) :=
  ⟨fun k => k (State.reset.onMover (fun x => { x with queues := [(0, { own := mover0, waiting := [{ (default : MvDesc) with src := 0, dst := 4096, x := 64, y := 1, z := 1, op := 1, dims := 1 }] })] })) 0 0 0 ({ own := mover0, waiting := [{ (default : MvDesc) with src := 0, dst := 4096, x := 64, y := 1, z := 1, op := 1, dims := 1 }] }) ({ (default : MvDesc) with src := 0, dst := 4096, x := 64, y := 1, z := 1, op := 1, dims := 1 }) [] rfl rfl (by decide) (by decide) rfl (by decide) rfl,
   fun k => k (State.reset.onMover (fun x => { x with queues := [(0, { own := mover0 })], engines := [(0, { runs := [{ queue := 0, desc := { (default : MvDesc) with src := 0, dst := 4096, x := 64, y := 1, z := 1, op := 1, dims := 1 }, staged := false, epoch := 1, serial := 0 }] })] })) 0 0 [] none ({ queue := 0, desc := { (default : MvDesc) with src := 0, dst := 4096, x := 64, y := 1, z := 1, op := 1, dims := 1 }, staged := false, epoch := 1, serial := 0 }) ({ own := mover0 }) rfl rfl (by decide) (by intro h; cases h) (by decide) (by decide),
   fun k => k (State.reset.onCodec (fun c => { c with streams := [(0, { own := stream0, waiting := [{ (default : CdDesc) with typ := 1, length := 100 }] })] })) 0 ({ own := stream0, waiting := [{ (default : CdDesc) with typ := 1, length := 100 }] }) ({ (default : CdDesc) with typ := 1, length := 100 }) [] rfl (by decide) (by decide) (by decide) ⟨rfl, by decide, by decide⟩,
   fun k => k (State.reset.onCodec (fun c => { c with streams := [(0, { own := { stream0 with blk := { codec0 with dir := 1 } }, waiting := [{ (default : CdDesc) with typ := 4, length := 268435456 }] })] })) 0 ({ own := { stream0 with blk := { codec0 with dir := 1 } }, waiting := [{ (default : CdDesc) with typ := 4, length := 268435456 }] }) ({ (default : CdDesc) with typ := 4, length := 268435456 }) [] rfl (by decide) (by decide) (by decide) (by decide) (by decide) (by decide) (by decide),
   fun k => k (State.reset.onCodec (fun c => { c with streams := [(0, { own := stream0, bufs := [(31, { (default : PicBuf) with pitch := 64 })], waiting := [{ (default : CdDesc) with typ := 2, length := 100, buf := 31 }] })] })) 0 ({ own := stream0, bufs := [(31, { (default : PicBuf) with pitch := 64 })], waiting := [{ (default : CdDesc) with typ := 2, length := 100, buf := 31 }] }) ({ (default : CdDesc) with typ := 2, length := 100, buf := 31 }) [] rfl (by decide) (by decide) (by decide) (by decide) (by decide) (by decide),
   fun k => k (State.reset.onCodec (fun c => { c with streams := [(0, { own := stream0, pics := [{ (default : Picture) with stream := 0, desc := { (default : CdDesc) with typ := 1, length := 100 }, epoch := 1, ready := true }] })] })) 0 _ rfl (by decide) rfl,
   fun k => k (State.reset.onCodec (fun c => { c with streams := [(0, { own := { stream0 with blk := { codec0 with priority := 0 } }, pics := [{ (default : Picture) with stream := 0, desc := { (default : CdDesc) with typ := 1, length := 100 }, epoch := 1, ready := true }] }), (1, { own := { stream0 with blk := { codec0 with priority := 3 } }, pics := [{ (default : Picture) with stream := 1, desc := { (default : CdDesc) with typ := 1, length := 100 }, epoch := 1, ready := true }] })], insts := [(0, { running := some 0 })] })) 0 0 ({ own := { stream0 with blk := { codec0 with priority := 0 } }, pics := [{ (default : Picture) with stream := 0, desc := { (default : CdDesc) with typ := 1, length := 100 }, epoch := 1, ready := true }] }) ({ (default : Picture) with stream := 0, desc := { (default : CdDesc) with typ := 1, length := 100 }, epoch := 1, ready := true }) [] _ rfl rfl (by decide) (by decide) rfl (by decide),
   fun k => k (State.reset.onCodec (fun c => { c with streams := [(0, { own := stream0, pics := [{ (default : Picture) with stream := 0, desc := { (default : CdDesc) with typ := 1, length := 100 }, epoch := 1, ready := true }] })], insts := [(0, { running := some 0 })] })) 0 default 0 ({ own := stream0, pics := [{ (default : Picture) with stream := 0, desc := { (default : CdDesc) with typ := 1, length := 100 }, epoch := 1, ready := true }] }) ({ (default : Picture) with stream := 0, desc := { (default : CdDesc) with typ := 1, length := 100 }, epoch := 1, ready := true }) [] rfl rfl (by decide),
   fun k => k (State.reset.onCodec (fun c => { c with streams := [(0, { own := stream0, pics := [{ (default : Picture) with stream := 0, desc := { (default : CdDesc) with typ := 1, length := 100 }, epoch := 1, ready := true }] })], insts := [(0, { running := some 0 })] })) 0 0 ({ own := stream0, pics := [{ (default : Picture) with stream := 0, desc := { (default : CdDesc) with typ := 1, length := 100 }, epoch := 1, ready := true }] }) ({ (default : Picture) with stream := 0, desc := { (default : CdDesc) with typ := 1, length := 100 }, epoch := 1, ready := true }) [] rfl rfl (by decide),
   fun k => k State.reset 1 (by decide),
   fun k => k (State.reset.onCfg (fun c => { c with codec := { c.codec with insts := [(0, { exclusive := true })] } })) 0 (by decide) rfl (by decide)⟩

/-- States and operands that meet the hypotheses of each clause of `StorageEvents`, part 1: its hypotheses are not contradictory. -/
theorem witness_StorageEvents_1 :
    (¬ (∀ (s : State), ∀ (q : Nat) (ext : List Byte) (fail : Nat) (x0 : StQueue) (d : StDesc) (ds : List StDesc) (v : VolumeCfg),
        let vols := (cfgOf s x0.own.part (epochAt s x0.own.part 144)).stor.volumes;
        tget s.stor.queues q = some x0 →
        x0.waiting = d :: ds →
        quarantined s 144 = false →
        (d.fence = true → x0.runs = []) →
        x0.runs.length < 64 →
        storChecks s vols x0.own.part (fun _ => x0.own.tenant) (x0.own.q.bounceCells != 0) d = none →
        tget vols d.volume = some v →
        False))
    ∧ (¬ (∀ (s : State), ∀ (drive : Nat) (id : Nat) (nvme : Nat) (ext : List Byte) (fail : Nat) (c : DriveCmd),
        let e := cmdEnd (onCmds s 0 drive (fun cs => cs.filter (fun x => x.id != id))) c (if c.aborted then 11 else if nvme == 0 then 0 else 10) nvme [];
        driveCmdOf s drive id = some c →
        False))
    ∧ (¬ (∀ (s : State), ∀ (drive : Nat) (id : Nat) (c : DriveCmd),
        driveCmdOf s drive id = some c →
        c.aborted = false →
        False))
    ∧ (¬ (∀ (s : State), ∀ (drive : Nat) (id : Nat) (c : DriveCmd),
        let a := s.onDrive drive (fun d => { d with st := .resetting, resets := modAdd 64 d.resets 1 });
        let cause := draw (backingEnd (a.send (.driveReset drive)) 0 drive (fun c => if c.aborted then 11 else 12) 12);
        driveCmdOf s drive id = some c →
        c.aborted = true →
        False))
    ∧ (¬ (∀ (s : State), ∀ (drive : Nat),
        (tgetD s.stor.drives drive {}).st = .resetting →
        False))
    ∧ (¬ (∀ (s : State), ∀ (drive : Nat),
        False))
    ∧ (¬ (∀ (s : State), ∀ (drive : Nat) (i : DriveInfo),
        let d := tgetD s.stor.drives drive {};
        let e := driveEvent (s.onDrive drive (fun d => { d with st := .up, serial := i.serial, mdts := i.mdts, spaces := usedSpaces i.spaces, cmds := [] })) drive 0;
        ingress s = true →
        driveLink s.cfg drive = true →
        d.st ≠ .up →
        d.st ≠ .resetting →
        i.supported = true →
        False))
    ∧ (¬ (∀ (s : State), ∀ (drive : Nat) (id : Nat) (off : Nat) (len : Nat) (data : List Byte) (c : DriveCmd) (a b : Nat),
        (tgetD s.stor.drives drive {}).st = .up →
        driveCmdOf s drive id = some c →
        c.use = .tcp a b →
        off + len ≤ c.data.length →
        False))
    ∧ (¬ (∀ (s : State), ∀ (drive : Nat) (id : Nat) (off : Nat) (len : Nat) (data : List Byte) (c : DriveCmd) (a b : Nat),
        (tgetD s.stor.drives drive {}).st = .up →
        driveCmdOf s drive id = some c →
        c.use = .queue a b →
        ((bufsAt c.bufs off len).map (·.2)).sum = len →
        False))
    ∧ (¬ (∀ (s : State), ∀ (drive : Nat) (id : Nat) (off : Nat) (len : Nat) (data : List Byte) (c : DriveCmd) (a b : Nat),
        (tgetD s.stor.drives drive {}).st = .up →
        driveCmdOf s drive id = some c →
        c.use = .queue a b →
        ((bufsAt c.bufs off len).map (·.2)).sum = len →
        (c.host = true → data ≠ []) →
        False))
    ∧ (¬ (∀ (s : State), ∀ (drive : Nat) (bits : Nat),
        (tgetD s.stor.drives drive {}).st = .up →
        False))
    ∧ (¬ (∀ (s : State), ∀ (n : Nat) (x : Volume) (v : VolumeCfg),
        tget s.stor.volumes n = some x →
        live s (·.stor.volumes) n = some v →
        x.st = .creating →
        x.dead = false →
        (if v.v.backing == 0 then (tgetD s.stor.drives v.v.source {}).st == .up else (tgetD s.stor.inits v.v.source {}).up) = true →
        False)) :=
  ⟨fun k => k ((State.reset.onCfg (fun c => { c with stor := { c.stor with volumes := [(0, volume0)] } })).onStor (fun x => { x with queues := [(0, { own := mover0, waiting := [{ (default : StDesc) with volume := 0, op := 1, bufAddr := 4096 }] })], volumes := [(0, { st := .ready })] })) 0 [] 0 ({ own := mover0, waiting := [{ (default : StDesc) with volume := 0, op := 1, bufAddr := 4096 }] }) ({ (default : StDesc) with volume := 0, op := 1, bufAddr := 4096 }) [] volume0 rfl (by decide) (by decide) (by decide) (by decide) rfl rfl,
   fun k => k (State.reset.onStor (fun x => { x with drives := [(0, { st := .up, cmds := [{ (default : DriveCmd) with id := 3, use := .queue 0 0 }] })] })) 0 3 0 [] 0 ({ (default : DriveCmd) with id := 3, use := .queue 0 0 }) rfl,
   fun k => k (State.reset.onStor (fun x => { x with drives := [(0, { st := .up, cmds := [{ (default : DriveCmd) with id := 3, use := .queue 0 0 }] })] })) 0 3 ({ (default : DriveCmd) with id := 3, use := .queue 0 0 }) rfl (by decide),
   fun k => k (State.reset.onStor (fun x => { x with drives := [(0, { st := .up, cmds := [{ (default : DriveCmd) with id := 3, use := .queue 0 0, aborted := true }] })] })) 0 3 ({ (default : DriveCmd) with id := 3, use := .queue 0 0, aborted := true }) rfl (by decide),
   fun k => k (State.reset.onStor (fun x => { x with drives := [(0, { st := .resetting, cmds := [{ (default : DriveCmd) with id := 3, use := .queue 0 0 }] })] })) 0 (by decide),
   fun k => k State.reset 3 ,
   fun k => k State.reset 2 ({ supported := true, serial := 1, mdts := 4096, spaces := [] }) (by decide) (by decide) (by decide) (by decide) (by decide),
   fun k => k (State.reset.onStor (fun x => { x with drives := [(0, { st := .up, cmds := [{ (default : DriveCmd) with id := 3, use := .tcp 0 0, data := [1, 2] }] })] })) 0 3 0 2 [] ({ (default : DriveCmd) with id := 3, use := .tcp 0 0, data := [1, 2] }) 0 0 (by decide) rfl (by decide) (by decide),
   fun k => k (State.reset.onStor (fun x => { x with drives := [(0, { st := .up, cmds := [{ (default : DriveCmd) with id := 3, use := .queue 0 0, bufs := [(4096, 8)] }] })] })) 0 3 0 8 [] ({ (default : DriveCmd) with id := 3, use := .queue 0 0, bufs := [(4096, 8)] }) 0 0 (by decide) rfl (by decide) (by decide),
   fun k => k (State.reset.onStor (fun x => { x with drives := [(0, { st := .up, cmds := [{ (default : DriveCmd) with id := 3, use := .queue 0 0, bufs := [(4096, 8)], host := false }] })] })) 0 3 0 8 [] ({ (default : DriveCmd) with id := 3, use := .queue 0 0, bufs := [(4096, 8)], host := false }) 0 0 (by decide) rfl (by decide) (by decide) (by decide),
   fun k => k (State.reset.onStor (fun x => { x with drives := [(0, { st := .up, cmds := [{ (default : DriveCmd) with id := 3, use := .queue 0 0 }] })] })) 0 3 (by decide),
   fun k => k ((State.reset.onCfg (fun c => { c with stor := { c.stor with volumes := [(0, volume0)] } })).onStor (fun x => { x with volumes := [(0, {})], drives := [(0, { st := .up })] })) 0 ({}) volume0 rfl rfl (by decide) (by decide) (by decide)⟩

/-- States and operands that meet the hypotheses of each clause of `StorageEvents`, part 2: its hypotheses are not contradictory. -/
theorem witness_StorageEvents_2 :
    (¬ (∀ (s : State), ∀ (part : Nat) (lport : Nat) (d : List Byte) (pdus : List NvmePdu) (g : TcpIn) (n : Nat) (t : Tcp),
        parseTcp d (parseFrame d) = some g →
        ingress s = true →
        quarantined s 144 = false →
        tfind s.stor.tcps (fun _ t => t.part == part && t.lport == lport && t.ip == (parseFrame d).ip && t.localAddr == (parseFrame d).dst
          && t.remoteAddr == (parseFrame d).src && t.localPort == (parseFrame d).dport && t.remotePort == (parseFrame d).sport) = some (n, t) →
        False))
    ∧ (¬ (∀ (s : State), ∀ (n : Nat) (t : Tcp) (x : TcpSeg) (xs : List TcpSeg),
        tget s.stor.tcps n = some t →
        t.segs = x :: xs →
        False))
    ∧ (¬ (∀ (s : State), ∀ (c : Nat) (i : Initiator) (own : InitCfg),
        tget s.stor.inits c = some i →
        i.own = some own →
        i.lost = true →
        i.up = false →
        thas s.cfg.stor.initiators c = true →
        quarantined s 144 = false →
        tany s.stor.tcps (fun _ t => t.initiator == some c) = false →
        False))
    ∧ (¬ (∀ (s : State), ∀ (c : Nat) (i : Initiator),
        tget s.stor.inits c = some i →
        i.lost = true →
        i.up = false →
        False)) :=
  ⟨fun k => k (State.reset.onStor (fun x => { x with tcps := [(0, { part := 0, listener := none, initiator := none, ip := 4, localAddr := 0x0A000002, remoteAddr := 0x0A000001, localPort := 0x1145, remotePort := 0x1144, lport := 0, txq := 0, st := .established, sndUna := 0, sndNxt := 1, rcvNxt := 1, cwnd := 1000, recover := 0 })] })) 0 0 [0, 0, 0, 0, 0, 0, 0, 0, 0, 0, 0, 0, 8, 0, 69, 0, 0, 40, 0, 0, 0, 0, 64, 6, 0, 0, 10, 0, 0, 1, 10, 0, 0, 2, 17, 68, 17, 69, 0, 0, 0, 1, 0, 0, 0, 1, 80, 16, 255, 255, 121, 71, 0, 0] [] ({ seq := 1, ack := 1, flags := 0x10, window := 65535, opts := {}, data := [], ce := false }) 0 ({ part := 0, listener := none, initiator := none, ip := 4, localAddr := 0x0A000002, remoteAddr := 0x0A000001, localPort := 0x1145, remotePort := 0x1144, lport := 0, txq := 0, st := .established, sndUna := 0, sndNxt := 1, rcvNxt := 1, cwnd := 1000, recover := 0 }) (by decide +kernel) (by decide) (by decide) rfl,
   fun k => k (State.reset.onStor (fun x => { x with tcps := [(0, { part := 0, listener := none, initiator := none, ip := 4, localAddr := 0x0A000002, remoteAddr := 0x0A000001, localPort := 0x1145, remotePort := 0x1144, lport := 0, txq := 0, st := .established, sndUna := 0, sndNxt := 1, rcvNxt := 1, cwnd := 1000, recover := 0, segs := [{ seq := 0, data := [], syn := false, fin := false, sentAt := 0, again := false, sacked := false }] })] })) 0 ({ part := 0, listener := none, initiator := none, ip := 4, localAddr := 0x0A000002, remoteAddr := 0x0A000001, localPort := 0x1145, remotePort := 0x1144, lport := 0, txq := 0, st := .established, sndUna := 0, sndNxt := 1, rcvNxt := 1, cwnd := 1000, recover := 0, segs := [{ seq := 0, data := [], syn := false, fin := false, sentAt := 0, again := false, sacked := false }] }) ({ seq := 0, data := [], syn := false, fin := false, sentAt := 0, again := false, sacked := false }) [] rfl (by decide),
   fun k => k ((State.reset.onCfg (fun c => { c with stor := { c.stor with initiators := [(0, { part := 0, tenant := 0, blk := init0 })] } })).onStor (fun x => { x with inits := [(0, { own := some { part := 0, tenant := 0, blk := init0 }, lost := true })] })) 0 ({ own := some { part := 0, tenant := 0, blk := init0 }, lost := true }) ({ part := 0, tenant := 0, blk := init0 }) rfl rfl (by decide) (by decide) (by decide) (by decide) rfl,
   fun k => k (State.reset.onStor (fun x => { x with inits := [(0, { own := some { part := 0, tenant := 0, blk := init0 }, lost := true })] })) 0 ({ own := some { part := 0, tenant := 0, blk := init0 }, lost := true }) rfl (by decide) (by decide)⟩

/-- States and operands that meet the hypotheses of each clause of `ManagementEvents`, part 1: its hypotheses are not contradictory. -/
theorem witness_ManagementEvents_1 :
    (¬ (∀ (s : State), ∀ (m : MctpReq),
        mgmtRuns s = true →
        (m.binding = 0 → s.host.linkUp = true) →
        (m.binding ≠ 0 → s.power.st ≠ .boot) →
        False))
    ∧ (¬ (∀ (s : State), ∀ (sensor : Nat) (reading : Option Nat),
        let p := s.mgmt.playbill;
        let v : Option Nat := match sensor with
          | 8 => some (deviceState s)
          | 9 =>
            if s.mgmt.config.playbill == 0 then none
            else if p.uip then some 2
            else if p.outcome == 1 then some 1
            else if p.outcome == 0 then none
            else some 2
          | 10 => some s.mgmt.alert
          | n => if 1 ≤ n && n ≤ 7 then reading else none;
        mgmtRuns s = true →
        False))
    ∧ (¬ (∀ (s : State), ∀ (c : ConfigBlock) (whole : Bool),
        mgmtRuns s = true →
        configOk c = true →
        False))
    ∧ (¬ (∀ (s : State), ∀ (i : Image) (whole : Bool),
        let k := 1 - s.power.bootSlot;
        let x := if whole then i else { i with readable := true, hashOk := false };
        mgmtRuns s = true →
        False))
    ∧ (¬ (∀ (s : State), ∀ (k : Nat),
        mgmtRuns s = true →
        s.flash.written = some k →
        False))
    ∧ (¬ (∀ (s : State), ∀ (d : List Byte) (clocks : Nat) (x : Nat),
        let count := ofBe ((d.drop 4).take 1);
        let a := ofBe ((d.drop 1).take 3);
        s.power.vstby = true →
        spiBusy s = false →
        1 ≤ count ∧ count ≤ 64 →
        d.take 1 = [0x02] →
        clocks = 8 * (7 + 4 * count) →
        clocks ≤ d.length * 8 + 7 →
        crc16 (d.take (5 + 4 * count)) = ofBe ((d.drop (5 + 4 * count)).take 2) →
        (List.range count).all (fun i => a + i < 65536 && spiWritable s (spiOff (a + i))) = true →
        False))
    ∧ (¬ (∀ (s : State), ∀ (d : List Byte) (clocks : Nat),
        let a := ofBe ((d.drop 1).take 3);
        let count := ofBe ((d.drop 4).take 1);
        let data := clocks - 64;
        let words := min count (ceilDiv data 32);
        let whole := min count (data / 32);
        let extra := data - 32 * (count + 1);
        let clean := data % 32 == 0;
        let r := spiRead s a words;
        let e := r.2.send (.spi (r.1.take whole) (if 32 * count < data then crc16 (r.1.flatMap (be 4)) * 65536 else 0));
        let b := if clean then spiClear e a (r.1.take whole) else e;
        s.power.vstby = true →
        spiBusy s = false →
        64 ≤ clocks →
        7 ≤ d.length →
        d.take 1 = [0x03] →
        1 ≤ count ∧ count ≤ 64 →
        crc16 (d.take 5) = ofBe ((d.drop 5).take 2) →
        a + count ≤ 65536 →
        False))
    ∧ (¬ (∀ (s : State), ∀ (v : Nat),
        s.power.vstby = true →
        spiBusy s = false →
        spiWritable s (0x40001C) = true →
        False))
    ∧ (¬ (∀ (s : State), ∀ (n : Nat) (v : Nat),
        s.power.vstby = true →
        spiBusy s = false →
        spiWritable s (0x400048 + 0x20 * (n % 4)) = true →
        False))
    ∧ (¬ (∀ (s : State), ∀ (n : Nat) (v : Nat),
        s.power.vstby = true →
        spiBusy s = false →
        spiWritable s (0x400040 + 0x20 * (n % 4) + 0) = true →
        False))
    ∧ (¬ (∀ (s : State), ∀ (n : Nat) (v : Nat),
        s.power.vstby = true →
        spiBusy s = false →
        spiWritable s (0x400040 + 0x20 * (n % 4) + 12) = true →
        False))
    ∧ (¬ (∀ (s : State), ∀ (n : Nat)  (v : Nat),
        regValue s (0x400050 + 0x20 * (n % 4)) = some v →
        False)) :=
  ⟨fun k => k (State.reset.onHost (fun h => { h with linkUp := true })) default (by decide) (fun _ => rfl) (by decide),
   fun k => k State.reset 10 none (by decide),
   fun k => k State.reset ({ (default : ConfigBlock) with magicOk := true, smbusAddr := 0x77, playbill := 1, nodeName := [], rsvZero := true }) true (by decide) (by decide),
   fun k => k State.reset default true (by decide),
   fun k => k ({ State.reset with flash := { State.reset.flash with written := some 1 } }) 1 (by decide) rfl,
   fun k => k State.reset ([2, 0, 0, 7, 1, 0, 0, 0, 0] ++ be 2 (crc16 [2, 0, 0, 7, 1, 0, 0, 0, 0])) 88 0 (by decide) (by decide) ⟨by decide, by decide⟩ (by decide) (by decide) (by decide) (by decide) (by decide),
   fun k => k State.reset ([3, 0, 0, 4, 1] ++ be 2 (crc16 [3, 0, 0, 4, 1])) 96 (by decide) (by decide) (by decide) (by decide) (by decide) ⟨by decide, by decide⟩ (by decide) (by decide),
   fun k => k State.reset 0xFFFFFFFF (by decide) (by decide) (by decide),
   fun k => k State.reset 3 5 (by decide) (by decide) (by decide),
   fun k => k State.reset 0 1 (by decide) (by decide) (by decide),
   fun k => k State.reset 3 10 (by decide) (by decide) (by decide),
   fun k => k State.reset 3 _ rfl⟩

/-- States and operands that meet the hypotheses of each clause of `ManagementEvents`, part 2: its hypotheses are not contradictory. -/
theorem witness_ManagementEvents_2 :
    (¬ (∀ (s : State), ∀  (v : Nat),
        regValue s (0x400010) = some v →
        False))
    ∧ (¬ (∀ (s : State), ∀  (v : Nat),
        regValue s (0x4000C0) = some v →
        False))
    ∧ (¬ (∀ (s : State), ∀ (id : Nat)  (v : Nat),
        regValue s (0x401000 + 8 * (id % 256)) = some v →
        False))
    ∧ (¬ (∀ (s : State), ∀  (v : Nat),
        regValue s (0x400140) = some v →
        False))
    ∧ (¬ (∀ (s : State), ∀  (v : Nat),
        regValue s (0x410000) = some v →
        False))
    ∧ (¬ (∀ (s : State), ∀ (target : Nat) (high : Bool)  (v : Nat),
        target ≤ 21 →
        regValue s (0x11020 + 0x40 * target + 4 * b2n high) = some v →
        False))
    ∧ (¬ (∀ (s : State), ∀ (v : Nat),
        s.power.vstby = true →
        spiBusy s = false →
        v / 65536 % 65536 = 0x5253 →
        bit v 0 = true →
        s.power.vmain = true →
        False))
    ∧ (¬ (∀ (s : State), ∀ (v : Nat) (x : Nat),
        s.power.vstby = true →
        spiBusy s = false →
        spiWritable s (0x430004) = true →
        False))
    ∧ (¬ (∀ (s : State), ∀ (x : Nat),
        s.test.busy = true →
        False))
    ∧ (¬ (∀ (s : State), ∀ (off v x : Nat),
        s.power.vstby = true →
        spiBusy s = false →
        False))
    ∧ (¬ (∀ (s : State), ∀ (fn off v x : Nat),
        fnAnswers s fn = true →
        (s.fn fn).booth.enable = false →
        False))
    ∧ (¬ (∀ (s : State), ∀ (fn v x : Nat),
        fnAnswers s fn = true →
        False)) :=
  ⟨fun k => k State.reset _ rfl,
   fun k => k State.reset _ rfl,
   fun k => k State.reset 0 _ rfl,
   fun k => k State.reset _ rfl,
   fun k => k State.reset _ rfl,
   fun k => k State.reset 21 true _ (by decide) rfl,
   fun k => k State.reset 0x52530001 (by decide) (by decide) (by decide) (by decide) (by decide),
   fun k => k State.reset 1 0 (by decide) (by decide) (by decide),
   fun k => k (State.reset.onTest (fun t => { t with busy := true, goal := 2 })) 0 (by decide),
   fun k => k State.reset 4 0 0 (by decide) (by decide),
   fun k => k State.reset 0 8 1 0 (by decide) (by decide),
   fun k => k State.reset 0 31 0 (by decide)⟩

/-- States and operands that meet the hypotheses of each clause of `TimedManagementEvents`: its hypotheses are not contradictory. -/
theorem witness_TimedManagementEvents :
    (¬ (∀ (s : State), ∀ (n : Nat),
        let a0 := tgetD s.mgmt.alarms n {};
        let step := max a0.period 1 * 32768;
        let k := if a0.periodic then (s.clock.rtc - a0.t) / step + 1 else 1;
        let e := onAlarm s n (fun a => { a with
            enable := a.periodic
            t := if a.periodic then a.t + k * step else a.t
            count := satAdd 16 a.count k
            first := if a.fired then a.first else some a.t
            fired := true
            onBackup := a.onBackup || !s.power.vstby
            waking := a.waking || (a.wake && s.power.vstby) });
        n ≤ 3 →
        (tgetD s.mgmt.alarms n {}).enable = true →
        s.clock.timeInvalid = false →
        (tgetD s.mgmt.alarms n {}).t ≤ s.clock.rtc →
        (s.power.vstby || s.power.vbat) = true →
        False))
    ∧ (¬ (∀ (s : State), ∀ (d : Nat),
        s.clock.rtcWrite = some d →
        d ≤ s.clock.cadence →
        mgmtRuns s = true →
        False))
    ∧ (¬ (∀ (s : State), 1 ≤ s.mgmt.playbill.phase →
        s.mgmt.playbill.phase < 3 →
        False))
    ∧ (¬ (∀ (s : State), 3 ≤ s.mgmt.playbill.phase →
        False))
    ∧ (¬ (∀ (s : State), s.mgmt.playbill.phase ≠ 0 →
        False))
    ∧ (¬ (∀ (s : State), let e := s.onPlaybill (fun p => { p with interval := false });
        False))
    ∧ (¬ (∀ (s : State), False))
    ∧ (¬ (∀ (s : State), ∀ (w : RindFlash),
        let p := rindPlace s.rind;
        let a := s.onRind (fun r => { r with
            flash := { w with deltas := p.2.2 }
            lastBlock := p.1
            nextBlock := p.2.1
            commitTime := w.rtc
            fails := 0
            writing := none
            committing := false
            waiters := []
            dirty := r.counters != w.counters || r.hists != w.hists || r.nextSeq != w.nextSeq });
        let e := s.rind.waiters.foldl (fun s x => finish s x.1 x.2 .ok) (rindCount a 0x23);
        s.rind.writing = some w →
        False))
    ∧ (¬ (∀ (s : State), ∀ (w : RindFlash),
        let e := rindLog (rindCount (s.onRind (fun r => { r with nextBlock := (r.nextBlock + 1) % 63, fails := r.fails + 1 })) 0x24) 0x0012 255 (le 2 s.rind.nextBlock);
        s.rind.writing = some w →
        False))
    ∧ (¬ (∀ (s : State), ∀ (x : SecondSample),
        let lin := fun (s : State) (h : Nat) (v low w : Int) => rindBin s h (linearBin v low w);
        let a := if s.power.vstby then lin s 2 x.vstby 3000 20 else s;
        let b := if a.power.st == .standby then rindCount a 0x05 else a;
        let c := halfCycle (lin (lin (rindCount b 0x04) 0 x.hot 0 32) 1 x.vmain 10800 100) x.hot;
        let d := (List.range 4).foldl (fun s p => if (s.tport p).st == .down then s else lin s (6 + p) ((listGet x.heaters p 0 : Nat) : Int) 0 150) (lin (lin c 4 x.power 0 20000) 5 x.droop 0 50);
        b.power.vmain = true →
        False))
    ∧ (¬ (∀ (s : State), ∀ (vbat20 : Nat),
        let e := (rindBin s 3 (linearBin vbat20 100 3)).onPower (fun p => { p with vbat20 := vbat20, vbat := if p.vstby then decide (110 ≤ vbat20) else p.vbat });
        (s.power.vstby || s.power.vbat) = true →
        False)) :=
  ⟨fun k => k ((State.reset.onMgmt (fun m => { m with alarms := [(3, { enable := true })] })).onClock (fun c => { c with timeInvalid := false })) 3 (by decide) (by decide) (by decide) (by decide) (by decide),
   fun k => k (State.reset.onClock (fun c => { c with rtcWrite := some 5, cadence := 5 })) 5 rfl (by decide) (by decide),
   fun k => k (State.reset.onMgmt (fun m => { m with playbill := { phase := 2 } }))  (by decide) (by decide),
   fun k => k (State.reset.onMgmt (fun m => { m with playbill := { phase := 3 } }))  (by decide),
   fun k => k (State.reset.onMgmt (fun m => { m with playbill := { phase := 1 } }))  (by decide),
   fun k => k State.reset  ,
   fun k => k State.reset  ,
   fun k => k (State.reset.onRind (fun r => { r with writing := some {} })) ({}) rfl,
   fun k => k (State.reset.onRind (fun r => { r with writing := some {} })) ({}) rfl,
   fun k => k State.reset default (by decide),
   fun k => k State.reset 150 (by decide)⟩

/-- States and operands that meet the hypotheses of each clause of `PowerEvents`, part 1: its hypotheses are not contradictory. -/
theorem witness_PowerEvents_1 :
    (¬ (∀ (s : State), let e := s.onPower (fun p => { p with vmain := true });
        s.power.vmain = false →
        False))
    ∧ (¬ (∀ (s : State), let e := s.onPower (fun p => { p with
            vmain := false
            vmainOffAt := some s.clock.rtc
            st := if p.vstby then .standby else if p.vbat then .backup else .off });
        s.power.vmain = true →
        False))
    ∧ (¬ (∀ (s : State), let a := (resetVmain s false).onMgmt (fun m => { m with refused := false, quiesced := false });
        let b := a.onRind (fun r => { r with committing := false, writing := none, again := false });
        let c := b.onPlaybill (fun p => if p.phase == 0 then p else { p with phase := 0, outcome := 2 });
        s.power.vstby = true →
        False))
    ∧ (¬ (∀ (s : State), s.power.vstby = false →
        s.power.vbat = true →
        False))
    ∧ (¬ (∀ (s : State), s.power.vstby = false →
        s.power.vbat = true →
        False))
    ∧ (¬ (∀ (s : State), ∀ (onVstby : Bool),
        let a : State := { s with
            mgmt := { config := s.mgmt.config }
            clock := { s.clock with rtc := 0, timeInvalid := true }
            rind := { flash := s.rind.flash, nextBlock := s.rind.nextBlock, empty := true, idShown := false } };
        let e := rindCount (a.onPower (fun p => { p with vbat := !onVstby, st := .backup, vmainOffAt := none })) 0x02;
        s.power.vstby = false →
        s.power.vbat = false →
        False))
    ∧ (¬ (∀ (s : State), s.power.perst = false →
        False))
    ∧ (¬ (∀ (s : State), let e := s.onPower (fun p => { p with
            perst := false
            bootAt := if p.resetKind == some .warm && (p.shutdown || s.mgmt.quiesced) then s.clock.cadence else p.bootAt });
        s.power.perst = true →
        False))
    ∧ (¬ (∀ (s : State), False))
    ∧ (¬ (∀ (s : State), s.power.shutdown = true →
        (s.rind.committing = true → newer 32 s.power.commitGoal s.rind.flash.recordSeq = false) →
        False))
    ∧ (¬ (∀ (s : State), ∀ (passes : Bool) (kat : Nat) (i : Nat),
        let a := s.onPower (fun p => { p with order := s.power.order + 1 });
        let b0 := if i == 128 then controlUp a else a;
        let b := if !passes then quarantine b0 i 0x0041 else b0;
        let c := if i == 128 && kat != 0 && b.power.st == .boot then katFault b kat else b;
        let d := if i == 144 && passes then (List.range 4).foldl (fun s d => if driveLink s.cfg d then s.send (.drivePerst d false) else s) c else c;
        bringOrder[s.power.order]? = some i →
        s.power.st = .boot →
        s.mgmt.quiesced = false →
        s.power.shutdown = false →
        (0 < s.power.order → s.power.tripWait = false) →
        False))
    ∧ (¬ (∀ (s : State), s.power.trial = true →
        (s.power.st = .boot ∨ s.power.st = .run ∨ s.power.st = .faulted) →
        s.mgmt.quiesced = false →
        False)) :=
  ⟨fun k => k (State.reset.onPower (fun p => { p with vmain := false }))  (by decide),
   fun k => k State.reset  (by decide),
   fun k => k State.reset  (by decide),
   fun k => k (State.reset.onPower (fun p => { p with vstby := false }))  (by decide) (by decide),
   fun k => k (State.reset.onPower (fun p => { p with vstby := false }))  (by decide) (by decide),
   fun k => k (State.reset.onPower (fun p => { p with vstby := false, vbat := false })) true (by decide) (by decide),
   fun k => k State.reset  (by decide),
   fun k => k (State.reset.onPower (fun p => { p with perst := true }))  (by decide),
   fun k => k State.reset  ,
   fun k => k (State.reset.onPower (fun p => { p with shutdown := true }))  (by decide) (by decide),
   fun k => k (State.reset.onPower (fun p => { p with order := 0, st := .boot })) true 0 _ rfl (by decide) (by decide) (by decide) (by decide),
   fun k => k (State.reset.onPower (fun p => { p with trial := true, st := .boot }))  (by decide) (by decide) (by decide)⟩

/-- States and operands that meet the hypotheses of each clause of `PowerEvents`, part 2: its hypotheses are not contradictory. -/
theorem witness_PowerEvents_2 :
    (¬ (∀ (s : State), ∀ (hot : Int),
        s.power.vmain = true →
        800 ≤ hot →
        False))
    ∧ (¬ (∀ (s : State), ∀ (hot : Int),
        let a := if hot < 760 && s.power.st == .boot then s.onPower (fun p => { p with tripWait := false }) else s;
        let e := a.onPower (fun p => { p with throttling := false });
        s.power.vmain = true →
        hot < 784 →
        False))
    ∧ (¬ (∀ (s : State), ∀ (island : Nat) (temp : Nat),
        let r := rindLog (rindCount s 0x07) 0x0007 island (le 2 temp);
        let a := assertAlert (r.onMgmt (fun m => { m with alert := 0x0300, alertTime := r.clock.rtc }));
        let b := a.onPlaybill (fun p => { p with alertPending := true });
        s.power.vmain = true →
        s.power.st ≠ .tripped →
        s.power.vstby = true →
        False))
    ∧ (¬ (∀ (s : State), ∀ (second : Nat) (milli : Nat),
        s.power.vmain = true →
        (440 ≤ second ∨ 520 ≤ milli) →
        False))
    ∧ (¬ (∀ (s : State), ∀ (d : Nat),
        s.power.st = .run →
        s.power.gated.contains d = false →
        mayGate s d = true →
        False))
    ∧ (¬ (∀ (s : State), ∀ (d : Nat),
        s.power.st = .run →
        s.power.gated.contains d = true →
        mayGate s d = false →
        False))
    ∧ (¬ (∀ (s : State), let d := draw s;
        s.clock.eref = true →
        False))
    ∧ (¬ (∀ (s : State), False))
    ∧ (¬ (∀ (s : State), False))
    ∧ (¬ (∀ (s : State), False)) :=
  ⟨fun k => k State.reset 800 (by decide) (by decide),
   fun k => k State.reset 783 (by decide) (by decide),
   fun k => k State.reset 0 1100 (by decide) (by decide) (by decide),
   fun k => k State.reset 440 0 (by decide) (.inl (by decide)),
   fun k => k State.reset 0 (by decide) (by decide) (by decide),
   fun k => k ((State.reset.onPower (fun p => { p with gated := [0] })).onTumbler 0 (fun t => { t with run := some inv0 })) 0 (by decide) (by decide) (by decide),
   fun k => k State.reset  (by decide),
   fun k => k State.reset  ,
   fun k => k State.reset  ,
   fun k => k State.reset  ⟩

/-- States and operands that meet the hypotheses of each clause of `JtagInstructions`: its hypotheses are not contradictory. -/
theorem witness_JtagInstructions :
    (¬ (∀ (s : State), let e := s.onTest (fun t => { t with ir := 0x02, restricted := false });
        s.power.vmain = true →
        False))
    ∧ (¬ (∀ (s : State), let e := s.onTest (fun t => { t with ir := 0xFF, restricted := false });
        s.power.vmain = true →
        False))
    ∧ (¬ (∀ (s : State), let e := s.onTest (fun t => { t with ir := 0x01, restricted := false });
        s.power.vmain = true →
        False))
    ∧ (¬ (∀ (s : State), s.power.vmain = true →
        False))
    ∧ (¬ (∀ (s : State), ∀ (v : Nat),
        s.power.vmain = true →
        False))
    ∧ (¬ (∀ (s : State), s.power.vmain = true →
        s.power.perst = true →
        False))
    ∧ (¬ (∀ (s : State), s.power.vmain = true →
        s.power.perst = true →
        False))
    ∧ (¬ (∀ (s : State), s.power.vmain = true →
        s.power.perst = true →
        False))
    ∧ (¬ (∀ (s : State), s.power.vmain = true →
        s.power.perst = true →
        False))
    ∧ (¬ (∀ (s : State), s.power.vmain = true →
        s.power.perst = true →
        False))
    ∧ (¬ (∀ (s : State), ∀ (stack : Nat),
        s.power.vmain = true →
        s.power.perst = true →
        False)) :=
  ⟨fun k => k (State.reset.onPower (fun p => { p with perst := true }))  (by decide),
   fun k => k (State.reset.onPower (fun p => { p with perst := true }))  (by decide),
   fun k => k (State.reset.onPower (fun p => { p with perst := true }))  (by decide),
   fun k => k (State.reset.onPower (fun p => { p with perst := true }))  (by decide),
   fun k => k (State.reset.onPower (fun p => { p with perst := true })) 0 (by decide),
   fun k => k (State.reset.onPower (fun p => { p with perst := true }))  (by decide) (by decide),
   fun k => k (State.reset.onPower (fun p => { p with perst := true }))  (by decide) (by decide),
   fun k => k (State.reset.onPower (fun p => { p with perst := true }))  (by decide) (by decide),
   fun k => k (State.reset.onPower (fun p => { p with perst := true }))  (by decide) (by decide),
   fun k => k (State.reset.onPower (fun p => { p with perst := true }))  (by decide) (by decide),
   fun k => k (State.reset.onPower (fun p => { p with perst := true })) 1 (by decide) (by decide)⟩

/-- States and operands that meet the hypotheses of each clause of `BelporExceptions`, part 1: its hypotheses are not contradictory. -/
theorem witness_BelporExceptions_1 :
    (¬ (∀ (s : State) (n : Nat), ∀ i o inv code, executes n i o → (tum s n).run = some inv → (tum s n).stall = .none → fetchOp s n (tum s n) = .inl code →
        inTime s n inv 1 → False))
    ∧ (¬ (∀ (s : State) (n : Nat), ∀ i o c inv w, executes n i o → resultCycles o = some c → issues n o s inv w → ¬ inTime s n inv c → False))
    ∧ (¬ (∀ (s : State) (n : Nat), ∀ inv w, issues n .ldw s inv w → inTime s n inv 1 → 
        bankFor s inv (tum s n) w = .shut →
        False))
    ∧ (¬ (∀ (s : State) (n : Nat), ∀ inv w k, issues n .ldw s inv w → inTime s n inv 1 → 
        bankFor s inv (tum s n) w = .troupe k →
        troupeOk s inv n k = false →
        False))
    ∧ (¬ (∀ (s : State) (n : Nat), ∀ inv w k, issues n .ldw s inv w → inTime s n inv 1 → 
        bankFor s inv (tum s n) w = .troupe k →
        troupeOk s inv n k = true →
        troupeBad s n k = true →
        False))
    ∧ (¬ (∀ (s : State) (n : Nat), ∀ inv w, issues n .ldh s inv w → inTime s n inv 1 → 
        bankFor s inv (tum s n) w = .shut →
        False))
    ∧ (¬ (∀ (s : State) (n : Nat), ∀ inv w k, issues n .ldh s inv w → inTime s n inv 1 → 
        bankFor s inv (tum s n) w = .troupe k →
        troupeOk s inv n k = false →
        False))
    ∧ (¬ (∀ (s : State) (n : Nat), ∀ inv w k, issues n .ldh s inv w → inTime s n inv 1 → 
        bankFor s inv (tum s n) w = .troupe k →
        troupeOk s inv n k = true →
        troupeBad s n k = true →
        False))
    ∧ (¬ (∀ (s : State) (n : Nat), ∀ inv w, issues n .ldhs s inv w → inTime s n inv 1 → 
        bankFor s inv (tum s n) w = .shut →
        False))
    ∧ (¬ (∀ (s : State) (n : Nat), ∀ inv w k, issues n .ldhs s inv w → inTime s n inv 1 → 
        bankFor s inv (tum s n) w = .troupe k →
        troupeOk s inv n k = false →
        False))
    ∧ (¬ (∀ (s : State) (n : Nat), ∀ inv w k, issues n .ldhs s inv w → inTime s n inv 1 → 
        bankFor s inv (tum s n) w = .troupe k →
        troupeOk s inv n k = true →
        troupeBad s n k = true →
        False))
    ∧ (¬ (∀ (s : State) (n : Nat), ∀ inv w, issues n .ldn s inv w → inTime s n inv 1 → 
        bankFor s inv (tum s n) w = .shut →
        False)) :=
  ⟨fun k => k (((issuing (word (1 * 2 ^ 27 + 0))).onTumbler 0 (fun t => { t with pc := 32768 }))) 0 (.add 0) .add inv0 1 rfl rfl rfl rfl (by unfold inTime; decide),
   fun k => k (((issuing (word (56 * 2 ^ 27 + 0))).onTumbler 0 (fun t => { t with cyc := 99 }))) 0 (.mul 0) .mul 2 inv0 (word (56 * 2 ^ 27 + 0)) rfl rfl ⟨rfl, rfl, by decide⟩ (by unfold inTime; decide),
   fun k => k (((issuing (word (256 * 2 ^ 27 + 0))).onTumbler 0 (fun t => { t with bk := [4, 0, 0, 0] }))) 0 inv0 (word (256 * 2 ^ 27 + 0)) ⟨rfl, rfl, by decide⟩ (by unfold inTime; decide) (by decide),
   fun k => k (((issuing (word (256 * 2 ^ 27 + 0))).onTumbler 0 (fun t => { t with run := some { inv0 with part := 1 } }))) 0 ({ inv0 with part := 1 }) (word (256 * 2 ^ 27 + 0)) 0 ⟨rfl, rfl, by decide⟩ (by unfold inTime; decide) (by decide) (by decide),
   fun k => k (((issuing (word (256 * 2 ^ 27 + 0))).onMem (fun m => { m with bad := [0x030100000000] }))) 0 inv0 (word (256 * 2 ^ 27 + 0)) 0 ⟨rfl, rfl, by decide⟩ (by unfold inTime; decide) (by decide) (by decide) (by decide),
   fun k => k (((issuing (word (258 * 2 ^ 27 + 0))).onTumbler 0 (fun t => { t with bk := [4, 0, 0, 0] }))) 0 inv0 (word (258 * 2 ^ 27 + 0)) ⟨rfl, rfl, by decide⟩ (by unfold inTime; decide) (by decide),
   fun k => k (((issuing (word (258 * 2 ^ 27 + 0))).onTumbler 0 (fun t => { t with run := some { inv0 with part := 1 } }))) 0 ({ inv0 with part := 1 }) (word (258 * 2 ^ 27 + 0)) 0 ⟨rfl, rfl, by decide⟩ (by unfold inTime; decide) (by decide) (by decide),
   fun k => k (((issuing (word (258 * 2 ^ 27 + 0))).onMem (fun m => { m with bad := [0x030100000000] }))) 0 inv0 (word (258 * 2 ^ 27 + 0)) 0 ⟨rfl, rfl, by decide⟩ (by unfold inTime; decide) (by decide) (by decide) (by decide),
   fun k => k (((issuing (word (260 * 2 ^ 27 + 0))).onTumbler 0 (fun t => { t with bk := [4, 0, 0, 0] }))) 0 inv0 (word (260 * 2 ^ 27 + 0)) ⟨rfl, rfl, by decide⟩ (by unfold inTime; decide) (by decide),
   fun k => k (((issuing (word (260 * 2 ^ 27 + 0))).onTumbler 0 (fun t => { t with run := some { inv0 with part := 1 } }))) 0 ({ inv0 with part := 1 }) (word (260 * 2 ^ 27 + 0)) 0 ⟨rfl, rfl, by decide⟩ (by unfold inTime; decide) (by decide) (by decide),
   fun k => k (((issuing (word (260 * 2 ^ 27 + 0))).onMem (fun m => { m with bad := [0x030100000000] }))) 0 inv0 (word (260 * 2 ^ 27 + 0)) 0 ⟨rfl, rfl, by decide⟩ (by unfold inTime; decide) (by decide) (by decide) (by decide),
   fun k => k (((issuing (word (264 * 2 ^ 27 + 0))).onTumbler 0 (fun t => { t with bk := [4, 0, 0, 0] }))) 0 inv0 (word (264 * 2 ^ 27 + 0)) ⟨rfl, rfl, by decide⟩ (by unfold inTime; decide) (by decide)⟩

/-- States and operands that meet the hypotheses of each clause of `BelporExceptions`, part 2: its hypotheses are not contradictory. -/
theorem witness_BelporExceptions_2 :
    (¬ (∀ (s : State) (n : Nat), ∀ inv w k, issues n .ldn s inv w → inTime s n inv 1 → 
        bankFor s inv (tum s n) w = .troupe k →
        troupeOk s inv n k = false →
        False))
    ∧ (¬ (∀ (s : State) (n : Nat), ∀ inv w k, issues n .ldn s inv w → inTime s n inv 1 → 
        bankFor s inv (tum s n) w = .troupe k →
        troupeOk s inv n k = true →
        troupeBad s n k = true →
        False))
    ∧ (¬ (∀ (s : State) (n : Nat), ∀ inv w, issues n .stw s inv w → inTime s n inv 1 → 
        bankFor s inv (tum s n) w = .shut →
        False))
    ∧ (¬ (∀ (s : State) (n : Nat), ∀ inv w k, issues n .stw s inv w → inTime s n inv 1 → 
        bankFor s inv (tum s n) w = .troupe k →
        troupeOk s inv n k = false →
        False))
    ∧ (¬ (∀ (s : State) (n : Nat), ∀ inv w, issues n .sth s inv w → inTime s n inv 1 → 
        bankFor s inv (tum s n) w = .shut →
        False))
    ∧ (¬ (∀ (s : State) (n : Nat), ∀ inv w k, issues n .sth s inv w → inTime s n inv 1 → 
        bankFor s inv (tum s n) w = .troupe k →
        troupeOk s inv n k = false →
        False))
    ∧ (¬ (∀ (s : State) (n : Nat), ∀ inv w, issues n .stn s inv w → inTime s n inv 1 → 
        bankFor s inv (tum s n) w = .shut →
        False))
    ∧ (¬ (∀ (s : State) (n : Nat), ∀ inv w k, issues n .stn s inv w → inTime s n inv 1 → 
        bankFor s inv (tum s n) w = .troupe k →
        troupeOk s inv n k = false →
        False))
    ∧ (¬ (∀ (s : State) (n : Nat), ∀ inv w, issues n .aadd s inv w → inTime s n inv 1 → 
        bankFor s inv (tum s n) w = .shut →
        False))
    ∧ (¬ (∀ (s : State) (n : Nat), ∀ inv w k, issues n .aadd s inv w → inTime s n inv 1 → 
        bankFor s inv (tum s n) w = .troupe k →
        troupeOk s inv n k = false →
        False))
    ∧ (¬ (∀ (s : State) (n : Nat), ∀ inv w k, issues n .aadd s inv w → inTime s n inv 1 → 
        bankFor s inv (tum s n) w = .troupe k →
        troupeOk s inv n k = true →
        troupeBad s n k = true →
        False))
    ∧ (¬ (∀ (s : State) (n : Nat), ∀ inv w a, issues n .aadd s inv w → inTime s n inv 1 → 
        bankFor s inv (tum s n) w = .midway a →
        False)) :=
  ⟨fun k => k (((issuing (word (264 * 2 ^ 27 + 0))).onTumbler 0 (fun t => { t with run := some { inv0 with part := 1 } }))) 0 ({ inv0 with part := 1 }) (word (264 * 2 ^ 27 + 0)) 0 ⟨rfl, rfl, by decide⟩ (by unfold inTime; decide) (by decide) (by decide),
   fun k => k (((issuing (word (264 * 2 ^ 27 + 0))).onMem (fun m => { m with bad := [0x030100000000] }))) 0 inv0 (word (264 * 2 ^ 27 + 0)) 0 ⟨rfl, rfl, by decide⟩ (by unfold inTime; decide) (by decide) (by decide) (by decide),
   fun k => k (((issuing (word (257 * 2 ^ 27 + 0))).onTumbler 0 (fun t => { t with bk := [4, 0, 0, 0] }))) 0 inv0 (word (257 * 2 ^ 27 + 0)) ⟨rfl, rfl, by decide⟩ (by unfold inTime; decide) (by decide),
   fun k => k (((issuing (word (257 * 2 ^ 27 + 0))).onTumbler 0 (fun t => { t with run := some { inv0 with part := 1 } }))) 0 ({ inv0 with part := 1 }) (word (257 * 2 ^ 27 + 0)) 0 ⟨rfl, rfl, by decide⟩ (by unfold inTime; decide) (by decide) (by decide),
   fun k => k (((issuing (word (262 * 2 ^ 27 + 0))).onTumbler 0 (fun t => { t with bk := [4, 0, 0, 0] }))) 0 inv0 (word (262 * 2 ^ 27 + 0)) ⟨rfl, rfl, by decide⟩ (by unfold inTime; decide) (by decide),
   fun k => k (((issuing (word (262 * 2 ^ 27 + 0))).onTumbler 0 (fun t => { t with run := some { inv0 with part := 1 } }))) 0 ({ inv0 with part := 1 }) (word (262 * 2 ^ 27 + 0)) 0 ⟨rfl, rfl, by decide⟩ (by unfold inTime; decide) (by decide) (by decide),
   fun k => k (((issuing (word (268 * 2 ^ 27 + 0))).onTumbler 0 (fun t => { t with bk := [4, 0, 0, 0] }))) 0 inv0 (word (268 * 2 ^ 27 + 0)) ⟨rfl, rfl, by decide⟩ (by unfold inTime; decide) (by decide),
   fun k => k (((issuing (word (268 * 2 ^ 27 + 0))).onTumbler 0 (fun t => { t with run := some { inv0 with part := 1 } }))) 0 ({ inv0 with part := 1 }) (word (268 * 2 ^ 27 + 0)) 0 ⟨rfl, rfl, by decide⟩ (by unfold inTime; decide) (by decide) (by decide),
   fun k => k (((issuing (word (272 * 2 ^ 27 + 0))).onTumbler 0 (fun t => { t with bk := [4, 0, 0, 0] }))) 0 inv0 (word (272 * 2 ^ 27 + 0)) ⟨rfl, rfl, by decide⟩ (by unfold inTime; decide) (by decide),
   fun k => k (((issuing (word (272 * 2 ^ 27 + 0))).onTumbler 0 (fun t => { t with run := some { inv0 with part := 1 } }))) 0 ({ inv0 with part := 1 }) (word (272 * 2 ^ 27 + 0)) 0 ⟨rfl, rfl, by decide⟩ (by unfold inTime; decide) (by decide) (by decide),
   fun k => k (((issuing (word (272 * 2 ^ 27 + 0))).onMem (fun m => { m with bad := [0x030100000000] }))) 0 inv0 (word (272 * 2 ^ 27 + 0)) 0 ⟨rfl, rfl, by decide⟩ (by unfold inTime; decide) (by decide) (by decide) (by decide),
   fun k => k (((issuing (word (272 * 2 ^ 27 + 0))).onTumbler 0 (fun t => { t with bk := [512, 0, 0, 0] }))) 0 inv0 (word (272 * 2 ^ 27 + 0)) 0 ⟨rfl, rfl, by decide⟩ (by unfold inTime; decide) (by decide)⟩

/-- States and operands that meet the hypotheses of each clause of `BelporExceptions`, part 3: its hypotheses are not contradictory. -/
theorem witness_BelporExceptions_3 :
    (¬ (∀ (s : State) (n : Nat), ∀ inv w, issues n .acas s inv w → inTime s n inv 1 → 
        bankFor s inv (tum s n) w = .shut →
        False))
    ∧ (¬ (∀ (s : State) (n : Nat), ∀ inv w k, issues n .acas s inv w → inTime s n inv 1 → 
        bankFor s inv (tum s n) w = .troupe k →
        troupeOk s inv n k = false →
        False))
    ∧ (¬ (∀ (s : State) (n : Nat), ∀ inv w k, issues n .acas s inv w → inTime s n inv 1 → 
        bankFor s inv (tum s n) w = .troupe k →
        troupeOk s inv n k = true →
        troupeBad s n k = true →
        False))
    ∧ (¬ (∀ (s : State) (n : Nat), ∀ inv w a, issues n .acas s inv w → inTime s n inv 1 → 
        bankFor s inv (tum s n) w = .midway a →
        False))
    ∧ (¬ (∀ (s : State) (n : Nat), ∀ inv w, issues n .b s inv w → inTime s n inv 1 → 
        condHolds (tum s n).fl (fCond w) = true →
        (atLoopEnd (tum s n) = true ∨ inBody (tum s n) (tum s n).pc = true ∧ inBody (tum s n) (fTarget w) = false) →
        False))
    ∧ (¬ (∀ (s : State) (n : Nat), ∀ inv w, issues n .br s inv w → inTime s n inv 1 → 
        condHolds (tum s n).fl (fCond w) = true →
        (atLoopEnd (tum s n) = true ∨ inBody (tum s n) (tum s n).pc = true ∧ inBody (tum s n) (regTarget (tum s n) w) = false) →
        False))
    ∧ (¬ (∀ (s : State) (n : Nat), ∀ inv w, issues n .call s inv w → inTime s n inv 1 → 
        atLoopEnd (tum s n) = true →
        False))
    ∧ (¬ (∀ (s : State) (n : Nat), ∀ inv w, issues n .callr s inv w → inTime s n inv 1 → 
        atLoopEnd (tum s n) = true →
        False))
    ∧ (¬ (∀ (s : State) (n : Nat), ∀ inv w, issues n .ret s inv w → inTime s n inv 1 → 
        atLoopEnd (tum s n) = true →
        False))
    ∧ (¬ (∀ (s : State) (n : Nat), ∀ inv w, issues n .loopi s inv w → inTime s n inv 1 → 
        (depth (tum s n) = 4 ∨ fTarget w < (tum s n).pc + 1 ∨ 2 ^ 24 ≤ fCount w ∨ (0 < depth (tum s n) ∧ listGet (tum s n).le (depth (tum s n) - 1) 0 < fTarget w) ∨ atLoopEnd (tum s n) = true) →
        False))
    ∧ (¬ (∀ (s : State) (n : Nat), ∀ inv w, issues n .loopr s inv w → inTime s n inv 1 → 
        (depth (tum s n) = 4 ∨ fTarget w < (tum s n).pc + 1 ∨ 2 ^ 24 ≤ ((tum s n).get (fRd w)).toNat ∨ (0 < depth (tum s n) ∧ listGet (tum s n).le (depth (tum s n) - 1) 0 < fTarget w) ∨ atLoopEnd (tum s n) = true) →
        False))
    ∧ (¬ (∀ (s : State) (n : Nat), ∀ inv w, issues n .lexit s inv w → inTime s n inv 1 → 
        (depth (tum s n) = 0 ∨ atLoopEnd (tum s n) = true) →
        False)) :=
  ⟨fun k => k (((issuing (word (273 * 2 ^ 27 + 0))).onTumbler 0 (fun t => { t with bk := [4, 0, 0, 0] }))) 0 inv0 (word (273 * 2 ^ 27 + 0)) ⟨rfl, rfl, by decide⟩ (by unfold inTime; decide) (by decide),
   fun k => k (((issuing (word (273 * 2 ^ 27 + 0))).onTumbler 0 (fun t => { t with run := some { inv0 with part := 1 } }))) 0 ({ inv0 with part := 1 }) (word (273 * 2 ^ 27 + 0)) 0 ⟨rfl, rfl, by decide⟩ (by unfold inTime; decide) (by decide) (by decide),
   fun k => k (((issuing (word (273 * 2 ^ 27 + 0))).onMem (fun m => { m with bad := [0x030100000000] }))) 0 inv0 (word (273 * 2 ^ 27 + 0)) 0 ⟨rfl, rfl, by decide⟩ (by unfold inTime; decide) (by decide) (by decide) (by decide),
   fun k => k (((issuing (word (273 * 2 ^ 27 + 0))).onTumbler 0 (fun t => { t with bk := [512, 0, 0, 0] }))) 0 inv0 (word (273 * 2 ^ 27 + 0)) 0 ⟨rfl, rfl, by decide⟩ (by unfold inTime; decide) (by decide),
   fun k => k (((issuing (word (320 * 2 ^ 27 + 14 * 2 ^ 23 + 9))).onTumbler 0 (fun t => { t with ls := [0, 0, 0, 0], le := [0, 0, 0, 0], lc := [5, 0, 0, 0] }))) 0 inv0 (word (320 * 2 ^ 27 + 14 * 2 ^ 23 + 9)) ⟨rfl, rfl, by decide⟩ (by unfold inTime; decide) (by decide) (.inl (by decide)),
   fun k => k (((issuing (word (321 * 2 ^ 27 + 14 * 2 ^ 23 + 0))).onTumbler 0 (fun t => { t with ls := [0, 0, 0, 0], le := [0, 0, 0, 0], lc := [5, 0, 0, 0] }))) 0 inv0 (word (321 * 2 ^ 27 + 14 * 2 ^ 23 + 0)) ⟨rfl, rfl, by decide⟩ (by unfold inTime; decide) (by decide) (.inl (by decide)),
   fun k => k (((issuing (word (322 * 2 ^ 27 + 14 * 2 ^ 23 + 9))).onTumbler 0 (fun t => { t with ls := [0, 0, 0, 0], le := [0, 0, 0, 0], lc := [5, 0, 0, 0] }))) 0 inv0 (word (322 * 2 ^ 27 + 14 * 2 ^ 23 + 9)) ⟨rfl, rfl, by decide⟩ (by unfold inTime; decide) (by decide),
   fun k => k (((issuing (word (323 * 2 ^ 27 + 14 * 2 ^ 23 + 0))).onTumbler 0 (fun t => { t with ls := [0, 0, 0, 0], le := [0, 0, 0, 0], lc := [5, 0, 0, 0] }))) 0 inv0 (word (323 * 2 ^ 27 + 14 * 2 ^ 23 + 0)) ⟨rfl, rfl, by decide⟩ (by unfold inTime; decide) (by decide),
   fun k => k (((issuing (word (324 * 2 ^ 27 + 14 * 2 ^ 23 + 0))).onTumbler 0 (fun t => { t with ls := [0, 0, 0, 0], le := [0, 0, 0, 0], lc := [5, 0, 0, 0] }))) 0 inv0 (word (324 * 2 ^ 27 + 14 * 2 ^ 23 + 0)) ⟨rfl, rfl, by decide⟩ (by unfold inTime; decide) (by decide),
   fun k => k ((issuing (word (384 * 2 ^ 27 + 2 ^ 20)))) 0 inv0 (word (384 * 2 ^ 27 + 2 ^ 20)) ⟨rfl, rfl, by decide⟩ (by unfold inTime; decide) (by decide),
   fun k => k ((issuing (word (385 * 2 ^ 27 + 0)))) 0 inv0 (word (385 * 2 ^ 27 + 0)) ⟨rfl, rfl, by decide⟩ (by unfold inTime; decide) (by decide),
   fun k => k ((issuing (word (386 * 2 ^ 27 + 9)))) 0 inv0 (word (386 * 2 ^ 27 + 9)) ⟨rfl, rfl, by decide⟩ (by unfold inTime; decide) (by decide)⟩

/-- States and operands that meet the hypotheses of each clause of `BelporExceptions`, part 4: its hypotheses are not contradictory. -/
theorem witness_BelporExceptions_4 :
    (¬ (∀ (s : State) (n : Nat), ∀ inv w, issues n .take s inv w → inTime s n inv 1 → 
        (2 < fPort w ∨ untakenOf s n (tum s n) (fPort w) = 0) →
        False))
    ∧ (¬ (∀ (s : State) (n : Nat), ∀ inv w, issues n .poll s inv w → inTime s n inv 1 → 
        2 < fPort w →
        False))
    ∧ (¬ (∀ (s : State) (n : Nat), ∀ inv w, issues n .post s inv w → inTime s n inv 1 → 
        (tum s n).stores = [] →
        (tum s n).storeFailed = none →
        2 < fPort w →
        False))
    ∧ (¬ (∀ (s : State) (n : Nat), ∀ inv w, issues n .mts s inv w → inTime s n inv 1 → 
        4 ≤ fRd w →
        fRd w < 16 →
        False))
    ∧ (¬ (∀ (s : State) (n : Nat), ∀ inv w, issues n .mts s inv w → inTime s n inv 1 → 
        16 < fRd w →
        False)) :=
  ⟨fun k => k ((issuing (word (449 * 2 ^ 27 + 7 * 2 ^ 14)))) 0 inv0 (word (449 * 2 ^ 27 + 7 * 2 ^ 14)) ⟨rfl, rfl, by decide⟩ (by unfold inTime; decide) (by decide),
   fun k => k ((issuing (word (450 * 2 ^ 27 + 3 * 2 ^ 14)))) 0 inv0 (word (450 * 2 ^ 27 + 3 * 2 ^ 14)) ⟨rfl, rfl, by decide⟩ (by unfold inTime; decide) (by decide),
   fun k => k ((issuing (word (448 * 2 ^ 27 + 3 * 2 ^ 14)))) 0 inv0 (word (448 * 2 ^ 27 + 3 * 2 ^ 14)) ⟨rfl, rfl, by decide⟩ (by unfold inTime; decide) (by decide) rfl (by decide),
   fun k => k ((issuing (word (457 * 2 ^ 27 + 15 * 2 ^ 22)))) 0 inv0 (word (457 * 2 ^ 27 + 15 * 2 ^ 22)) ⟨rfl, rfl, by decide⟩ (by unfold inTime; decide) (by decide) (by decide),
   fun k => k ((issuing (word (457 * 2 ^ 27 + 17 * 2 ^ 22)))) 0 inv0 (word (457 * 2 ^ 27 + 17 * 2 ^ 22)) ⟨rfl, rfl, by decide⟩ (by unfold inTime; decide) (by decide)⟩

/-- States and operands that meet the hypotheses of each clause of `BelporStoresBehindMidway`: its hypotheses are not contradictory. -/
theorem witness_BelporStoresBehindMidway :
    (¬ (∀ (s : State) (n : Nat), ∀ inv w a, issues n .stw s inv w → inTime s n inv 1 → 
        bankFor s inv (tum s n) w = .midway a →
        markedRuns 0 (storeNonets .stw w ((tum s n).get (fRd w))) = [] →
        False))
    ∧ (¬ (∀ (s : State) (n : Nat), ∀ inv w a i d e, issues n .stw s inv w → inTime s n inv 1 → 
        bankFor s inv (tum s n) w = .midway a →
        markedRuns 0 (storeNonets .stw w ((tum s n).get (fRd w))) = [(i, d)] →
        storeOne s (24 + n / 32) (tumblerActor s inv) (a + i) d .other = (.ok, e) →
        False))
    ∧ (¬ (∀ (s : State) (n : Nat), ∀ inv w a, issues n .sth s inv w → inTime s n inv 1 → 
        bankFor s inv (tum s n) w = .midway a →
        markedRuns 0 (storeNonets .sth w ((tum s n).get (fRd w))) = [] →
        False))
    ∧ (¬ (∀ (s : State) (n : Nat), ∀ inv w a i d e, issues n .sth s inv w → inTime s n inv 1 → 
        bankFor s inv (tum s n) w = .midway a →
        markedRuns 0 (storeNonets .sth w ((tum s n).get (fRd w))) = [(i, d)] →
        storeOne s (24 + n / 32) (tumblerActor s inv) (a + i) d .other = (.ok, e) →
        False))
    ∧ (¬ (∀ (s : State) (n : Nat), ∀ inv w a, issues n .stn s inv w → inTime s n inv 1 → 
        bankFor s inv (tum s n) w = .midway a →
        markedRuns 0 (storeNonets .stn w ((tum s n).get (fRd w))) = [] →
        False))
    ∧ (¬ (∀ (s : State) (n : Nat), ∀ inv w a i d e, issues n .stn s inv w → inTime s n inv 1 → 
        bankFor s inv (tum s n) w = .midway a →
        markedRuns 0 (storeNonets .stn w ((tum s n).get (fRd w))) = [(i, d)] →
        storeOne s (24 + n / 32) (tumblerActor s inv) (a + i) d .other = (.ok, e) →
        False))
    ∧ (¬ (∀ (s : State) (n : Nat), ∀ inv w k, issues n .sth s inv w → inTime s n inv 1 → 
        bankFor s inv (tum s n) w = .troupe k →
        troupeOk s inv n k = true →
        troupeBad s n k = true →
        False))
    ∧ (¬ (∀ (s : State) (n : Nat), ∀ inv w k, issues n .stn s inv w → inTime s n inv 1 → 
        bankFor s inv (tum s n) w = .troupe k →
        troupeOk s inv n k = true →
        troupeBad s n k = true →
        False))
    ∧ (¬ (∀ (s : State) (n : Nat), ∀ inv w, issues n .take s inv w → 
        fPort w ≤ 2 →
        0 < untakenOf s n (tum s n) (fPort w) →
        (tum s n).arrived.find? (fun r => r.1 == fPort w) = none →
        False)) :=
  ⟨fun k => k (((issuing (word (257 * 2 ^ 27 + 0))).onTumbler 0 (fun t => { t with bk := [512, 0, 0, 0] }))) 0 inv0 (word (257 * 2 ^ 27 + 0)) 0 ⟨rfl, rfl, by decide⟩ (by unfold inTime; decide) (by decide) (by decide),
   fun k => k ((((issuing (word (257 * 2 ^ 27 + 2 ^ 22))).onTumbler 0 (fun t => { t with bk := [512, 0, 0, 0] })).onTumbler 0 (fun t => { t with w := [(1, 0xFFFFFFFFF)] }))) 0 inv0 (word (257 * 2 ^ 27 + 2 ^ 22)) 0 _ _ _ ⟨rfl, rfl, by decide⟩ (by unfold inTime; decide) (by decide) rfl rfl,
   fun k => k (((issuing (word (262 * 2 ^ 27 + 0))).onTumbler 0 (fun t => { t with bk := [512, 0, 0, 0] }))) 0 inv0 (word (262 * 2 ^ 27 + 0)) 0 ⟨rfl, rfl, by decide⟩ (by unfold inTime; decide) (by decide) (by decide),
   fun k => k ((((issuing (word (262 * 2 ^ 27 + 2 ^ 22))).onTumbler 0 (fun t => { t with bk := [512, 0, 0, 0] })).onTumbler 0 (fun t => { t with w := [(1, 0xFFFFFFFFF)] }))) 0 inv0 (word (262 * 2 ^ 27 + 2 ^ 22)) 0 _ _ _ ⟨rfl, rfl, by decide⟩ (by unfold inTime; decide) (by decide) rfl rfl,
   fun k => k (((issuing (word (268 * 2 ^ 27 + 0))).onTumbler 0 (fun t => { t with bk := [512, 0, 0, 0] }))) 0 inv0 (word (268 * 2 ^ 27 + 0)) 0 ⟨rfl, rfl, by decide⟩ (by unfold inTime; decide) (by decide) (by decide),
   fun k => k ((((issuing (word (268 * 2 ^ 27 + 2 ^ 22))).onTumbler 0 (fun t => { t with bk := [512, 0, 0, 0] })).onTumbler 0 (fun t => { t with w := [(1, 0xFFFFFFFFF)] }))) 0 inv0 (word (268 * 2 ^ 27 + 2 ^ 22)) 0 _ _ _ ⟨rfl, rfl, by decide⟩ (by unfold inTime; decide) (by decide) rfl rfl,
   fun k => k (((issuing (word (262 * 2 ^ 27 + 0))).onMem (fun m => { m with bad := [0x030100000000] }))) 0 inv0 (word (262 * 2 ^ 27 + 0)) 0 ⟨rfl, rfl, by decide⟩ (by unfold inTime; decide) (by decide) (by decide) (by decide),
   fun k => k (((issuing (word (268 * 2 ^ 27 + 0))).onMem (fun m => { m with bad := [0x030100000000] }))) 0 inv0 (word (268 * 2 ^ 27 + 0)) 0 ⟨rfl, rfl, by decide⟩ (by unfold inTime; decide) (by decide) (by decide) (by decide),
   fun k => k (((issuing (word (449 * 2 ^ 27 + 0))).onSess (fun x => { x with replies := [{ id := 0, tumbler := 0, port := 0, words := none }] }))) 0 inv0 (word (449 * 2 ^ 27 + 0)) ⟨rfl, rfl, by decide⟩ (by decide) (by decide) rfl⟩

/-- States and operands that meet the hypotheses of each clause of `BelporResultFrame`: its hypotheses are not contradictory. -/
theorem witness_BelporResultFrame :
    ¬ (∀ (s : State) (n : Nat), ∀ i o c inv w t, executes n i o → resultCycles o = some c → issues n o s inv w → inTime s n inv c → exec i s = .next t →
        False) :=
  fun k => k ((issuing (word (1 * 2 ^ 27 + 0)))) 0 (.add 0) .add 1 inv0 (word (1 * 2 ^ 27 + 0)) _ rfl rfl ⟨rfl, rfl, by decide⟩ (by unfold inTime; decide) rfl

/-- States and operands that meet the hypotheses of each clause of `BelporMemoryFrame`: its hypotheses are not contradictory. -/
theorem witness_BelporMemoryFrame :
    (¬ (∀ (s : State) (n : Nat), ∀ inv w k t, issues n .ldw s inv w → inTime s n inv 2 → bankFor s inv (tum s n) w = .troupe k → troupeOk s inv n k = true → troupeBad s n k = false →
        exec (.ldw n) s = .next t → False))
    ∧ (¬ (∀ (s : State) (n : Nat), ∀ inv w k t, issues n .ldh s inv w → inTime s n inv 2 → bankFor s inv (tum s n) w = .troupe k → troupeOk s inv n k = true → troupeBad s n k = false →
        exec (.ldh n) s = .next t → False))
    ∧ (¬ (∀ (s : State) (n : Nat), ∀ inv w k t, issues n .ldhs s inv w → inTime s n inv 2 → bankFor s inv (tum s n) w = .troupe k → troupeOk s inv n k = true → troupeBad s n k = false →
        exec (.ldhs n) s = .next t → False))
    ∧ (¬ (∀ (s : State) (n : Nat), ∀ inv w k t, issues n .ldn s inv w → inTime s n inv 2 → bankFor s inv (tum s n) w = .troupe k → troupeOk s inv n k = true → troupeBad s n k = false →
        exec (.ldn n) s = .next t → False))
    ∧ (¬ (∀ (s : State) (n : Nat), ∀ inv w k t, issues n .stw s inv w → inTime s n inv 1 → bankFor s inv (tum s n) w = .troupe k → troupeOk s inv n k = true → 
        exec (.stw n) s = .next t → False))
    ∧ (¬ (∀ (s : State) (n : Nat), ∀ inv w k t, issues n .sth s inv w → inTime s n inv 1 → bankFor s inv (tum s n) w = .troupe k → troupeOk s inv n k = true → troupeBad s n k = false → 
        exec (.sth n) s = .next t → False))
    ∧ (¬ (∀ (s : State) (n : Nat), ∀ inv w k t, issues n .stn s inv w → inTime s n inv 1 → bankFor s inv (tum s n) w = .troupe k → troupeOk s inv n k = true → troupeBad s n k = false → 
        exec (.stn n) s = .next t → False))
    ∧ (¬ (∀ (s : State) (n : Nat), ∀ inv w k t, issues n .aadd s inv w → inTime s n inv 3 → bankFor s inv (tum s n) w = .troupe k → troupeOk s inv n k = true → troupeBad s n k = false →
        exec (.aadd n) s = .next t → False))
    ∧ (¬ (∀ (s : State) (n : Nat), ∀ inv w k t, issues n .acas s inv w → inTime s n inv 3 → bankFor s inv (tum s n) w = .troupe k → troupeOk s inv n k = true → troupeBad s n k = false →
        exec (.acas n) s = .next t → False)) :=
  ⟨fun k => k ((issuing (word (256 * 2 ^ 27 + 0)))) 0 inv0 (word (256 * 2 ^ 27 + 0)) 0 _ ⟨rfl, rfl, by decide⟩ (by unfold inTime; decide) (by decide) (by decide) (by decide) rfl,
   fun k => k ((issuing (word (258 * 2 ^ 27 + 0)))) 0 inv0 (word (258 * 2 ^ 27 + 0)) 0 _ ⟨rfl, rfl, by decide⟩ (by unfold inTime; decide) (by decide) (by decide) (by decide) rfl,
   fun k => k ((issuing (word (260 * 2 ^ 27 + 0)))) 0 inv0 (word (260 * 2 ^ 27 + 0)) 0 _ ⟨rfl, rfl, by decide⟩ (by unfold inTime; decide) (by decide) (by decide) (by decide) rfl,
   fun k => k ((issuing (word (264 * 2 ^ 27 + 0)))) 0 inv0 (word (264 * 2 ^ 27 + 0)) 0 _ ⟨rfl, rfl, by decide⟩ (by unfold inTime; decide) (by decide) (by decide) (by decide) rfl,
   fun k => k ((issuing (word (257 * 2 ^ 27 + 0)))) 0 inv0 (word (257 * 2 ^ 27 + 0)) 0 _ ⟨rfl, rfl, by decide⟩ (by unfold inTime; decide) (by decide) (by decide) rfl,
   fun k => k ((issuing (word (262 * 2 ^ 27 + 0)))) 0 inv0 (word (262 * 2 ^ 27 + 0)) 0 _ ⟨rfl, rfl, by decide⟩ (by unfold inTime; decide) (by decide) (by decide) (by decide) rfl,
   fun k => k ((issuing (word (268 * 2 ^ 27 + 0)))) 0 inv0 (word (268 * 2 ^ 27 + 0)) 0 _ ⟨rfl, rfl, by decide⟩ (by unfold inTime; decide) (by decide) (by decide) (by decide) rfl,
   fun k => k ((issuing (word (272 * 2 ^ 27 + 0)))) 0 inv0 (word (272 * 2 ^ 27 + 0)) 0 _ ⟨rfl, rfl, by decide⟩ (by unfold inTime; decide) (by decide) (by decide) (by decide) rfl,
   fun k => k ((issuing (word (273 * 2 ^ 27 + 0)))) 0 inv0 (word (273 * 2 ^ 27 + 0)) 0 _ ⟨rfl, rfl, by decide⟩ (by unfold inTime; decide) (by decide) (by decide) (by decide) rfl⟩

/-- States and operands that meet the hypotheses of each clause of `CallAndReturn`: its hypotheses are not contradictory. -/
theorem witness_CallAndReturn :
    (¬ (∀ (s : State) (n : Nat), ∀ inv w, issues n .call s inv w → inTime s n inv 2 → condHolds (tum s n).fl (fCond w) = true → atLoopEnd (tum s n) = false →
        False))
    ∧ (¬ (∀ (s : State) (n : Nat), ∀ inv w, issues n .ret s inv w → inTime s n inv 2 → condHolds (tum s n).fl (fCond w) = true → atLoopEnd (tum s n) = false →
        False)) :=
  ⟨fun k => k ((issuing (word (322 * 2 ^ 27 + 14 * 2 ^ 23 + 9)))) 0 inv0 (word (322 * 2 ^ 27 + 14 * 2 ^ 23 + 9)) ⟨rfl, rfl, by decide⟩ (by unfold inTime; decide) (by decide) (by decide),
   fun k => k ((issuing (word (324 * 2 ^ 27 + 14 * 2 ^ 23 + 0)))) 0 inv0 (word (324 * 2 ^ 27 + 14 * 2 ^ 23 + 0)) ⟨rfl, rfl, by decide⟩ (by unfold inTime; decide) (by decide) (by decide)⟩

/-- States and operands that meet the hypotheses of each clause of `PairsAreTwoLanes`: its hypotheses are not contradictory. -/
theorem witness_PairsAreTwoLanes :
    (¬ (∀ (s : State) (n : Nat), ∀ inv w, issues n .addp s inv w → inTime s n inv 1 → False))
    ∧ (¬ (∀ (s : State) (n : Nat), ∀ inv w, issues n .subp s inv w → inTime s n inv 1 → False))
    ∧ (¬ (∀ (s : State) (n : Nat), ∀ inv w, issues n .addps s inv w → inTime s n inv 1 → False))
    ∧ (¬ (∀ (s : State) (n : Nat), ∀ inv w, issues n .subps s inv w → inTime s n inv 1 → False)) :=
  ⟨fun k => k ((issuing (word (48 * 2 ^ 27 + 0)))) 0 inv0 (word (48 * 2 ^ 27 + 0)) ⟨rfl, rfl, by decide⟩ (by unfold inTime; decide),
   fun k => k ((issuing (word (49 * 2 ^ 27 + 0)))) 0 inv0 (word (49 * 2 ^ 27 + 0)) ⟨rfl, rfl, by decide⟩ (by unfold inTime; decide),
   fun k => k ((issuing (word (50 * 2 ^ 27 + 0)))) 0 inv0 (word (50 * 2 ^ 27 + 0)) ⟨rfl, rfl, by decide⟩ (by unfold inTime; decide),
   fun k => k ((issuing (word (51 * 2 ^ 27 + 0)))) 0 inv0 (word (51 * 2 ^ 27 + 0)) ⟨rfl, rfl, by decide⟩ (by unfold inTime; decide)⟩

/-- States and operands that meet the hypotheses of each clause of `SatClipsToItsWidth`: its hypotheses are not contradictory. -/
theorem witness_SatClipsToItsWidth :
    (¬ (∀ (s : State) (n : Nat), ∀ inv w, issues n .sat s inv w → inTime s n inv 1 → False))
    ∧ (¬ (∀ (s : State) (n : Nat), ∀ w, opOf (fOp w) = some .sat → (fFn w = 0 ∨ 36 < fFn w) → False))
    ∧ (¬ (∀ (s : State) (n : Nat), ∀ (a : Word) (k : Nat), 1 ≤ k → k ≤ 36 → False)) :=
  ⟨fun k => k ((issuing (word (64 * 2 ^ 27 + 36)))) 0 inv0 (word (64 * 2 ^ 27 + 36)) ⟨rfl, rfl, by decide⟩ (by unfold inTime; decide),
   fun k => k (State.reset) 0 (word (64 * 2 ^ 27 + 37)) (by decide) (by decide),
   fun k => k (State.reset) 0 0 36 (by decide) (by decide)⟩

/-! The frames of JTAG, of completion and of the queue: their hypotheses are met. -/

theorem witness_JtagFrame :
    (∃ t, exec .samplePreload State.reset = .next t) ∧ (∃ t, exec .bypass State.reset = .next t) ∧ (∃ t, exec .tapReset State.reset = .next t)
    ∧ (∃ t, exec .extest State.reset = .next t) ∧ (∃ t, exec .highz State.reset = .next t) ∧ (∃ t, exec .clamp State.reset = .next t)
    ∧ (∃ t, exec .extestPulse State.reset = .next t) ∧ (∃ t, exec .extestTrain State.reset = .next t) ∧ State.reset.test.bootWaits = false :=
  ⟨⟨_, rfl⟩, ⟨_, rfl⟩, ⟨_, rfl⟩, ⟨_, rfl⟩, ⟨_, rfl⟩, ⟨_, rfl⟩, ⟨_, rfl⟩, ⟨_, rfl⟩, rfl⟩

theorem witness_CompletionFrame : ∃ h s e r, completes (.nop h) h s e r ∧ ∃ t, exec (.nop h) s = .next t :=
  ⟨hdr 0 0, cmd State.reset 0 1 1, applied (cmd State.reset 0 1 1) (hdr 0 0), [], rfl, _, rfl⟩

/-- A command at the front of the queue and a command behind it: the step goes on and leaves the second. -/
theorem witness_QueueLosesOnlyItsFront :
    ∃ t, step { State.reset with pending := [.erefReturn, .hotReset] } = .next t ∧ t.pending = [.hotReset] := ⟨_, rfl, rfl⟩

/-- A machine whose memories are canonical and not empty, and a step of it. -/
theorem witness_MemoriesStayCanonical :
    memoriesWf (issuing (word (504 * 2 ^ 27))) ∧ ∃ t, step { issuing (word (504 * 2 ^ 27)) with pending := [.endact 0] } = .next t :=
  ⟨⟨rfl, rfl, rfl⟩, ⟨_, rfl⟩⟩

/-- With no command waiting and nothing to close, a step is a tick; with no VMAIN and no crystal it changes nothing. -/
theorem witness_EmptyQueueTicks :
    (∃ t, step State.reset = .next t) ∧ State.reset.detaches = [] ∧ State.reset.pending = []
    ∧ ((State.reset.onPower (fun p => { p with vmain := false })).onClock (fun c => { c with xtal := false })).power.vmain = false :=
  ⟨⟨_, rfl⟩, rfl, rfl, rfl⟩

/-! Well-formedness: a term that each kind of check refuses, and a term it accepts. -/

theorem test_wellFormed_accepts : wellFormed (.rtcSet 0xFFFFFFFF) = true ∧ wellFormed (.epochWait (hdr 1008 15) 65535) = true
    ∧ wellFormed (.hostWindowSet (hdr 0 0) 4095 win true) = true := by decide

/-- Too wide a value for a field of the header: function, identifier, partition, tenant, CONTEXT. -/
theorem test_wellFormed_header : wellFormed (.epochWait (hdr 1009 0) 0) = false ∧ wellFormed (.epochWait { hdr 0 0 with id := 65536 } 0) = false
    ∧ wellFormed (.epochWait (hdr 0 16) 0) = false ∧ wellFormed (.epochWait { hdr 0 0 with tenant := 64 } 0) = false
    ∧ wellFormed (.epochWait { hdr 0 0 with context := 2 ^ 64 } 0) = false := by decide

/-- Too wide a value in a command's own field, in a list, and a list of the wrong length. -/
theorem test_wellFormed_fields : wellFormed (.rtcSet (2 ^ 32)) = false ∧ wellFormed (.hbm1500 4) = false
    ∧ wellFormed (.shareStatusUpdate 1009) = false
    ∧ wellFormed (.txqCreate (hdr 0 0) { queue := 0, lport := 0, cls := 0, share := 0, internal := false, meter := 0, base := 0, log2 := 0, vector := 0, frameLimit := 0, rateKbps := 0, size := 2 ^ 24 }) = false
    ∧ wellFormed (.portConfigSet (hdr 0 0) { port0 with xoff := [0] }) = false
    ∧ wellFormed (.sessionOpen (hdr 0 0) 0 (some { sess0 with ptSet := [256, 0, 0, 0] })) = false
    ∧ wellFormed (.keyLoad (hdr 0 0) 0 (some { key0 with material := [] })) = false
    ∧ wellFormed (.actBind (hdr 0 0) { bind0 with tumblers := [128] }) = false := by decide

/-- Too wide a value in a block of each kind that a command carries. -/
theorem test_wellFormed_blocks :
    (hostWindowLimits { win with offset := 2 ^ 31 } ++ tpWindowLimits { tpWin0 with accBase := 2 ^ 48 }).countP (fun l => decide (l.2 ≤ l.1)) = 2
    ∧ (ringBindLimits { ring0 with log2 := 256 } ++ rxRuleLimits { rule0 with priority := 65536 } ++ meterSetLimits { meter0 with cbs := 2 ^ 24 }).countP (fun l => decide (l.2 ≤ l.1)) = 3
    ∧ (regionSetLimits { region0 with key := 2 ^ 32 } ++ queueCreateLimits { create0 with pasid := 2 ^ 20 } ++ codecOpenLimits { codec0 with rate := 2 ^ 32 }).countP (fun l => decide (l.2 ≤ l.1)) = 3
    ∧ (volumeCreateLimits { vol0 with nsid := 2 ^ 32 } ++ connectBlockLimits { conn0.blk with paths := 256 } ++ pressMsgLimits { (default : PressMsg) with job := 2 ^ 64 }).countP (fun l => decide (l.2 ≤ l.1)) = 3
    ∧ (mctpReqLimits { (default : MctpReq) with binding := 2 ^ 64 } ++ imageLimits { (default : Image) with svn := 2 ^ 64 } ++ armBlockLimits { arm0 with setTimeoutMs := 2 ^ 64 }).countP (fun l => decide (l.2 ≤ l.1)) = 3 := by
  decide

/-! Worked examples of the manual. -/

/-- 00, after R8: the constant 777.000.012.345. -/
theorem test_nonets : ofNonets 0o777 0o000 0o012 0o345 = word 68585264357 := by decide

/-- 10, after R265: ADD W3, W4, W5 is 001.062.050.000 and LDW W12, [BS0: W12 + 0x3000] is 400.301.430.000. -/
theorem test_decode_add_ldw : belporDecode (ofNonets 0o001 0o062 0o050 0o000) = some .add
    ∧ fRd (ofNonets 0o001 0o062 0o050 0) = 3 ∧ fRa (ofNonets 0o001 0o062 0o050 0) = 4 ∧ fRb (ofNonets 0o001 0o062 0o050 0) = 5
    ∧ belporDecode (ofNonets 0o400 0o301 0o430 0) = some .ldw ∧ fRd (ofNonets 0o400 0o301 0o430 0) = 12 ∧ fBs (ofNonets 0o400 0o301 0o430 0) = 0
    ∧ fRaM (ofNonets 0o400 0o301 0o430 0) = 12 ∧ fDisp (ofNonets 0o400 0o301 0o430 0) = 0x3000 := by decide

/-- The state an instruction leads to. -/
theorem test_nperm : ∃ t, exec (.nperm 0) ((issuing (ofNonets 0o051 0o305 0o400 0o123)).onTumbler 0 (fun t => { t with w := [(11, ofNonets 0o541 0 0o523 0o400)] })) = .next t
    ∧ (tum t 0).get 12 = ofNonets 0o400 0o523 0o000 0o541 ∧ bit (tum t 0).fl 1 = false ∧ bit (tum t 0).fl 2 = true := ⟨_, rfl, by decide, by decide, by decide⟩

/-- 10, after R273: SETH W11, 0o001132. -/
theorem test_seth : ∃ t, exec (.seth 0) (issuing (ofNonets 0o210 0o260 0o001 0o132)) = .next t ∧ (tum t 0).get 11 = ofNonets 0o001 0o132 0 0 :=
  ⟨_, rfl, by decide⟩

/-- 09, after R251: the effective address of a store into stage memory, and the octets it writes. -/
theorem test_store_address : bankOf 0 (effective { bk := [0, 1, 0x101, 3], w := [(9, word 0x3FFF0)] } (word (257 * 2 ^ 27 + 12 * 2 ^ 22 + 2 * 2 ^ 20 + 9 * 2 ^ 15 + 0x20)))
      = .midway 0x010000100040
    ∧ markedRuns 0 (storeNonets .stw (word (257 * 2 ^ 27)) (ofNonets 0o541 0 0o523 0o100)) = [(0, [0x61]), (2, [0x53])] := by decide

/-- 09, after R257: two loops that end at one address; the inner one ends and the outer one goes on. -/
theorem test_nested_loops : endAction 0x120 4 { ls := [0x101, 0x103, 0, 0], le := [0x120, 0x120, 0, 0], lc := [4, 1, 0, 0] }
    = ({ ls := [0x101, 0x103, 0, 0], le := [0x120, 0x120, 0, 0], lc := [3, 0, 0, 0] }, 0x101)
    ∧ (endAction 0x120 4 { ls := [0x101, 0x103, 0, 0], le := [0x120, 0x120, 0, 0], lc := [1, 1, 0, 0] }).2 = 0x121 := by decide

/-- 06, after R161: index extension across the wrap, both ways. -/
theorem test_index_extension : extendIndex { part := 3, seq := some { low := 65530, high := 3 } } 0 4 = some 262148
    ∧ extendIndex { part := 3, seq := some { low := 4, high := 4 } } 0 65528 = some 262136
    ∧ replayed { part := 3, seq := some { low := 4, high := 4 }, high := 262148, window := 1 } 262136 = false := by decide

/-- 06, after R185: the sample 12,288 becomes 0.375 in FP16 and comes back. -/
theorem test_int16_fp16 : (toElem 3 (scaleFV (decodeElem 1 12288) (-15)) false none).bits = 0x3600
    ∧ (toElem 1 (scaleFV (decodeElem 3 0x3600) 15) false none).bits = 12288 := by decide

/-- 06, after R191: a block of MXFP4. -/
theorem test_mxfp4 : (convTensor 7 false false (([0x3A00, 0xBD33, 0x4533, 0x2E66] ++ List.replicate 28 0).map (fun v => (decodeElem 3 v, false))) 0).1
    = [0xB2, 0x07] ++ zeros 62 ++ [0x7F] := by decide

/-- 05, after R131: the colours of the ten frames of a burst. -/
theorem test_trtcm :
    let m : Meter := { cur := { part := 3, tenant := 0, fn := 0, algorithm := 2, colourAware := false, actGreen := 0, actYellow := 0, actRed := 2, cir := 100, pir := 200, cbs := 1000, ebs := 2000, dscp := 0 }, c := 8000000, p := 16000000 }
    ((List.range 10).foldl (fun (a : List Nat × Meter) _ => (a.1 ++ [(meterColour a.2 238 false).1], (meterColour a.2 238 false).2)) ([], m)).1
      = [0, 0, 0, 0, 1, 1, 1, 1, 2, 2] := by decide

/-- 05, after R144: the time a frame takes at 400 Gb/s. -/
theorem test_gate_time : gateTime 9216 400 = 200 ∧ gateTime 9000 400 = 192 ∧ gateTime 1518 400 = 40 := by decide

/-- 11, after R312: the accelerator address of a transaction in a window. -/
theorem test_window_address : accAddr { tpWin0 with offset := 0x300000, accBase := 0x200000000, sizeLog2 := 32 } (0x30F0000940) = 0x2F0000940 := by decide

end Sys2Proof.Tests
end

section
/-! PROOFS. Proofs/MidwayAndEpochs.lean: for each row of Midway, the ledgers and the epochs, the state it leaves when its
premise holds, and the statement O29, which is their conjunction. -/

namespace Sys2Proof.Proofs

open Machine

/-! Midway's targets (03 R82 to R90, 04 R113). -/

/-- The requests `rs` have come to target `t`, and in fixed-equal-share mode its rotation has turned by one slot. -/
def targetLatched (s : State) (t : Nat) (rs : List MwReq) : State :=
  s.onTarget t (fun g => mwLatch t { g with slot := if s.fixedMode then (g.slot + 1) % 17 else g.slot } rs)

/-- The heads of target `t` among which it chooses. -/
def eligibleHeads (s : State) (t : Nat) : List MwHead :=
  (tgetD s.mem.targets t {}).heads.filter (mwEligible s (tgetD s.mem.targets t {}) (tgetD s.mem.targets t {}).slot)

/-- The granted head `hd` has left target `t`, and the heads it has passed over count the grant (03 R86). -/
def headTaken (s : State) (fixed : Bool) (t : Nat) (hd : MwHead) : State :=
  s.onTarget t (fun g => { g with
    heads := (g.heads.filter (fun x => x.req.master != hd.req.master)).map
      (fun x => if !fixed || mwSlot x.req == mwSlot hd.req then { x with others := x.others + 1 } else x) })

/-- Latching requests does not change the share mode, so the heads that count a grant may be named by the state before. -/
theorem fixedMode_targetLatched (s : State) (t : Nat) (rs : List MwReq) : (targetLatched s t rs).fixedMode = s.fixedMode := rfl

theorem exec_midwayGrant_of_choice {s : State} {t : Nat} {rs : List MwReq} {hd : MwHead} (ht : t ≤ 21)
    (hc : mwChoose (targetLatched s t rs) t (eligibleHeads (targetLatched s t rs) t) = some hd) :
    exec (.midwayGrant t rs) s = .next (mwGranted (headTaken (targetLatched s t rs) s.fixedMode t hd) t hd.req) := by
  have hrow : exec (.midwayGrant t rs) s =
      if 21 < t then .next s
      else match mwChoose (targetLatched s t rs) t (eligibleHeads (targetLatched s t rs) t) with
        | none => .next (targetLatched s t rs)
        | some h => .next (mwGranted (headTaken (targetLatched s t rs) (targetLatched s t rs).fixedMode t h) t h.req) := rfl
  rw [hrow, if_neg (Nat.not_lt.mpr ht), hc, fixedMode_targetLatched]

theorem exec_lockWatchdog_of_lock {s : State} {t : Nat} {l : MwLock} (hl : (tgetD s.mem.targets t {}).lock = some l) :
    exec (.lockWatchdog t) s = .next (lockBreak s t l.master l.addr false) := by
  change execLockWatchdog t s = _
  simp only [execLockWatchdog, hl]

theorem exec_patrolScrub_of_powered {s : State} {a : Nat} {corrected uncorrectable : Bool} (ha : protectedMem a = true)
    (hv : s.power.vmain = true) (hf : s.power.st ≠ .faulted) :
    exec (.patrolScrub a corrected uncorrectable) s = .next
      (if uncorrectable || s.mem.bad.contains (unitAt a).1 then
        memError (s.onMem (fun m => { m with bad := if m.bad.contains (unitAt a).1 then m.bad else m.bad ++ [(unitAt a).1] })) (unitAt a).1
      else if corrected then correctedCount s a else s) := by
  have hp : (!protectedMem a || !s.power.vmain || s.power.st == .faulted) = false := by
    rw [ha, hv, beq_eq_false_iff_ne.mpr hf]; rfl
  change execPatrolScrub a corrected uncorrectable s = _
  unfold execPatrolScrub
  rw [hp]
  exact (apply_ite Host.Outcome.next _ _ _).symm

/-! Handshakes and the ledger auditor (02 R40, R41, R48, R49). -/

/-- A channel after its receiver has freed slots and its sender has seen returns, as many as given and possible. -/
def ticketsReturned (c : Channel) (freed returned : Nat) : Channel :=
  let a := { c with freed := modAdd 16 c.freed (min freed (chanOccupied c)) }
  { a with freedSeen := modAdd 16 a.freedSeen (min returned (modSub 16 a.freed a.freedSeen)) }

/-- One transfer over channel `k`, where its sender holds a ticket. -/
def transferred (k : Nat) (c : Channel) : Channel :=
  if chanHeld k c == 0 then c else { c with launched := modAdd 16 c.launched 1, accepted := modAdd 16 c.accepted 1 }

theorem exec_handshakeTransfer_of_open {s : State} {receiver sender : Nat} (traffic i freed returned : Nat)
    (hs : quarantined s sender = false) (hr : quarantined s receiver = false) :
    exec (.handshakeTransfer receiver sender traffic i freed returned) s = .next
      { s with chans := tset s.chans (chanKey receiver sender traffic i) (transferred (chanKey receiver sender traffic i)
        (ticketsReturned (tgetD s.chans (chanKey receiver sender traffic i) {}) freed returned)) } := by
  have hq : (quarantined s sender || quarantined s receiver) = false := by rw [hs, hr]; rfl
  change execHandshakeTransfer receiver sender traffic i freed returned s = _
  unfold execHandshakeTransfer
  rw [hq]
  rfl

/-- Is a run of imbalanced samples the one of this ledger? -/
def runOf (kind island index : Nat) (r : AuditRun) : Bool := r.kind == kind && r.island == island && r.index == index

/-- How many imbalanced samples in a row a ledger has had (02 R49). -/
def imbalanced (s : State) (kind island index : Nat) : Nat :=
  match s.audits.find? (runOf kind island index) with | some r => r.run | none => 0

/-- The run of a ledger has ended. -/
def runEnded (s : State) (kind island index : Nat) : State :=
  { s with audits := s.audits.filter (fun r => !runOf kind island index r) }

/-- The run of a ledger stands at `n` samples, the last of which latched these counts. -/
def runLatched (s : State) (kind island index held inUse total n : Nat) : State :=
  { runEnded s kind island index with audits := (runEnded s kind island index).audits ++
    [{ kind := kind, island := island, index := index, run := n, held := held, inUse := inUse, total := total }] }

theorem exec_ledgerAuditSample_of_audited {s : State} {kind island index : Nat} (held inUse : Nat) {a : Audit}
    (ha : (auditsNamed s kind index).find? (fun a => a.island == island && a.index == index) = some a)
    (hi : auditIgnored s kind island index = false) :
    exec (.ledgerAuditSample kind island index held inUse) s = .next
      (if verdict kind held inUse a.total a.slack < 2 then runEnded s kind island index
      else if imbalanced s kind island index + 1 < 12 then
        runLatched s kind island index held inUse a.total (imbalanced s kind island index + 1)
      else ledgerFault (runLatched s kind island index held inUse a.total 0) kind island index held inUse a.total) := by
  change execLedgerAuditSample kind island index held inUse s = _
  unfold execLedgerAuditSample
  rw [ha, apply_ite Host.Outcome.next, apply_ite Host.Outcome.next]
  exact if_neg (Bool.eq_false_iff.mp hi)

/-! Epochs and the completions of releases (02 R46, R59, 07 R200, 17 R467, R477). -/

theorem exec_epochAdopt_of_remaining {s : State} {p i : Nat} (hr : (s.part p).remaining.contains i = true)
    (hq : quarantined s i = false) (hi : i < 128 → (tgetD s.acts.tumblers i {}).run = none) :
    exec (.epochAdopt p i) s = .next (closeAdvance (releaseDeferred (islandAdopt (leaveSet s p i) p i))) := by
  have hrun : (decide (i < 128) && (tgetD s.acts.tumblers i {}).run.isSome) = false := by
    by_cases h : i < 128
    · rw [hi h]; exact Bool.and_false _
    · rw [decide_eq_false h]; rfl
  change execEpochAdopt p i s = _
  unfold execEpochAdopt
  rw [hr, hq, hrun]
  rfl

theorem exec_epochRetire_of_adopted {s : State} {p : Nat} {e : Nat × Cfg} (ho : (s.part p).old = some e)
    (hr : (s.part p).remaining = []) (hw : oldWork s p e.1 = false) :
    exec (.epochRetire p) s = .next (closeAdvance (retirePart s p)) := by
  change execEpochRetire p s = _
  simp only [execEpochRetire, ho, hr, hw, List.isEmpty_nil, Bool.not_true, Bool.or_self, Bool.false_eq_true, if_false]

theorem exec_keySlotScrubComplete_of_zeroising {s : State} {slot : Nat} {k : KeySlot}
    (hk : tget s.cipher.slots slot = some k) (hz : k.state = .zeroising) :
    exec (.keySlotScrubComplete slot) s = .next (s.onCipher (fun c => { c with slots := tdel c.slots slot })) := by
  change execKeySlotScrubComplete slot s = _
  simp only [execKeySlotScrubComplete, hk, hz, beq_self_eq_true, if_true]

theorem exec_freeListTakesCell_of_released {s : State} {c : Nat} {u : CellUse}
    (hc : tget s.mem.cells c = some u) (hu : u.released = true) :
    exec (.freeListTakesCell c) s = .next (s.onMem (fun m => { m with cells := tdel m.cells c })) := by
  change execFreeListTakesCell c s = _
  simp only [execFreeListTakesCell, hc, hu, if_true]

theorem exec_shareStatusUpdate_of_stale {s : State} {vf : Nat} (hs : shareStale s vf = true)
    (ht : (s.fn vf).ssUpdatedAt + 100000 ≤ s.clock.cadence) :
    exec (.shareStatusUpdate vf) s = .next (shareUpdate s vf) := by
  change execShareStatusUpdate vf s = _
  simp only [execShareStatusUpdate, hs, Nat.not_lt.mpr ht, decide_false, Bool.not_true, Bool.or_self, Bool.false_eq_true, if_false]

/-- Settles O29: each row has the effect its lemma above states. -/
theorem midwayAndEpochEvents : Obligations.MidwayAndEpochEvents := by
  intro s
  refine ⟨?grant, ?watchdog, ?patrol, ?handshake, ?audit, ?adopt, ?retire, ?scrub, ?keySlot, ?cell, ?share⟩
  case grant => exact fun _ _ _ ht hc => exec_midwayGrant_of_choice ht hc
  case watchdog => exact fun _ _ hl => exec_lockWatchdog_of_lock hl
  case patrol => exact fun _ _ _ ha hv hf => exec_patrolScrub_of_powered ha hv hf
  case handshake => exact fun _ _ traffic i freed returned hs hr => exec_handshakeTransfer_of_open traffic i freed returned hs hr
  case audit => exact fun _ _ _ held inUse _ ha hi => exec_ledgerAuditSample_of_audited held inUse ha hi
  case adopt => exact fun _ _ hr hq hi => exec_epochAdopt_of_remaining hr hq hi
  case retire => exact fun _ _ ho hr hw => exec_epochRetire_of_adopted ho hr hw
  case scrub => rfl
  case keySlot => exact fun _ _ hk hz => exec_keySlotScrubComplete_of_zeroising hk hz
  case cell => exact fun _ _ hc hu => exec_freeListTakesCell_of_released hc hu
  case share => exact fun _ hs ht => exec_shareStatusUpdate_of_stale hs ht

end Sys2Proof.Proofs
end

section
/-! PROOFS. Proofs/MemoriesStayCanonical.lean: every command's meaning, and the idle step, keep the queue, the security
version and the form of the memories; and the statement O6, which is its part about the memories. -/

namespace Sys2Proof.Proofs

open Machine Safety

/-- Every command answers a next state, and keeps what `Keeps` names: each by the lemma about its meaning. -/
theorem keeps_exec (i : Instr) (s : State) : KeepsO s (exec i s) := by
  have h := Keeps.refl s
  cases i with
  | nop => exact keeps_execNop (hK := h) ..
  | cancel => exact keeps_execCancel (hK := h) ..
  | boothInfo => exact keeps_execBoothInfo (hK := h) ..
  | msixHoldoffSet => exact keeps_execMsixHoldoffSet (hK := h) ..
  | partitionSharesSet => exact keeps_execPartitionSharesSet (hK := h) ..
  | partitionInfo => exact keeps_execPartitionInfo (hK := h) ..
  | midwayPrioritySet => exact keeps_execMidwayPrioritySet (hK := h) ..
  | hostWindowSet => exact keeps_execHostWindowSet (hK := h) ..
  | apertureSet => exact keeps_execApertureSet (hK := h) ..
  | hostTimeoutSet => exact keeps_execHostTimeoutSet (hK := h) ..
  | islandRelease => exact keeps_execIslandRelease (hK := h) ..
  | tenantAttach => exact keeps_execTenantAttach (hK := h) ..
  | tenantDetach => exact keeps_execTenantDetach (hK := h) ..
  | tenantLimitsSet => exact keeps_execTenantLimitsSet (hK := h) ..
  | tenantMemorySet => exact keeps_execTenantMemorySet (hK := h) ..
  | epochInfo => exact keeps_execEpochInfo (hK := h) ..
  | epochWait => exact keeps_execEpochWait (hK := h) ..
  | ledgerAudit => exact keeps_execLedgerAudit (hK := h) ..
  | sessionOpen => exact keeps_execSessionOpen (hK := h) ..
  | sessionModify => exact keeps_execSessionModify (hK := h) ..
  | sessionClose => exact keeps_execSessionClose (hK := h) ..
  | sessionStats => exact keeps_execSessionStats (hK := h) ..
  | feedRingBind => exact keeps_execFeedRingBind (hK := h) ..
  | returnRingBind => exact keeps_execReturnRingBind (hK := h) ..
  | feedRingReset => exact keeps_execFeedRingReset (hK := h) ..
  | returnRingReset => exact keeps_execReturnRingReset (hK := h) ..
  | feedRingUnbind => exact keeps_execFeedRingUnbind (hK := h) ..
  | returnRingUnbind => exact keeps_execReturnRingUnbind (hK := h) ..
  | feedSeed => exact keeps_execFeedSeed (hK := h) ..
  | keyLoad => exact keeps_execKeyLoad (hK := h) ..
  | keyInfo => exact keeps_execKeyInfo (hK := h) ..
  | keyDestroy => exact keeps_execKeyDestroy (hK := h) ..
  | cipherSelftest => exact keeps_execCipherSelftest (hK := h) ..
  | actLoad => exact keeps_execActLoad (hK := h) ..
  | actUnload => exact keeps_execActUnload (hK := h) ..
  | actBind => exact keeps_execActBind (hK := h) ..
  | actRebind => exact keeps_execActRebind (hK := h) ..
  | actUnbind => exact keeps_execActUnbind (hK := h) ..
  | actTimerSet => exact keeps_execActTimerSet (hK := h) ..
  | actDoorbellSet => exact keeps_execActDoorbellSet (hK := h) ..
  | actStats => exact keeps_execActStats (hK := h) ..
  | portModeSet => exact keeps_execPortModeSet (hK := h) ..
  | portConfigSet => exact keeps_execPortConfigSet (hK := h) ..
  | vlanMapSet => exact keeps_execVlanMapSet (hK := h) ..
  | macFilterSet => exact keeps_execMacFilterSet (hK := h) ..
  | rxringCreate => exact keeps_execRxringCreate (hK := h) ..
  | rxringDestroy => exact keeps_execRxringDestroy (hK := h) ..
  | rxruleSet => exact keeps_execRxruleSet (hK := h) ..
  | txqCreate => exact keeps_execTxqCreate (hK := h) ..
  | txqDestroy => exact keeps_execTxqDestroy (hK := h) ..
  | txCancel => exact keeps_execTxCancel (hK := h) ..
  | queueFlush => exact keeps_execQueueFlush (hK := h) ..
  | meterSet => exact keeps_execMeterSet (hK := h) ..
  | shaperSet => exact keeps_execShaperSet (hK := h) ..
  | classSet => exact keeps_execClassSet (hK := h) ..
  | gclSet => exact keeps_execGclSet (hK := h) ..
  | queueSampleSet => exact keeps_execQueueSampleSet (hK := h) ..
  | queueStats => exact keeps_execQueueStats (hK := h) ..
  | portStats => exact keeps_execPortStats (hK := h) ..
  | gdpPortSet => exact keeps_execGdpPortSet (hK := h) ..
  | gdpRegionSet => exact keeps_execGdpRegionSet (hK := h) ..
  | gdpConnect => exact keeps_execGdpConnect (hK := h) ..
  | gdpModify => exact keeps_execGdpModify (hK := h) ..
  | gdpClose => exact keeps_execGdpClose (hK := h) ..
  | gdpStats => exact keeps_execGdpStats (hK := h) ..
  | moverQueueCreate => exact keeps_execMoverQueueCreate (hK := h) ..
  | moverQueueFlush => exact keeps_execMoverQueueFlush (hK := h) ..
  | moverQueueDestroy => exact keeps_execMoverQueueDestroy (hK := h) ..
  | moverStats => exact keeps_execMoverStats (hK := h) ..
  | codecModeSet => exact keeps_execCodecModeSet (hK := h) ..
  | codecStreamOpen => exact keeps_execCodecStreamOpen (hK := h) ..
  | codecStreamModify => exact keeps_execCodecStreamModify (hK := h) ..
  | codecStreamFlush => exact keeps_execCodecStreamFlush (hK := h) ..
  | codecStreamClose => exact keeps_execCodecStreamClose (hK := h) ..
  | codecBufferRegister => exact keeps_execCodecBufferRegister (hK := h) ..
  | codecStats => exact keeps_execCodecStats (hK := h) ..
  | storagePortSet => exact keeps_execStoragePortSet (hK := h) ..
  | driveAdmin => exact keeps_execDriveAdmin (hK := h) ..
  | volumeCreate => exact keeps_execVolumeCreate (hK := h) ..
  | volumeDestroy => exact keeps_execVolumeDestroy (hK := h) ..
  | storQueueCreate => exact keeps_execStorQueueCreate (hK := h) ..
  | storQueueFlush => exact keeps_execStorQueueFlush (hK := h) ..
  | storQueueDestroy => exact keeps_execStorQueueDestroy (hK := h) ..
  | nvmetSubsystemSet => exact keeps_execNvmetSubsystemSet (hK := h) ..
  | nvmetListenerSet => exact keeps_execNvmetListenerSet (hK := h) ..
  | nvmeiConnect => exact keeps_execNvmeiConnect (hK := h) ..
  | nvmeiDisconnect => exact keeps_execNvmeiDisconnect (hK := h) ..
  | storageTimeoutSet => exact keeps_execStorageTimeoutSet (hK := h) ..
  | storageStats => exact keeps_execStorageStats (hK := h) ..
  | trapezeEnable => exact keeps_execTrapezeEnable (hK := h) ..
  | trapezeDisable => exact keeps_execTrapezeDisable (hK := h) ..
  | trapezeWindowSet => exact keeps_execTrapezeWindowSet (hK := h) ..
  | trapezeInwindowSet => exact keeps_execTrapezeInwindowSet (hK := h) ..
  | trapezeTelemSet => exact keeps_execTrapezeTelemSet (hK := h) ..
  | trapezeSum => exact keeps_execTrapezeSum (hK := h) ..
  | trapezeWatchdogSet => exact keeps_execTrapezeWatchdogSet (hK := h) ..
  | trapezeStats => exact keeps_execTrapezeStats (hK := h) ..
  | pressArm => exact keeps_execPressArm (hK := h) ..
  | pressCheckpoint => exact keeps_execPressCheckpoint (hK := h) ..
  | pressRestore => exact keeps_execPressRestore (hK := h) ..
  | pressDisarm => exact keeps_execPressDisarm (hK := h) ..
  | pressStatus => exact keeps_execPressStatus (hK := h) ..
  | deviceInfo => exact keeps_execDeviceInfo (hK := h) ..
  | deviceConfigSet => exact keeps_execDeviceConfigSet (hK := h) ..
  | timeSet => exact keeps_execTimeSet (hK := h) ..
  | timeAdjust => exact keeps_execTimeAdjust (hK := h) ..
  | alarmSet => exact keeps_execAlarmSet (hK := h) ..
  | playbillUpdate => exact keeps_execPlaybillUpdate (hK := h) ..
  | rindRead => exact keeps_execRindRead (hK := h) ..
  | rindCommit => exact keeps_execRindCommit (hK := h) ..
  | boothEnable => exact keeps_execBoothEnable (hK := h) ..
  | boothDisable => exact keeps_execBoothDisable (hK := h) ..
  | boothStopComplete => exact keeps_execBoothStopComplete (hK := h) ..
  | boothFetchVisit => exact keeps_execBoothFetchVisit s h
  | submissionReadDone => exact keeps_execSubmissionReadDone (hK := h) ..
  | commandHandoff => exact keeps_execCommandHandoff (hK := h) ..
  | componentFault => exact keeps_execComponentFault (hK := h) ..
  | supervisorTimeout => exact keeps_execSupervisorTimeout (hK := h) ..
  | componentResume => exact keeps_execComponentResume (hK := h) ..
  | boothSubmissionDoorbell => exact keeps_execBoothSubmissionDoorbell (hK := h) ..
  | boothCompletionDoorbell => exact keeps_execBoothCompletionDoorbell (hK := h) ..
  | boothEventDoorbell => exact keeps_execBoothEventDoorbell (hK := h) ..
  | ringProducerDoorbell => exact keeps_execRingProducerDoorbell (hK := h) ..
  | ringConsumerDoorbell => exact keeps_execRingConsumerDoorbell (hK := h) ..
  | actDoorbellWrite => exact keeps_execActDoorbellWrite (hK := h) ..
  | parleyDoorbell => exact keeps_execParleyDoorbell (hK := h) ..
  | parleyIntervalEnd => exact keeps_execParleyIntervalEnd (hK := h) ..
  | hostBar0Access => exact keeps_execHostBar0Access (hK := h) ..
  | hostBar2Access => exact keeps_execHostBar2Access (hK := h) ..
  | msixTableWrite => exact keeps_execMsixTableWrite (hK := h) ..
  | msixHoldoffEnd => exact keeps_execMsixHoldoffEnd (hK := h) ..
  | vfEnableChange => exact keeps_execVfEnableChange (hK := h) ..
  | functionLevelReset => exact keeps_execFunctionLevelReset (hK := h) ..
  | flrReady => exact keeps_execFlrReady (hK := h) ..
  | managerFlr => exact keeps_execManagerFlr (hK := h) ..
  | dStateChange => exact keeps_execDStateChange (hK := h) ..
  | hostReadCompletion => exact keeps_execHostReadCompletion (hK := h) ..
  | hostDmaTimeout => exact keeps_execHostDmaTimeout (hK := h) ..
  | translationCompletion => exact keeps_execTranslationCompletion (hK := h) ..
  | invalidateRequest => exact keeps_execInvalidateRequest (hK := h) ..
  | hostLinkUp => exact keeps_execHostLinkUp (hK := h) ..
  | hostLinkFatal => exact keeps_execHostLinkFatal (hK := h) ..
  | midwayGrant => exact keeps_execMidwayGrant (hK := h) ..
  | lockWatchdog => exact keeps_execLockWatchdog (hK := h) ..
  | patrolScrub => exact keeps_execPatrolScrub (hK := h) ..
  | handshakeTransfer => exact keeps_execHandshakeTransfer (hK := h) ..
  | ledgerAuditSample => exact keeps_execLedgerAuditSample (hK := h) ..
  | epochAdopt => exact keeps_execEpochAdopt (hK := h) ..
  | epochRetire => exact keeps_execEpochRetire (hK := h) ..
  | resizeScrubDone => exact keeps_execResizeScrubDone (hK := h) ..
  | rxFrame => exact keeps_execRxFrame (hK := h) ..
  | rxPfcFrame => exact keeps_execRxPfcFrame (hK := h) ..
  | pfcPauseExpire => exact keeps_execPfcPauseExpire (hK := h) ..
  | pfcRefresh => exact keeps_execPfcRefresh (hK := h) ..
  | pauseWatchdog => exact keeps_execPauseWatchdog (hK := h) ..
  | pauseQuietExpire => exact keeps_execPauseQuietExpire (hK := h) ..
  | rxHoldRelease => exact keeps_execRxHoldRelease (hK := h) ..
  | rxHoldMaxExpire => exact keeps_execRxHoldMaxExpire (hK := h) ..
  | carouselSelect => exact keeps_execCarouselSelect (hK := h) ..
  | txFrameEnd => exact keeps_execTxFrameEnd (hK := h) ..
  | linkDown => exact keeps_execLinkDown (hK := h) ..
  | linkUp => exact keeps_execLinkUp (hK := h) ..
  | gclCycleStart => exact keeps_execGclCycleStart (hK := h) ..
  | bucketTick => exact keeps_execBucketTick (hK := h) ..
  | queueSampleTick => exact keeps_execQueueSampleTick (hK := h) ..
  | cipherIntake => exact keeps_execCipherIntake (hK := h) ..
  | tagVerify => exact keeps_execTagVerify (hK := h) ..
  | releaseComplete => exact keeps_execReleaseComplete (hK := h) ..
  | granuleScrubDone => exact keeps_execGranuleScrubDone (hK := h) ..
  | frameTick => exact keeps_execFrameTick (hK := h) ..
  | sendRequest => exact keeps_execSendRequest (hK := h) ..
  | shiftRequest => exact keeps_execShiftRequest (hK := h) ..
  | feedRequest => exact keeps_execFeedRequest (hK := h) ..
  | feedEntryWrite => exact keeps_execFeedEntryWrite (hK := h) ..
  | returnReadRequest => exact keeps_execReturnReadRequest (hK := h) ..
  | returnReleaseRequest => exact keeps_execReturnReleaseRequest (hK := h) ..
  | noteRequest => exact keeps_execNoteRequest (hK := h) ..
  | returnProdPoll => exact keeps_execReturnProdPoll (hK := h) ..
  | tumblerDispatch => exact keeps_execTumblerDispatch (hK := h) ..
  | actTimerExpire => exact keeps_execActTimerExpire (hK := h) ..
  | allowanceOverrun => exact keeps_execAllowanceOverrun (hK := h) ..
  | portReply => exact keeps_execPortReply (hK := h) ..
  | loadReturn => exact keeps_execLoadReturn (hK := h) ..
  | storeFailure => exact keeps_execStoreFailure (hK := h) ..
  | add => exact keeps_execAdd (hK := h) ..
  | adc => exact keeps_execAdc (hK := h) ..
  | sub => exact keeps_execSub (hK := h) ..
  | sbc => exact keeps_execSbc (hK := h) ..
  | cmp => exact keeps_execCmp (hK := h) ..
  | neg => exact keeps_execNeg (hK := h) ..
  | adds => exact keeps_execAdds (hK := h) ..
  | subs => exact keeps_execSubs (hK := h) ..
  | and => exact keeps_execAnd (hK := h) ..
  | or => exact keeps_execOr (hK := h) ..
  | xor => exact keeps_execXor (hK := h) ..
  | andn => exact keeps_execAndn (hK := h) ..
  | shl => exact keeps_execShl (hK := h) ..
  | shr => exact keeps_execShr (hK := h) ..
  | sar => exact keeps_execSar (hK := h) ..
  | ror => exact keeps_execRor (hK := h) ..
  | bfx => exact keeps_execBfx (hK := h) ..
  | bfxs => exact keeps_execBfxs (hK := h) ..
  | bfi => exact keeps_execBfi (hK := h) ..
  | cnt => exact keeps_execCnt (hK := h) ..
  | nperm => exact keeps_execNperm (hK := h) ..
  | addp => exact keeps_execAddp (hK := h) ..
  | subp => exact keeps_execSubp (hK := h) ..
  | addps => exact keeps_execAddps (hK := h) ..
  | subps => exact keeps_execSubps (hK := h) ..
  | mul => exact keeps_execMul (hK := h) ..
  | mulhs => exact keeps_execMulhs (hK := h) ..
  | mulhu => exact keeps_execMulhu (hK := h) ..
  | mac => exact keeps_execMac (hK := h) ..
  | macs => exact keeps_execMacs (hK := h) ..
  | macp => exact keeps_execMacp (hK := h) ..
  | sat => exact keeps_execSat (hK := h) ..
  | addi => exact keeps_execAddi (hK := h) ..
  | cmpi => exact keeps_execCmpi (hK := h) ..
  | andi => exact keeps_execAndi (hK := h) ..
  | ori => exact keeps_execOri (hK := h) ..
  | xori => exact keeps_execXori (hK := h) ..
  | seth => exact keeps_execSeth (hK := h) ..
  | setl => exact keeps_execSetl (hK := h) ..
  | ldw => exact keeps_execLdw (hK := h) ..
  | stw => exact keeps_execStw (hK := h) ..
  | ldh => exact keeps_execLdh (hK := h) ..
  | ldhs => exact keeps_execLdhs (hK := h) ..
  | sth => exact keeps_execSth (hK := h) ..
  | ldn => exact keeps_execLdn (hK := h) ..
  | stn => exact keeps_execStn (hK := h) ..
  | aadd => exact keeps_execAadd (hK := h) ..
  | acas => exact keeps_execAcas (hK := h) ..
  | b => exact keeps_execB (hK := h) ..
  | br => exact keeps_execBr (hK := h) ..
  | call => exact keeps_execCall (hK := h) ..
  | callr => exact keeps_execCallr (hK := h) ..
  | ret => exact keeps_execRet (hK := h) ..
  | loopi => exact keeps_execLoopi (hK := h) ..
  | loopr => exact keeps_execLoopr (hK := h) ..
  | lexit => exact keeps_execLexit (hK := h) ..
  | post => exact keeps_execPost (hK := h) ..
  | take => exact keeps_execTake (hK := h) ..
  | poll => exact keeps_execPoll (hK := h) ..
  | mfs => exact keeps_execMfs (hK := h) ..
  | mts => exact keeps_execMts (hK := h) ..
  | endact => exact keeps_execEndact (hK := h) ..
  | brk => exact keeps_execBrk (hK := h) ..
  | flitRx => exact keeps_execFlitRx (hK := h) ..
  | ackTimer => exact keeps_execAckTimer (hK := h) ..
  | tpWrite => exact keeps_execTpWrite (hK := h) ..
  | tpRead => exact keeps_execTpRead (hK := h) ..
  | tpFadd => exact keeps_execTpFadd (hK := h) ..
  | tpCas => exact keeps_execTpCas (hK := h) ..
  | rdcomp => exact keeps_execRdcomp (hK := h) ..
  | wcomp => exact keeps_execWcomp (hK := h) ..
  | atcomp => exact keeps_execAtcomp (hK := h) ..
  | tpErr => exact keeps_execTpErr (hK := h) ..
  | param => exact keeps_execParam (hK := h) ..
  | ringSignal p ring prod sessions => exact keeps_execRingSignal p ring prod sessions s h
  | boundary => exact keeps_execBoundary (hK := h) ..
  | spareReq => exact keeps_execSpareReq (hK := h) ..
  | spareAck => exact keeps_execSpareAck (hK := h) ..
  | telemetry => exact keeps_execTelemetry (hK := h) ..
  | laneSwap => exact keeps_execLaneSwap (hK := h) ..
  | ringLockLoss => exact keeps_execRingLockLoss (hK := h) ..
  | laneBerFault => exact keeps_execLaneBerFault (hK := h) ..
  | spareAckTimeout => exact keeps_execSpareAckTimeout (hK := h) ..
  | combLoss => exact keeps_execCombLoss (hK := h) ..
  | trainingStep => exact keeps_execTrainingStep (hK := h) ..
  | trainingRetry => exact keeps_execTrainingRetry (hK := h) ..
  | creditWatchdog => exact keeps_execCreditWatchdog (hK := h) ..
  | trapezeReadTimeout => exact keeps_execTrapezeReadTimeout (hK := h) ..
  | sumWindow => exact keeps_execSumWindow (hK := h) ..
  | sumConfirmTimeout => exact keeps_execSumConfirmTimeout (hK := h) ..
  | sumCalibration => exact keeps_execSumCalibration (hK := h) ..
  | gdpOpStart => exact keeps_execGdpOpStart (hK := h) ..
  | gdpWrite => exact keeps_execGdpWrite (hK := h) ..
  | readReq => exact keeps_execReadReq (hK := h) ..
  | readResp => exact keeps_execReadResp (hK := h) ..
  | gdpFadd => exact keeps_execGdpFadd (hK := h) ..
  | gdpCas => exact keeps_execGdpCas (hK := h) ..
  | atomicResp => exact keeps_execAtomicResp (hK := h) ..
  | gdpSend => exact keeps_execGdpSend (hK := h) ..
  | gdpAck => exact keeps_execGdpAck (hK := h) ..
  | hello => exact keeps_execHello (hK := h) ..
  | gdpClosePacket => exact keeps_execGdpClosePacket (hK := h) ..
  | helloTimer => exact keeps_execHelloTimer (hK := h) ..
  | closeResendTimer => exact keeps_execCloseResendTimer (hK := h) ..
  | ackDelayTimer => exact keeps_execAckDelayTimer (hK := h) ..
  | gdpRto => exact keeps_execGdpRto (hK := h) ..
  | gdpProgressTimeout => exact keeps_execGdpProgressTimeout (hK := h) ..
  | gdpMessageComplete => exact keeps_execGdpMessageComplete (hK := h) ..
  | pressReady => exact keeps_execPressReady (hK := h) ..
  | pressDrained => exact keeps_execPressDrained (hK := h) ..
  | pressCopied => exact keeps_execPressCopied (hK := h) ..
  | pressAbandon => exact keeps_execPressAbandon (hK := h) ..
  | pressDrainDone => exact keeps_execPressDrainDone (hK := h) ..
  | pressCopyDone => exact keeps_execPressCopyDone (hK := h) ..
  | pressVerifyDone => exact keeps_execPressVerifyDone (hK := h) ..
  | pressFlushDone => exact keeps_execPressFlushDone (hK := h) ..
  | pressSetTimeout => exact keeps_execPressSetTimeout (hK := h) ..
  | pressReleaseTimeout => exact keeps_execPressReleaseTimeout (hK := h) ..
  | moverStart => exact keeps_execMoverStart (hK := h) ..
  | moverComplete => exact keeps_execMoverComplete (hK := h) ..
  | codecDescriptorTake => exact keeps_execCodecDescriptorTake (hK := h) ..
  | codecPictureGrant => exact keeps_execCodecPictureGrant (hK := h) ..
  | codecTakeoverPoint => exact keeps_execCodecTakeoverPoint (hK := h) ..
  | codecPictureEnd => exact keeps_execCodecPictureEnd (hK := h) ..
  | streamWatchdog => exact keeps_execStreamWatchdog (hK := h) ..
  | codecSlotEnd => exact keeps_execCodecSlotEnd (hK := h) ..
  | exclIdleExpire => exact keeps_execExclIdleExpire (hK := h) ..
  | storStart => exact keeps_execStorStart (hK := h) ..
  | driveCompletion => exact keeps_execDriveCompletion (hK := h) ..
  | storageTimeout => exact keeps_execStorageTimeout (hK := h) ..
  | abortConfirmTimeout => exact keeps_execAbortConfirmTimeout (hK := h) ..
  | driveReinitDone => exact keeps_execDriveReinitDone (hK := h) ..
  | driveLoss => exact keeps_execDriveLoss (hK := h) ..
  | driveLinkUp => exact keeps_execDriveLinkUp (hK := h) ..
  | driveDmaRequest => exact keeps_execDriveDmaRequest (hK := h) ..
  | driveAsyncEvent => exact keeps_execDriveAsyncEvent (hK := h) ..
  | volumeScrubDone => exact keeps_execVolumeScrubDone (hK := h) ..
  | tcpSegment => exact keeps_execTcpSegment (hK := h) ..
  | tcpRto => exact keeps_execTcpRto (hK := h) ..
  | nvmeiReconnectTimer => exact keeps_execNvmeiReconnectTimer (hK := h) ..
  | ctrlLossTmoExpire => exact keeps_execCtrlLossTmoExpire (hK := h) ..
  | mctpMessage => exact keeps_execMctpMessage (hK := h) ..
  | pldmSensorRead => exact keeps_execPldmSensorRead (hK := h) ..
  | pldmFwUpdate => exact keeps_execPldmFwUpdate (hK := h) ..
  | activateFirmware => exact keeps_execActivateFirmware (hK := h) ..
  | spiWriteFrame => exact keeps_execSpiWriteFrame (hK := h) ..
  | spiReadFrame => exact keeps_execSpiReadFrame (hK := h) ..
  | rtcSet => exact keeps_execRtcSet (hK := h) ..
  | alarmTHiWrite => exact keeps_execAlarmTHiWrite (hK := h) ..
  | alarmCtrlWrite => exact keeps_execAlarmCtrlWrite (hK := h) ..
  | alarmStatusRead => exact keeps_execAlarmStatusRead (hK := h) ..
  | rtcLoRead => exact keeps_execRtcLoRead (hK := h) ..
  | devtLoRead => exact keeps_execDevtLoRead (hK := h) ..
  | rindCounterRead => exact keeps_execRindCounterRead (hK := h) ..
  | rindLogData0Read => exact keeps_execRindLogData0Read (hK := h) ..
  | msStatusRead => exact keeps_execMsStatusRead (hK := h) ..
  | mwFirstFaultRead => exact keeps_execMwFirstFaultRead (hK := h) ..
  | msControlReset => exact keeps_execMsControlReset (hK := h) ..
  | atbAdcStart => exact keeps_execAtbAdcStart (hK := h) ..
  | atbCaptureSample => exact keeps_execAtbCaptureSample (hK := h) ..
  | registerWrite => exact keeps_execRegisterWrite (hK := h) ..
  | alarmFire => exact keeps_execAlarmFire (hK := h) ..
  | rtcWriteback => exact keeps_execRtcWriteback (hK := h) ..
  | playbillPhaseEnd => exact keeps_execPlaybillPhaseEnd (hK := h) ..
  | playbillPanelTimeout => exact keeps_execPlaybillPanelTimeout (hK := h) ..
  | playbillIntervalEnd => exact keeps_execPlaybillIntervalEnd (hK := h) ..
  | rindCommitTimer => exact keeps_execRindCommitTimer (hK := h) ..
  | rindRecordDone => exact keeps_execRindRecordDone (hK := h) ..
  | rindSecondTick => exact keeps_execRindSecondTick (hK := h) ..
  | rindMinuteTick => exact keeps_execRindMinuteTick (hK := h) ..
  | vmainGood => exact keeps_execVmainGood (hK := h) ..
  | brownout => exact keeps_execBrownout (hK := h) ..
  | vstbyLoss => exact keeps_execVstbyLoss (hK := h) ..
  | vstbyReturn => exact keeps_execVstbyReturn (hK := h) ..
  | vbatLow => exact keeps_execVbatLow (hK := h) ..
  | alwaysOnPowerOn => exact keeps_execAlwaysOnPowerOn (hK := h) ..
  | perstNAssert => exact keeps_execPerstNAssert (hK := h) ..
  | perstNDeassert => exact keeps_execPerstNDeassert (hK := h) ..
  | hotReset => exact keeps_execHotReset (hK := h) ..
  | quiesced => exact keeps_execQuiesced (hK := h) ..
  | islandBringUp => exact keeps_execIslandBringUp (hK := h) ..
  | trialTimeout => exact keeps_execTrialTimeout (hK := h) ..
  | thermalSample => exact keeps_execThermalSample (hK := h) ..
  | thermalTrip => exact keeps_execThermalTrip (hK := h) ..
  | currentSensorSample => exact keeps_execCurrentSensorSample (hK := h) ..
  | domainGate => exact keeps_execDomainGate (hK := h) ..
  | erefLoss => exact keeps_execErefLoss (hK := h) ..
  | hrefLoss => exact keeps_execHrefLoss (hK := h) ..
  | xtal32Loss => exact keeps_execXtal32Loss (hK := h) ..
  | idcode => exact keeps_execIdcode (hK := h) ..
  | samplePreload => exact keeps_execSamplePreload (hK := h) ..
  | extest => exact keeps_execExtest (hK := h) ..
  | highz => exact keeps_execHighz (hK := h) ..
  | clamp => exact keeps_execClamp (hK := h) ..
  | extestPulse => exact keeps_execExtestPulse (hK := h) ..
  | extestTrain => exact keeps_execExtestTrain (hK := h) ..
  | hbm1500 => exact keeps_execHbm1500 (hK := h) ..
  | atbJtag => exact keeps_execAtbJtag (hK := h) ..
  | bypass => exact keeps_execBypass (hK := h) ..
  | tapReset => exact keeps_execTapReset (hK := h) ..
  | keySlotScrubComplete => exact keeps_execKeySlotScrubComplete (hK := h) ..
  | freeListTakesCell => exact keeps_execFreeListTakesCell (hK := h) ..
  | trapezeSumTimeout => exact keeps_execTrapezeSumTimeout (hK := h) ..
  | erefReturn => exact keeps_execErefReturn (hK := h) ..
  | shareStatusUpdate => exact keeps_execShareStatusUpdate (hK := h) ..
  | gdpPacedSend => exact keeps_execGdpPacedSend (hK := h) ..

/-- The idle step and every command keep the form of the memories; taking a command off the queue touches no memory. -/
theorem step_keeps_memoriesWf {s t : State} (hs : step s = .next t) (hm : memoriesWf s) : memoriesWf t := by
  unfold step at hs
  split at hs
  case h_1 =>
    cases hs
    exact (keeps_idleTick s (Keeps.refl s)).mem hm
  case h_2 c cs _ =>
    obtain ⟨u, hu, hk⟩ := keeps_exec c { s with pending := cs }
    cases hu.symm.trans hs
    exact hk.mem hm

/-- Settles O6. -/
theorem memoriesStayCanonical : Obligations.MemoriesStayCanonical :=
  fun _ _ hm hs => step_keeps_memoriesWf hs hm

end Sys2Proof.Proofs
end

section
/-! PROOFS. Proofs/ManagementEvents.lean: for each row of management, the state it leaves when its premise holds, and the
statement O46, which is their conjunction. -/

namespace Sys2Proof.Proofs

open Machine

/-! MCTP and PLDM (21 R554 to R557). -/

/-- A running management component serves a request at once. -/
theorem mgmtRequest_of_runs {s : State} (hr : mgmtRuns s = true) (r : MgmtReq) : mgmtRequest s r = mgmtServe s r := if_pos hr

theorem mctpReach_of_active {s : State} {binding : Nat} (hl : binding = 0 → s.host.linkUp = true)
    (hp : binding ≠ 0 → s.power.st ≠ .boot) : mctpReach s binding = true := by
  unfold mctpReach
  by_cases hb : binding = 0
  · rw [if_pos (beq_iff_eq.mpr hb), hl hb]
  · rw [if_neg (mt beq_iff_eq.mp hb), bne_iff_ne]
    exact hp hb

theorem exec_mctpMessage_of_reach {s : State} {m : MctpReq} (hr : mgmtRuns s = true) (hm : mctpReach s m.binding = true) :
    exec (.mctpMessage m) s = .next (mctpAnswer s m) := by
  change execMctpMessage m s = _
  rw [execMctpMessage, if_pos hm, mgmtRequest_of_runs hr, mgmtServe]

theorem exec_pldmSensorRead_of_runs {s : State} (hr : mgmtRuns s = true) (sensor : Nat) (reading : Option Nat) :
    exec (.pldmSensorRead sensor reading) s = .next (pldmAnswer s sensor reading) := by
  change execPldmSensorRead sensor reading s = _
  rw [execPldmSensorRead, mgmtRequest_of_runs hr, mgmtServe]

theorem exec_pldmFwUpdate_of_runs {s : State} (hr : mgmtRuns s = true) (u : FwUpdate) :
    exec (.pldmFwUpdate u) s = .next (fwUpdate s u) := by
  change execPldmFwUpdate u s = _
  rw [execPldmFwUpdate, mgmtRequest_of_runs hr, mgmtServe]

theorem fwUpdate_config_of_ok (s : State) {c : ConfigBlock} (hc : configOk c = true) (whole : Bool) :
    fwUpdate s (.config c whole) = s.onFlash (fun f => configWrite f c whole) := if_pos hc

theorem exec_activateFirmware_of_written {s : State} {k : Nat} (hr : mgmtRuns s = true) (hw : s.flash.written = some k) :
    exec .activateFirmware s = .next (s.onFlash (fun f =>
      { headerWrite f (slotSet (headerOf f) k .trial 0) with written := none })) := by
  change execActivateFirmware s = _
  simp only [execActivateFirmware, mgmtRequest_of_runs hr, mgmtServe, fwActivate, hw]

/-! The frames of the management SPI (21 R560 to R564). -/

theorem exec_spiWriteFrame_of_good {s : State} {d : List Byte} {clocks count a : Nat} (x : Nat)
    (hc : ofBe ((d.drop 4).take 1) = count) (ha : ofBe ((d.drop 1).take 3) = a)
    (hv : s.power.vstby = true) (hb : spiBusy s = false) (hn : 1 ≤ count ∧ count ≤ 64) (ho : d.take 1 = [0x02])
    (hl : clocks = 8 * (7 + 4 * count)) (hd : clocks ≤ d.length * 8 + 7)
    (hcrc : crc16 (d.take (5 + 4 * count)) = ofBe ((d.drop (5 + 4 * count)).take 2))
    (hw : (List.range count).all (fun i => a + i < 65536 && spiWritable s (spiOff (a + i))) = true) :
    exec (.spiWriteFrame d clocks x) s = .next (spiLast (spiApply s a x (spiWords (d.drop 5) count)) 0) := by
  have short : ¬ (clocks < 8 * (7 + 4 * count) || clocks < 56 || d.length * 8 + 7 < clocks) = true := by simp; omega
  have long : ¬ 8 * (7 + 4 * count) < clocks := by omega
  have header : ¬ (d.take 1 != [0x02] || count == 0 || 64 < count) = true := by simp [ho]; omega
  change execSpiWriteFrame d clocks x s = _
  simp only [execSpiWriteFrame, hc, ha, hv, hb, hcrc, hw, if_neg short, if_neg long, if_neg header, bne_self_eq_false,
    Bool.not_true, Bool.false_eq_true, if_false]

/-- The machine after the words of a read frame have been shifted out, its data bits counted by `data`. -/
def spiShifted (s : State) (a count data : Nat) : State :=
  let r := spiRead s a (min count (ceilDiv data 32))
  let shown := r.1.take (min count (data / 32))
  let e := r.2.send (.spi shown (if 32 * count < data then crc16 (r.1.flatMap (be 4)) * 65536 else 0))
  let b := if data % 32 == 0 then spiClear e a shown else e
  b.onMgmt (fun m => { m with
    msExtra := min (data - 32 * (count + 1)) 255
    msExtraSeen := m.msExtraSeen || 0 < data - 32 * (count + 1) })

theorem exec_spiReadFrame_of_good {s : State} {d : List Byte} {clocks count a : Nat}
    (ha : ofBe ((d.drop 1).take 3) = a) (hc : ofBe ((d.drop 4).take 1) = count)
    (hv : s.power.vstby = true) (hb : spiBusy s = false) (hl : 64 ≤ clocks) (hd : 7 ≤ d.length) (ho : d.take 1 = [0x03])
    (hn : 1 ≤ count ∧ count ≤ 64) (hcrc : crc16 (d.take 5) = ofBe ((d.drop 5).take 2)) (hs : a + count ≤ 65536) :
    exec (.spiReadFrame d clocks) s = .next (spiLast (spiShifted s a count (clocks - 64))
      (if (clocks - 64) % 32 == 0 then 0 else 6)) := by
  have short : ¬ (clocks < 64 || d.length < 7) = true := by simp; omega
  have header : ¬ (d.take 1 != [0x03] || count == 0 || 64 < count) = true := by simp [ho]; omega
  have span : ¬ 65536 < a + count := by omega
  change execSpiReadFrame d clocks s = _
  simp only [execSpiReadFrame, spiShifted, hc, ha, hv, hb, hcrc, if_neg short, if_neg header, if_neg span, bne_self_eq_false,
    Bool.not_true, Bool.false_eq_true, if_false]

/-! Writes of one word (00 R13 to R16, 21 R569, R571, 22 R595, 23 R618). -/

theorem not_spiRefused {s : State} (hv : s.power.vstby = true) (hb : spiBusy s = false) :
    ¬ (!s.power.vstby || spiBusy s) = true := by
  simp [hv, hb]

theorem writeRow_of_powered {s : State} (hv : s.power.vstby = true) (hb : spiBusy s = false) (off v x : Nat) :
    writeRow s off v x = .next (regWrite s off v x) := by
  rw [writeRow, if_neg (not_spiRefused hv hb)]

theorem regWrite_rtcSetHi {s : State} (hw : spiWritable s 0x40001C = true) (v x : Nat) :
    regWrite s 0x40001C v x = rtcSet s v := by
  rw [regWrite, hw]
  rfl

theorem bit_31_of_set (v : Nat) : bit (v % 2 ^ 31 + 2 ^ 31) 31 = true := by
  unfold bit
  rw [beq_iff_eq]
  omega

theorem regWrite_atbAdc_of_start {s : State} {v : Nat} (hw : spiWritable s 0x430004 = true) (hs : bit v 31 = true) (x : Nat) :
    regWrite s 0x430004 v x = atbStart (atbAdcFields s v) x := by
  simp [regWrite, hw, hs]

/-- What a write of word `r` of an alarm's block makes of the alarm. -/
def alarmWordSet (r v : Nat) (a : Alarm) : Alarm :=
  match r with
  | 0 => alarmCtrl a v
  | 1 => { a with tLo := v % 2 ^ 32 }
  | 2 => alarmTHi a v
  | _ => alarmPeriod a v

/-- The offsets of the four words of the four alarms are closed numbers, on each of which `regWrite` evaluates. -/
theorem regWrite_alarmWord {s : State} {n r : Nat} (hn : n < 4) (hr : r < 4)
    (hw : spiWritable s (0x400040 + 0x20 * n + 4 * r) = true) (v x : Nat) :
    regWrite s (0x400040 + 0x20 * n + 4 * r) v x = onAlarm s n (alarmWordSet r v) := by
  rw [regWrite, hw]
  match n, r with
  | 0, 0 | 0, 1 | 0, 2 | 0, 3 => rfl
  | 1, 0 | 1, 1 | 1, 2 | 1, 3 => rfl
  | 2, 0 | 2, 1 | 2, 2 | 2, 3 => rfl
  | 3, 0 | 3, 1 | 3, 2 | 3, 3 => rfl

/-! Reads of one word (00 R14, 03 R88, 21 R563, R568, R569, R571, 23 R615). -/

theorem regReadRow_of_value {s : State} {off v : Nat} (hv : regValue s off = some v) :
    regReadRow s off = .next ((regClear (regLatch s off) off v).send (.register off v)) := by
  simp only [regReadRow, regRead, hv]

theorem exec_mwFirstFaultRead_of_value {s : State} {target v : Nat} {high : Bool} (ht : target ≤ 21)
    (hv : regValue s (0x11020 + 0x40 * target + 4 * b2n high) = some v) :
    exec (.mwFirstFaultRead target high) s = .next ((regClear (regLatch s (0x11020 + 0x40 * target + 4 * b2n high))
      (0x11020 + 0x40 * target + 4 * b2n high) v).send (.register (0x11020 + 0x40 * target + 4 * b2n high) v)) := by
  change execMwFirstFaultRead target high s = _
  rw [execMwFirstFaultRead, if_neg (Nat.not_lt.mpr ht), regReadRow_of_value hv]

/-! The warm reset, the converter's capture and the registers of the functions (16 R429, 22 R595, 23 R618). -/

theorem exec_msControlReset_of_key {s : State} {v : Nat} (hv : s.power.vstby = true) (hb : spiBusy s = false)
    (hk : v / 65536 % 65536 = 0x5253) (hr : bit v 0 = true) (hm : s.power.vmain = true) :
    exec (.msControlReset v) s = .next (warmReset s) := by
  change execMsControlReset v s = _
  have key : (v / 65536 % 65536 == 0x5253 && bit v 0 && s.power.vmain) = true := by simp [hk, hr, hm]
  rw [execMsControlReset, if_neg (not_spiRefused hv hb), msControl, if_pos key]

theorem exec_atbAdcStart_of_writable {s : State} (hv : s.power.vstby = true) (hb : spiBusy s = false)
    (hw : spiWritable s 0x430004 = true) (v x : Nat) :
    exec (.atbAdcStart v x) s = .next (atbStart (atbAdcFields s (v % 2 ^ 31 + 2 ^ 31)) x) := by
  change execAtbAdcStart v x s = _
  rw [execAtbAdcStart, writeRow_of_powered hv hb, regWrite_atbAdc_of_start hw (bit_31_of_set v)]

theorem exec_atbCaptureSample_of_busy {s : State} (hb : s.test.busy = true) (x : Nat) :
    exec (.atbCaptureSample x) s = .next (s.onTest (fun t => { t with
      capture := tset t.capture t.taken (atbReading s.power.gated t x % 4096)
      taken := t.taken + 1
      busy := decide (t.taken + 1 < t.goal) })) := by
  change execAtbCaptureSample x s = _
  rw [execAtbCaptureSample, if_neg (by simp [hb])]

theorem exec_registerWrite_control_of_powered {s : State} (hv : s.power.vstby = true) (hb : spiBusy s = false) (off v x : Nat) :
    exec (.registerWrite (.control off) v x) s = .next (regWrite s off v x) :=
  writeRow_of_powered hv hb off v x

theorem exec_registerWrite_booth_of_disabled {s : State} {fn : Nat} (ha : fnAnswers s fn = true)
    (he : (s.fn fn).booth.enable = false) (off v x : Nat) :
    exec (.registerWrite (.booth fn off) v x) s = .next (s.onBooth fn (fun b => boothReg b off v)) := by
  change execRegisterWrite (.booth fn off) v x s = _
  rw [execRegisterWrite, if_neg (by simp [ha, he])]

theorem exec_registerWrite_config_of_answers {s : State} {fn : Nat} (ha : fnAnswers s fn = true) (v x : Nat) :
    exec (.registerWrite (.config fn) v x) s = .next (s.onFn fn (fun f => { f with
      roEnable := bit v 0
      idoReq := bit v 1
      idoComp := bit v 2
      ats := bit v 3
      pasidCap := bit v 4 })) := by
  change execRegisterWrite (.config fn) v x s = _
  rw [execRegisterWrite, if_neg (by simp [ha])]

/-! The rows of the RTC and the alarms, each the write of one word (21 R569, R571). -/

theorem exec_rtcSet_of_writable {s : State} (hv : s.power.vstby = true) (hb : spiBusy s = false)
    (hw : spiWritable s 0x40001C = true) (v : Nat) : exec (.rtcSet v) s = .next (rtcSet s v) := by
  change execRtcSet v s = _
  rw [execRtcSet, writeRow_of_powered hv hb, regWrite_rtcSetHi hw]

theorem writeRow_alarmWord {s : State} {r : Nat} (n v : Nat) (hv : s.power.vstby = true) (hb : spiBusy s = false) (hr : r < 4)
    (hw : spiWritable s (0x400040 + 0x20 * (n % 4) + 4 * r) = true) :
    writeRow s (0x400040 + 0x20 * (n % 4) + 4 * r) v 0 = .next (onAlarm s (n % 4) (alarmWordSet r v)) := by
  rw [writeRow_of_powered hv hb, regWrite_alarmWord (Nat.mod_lt n (by decide)) hr hw]

theorem exec_alarmTHiWrite_of_writable {s : State} {n : Nat} (hv : s.power.vstby = true) (hb : spiBusy s = false)
    (hw : spiWritable s (0x400048 + 0x20 * (n % 4)) = true) (v : Nat) :
    exec (.alarmTHiWrite n v) s = .next (onAlarm s (n % 4) (fun x => alarmTHi x v)) := by
  have word : 0x400048 + 0x20 * (n % 4) = 0x400040 + 0x20 * (n % 4) + 4 * 2 := by omega
  change writeRow s (0x400048 + 0x20 * (n % 4)) v 0 = _
  rw [word] at hw ⊢
  exact writeRow_alarmWord n v hv hb (by decide) hw

theorem exec_alarmCtrlWrite_ctrl_of_writable {s : State} {n : Nat} (hv : s.power.vstby = true) (hb : spiBusy s = false)
    (hw : spiWritable s (0x400040 + 0x20 * (n % 4) + 0) = true) (v : Nat) :
    exec (.alarmCtrlWrite n false v) s = .next (onAlarm s (n % 4) (fun x => alarmCtrl x v)) :=
  writeRow_alarmWord (r := 0) n v hv hb (by decide) hw

theorem exec_alarmCtrlWrite_period_of_writable {s : State} {n : Nat} (hv : s.power.vstby = true) (hb : spiBusy s = false)
    (hw : spiWritable s (0x400040 + 0x20 * (n % 4) + 12) = true) (v : Nat) :
    exec (.alarmCtrlWrite n true v) s = .next (onAlarm s (n % 4) (fun x => alarmPeriod x v)) :=
  writeRow_alarmWord (r := 3) n v hv hb (by decide) hw

/-- Settles O46: each row has the effect its lemma above states. -/
theorem managementEvents : Obligations.ManagementEvents := by
  intro s
  refine ⟨?mctp, ?sensor, ?config, ?image, ?activate, ?spiWrite, ?spiRead, ?rtc, ?tHi, ?ctrl, ?period, ?status, ?rtcLo, ?devtLo,
    ?counter, ?logData, ?msStatus, ?firstFault, ?reset, ?adc, ?capture, ?control, ?booth, ?function⟩
  case mctp => exact fun _ hr hl hp => exec_mctpMessage_of_reach hr (mctpReach_of_active hl hp)
  case sensor => exact fun sensor reading hr => exec_pldmSensorRead_of_runs hr sensor reading
  case config =>
    intro c whole hr hc
    rw [exec_pldmFwUpdate_of_runs hr, fwUpdate_config_of_ok s hc]
  case image => exact fun i whole hr => exec_pldmFwUpdate_of_runs hr (.image i whole)
  case activate => exact fun _ hr hw => exec_activateFirmware_of_written hr hw
  case spiWrite => exact fun _ _ x hv hb hn ho hl hd hcrc hw => exec_spiWriteFrame_of_good x rfl rfl hv hb hn ho hl hd hcrc hw
  case spiRead => exact fun _ _ hv hb hl hd ho hn hcrc hs => exec_spiReadFrame_of_good rfl rfl hv hb hl hd ho hn hcrc hs
  case rtc => exact fun v hv hb hw => exec_rtcSet_of_writable hv hb hw v
  case tHi => exact fun _ v hv hb hw => exec_alarmTHiWrite_of_writable hv hb hw v
  case ctrl => exact fun _ v hv hb hw => exec_alarmCtrlWrite_ctrl_of_writable hv hb hw v
  case period => exact fun _ v hv hb hw => exec_alarmCtrlWrite_period_of_writable hv hb hw v
  case status | counter => exact fun _ _ h => regReadRow_of_value h
  case rtcLo | devtLo | logData | msStatus => exact fun _ h => regReadRow_of_value h
  case firstFault => exact fun _ _ _ ht h => exec_mwFirstFaultRead_of_value ht h
  case reset => exact fun _ hv hb hk hr hm => exec_msControlReset_of_key hv hb hk hr hm
  case adc => exact fun v x hv hb hw => exec_atbAdcStart_of_writable hv hb hw v x
  case capture => exact fun x hb => exec_atbCaptureSample_of_busy hb x
  case control => exact fun off v x hv hb => exec_registerWrite_control_of_powered hv hb off v x
  case booth => exact fun _ off v x ha he => exec_registerWrite_booth_of_disabled ha he off v x
  case function => exact fun _ v x ha => exec_registerWrite_config_of_answers ha v x

end Sys2Proof.Proofs
end

section
/-! PROOFS. Proofs/NetworkEvents.lean: for each row of the network ports, the state it leaves when its premise holds, and
the statement O30, which is their conjunction. -/

namespace Sys2Proof.Proofs

open Machine

/-! Frames received (05 R123 to R133). -/

/-- The machine after a frame has passed the checks of the MAC: its corrected codewords and the frame itself are counted. -/
def rxCounted (s : State) (lport : Nat) (d : List Byte) (corrected : Nat) : State :=
  (ingressMark (if corrected == 0 then s else rindMinute s (14 + lport / 8) corrected) (lport / 8) (d.length + 4)).onLPort lport
    (fun x => { x with
      rxFrames := modAdd 64 x.rxFrames 1
      rxOctets := modAdd 64 x.rxOctets (d.length + 4) })

/-- What the meter that classification names, if any, makes of a frame: colour, action, parameters and state. -/
def rxMetered (s : State) (d : List Byte) (meter : Option Nat) : Nat × Nat × Option MeterCfg × State :=
  match meter with
  | some k => meterFrame s k (d.length + 4) (tagged d && bit (tciOf d) 12)
  | none => (3, 0, none, s)

/-- A classified and metered frame as it goes to its destination, remarked where the meter says so. -/
def rxClassified (s : State) (lport part : Nat) (d : List Byte) (dest : RxDest) (m : Nat × Nat × Option MeterCfg × State) : Held :=
  { lport := lport
    prio := prioOf d
    part := part
    epoch := epochAt s part (130 + lport / 8)
    dest := dest
    colour := m.1
    data := if m.2.1 == 1 then (match m.2.2.1 with | some g => remark d g.dscp | none => d) else d
    time := s.clock.now
    since := s.clock.now }

/-- The MAC checks a good frame passes: neither a runt nor too long, not MAC control, and for an accepted address. -/
structure MacPasses (l : LPortCfg) (d : List Byte) : Prop where
  notRunt : 64 ≤ d.length + 4
  notLong : d.length + 4 ≤ l.maxFrame
  notControl : macControl d = none
  accepted : macAccepts l d = true

theorem exec_rxFrame_of_classified {s : State} {lport corrected part : Nat} {d : List Byte} {dest : RxDest} {meter : Option Nat}
    (hi : ingress s = true) (he : lportExists (portCfg s (lport / 8)) lport = true) (hu : (lportOf s lport).up = true)
    (hq : quarantined s (130 + lport / 8) = false) (hm : MacPasses (lportCfg (portCfg s (lport / 8)) lport) d)
    (hv : tget (lportCfg (portCfg s (lport / 8)) lport).vlan
      (if tagged d then tciOf d % 4096 else (lportCfg (portCfg s (lport / 8)) lport).defaultVid) = some part)
    (hc : classify (rxCounted s lport d corrected) (cfgAt (rxCounted s lport d corrected) part (130 + lport / 8)) part lport d
      (parseFrame d) = .inr (dest, meter))
    (hd : (rxMetered (rxCounted s lport d corrected) d meter).2.1 ≠ 2) :
    exec (.rxFrame lport d true true corrected) s = .next
      (rxSteer (rxMetered (rxCounted s lport d corrected) d meter).2.2.2
        (rxClassified (rxCounted s lport d corrected) lport part d dest (rxMetered (rxCounted s lport d corrected) d meter))) := by
  have present : ¬ (!ingress s || !lportExists (portCfg s (lport / 8)) lport || !(lportOf s lport).up
      || quarantined s (130 + lport / 8)) = true := by simp [hi, he, hu, hq]
  have size := Nat.not_lt.mpr hm.notRunt
  have fits := Nat.not_lt.mpr hm.notLong
  change execRxFrame lport d true true corrected s = _
  rw [execRxFrame, if_neg present]
  simp only [if_neg size, if_neg fits, hm.notControl, hm.accepted, hv, Bool.not_true, Bool.false_eq_true, if_false]
  change (match classify (rxCounted s lport d corrected) (cfgAt (rxCounted s lport d corrected) part (130 + lport / 8)) part lport d
      (parseFrame d) with
    | .inl k => _
    | .inr (dest, meter) =>
      if (rxMetered (rxCounted s lport d corrected) d meter).2.1 == 2 then _ else _) = _
  rw [hc]
  exact if_neg (mt beq_iff_eq.mp hd)

/-! Pauses and held frames (04 R102, 05 R132 to R134). -/

theorem exec_rxPfcFrame_of_up {s : State} {lport : Nat} (he : lportExists (portCfg s (lport / 8)) lport = true)
    (hu : (lportOf s lport).up = true) (quanta : List (Nat × Nat)) :
    exec (.rxPfcFrame lport quanta) s = .next (quanta.foldl (fun s q => pauseRx s lport q.1 q.2) s) := by
  change execRxPfcFrame lport quanta s = _
  simp only [execRxPfcFrame, he, hu, Bool.not_true, Bool.or_self, Bool.false_eq_true, if_false]

theorem exec_pfcRefresh_of_sent {s : State} {lport prio : Nat} (hs : (tgetD (lportOf s lport).pfc prio {}).sent = true) :
    exec (.pfcRefresh lport prio) s = .next (pfcSend s lport prio true) := if_pos hs

theorem exec_pauseWatchdog_of_paused {s : State} {lport prio : Nat} (hp : (tgetD (lportOf s lport).pfc prio {}).paused = true) :
    exec (.pauseWatchdog lport prio) s = .next (rindCount (raiseEvent (s.onLPort lport (fun l => { l with
      pfc := tmod l.pfc prio (fun p => { p with paused := false, ignored := true }) })) 0 0x0008 0 0 [byteOf lport, byteOf prio]) 0x1B) := by
  change execPauseWatchdog lport prio s = _
  simp only [execPauseWatchdog, hp, Bool.not_true, Bool.false_eq_true, if_false]

theorem exec_rxHoldRelease_of_accepted {s t u : State} {lport prio : Nat} {f : Held} (hf : heldFirst s lport prio = some (f, t))
    (hu : rxHand t f = some u) : exec (.rxHoldRelease lport prio) s = .next (pfcXon u lport prio) := by
  change execRxHoldRelease lport prio s = _
  simp only [execRxHoldRelease, hf, hu]

theorem exec_rxHoldMaxExpire_of_held {s t : State} {lport prio : Nat} {f : Held} (hf : heldFirst s lport prio = some (f, t)) :
    exec (.rxHoldMaxExpire lport prio) s = .next (pfcXon (dropCount t lport 10) lport prio) := by
  change execRxHoldMaxExpire lport prio s = _
  simp only [execRxHoldMaxExpire, hf]

/-! The Carousel's choice (05 R137 to R143). -/

/-- The machine after a logical port's queues have lost the head frames that can never fit their gate. -/
def neverFlushed (s : State) (lport : Nat) : State :=
  (portQueues s lport).foldl (fun t e => flushNever t (portCfg s (lport / 8)) e.1 e.2.1 e.2.2.frames.length) s

/-- The queues of a logical port whose head frame is a candidate then. -/
def carouselQueues (s : State) (lport : Nat) : List (Nat × TxqCfg × Txq) :=
  (portQueues (neverFlushed s lport) lport).filter (fun e => candidate (neverFlushed s lport) (portCfg s (lport / 8)) e.2.1 e.2.2)

/-- The choice within each class that has a candidate. -/
def carouselPicks (s : State) (lport : Nat) : List (Nat × Nat × Tbl Nat × Bool) :=
  (List.range 8).filterMap (fun k => (pickQueue (lportOf s lport) k (carouselQueues s lport)).map (fun r => (k, r)))

/-- The weight of a class of a logical port; 0 is strict priority. -/
def classWeight (s : State) (lport cls : Nat) : Nat := listGet (lportCfg (portCfg s (lport / 8)) lport).classes cls 1

/-- The highest class of strict priority that has a candidate. -/
def strictPick (s : State) (lport : Nat) : Option (Nat × Nat × Tbl Nat × Bool) :=
  ((carouselPicks s lport).filter (fun x => classWeight s lport x.1 == 0)).getLast?

/-- Octets of a candidate queue's head frame with its FCS. -/
def headOctets (s : State) (lport q : Nat) : Nat :=
  match (carouselQueues s lport).find? (fun e => e.1 == q) with
  | some e => (match e.2.2.frames with | f :: _ => f.data.length + 4 | [] => 0)
  | none => 0

/-- The class served, with the class deficits after it: a strict one before those that share by deficit. -/
def classChoice (s : State) (lport : Nat) : Option (Nat × Tbl Nat) :=
  match strictPick s lport with
  | some x => some (x.1, (lportOf s lport).classDeficit)
  | none => drrPick ((carouselPicks s lport).map (fun x => (x.1, classWeight s lport x.1 * 64, headOctets s lport x.2.1)))
      (lportOf s lport).classNext (lportOf s lport).classDeficit

/-- The machine after a queue of a class has been chosen: the port's place in its turns, the deficits, and the grant. -/
def carouselGranted (s : State) (lport cls q : Nat) (deficits qd : Tbl Nat) (spare : Bool) (k : TxqCfg) : State :=
  let t := (neverFlushed s lport).onLPort lport (fun l => { l with
    classDeficit := deficits
    classNext := if (strictPick s lport).isSome then l.classNext else cls
    drrNext := tset l.drrNext (if spare then cls + 8 else cls) q })
  txDrain (grantFrame (qd.foldl (fun s e => s.onTxq e.1 (fun x => { x with deficit := e.2 })) t) q k) q 8192

theorem exec_carouselSelect_of_choice {s : State} {lport cls cls2 q : Nat} {deficits qd : Tbl Nat} {spare : Bool} {k : TxqCfg}
    (hu : (lportOf s lport).up = true) (hw : (lportOf s lport).wire = none)
    (he : lportExists (portCfg s (lport / 8)) lport = true) (hc : classChoice s lport = some (cls, deficits))
    (hp : (carouselPicks s lport).find? (fun x => x.1 == cls) = some (cls2, q, qd, spare))
    (hk : txqCfg (neverFlushed s lport) q = some k) :
    exec (.carouselSelect lport) s = .next (carouselGranted s lport cls q deficits qd spare k) := by
  have ready : ¬ (!(lportOf s lport).up || (lportOf s lport).wire.isSome || !lportExists (portCfg s (lport / 8)) lport) = true := by
    simp [hu, hw, he]
  change execCarouselSelect lport s = _
  refine (if_neg ready).trans ?_
  change (match classChoice s lport with | none => _ | some (cls, deficits) => _) = _
  rw [hc]
  change (match (carouselPicks s lport).find? (fun x => x.1 == cls), strictPick s lport with
    | some (_, q, qd, spare), st => _
    | none, _ => _) = _
  rw [hp]
  change (match txqCfg (neverFlushed s lport) q with | none => _ | some k => _) = _
  rw [hk]
  rfl

/-! Frames sent, links, gate lists and samplers (05 R128, R140, R146, R147). -/

theorem exec_txFrameEnd_of_wire {s : State} {lport : Nat} {w : OnWire} (hw : (lportOf s lport).wire = some w) (time : Nat) :
    exec (.txFrameEnd lport time) s = .next (txComplete (s.onLPort lport (fun l => { l with
      wire := none
      txFrames := modAdd 64 l.txFrames 1
      txOctets := modAdd 64 l.txOctets (w.frame.data.length + 4) })) w.queue w.frame.use true 0 time) := by
  change execTxFrameEnd lport time s = _
  simp only [execTxFrameEnd, hw]

theorem exec_linkUp_of_served {s : State} {lport : Nat} (hi : ingress s = true)
    (he : lportExists (portCfg s (lport / 8)) lport = true) (hr : s.clock.eref = true)
    (hq : quarantined s (130 + lport / 8) = false) : exec (.linkUp lport) s = .next (linkUp s lport) := by
  change execLinkUp lport s = _
  simp only [execLinkUp, hi, he, hr, hq, Bool.not_false, Bool.and_self, if_true]

/-- The machine after a cycle of a port's list has started: the Carousel's turn of the port goes on. -/
def turnCounted (s : State) (port : Nat) : State :=
  s.onNet (fun n => { n with carTurn := tupd n.carTurn port 0 (fun t => modAdd 48 t 1) })

/-- The machine after a list that waits for the start of a cycle has taken effect. -/
def gclTaken (s : State) (port : Nat) : State :=
  match tget s.net.gclPending port with
  | some g => (turnCounted s port).onNet (fun n => { n with
      gclPending := tdel n.gclPending port
      gclActive := match g with | some x => tset n.gclActive port x | none => tdel n.gclActive port })
  | none => turnCounted s port

theorem exec_gclCycleStart_of_adopted {s : State} {port : Nat}
    (hg : (tget s.net.gclActive port).isSome ∨ (tget s.net.gclPending port).isSome)
    (ha : s.parts.any (fun e => e.2.remaining.contains (130 + port)) = false) :
    exec (.gclCycleStart port) s = .next (gclTaken s port) := by
  have listed : ¬ ((tget s.net.gclActive port).isNone && (tget s.net.gclPending port).isNone) = true := by
    rw [← Option.not_isSome, ← Option.not_isSome]
    rcases hg with h | h <;> simp [h]
  change execGclCycleStart port s = _
  refine (if_neg listed).trans ?_
  unfold gclTaken
  cases tget s.net.gclPending port with
  | none => rfl
  | some g => exact if_neg (Bool.eq_false_iff.mp ha)

/-- The record a sampler writes for a transmit queue (05 R147). -/
def samplerRecord (s : State) (q : Nat) (m : Sampler) (c : TxqCfg) (x : Txq) : List Byte :=
  let delay := match x.frames with | f :: _ => min (s.clock.now - f.enqueued) 0xFFFFFFFF | [] => 0
  let neg := fun (b : Bucket) => b.cur.rate != 0xFFFFFFFF && decide (b.tokens < 0)
  let flags := b2n (gateOpen s c.lport c.cls) + 2 * b2n (tgetD (lportOf s c.lport).pfc c.cls {}).paused
    + 4 * b2n (neg x.bucket || neg (classBucket s c.lport c.cls)) + 8 * b2n (!(lportOf s c.lport).up)
  le 9 q ++ [byteOf flags] ++ le 2 (min x.frames.length 65535) ++ le 4 (txDepth x) ++ le 4 delay ++ le 4 m.seq ++ le 8 s.clock.now

/-- The machine after a sampler has written its record and raised its vector. -/
def sampled (s : State) (q : Nat) (m : Sampler) (c : TxqCfg) (x : Txq) : State :=
  let a := s.onNet (fun n => { n with samplers := tmod n.samplers q (fun m => { m with seq := modAdd 32 m.seq 1 }) })
  let b := hostPost a m.fn none (m.base + 32 * (m.prod % 2 ^ m.log2)) (samplerRecord s q m c x)
  msixRaise (b.onNet (fun n => { n with samplers := tmod n.samplers q (fun m => { m with prod := modAdd 32 m.prod 1 }) })) m.fn m.vector

theorem exec_queueSampleTick_of_room {s : State} {q : Nat} {m : Sampler} {c : TxqCfg} {x : Txq}
    (hm : tget s.net.samplers q = some m) (hc : txqCfg s q = some c) (hx : tget s.net.txqs q = some x)
    (hr : modSub 32 m.prod m.cons < 2 ^ m.log2) : exec (.queueSampleTick q) s = .next (sampled s q m c x) := by
  change execQueueSampleTick q s = _
  unfold execQueueSampleTick
  rw [hm, hc, hx]
  exact if_neg (Nat.not_le.mpr hr)

/-- Settles O30: each row has the effect its lemma above states. -/
theorem networkEvents : Obligations.NetworkEvents := by
  intro s
  refine ⟨?frame, ?pfc, ?expire, ?refresh, ?watchdog, ?quiet, ?release, ?holdMax, ?select, ?frameEnd, ?down, ?up, ?gcl, ?bucket,
    ?sample⟩
  case frame =>
    exact fun _ _ _ _ _ _ hi he hu hq hmin hmax hn ha hv hc hm => exec_rxFrame_of_classified hi he hu hq ⟨hmin, hmax, hn, ha⟩ hv hc hm
  case pfc => exact fun _ quanta he hu => exec_rxPfcFrame_of_up he hu quanta
  case expire | quiet => exact fun _ _ => rfl
  case refresh => exact fun _ _ hs => exec_pfcRefresh_of_sent hs
  case watchdog => exact fun _ _ hp => exec_pauseWatchdog_of_paused hp
  case release => exact fun _ _ _ _ _ hf hu => exec_rxHoldRelease_of_accepted hf hu
  case holdMax => exact fun _ _ _ _ hf => exec_rxHoldMaxExpire_of_held hf
  case select => exact fun _ _ _ _ _ _ _ _ hu hw he hc hp hk => exec_carouselSelect_of_choice hu hw he hc hp hk
  case frameEnd => exact fun _ time _ hw => exec_txFrameEnd_of_wire hw time
  case down => exact fun _ => rfl
  case up => exact fun _ hi he hr hq => exec_linkUp_of_served hi he hr hq
  case gcl => exact fun _ hg ha => exec_gclCycleStart_of_adopted hg ha
  case bucket => rfl
  case sample => exact fun _ _ _ _ hm hc hx hr => exec_queueSampleTick_of_room hm hc hx hr

end Sys2Proof.Proofs
end

section
/-! PROOFS. Proofs/TrapezeAccesses.lean: for each row of the accesses, completions and watchdogs of the Trapeze ports, the
state it leaves when its premise holds, and the statement O39, which is their conjunction. -/

namespace Sys2Proof.Proofs

open Machine

/-! Accesses of an accelerator (11 R303, R314). -/

/-- The address in the partition's own space that an access through a window reaches. -/
def accessAddr (e : TpWindow) (x : TpAccess) : Nat := e.accBase + (x.addr - e.offset * 65536)

/-- The answer to a performed access: its completion, or the error of its status. -/
def tpAnswered (x : TpAccess) (r : Status × TpMsg × State) : State :=
  tpAnswer r.2.2 x.port (if r.1 == .ok then r.2.1 else .err x.tag (errCode r.1))

theorem tpInbound_of_window {s : State} {x : TpAccess} {len : Nat} {perm : TpWindow → Bool} {e : TpWindow}
    (hu : tpUp (s.tport x.port) = true) (hw : inWindow s x.port x.addr len = some e) (hp : perm e = true)
    (f : State → Actor → Nat → Status × TpMsg × State) :
    tpInbound s x len perm f = tpAnswered x (f s (actor s e.part e.tenant (134 + x.port)) (accessAddr e x)) := by
  simp only [tpInbound, hu, hw, hp, Bool.not_true, Bool.false_eq_true, if_false]
  rfl

/-! Completions and errors (11 R304, R305). -/

/-- Is a request that is outstanding the read, or the atomic, of a tag? -/
def tpCompletes (tag : Nat) (isRead : Bool) (r : TpReq) : Bool :=
  tagOf r.msg == tag && (match r.msg with | .read .. => isRead | _ => !isRead)

/-- The machine without the outstanding reads and atomics of a tag. -/
def tpReadEnded (s : State) (p tag : Nat) : State :=
  s.onTp p (fun t => { t with reads := t.reads.filter (fun x => tagOf x.msg != tag) })

/-- The machine without the outstanding writes of a tag. -/
def tpWriteEnded (s : State) (p tag : Nat) : State :=
  s.onTp p (fun t => { t with writes := t.writes.filter (fun x => tagOf x.msg != tag) })

/-- The octets of a completion that its request asked for. -/
def answerData (r : TpReq) (data : List Byte) : List Byte :=
  match r.msg with | .read _ _ _ _ n => fit n data | _ => fit 8 data

theorem tpComplete_of_outstanding {s : State} {p tag : Nat} {isRead : Bool} {r : TpReq} (hu : tpUp (s.tport p) = true)
    (hr : (s.tport p).reads.find? (tpCompletes tag isRead) = some r) (data : List Byte) :
    tpComplete s p tag isRead data = tpPump (tpEnd (tpReadEnded s p tag) r .ok (answerData r data)) p := by
  have up : ¬ (!tpUp (s.tport p)) = true := by rw [hu]; decide
  refine (if_neg up).trans ?_
  change (match (s.tport p).reads.find? (tpCompletes tag isRead) with | none => _ | some r => _) = _
  rw [hr]
  rfl

theorem exec_wcomp_of_outstanding {s : State} {p tag : Nat} (hu : tpUp (s.tport p) = true)
    (hw : (s.tport p).writes.any (fun r => tagOf r.msg == tag) = true) :
    exec (.wcomp p tag) s = .next
      (tpPump (((s.tport p).writes.filter (fun r => decide (modSub 16 tag (tagOf r.msg) < 32768))).foldl
        (fun s r => tpEnd s r .ok [])
        (s.onTp p (fun t => { t with writes := t.writes.filter (fun r => !decide (modSub 16 tag (tagOf r.msg) < 32768)) }))) p) := by
  change execWcomp p tag s = _
  simp only [execWcomp, hu, hw, Bool.not_true, Bool.false_eq_true, if_false]

theorem exec_tpErr_of_write {s : State} {p tag code : Nat} {st : Status} {r : TpReq} (hu : tpUp (s.tport p) = true)
    (he : errStatus code = some st) (hw : (s.tport p).writes.find? (fun r => tagOf r.msg == tag) = some r) :
    exec (.tpErr p tag code) s = .next (tpPump (tpEnd (tpWriteEnded s p tag) r st []) p) := by
  change execTpErr p tag code s = _
  simp only [execTpErr, tpWriteEnded, hu, he, hw, Bool.not_true, Bool.false_eq_true, if_false]

theorem exec_tpErr_of_read {s : State} {p tag code : Nat} {st : Status} {r : TpReq} (hu : tpUp (s.tport p) = true)
    (he : errStatus code = some st) (hw : (s.tport p).writes.find? (fun r => tagOf r.msg == tag) = none)
    (hr : (s.tport p).reads.find? (fun r => tagOf r.msg == tag) = some r) :
    exec (.tpErr p tag code) s = .next (tpPump (tpEnd (tpReadEnded s p tag) r st []) p) := by
  change execTpErr p tag code s = _
  simp only [execTpErr, tpReadEnded, hu, he, hw, hr, Bool.not_true, Bool.false_eq_true, if_false]

/-! Watchdogs and return signals (04 R102, 11 R305, R308, R315). -/

theorem exec_trapezeReadTimeout_of_outstanding {s : State} {p tag : Nat} {r : TpReq}
    (hr : (s.tport p).reads.find? (fun r => tagOf r.msg == tag) = some r) :
    exec (.trapezeReadTimeout p tag) s = .next (tpPump (tpEnd (rindCount (s.onTp p (fun t => { t with
      reads := t.reads.filter (fun x => tagOf x.msg != tag)
      withheld := t.withheld ++ [tag] })) 0x18) r .partnerTimeout []) p) := by
  change execTrapezeReadTimeout p tag s = _
  simp only [execTrapezeReadTimeout, hr]

theorem exec_creditWatchdog_of_waiting {s : State} {p : Nat} (hu : tpUp (s.tport p) = true)
    (hw : ((s.tport p).queue.isEmpty && (s.tport p).responses.isEmpty && (s.tport p).controls.isEmpty) = false) :
    exec (.creditWatchdog p) s = .next (tpTrain (tpLeavePort (rindCount s 0x17) p .stalled .partnerStalled) p true true) := by
  change execCreditWatchdog p s = _
  simp only [execCreditWatchdog, hu, hw, Bool.not_true, Bool.or_self, Bool.false_eq_true, if_false]

theorem exec_ringSignal_of_bound {s : State} {p ring k : Nat} {c : FeedCfg} (hu : tpUp (s.tport p) = true)
    (hc : tget s.cfg.sess.returns ring = some c) (hr : region c.bind.entryArray = .trapeze p k)
    (hq : quarantined s 138 = false) (prod : Nat) (sessions : List Nat) :
    exec (.ringSignal p ring prod sessions) s = .next (returnPoll s ring sessions) := by
  change execRingSignal p ring prod sessions s = _
  simp only [execRingSignal, hu, hc, hr, hq, beq_self_eq_true, Bool.not_true, Bool.false_eq_true, if_false]

/-- Settles O39: each row has the effect its lemma above states. -/
theorem trapezeAccesses : Obligations.TrapezeAccesses := by
  intro s
  refine ⟨?write, ?read, ?fadd, ?cas, ?rdcomp, ?atcomp, ?wcomp, ?errWrite, ?errRead, ?timeout, ?watchdog, ?signal⟩
  case write | read | fadd => exact fun _ _ _ hu hw hp => congrArg Host.Outcome.next (tpInbound_of_window hu hw hp _)
  case cas => exact fun _ _ _ _ hu hw hp => congrArg Host.Outcome.next (tpInbound_of_window hu hw hp _)
  case rdcomp => exact fun _ _ data _ hu hr => congrArg Host.Outcome.next (tpComplete_of_outstanding (isRead := true) hu hr data)
  case atcomp =>
    exact fun _ _ old _ hu hr => congrArg Host.Outcome.next (tpComplete_of_outstanding (isRead := false) hu hr (le 8 old))
  case wcomp => exact fun _ _ hu hw => exec_wcomp_of_outstanding hu hw
  case errWrite => exact fun _ _ _ _ _ hu he hw => exec_tpErr_of_write hu he hw
  case errRead => exact fun _ _ _ _ _ hu he hw hr => exec_tpErr_of_read hu he hw hr
  case timeout => exact fun _ _ _ hr => exec_trapezeReadTimeout_of_outstanding hr
  case watchdog => exact fun _ hu hw => exec_creditWatchdog_of_waiting hu hw
  case signal => exact fun _ _ sessions prod _ _ hu hc hr hq => exec_ringSignal_of_bound hu hc hr hq prod sessions

end Sys2Proof.Proofs
end

section
/-! PROOFS. Proofs/GdpEvents.lean: for each row of Direct Placement, the state it leaves when its premise holds, and the
statement O42, which is their conjunction. -/

namespace Sys2Proof.Proofs

open Machine

/-! The start of an operation (12 R335 to R337, R350). -/

/-- The next descriptor `d` of connection `n` may start: the connection is open and not held back, `d` passes its checks, and
the partition's limit and the connection's window have room. -/
structure OpReady (s : State) (n : Nat) (c : ConnCfg) (g : GdpConn) (d : GdpDesc) (ds : List GdpDesc) : Prop where
  cfg : connCfg s n = some c
  conn : tget s.gdp.conns n = some g
  next : g.waiting = d :: ds
  limit : usedOf s c.part none 8 + 1 ≤ limitOf s c.part 8
  isOpen : g.state = .open_
  fence : d.fence = true → g.ops = []
  window : mayStart s g = true
  noneLost : g.sent.any (·.lost) = false
  notOwned : pressOwns s n = false
  notHeld : pressHolds s n = false
  checked : gdpOpBad s c d = none

theorem OpReady.notBlocked {s : State} {n : Nat} {c : ConnCfg} {g : GdpConn} {d : GdpDesc} {ds : List GdpDesc}
    (h : OpReady s n c g d ds) :
    ¬ (g.state != .open_ || (d.fence && !g.ops.isEmpty) || pressOwns s n || pressHolds s n) = true := by
  have fence : (d.fence && !g.ops.isEmpty) = false := by
    cases hf : d.fence with
    | false => rfl
    | true => rw [h.fence hf]; rfl
  simp [h.isOpen, fence, h.notOwned, h.notHeld]

theorem OpReady.hasRoom {s : State} {n : Nat} {c : ConnCfg} {g : GdpConn} {d : GdpDesc} {ds : List GdpDesc}
    (h : OpReady s n c g d ds) :
    ¬ (limitOf s c.part 8 < usedOf s c.part none 8 + 1 || !mayStart s g || g.sent.any (·.lost)) = true := by
  rw [h.window, h.noneLost, decide_eq_false (Nat.not_lt.mpr h.limit)]
  decide

/-- The machine after a connection's first waiting descriptor has been taken. -/
def opTaken (s : State) (n : Nat) (ds : List GdpDesc) : State := s.onConn n (fun g => { g with waiting := ds })

/-- What a READ tells the responder of its sink (12 R333). -/
def readSink (s : State) (c : ConnCfg) (d : GdpDesc) : List Byte :=
  let key := match tget (cfgAt s c.part 140).gdp.regions d.localRegion with | some r => r.set.key | none => 0
  be 2 d.localRegion ++ be 2 0 ++ be 4 key ++ be 8 d.localOffset

/-- The read of the source of a WRITE or SEND: its status, its octets and the machine after it. -/
def opSource (s : State) (c : ConnCfg) (d : GdpDesc) (ext : List Byte) : Status × List Byte × State :=
  if d.length == 0 then (Status.ok, [], s)
  else gdpRead s c ((regionUse s c d.localRegion d.localOffset d.length none (·.loc)).getD 0) d.length ext

/-- What a descriptor that may start does, by its operation: READ, FADD, CAS, or WRITE and SEND, whose source is read. -/
def opStarted (e : State) (n : Nat) (c : ConnCfg) (g : GdpConn) (d : GdpDesc) (ext : List Byte) :
    Host.Outcome State Fault Refusal :=
  match d.op with
  | 2 => .next (gdpStart e n c d false (readSink e c d) d.remoteRegion d.remoteKey d.length d.remoteOffset)
  | 4 => .next (gdpStart e n c d false (le 8 d.operand0) d.remoteRegion d.remoteKey 8 d.remoteOffset)
  | 5 => .next (gdpStart e n c d false (le 8 d.operand0 ++ le 8 d.operand1) d.remoteRegion d.remoteKey 8 d.remoteOffset)
  | op =>
    let r := opSource e c d ext
    if r.1 != .ok then .next (gdpRecord r.2.2 n d.op 0 d.tag r.1.code 0 d.signal)
    else if op == 7 then .next (gdpStart r.2.2 n c d false r.2.1 0 g.nextSsn d.length 0)
    else .next (gdpStart r.2.2 n c d false r.2.1 d.remoteRegion d.remoteKey d.length d.remoteOffset)

theorem exec_gdpOpStart_of_ready {s : State} {n : Nat} {c : ConnCfg} {g : GdpConn} {d : GdpDesc} {ds : List GdpDesc}
    (h : OpReady s n c g d ds) (ext : List Byte) :
    exec (.gdpOpStart n ext) s = opStarted (opTaken s n ds) n c g d ext := by
  change execGdpOpStart n ext s = _
  simp only [execGdpOpStart, h.cfg, h.conn, h.next, if_neg h.notBlocked, h.checked, if_neg h.hasRoom]
  rfl

theorem opStarted_write {e : State} {c : ConnCfg} {d : GdpDesc} {ext : List Byte} (ho : d.op = 1)
    (hr : (opSource e c d ext).1 = .ok) (n : Nat) (g : GdpConn) :
    opStarted e n c g d ext = .next (gdpStart (opSource e c d ext).2.2 n c d false (opSource e c d ext).2.1
      d.remoteRegion d.remoteKey d.length d.remoteOffset) := by
  simp [opStarted, ho, hr]

theorem opStarted_send {e : State} {c : ConnCfg} {d : GdpDesc} {ext : List Byte} (ho : d.op = 7)
    (hr : (opSource e c d ext).1 = .ok) (n : Nat) (g : GdpConn) :
    opStarted e n c g d ext =
      .next (gdpStart (opSource e c d ext).2.2 n c d false (opSource e c d ext).2.1 0 g.nextSsn d.length 0) := by
  simp [opStarted, ho, hr]

/-! DATA packets that are placed (12 R337, R339, R342). -/

section Data

variable {s e : State} {h : GdpHdr} {pay d : List Byte} {c : ConnCfg}

/-- A placed packet is marked, with the status of its placement and its unanswered writes. -/
def dataPlaced (h : GdpHdr) (c : ConnCfg) (op : Nat) (r : Status × Nat × State) : State := gdpPlaced r.2.2 h c op r.1 r.2.1

theorem exec_gdpWrite_of_admitted {a : Nat} (hd : gdpData s h pay = .inl (c, d, e)) (hb : bitmapFree e c h 1 = true)
    (hm : msgStatus e h.dstConn 1 h.msn = .ok)
    (ha : regionUse e c h.region h.offset h.len (some h.rkey) (·.rWrite) = some a) :
    exec (.gdpWrite h pay) s =
      .next (gdpDrain (dataPlaced h c 1 (gdpPlace e h.dstConn c 0 h.msn a (fit h.len d))) h.dstConn) := by
  change execGdpWrite h pay s = _
  simp only [execGdpWrite, dataPlaced, hd, hb, hm, ha, bne_self_eq_false, Bool.not_true, Bool.false_eq_true, if_false]

theorem exec_readResp_of_awaited {a : Nat} (hd : gdpData s h pay = .inl (c, d, e)) (hb : bitmapFree e c h 3 = true)
    (ho : (connOf e h.dstConn).ops.any (fun o => o.msn == h.msn && o.desc.op == 2) = true)
    (hm : msgStatus e h.dstConn 3 h.msn = .ok)
    (ha : regionUse e c h.region h.offset h.len (some h.rkey) (·.loc) = some a) :
    exec (.readResp h pay) s = .next (gdpDrain (gdpReadDone
      (dataPlaced h c 3 (gdpPlace e h.dstConn c 1 h.msn a (fit h.len d))) h.dstConn c h.msn) h.dstConn) := by
  change execReadResp h pay s = _
  simp only [execReadResp, dataPlaced, hd, hb, ho, hm, ha, bne_self_eq_false, Bool.not_true, Bool.false_eq_true, if_false]

/-- The status of a SEND packet: that of its placement, and LENGTH where the buffer is shorter than the message. -/
def sendStatus (b : GdpRecv) (h : GdpHdr) (st : Status) : Status :=
  if st == .ok then (if b.length < h.msgLen then Status.gdpLength else .ok) else st

theorem exec_gdpSend_of_buffer {b : GdpRecv} {a : Nat} (hd : gdpData s h pay = .inl (c, d, e)) (hb : bitmapFree e c h 7 = true)
    (hp : pressOwns e h.dstConn = false) (hr : tget (connOf e h.dstConn).recvs h.rkey = some b)
    (hm : msgStatus e h.dstConn 7 h.msn = .ok) (hl : h.offset + h.len ≤ b.length)
    (ha : regionUse e c b.region (b.offset + h.offset) h.len none (·.loc) = some a) :
    exec (.gdpSend h pay) s = .next (gdpDrain (dataPlaced h c 7
      ((gdpPlace e h.dstConn c 0 h.msn a (fit h.len d)).map (sendStatus b h) id)) h.dstConn) := by
  change execGdpSend h pay s = _
  simp only [execGdpSend, hd, hb, hp, hr, hm, if_neg (Nat.not_lt.mpr hl), ha, bne_self_eq_false, Bool.false_and, Bool.not_true,
    Bool.false_eq_true, if_false]
  rfl

/-! READs and atomics of the peer, and the answers to this end's own (12 R337, R338, R344). -/

/-- A request that is a packet by itself is in service: its PSN is marked, and its response waits to be sent. -/
def requestServed (s : State) (h : GdpHdr) (j : GdpJob) : State :=
  gdpDrain ((gdpSingle s h false).onConn h.dstConn (fun g => { g with jobs := g.jobs ++ [j] })) h.dstConn

/-- The response to a READ, to the sink that the request's payload names. -/
def readJob (h : GdpHdr) (d data : List Byte) : GdpJob :=
  { op := 3, msn := h.msn, data := some data, msgLen := h.msgLen, region := ofBe (d.take 2), rkey := ofBe ((d.drop 4).take 4)
    offset := ofBe ((d.drop 8).take 8) % 2 ^ 48, nextK := 0, service := true }

/-- The response to an atomic, with the old value once it is known. -/
def atomicJob (h : GdpHdr) (data : Option (List Byte)) : GdpJob :=
  { op := 6, msn := h.msn, data := data, msgLen := 8, region := 0, rkey := 0, offset := 0, nextK := 0, service := true }

/-- The read of the source of a peer's READ: its status, its octets and the machine after it. -/
def readSource (s : State) (c : ConnCfg) (a len : Nat) (ext : List Byte) : Status × List Byte × State :=
  if len == 0 then (Status.ok, [], s) else gdpRead s c a len ext

theorem exec_readReq_of_admitted {ext : List Byte} {a : Nat} (hd : gdpData s h pay = .inl (c, d, e))
    (hb : bitmapFree e c h 2 = true) (hf : serviceFull e c = false)
    (ha : regionUse e c h.region h.offset h.msgLen (some h.rkey) (·.rRead) = some a)
    (hr : (readSource e c a h.msgLen ext).1 = .ok) :
    exec (.readReq h pay ext none) s = .next (requestServed (readSource e c a h.msgLen ext).2.2 h
      (readJob h d (readSource e c a h.msgLen ext).2.1)) := by
  have read : ¬ ((readSource e c a h.msgLen ext).1 != .ok) = true := by simp [hr]
  change execReadReq h pay ext none s = _
  simp only [execReadReq, hd, hb, hf, ha, Bool.not_true, Bool.false_eq_true, if_false]
  exact if_neg read

/-- The value a peer's FADD leaves, by the addend of its payload. -/
def fetchAdded (d : List Byte) (old : Nat) : Nat := modAdd 64 old (ofLe (d.take 8))

/-- The value a peer's CAS leaves, by the two operands of its payload. -/
def casSwapped (d : List Byte) (old : Nat) : Nat := if old == ofLe (d.take 8) then ofLe ((d.drop 8).take 8) else old

/-- The request that passes a peer's FADD to an accelerator. -/
def faddMsg (d : List Byte) (tag p t a : Nat) : TpMsg := .fadd tag p t a (ofLe (d.take 8))

/-- The request that passes a peer's CAS to an accelerator. -/
def casMsg (d : List Byte) (tag p t a : Nat) : TpMsg := .cas tag p t a (ofLe (d.take 8)) (ofLe ((d.drop 8).take 8))

theorem exec_gdpFadd (s : State) (h : GdpHdr) (pay : List Byte) :
    exec (.gdpFadd h pay) s = gdpAtomic h pay fetchAdded faddMsg s := rfl

theorem exec_gdpCas (s : State) (h : GdpHdr) (pay : List Byte) :
    exec (.gdpCas h pay) s = gdpAtomic h pay casSwapped casMsg s := rfl

theorem gdpAtomic_of_device {f : List Byte → Nat → Nat} {link : List Byte → Nat → Nat → Nat → Nat → TpMsg} {a : Nat}
    (hd : gdpData s h pay = .inl (c, d, e)) (hb : bitmapFree e c h 4 = true) (hf : serviceFull e c = false)
    (ha : regionUse e c h.region h.offset 8 (some h.rkey) (·.rAtomic) = some a) (hr : ∀ p o, region a ≠ .trapeze p o)
    (hs : (atomicAt e 13 (gdpActor e c) a (f d)).1 = .ok) :
    gdpAtomic h pay f link s = .next (requestServed (atomicAt e 13 (gdpActor e c) a (f d)).2.2 h
      (atomicJob h (some (le 8 (atomicAt e 13 (gdpActor e c) a (f d)).2.1)))) := by
  -- the match on the region takes its last alternative by `hr`, which `simp` finds among the hypotheses
  simp only [gdpAtomic, hd, hb, hf, ha, hs, bne_self_eq_false, Bool.not_true, Bool.false_eq_true, if_false]
  rfl

theorem gdpAtomic_of_link {f : List Byte → Nat → Nat} {link : List Byte → Nat → Nat → Nat → Nat → TpMsg} {a p o : Nat} {w : TpWindow}
    (hd : gdpData s h pay = .inl (c, d, e)) (hb : bitmapFree e c h 4 = true) (hf : serviceFull e c = false)
    (ha : regionUse e c h.region h.offset 8 (some h.rkey) (·.rAtomic) = some a) (hr : region a = .trapeze p o)
    (hk : accessCheck e (gdpActor e c) a 8 .atomic = .ok) (hw : outWindow (gdpActor e c).cfg p o = some w) :
    gdpAtomic h pay f link s = .next (requestServed
      (tpEnqueue e p (link d 0 (gdpActor e c).part (gdpActor e c).tenant (accAddr w o)) (.gdp h.dstConn 2 h.msn)) h
      (atomicJob h none)) := by
  simp only [gdpAtomic, hd, hb, hf, ha, hr, hk, hw, Bool.not_true, Bool.false_eq_true, if_false]
  rfl

theorem exec_atomicResp_of_awaited {o : GdpOp} (hd : gdpData s h pay = .inl (c, d, e)) (hb : bitmapFree e c h 6 = true)
    (ho : (connOf (gdpSingle e h false) h.dstConn).ops.find?
      (fun o => o.msn == h.msn && (o.desc.op == 4 || o.desc.op == 5)) = some o) :
    exec (.atomicResp h pay) s =
      .next (gdpDrain (gdpFinish (gdpSingle e h false) h.dstConn o .ok (ofLe (d.take 8))) h.dstConn) := by
  change execAtomicResp h pay s = _
  simp only [execAtomicResp, hd, hb, ho, Bool.not_true, Bool.false_eq_true, if_false]

end Data

/-! Packets that open, acknowledge and close a connection (12 R328, R333, R346). -/

section Control

variable {s e : State} {h : GdpHdr} {x : ConnCfg × List Byte}

theorem exec_gdpAck_of_admitted (ha : gdpAdmit s h false [] = (some x, e)) (b : GdpAckBody) :
    exec (.gdpAck h b) s = .next (gdpDrain (ackComps (ackSender e h.dstConn x.1 b) h.dstConn b) h.dstConn) := by
  change execGdpAck h b s = _
  simp only [execGdpAck, ha]

theorem exec_hello_of_agreed (ha : gdpAdmit s h false [] = (some x, e)) (hc : (connOf e h.dstConn).state = .connecting)
    (hu : helloUnlike s h = false) :
    exec (.hello h x.1.blk.peerConn x.1.blk.log2Payload x.1.blk.alg x.1.blk.prot) s =
      .next (gdpDrain (gdpOpen e h.dstConn x.1) h.dstConn) := by
  change execHello h x.1.blk.peerConn x.1.blk.log2Payload x.1.blk.alg x.1.blk.prot s = _
  simp only [execHello, hu, ha, hc, bne_self_eq_false, beq_self_eq_true, Bool.and_self, Bool.false_eq_true, if_false, if_true]

theorem exec_gdpClosePacket_of_live (ha : gdpAdmit s h false [] = (some x, e))
    (hs : (connOf e h.dstConn).state = .open_ ∨ (connOf e h.dstConn).state = .draining) :
    exec (.gdpClosePacket h) s = .next (gdpFail e h.dstConn .gdpPeerClosed) := by
  change execGdpClosePacket h s = _
  rcases hs with hs | hs <;> simp only [execGdpClosePacket, ha, hs]

end Control

/-! The timers of a connection, lost packets and whole messages (04 R102, 12 R328, R343, R346 to R348, 24 R627). -/

section Timers

variable {s : State} {n : Nat} {c : ConnCfg} {g : GdpConn}

theorem exec_helloTimer_of_connecting (hc : connCfg s n = some c) (hg : tget s.gdp.conns n = some g) (hs : g.state = .connecting) :
    exec (.helloTimer n) s = .next (gdpEmit s n c 0 .plain (gdpHeader c 3 0 0 0 s.clock.now 0 0 0 8 0 0 0 0 false)
      (be 2 n ++ [byteOf c.blk.log2Payload, byteOf (b2n c.blk.prot), byteOf c.blk.alg, byteOf c.blk.paths] ++ zeros 2) false) := by
  change execHelloTimer n s = _
  simp only [execHelloTimer, hc, hg, hs, bne_self_eq_false, Bool.false_eq_true, if_false]

theorem exec_closeResendTimer_of_sent (hc : connCfg s n = some c) (hg : tget s.gdp.conns n = some g) (hs : g.state = .draining)
    (hk : 1 ≤ g.closes) : exec (.closeResendTimer n) s = .next (gdpSendClose s n c) := by
  change execCloseResendTimer n s = _
  simp only [execCloseResendTimer, hc, hg, hs, hk, beq_self_eq_true, decide_true, Bool.and_self, if_true]

theorem exec_ackDelayTimer_of_due {d : Nat} (hg : tget s.gdp.conns n = some g) (hd : g.ackDueAt = some d) :
    exec (.ackDelayTimer n) s = .next (gdpAck s n g.echo) := by
  change execAckDelayTimer n s = _
  simp only [execAckDelayTimer, hg, hd, Option.isSome_some, if_true]

theorem exec_gdpRto_of_elapsed {psn : Nat} {x : GdpSent} (hc : connCfg s n = some c) (hg : tget s.gdp.conns n = some g)
    (hx : g.sent.find? (fun x => x.psn == psn) = some x) (hl : x.lost = false)
    (ht : x.at_ + rtoOf g x.retries ≤ s.clock.cadence) :
    exec (.gdpRto n psn) s = .next (gdpDrain (gdpMarkLost (s.onConn n (fun g => { g with
      window := max c.blk.winMin (g.window / 2), slowStart := false })) n psn) n) := by
  change execGdpRto n psn s = _
  simp only [execGdpRto, hc, hg, hx, hl, if_neg (Nat.not_lt.mpr ht), Bool.false_eq_true, if_false]

theorem exec_gdpProgressTimeout_of_pending (hg : tget s.gdp.conns n = some g) (he : g.state ≠ .error)
    (ho : g.state = .open_ → g.ops ≠ []) : exec (.gdpProgressTimeout n) s = .next (gdpFail s n .gdpTimeout) := by
  have pending : ¬ (g.state == .error || (g.state == .open_ && g.ops.isEmpty)) = true := by simpa [he] using ho
  change execGdpProgressTimeout n s = _
  simp only [execGdpProgressTimeout, hg, if_neg pending]

theorem exec_gdpMessageComplete_of_whole {msn : Nat} {m : GdpMsg} (hc : connCfg s n = some c)
    (hm : (connOf s n).msgs.find? (sameMsg 1 msn) = some m) (hw : gdpWhole c m = true) (ha : m.writes = 0) (ho : m.op ≠ 7) :
    exec (.gdpMessageComplete n msn) s = .next (gdpDrain (gdpComp (s.onConn n (fun g => { g with
      msgs := g.msgs.filter (fun x => !sameMsg 1 msn x) })) n msn (compStatus m.status)) n) := by
  have noSend : (m.op != 7) = true := bne_iff_ne.mpr ho
  change execGdpMessageComplete n msn s = _
  simp only [execGdpMessageComplete, hc, hm, hw, ha, noSend, bne_self_eq_false, Bool.not_true, Bool.or_self, Bool.true_or,
    Bool.false_eq_true, if_false, if_true]

theorem exec_gdpPacedSend_of_paced (hg : tget s.gdp.conns n = some g) (hp : g.paced = true) :
    exec (.gdpPacedSend n) s =
      .next (gdpDrain (s.onConn n (fun g => { g with paceAt := min g.paceAt s.clock.cadence })) n) := by
  change execGdpPacedSend n s = _
  simp only [execGdpPacedSend, hg, hp, if_true]

end Timers

/-- Settles O42: each row has the effect its lemma above states. -/
theorem gdpEvents : Obligations.GdpEvents := by
  intro s
  refine ⟨?opRead, ?opFadd, ?opCas, ?opWrite, ?opSend, ?write, ?readReq, ?readResp, ?fadd, ?faddLink, ?casLink, ?cas, ?atomicResp,
    ?send, ?ack, ?hello, ?close, ?helloTimer, ?closeTimer, ?ackTimer, ?rto, ?progress, ?message, ?paced⟩
  case opRead | opFadd | opCas =>
    intro n ext c g d ds e hc hg hw hl hs hf hm hx hp hh hb ho
    rw [exec_gdpOpStart_of_ready ⟨hc, hg, hw, hl, hs, hf, hm, hx, hp, hh, hb⟩, opStarted, ho]
    rfl
  case opWrite =>
    intro n ext c g d ds e here r hc hg hw hl hs hf hm hx hp hh hb ho hr
    exact (exec_gdpOpStart_of_ready ⟨hc, hg, hw, hl, hs, hf, hm, hx, hp, hh, hb⟩ ext).trans (opStarted_write ho hr n g)
  case opSend =>
    intro n ext c g d ds e here r hc hg hw hl hs hf hm hx hp hh hb ho hr
    exact (exec_gdpOpStart_of_ready ⟨hc, hg, hw, hl, hs, hf, hm, hx, hp, hh, hb⟩ ext).trans (opStarted_send ho hr n g)
  case write => exact fun _ _ _ _ _ _ hd hb hm ha => exec_gdpWrite_of_admitted hd hb hm ha
  case readReq => exact fun _ _ _ _ _ _ _ hd hb hf ha hr => exec_readReq_of_admitted hd hb hf ha hr
  case readResp => exact fun _ _ _ _ _ _ hd hb ho hm ha => exec_readResp_of_awaited hd hb ho hm ha
  case fadd => exact fun h pay _ _ _ _ hd hb hf ha hr hs => (exec_gdpFadd s h pay).trans (gdpAtomic_of_device hd hb hf ha hr hs)
  case cas => exact fun h pay _ _ _ _ hd hb hf ha hr hs => (exec_gdpCas s h pay).trans (gdpAtomic_of_device hd hb hf ha hr hs)
  case faddLink =>
    exact fun h pay _ _ _ _ _ _ _ hd hb hf ha hr hk hw => (exec_gdpFadd s h pay).trans (gdpAtomic_of_link hd hb hf ha hr hk hw)
  case casLink =>
    exact fun h pay _ _ _ _ _ _ _ hd hb hf ha hr hk hw => (exec_gdpCas s h pay).trans (gdpAtomic_of_link hd hb hf ha hr hk hw)
  case atomicResp => exact fun _ _ _ _ _ _ hd hb ho => exec_atomicResp_of_awaited hd hb ho
  case send => exact fun _ _ _ _ _ _ _ hd hb hp hr hm hl ha => exec_gdpSend_of_buffer hd hb hp hr hm hl ha
  case ack => exact fun _ b _ _ ha => exec_gdpAck_of_admitted ha b
  case hello =>
    rintro h _ _ _ _ x e ha hc rfl rfl rfl rfl hu
    exact exec_hello_of_agreed ha hc hu
  case close => exact fun _ _ _ ha hs => exec_gdpClosePacket_of_live ha hs
  case helloTimer => exact fun _ _ _ hc hg hs => exec_helloTimer_of_connecting hc hg hs
  case closeTimer => exact fun _ _ _ hc hg hs hk => exec_closeResendTimer_of_sent hc hg hs hk
  case ackTimer => exact fun _ _ _ hg hd => exec_ackDelayTimer_of_due hg hd
  case rto => exact fun _ _ _ _ _ hc hg hx hl ht => exec_gdpRto_of_elapsed hc hg hx hl ht
  case progress => exact fun _ _ hg he ho => exec_gdpProgressTimeout_of_pending hg he ho
  case message => exact fun _ _ _ _ hc hm hw ha ho => exec_gdpMessageComplete_of_whole hc hm hw ha ho
  case paced => exact fun _ _ hg hp => exec_gdpPacedSend_of_paced hg hp

end Sys2Proof.Proofs
end

section
/-! PROOFS. Proofs/CipherAndSessionEvents.lean: for each row of the Cipher Hall, the sessions and the ports of requests, the
state it leaves when its premise holds, and the statement O31, which is their conjunction. -/

namespace Sys2Proof.Proofs

open Machine

/-! The verify-hold (06 R158, 07 R205 to R207). -/

/-- The machine after packet `k` of the verify-hold has passed to state `st`. -/
def pktMoved (s : State) (k : Nat) (st : VhState) : State :=
  s.onCipher (fun c => { c with pkts := tmod c.pkts k (fun y => { y with state := st }) })

/-- The machine after packet `k` has left the verify-hold. -/
def pktGone (s : State) (k : Nat) : State := s.onCipher (fun c => { c with pkts := tdel c.pkts k })

theorem exec_cipherIntake_of_room {s : State} {p k : Nat} {x : VhPkt}
    (hx : tfind s.cipher.pkts (fun _ x => x.part == p && x.state == .intake) = some (k, x))
    (hr : usedOf s p none 6 + x.granules ≤ limitOf s p 6) (hq : quarantined s 139 = false) :
    exec (.cipherIntake p) s = .next (pktMoved s k .decrypting) := by
  have admitted : (decide (limitOf s p 6 < usedOf s p none 6 + x.granules) || quarantined s 139) = false := by
    rw [decide_eq_false (Nat.not_lt.mpr hr), hq]; rfl
  change execCipherIntake p s = _
  unfold execCipherIntake
  rw [hx]
  exact if_neg (ne_true_of_eq_false admitted)

/-- The nonce of a held packet under a key. -/
def pktNonce (x : VhPkt) (key : KeySlot) : List Byte := srtpNonce key (ofBe ((x.aad.drop 8).take 4)) x.index

/-- Does the tag of a held packet verify? -/
def pktAuthentic (x : VhPkt) (key : KeySlot) : Bool := Config.tagOk key.alg key.material (pktNonce x key) x.aad x.body

/-- The final check of a packet that verifies: whether its plaintext was placed, and the machine after it. -/
def pktChecked (s : State) (x : VhPkt) (c : SessCfg) (key : KeySlot) : Bool × State :=
  sessFinal s x.session c x.index x.aad
    (fit (x.body.length - tagLen key.alg) (Config.aeadOpen key.alg key.material (pktNonce x key) x.aad x.body))

theorem exec_tagVerify_of_decrypted {s : State} {k : Nat} {x : VhPkt} {c : SessCfg} {key : KeySlot}
    (hx : tget s.cipher.pkts k = some x)
    (he : s.cipher.pkts.any (fun e => e.1 < k && e.2.session == x.session && (e.2.state == .intake || e.2.state == .decrypting)) = false)
    (hs : x.state = .decrypting) (hc : tget (cfgOf s x.part x.epoch).sess.sessions x.session = some c)
    (hk : tget s.cipher.slots c.blk.keyRx = some key) :
    exec (.tagVerify k) s = .next (if pktAuthentic x key then
        pktMoved (pktChecked s x c key).2 k (if (pktChecked s x c key).1 then .releasing else .scrubbing)
      else pktMoved (authFail s x.session c) k .scrubbing) := by
  change execTagVerify k s = _
  simp only [execTagVerify, hx, he, hs, hc, hk, bne_self_eq_false, Bool.or_false, Bool.false_eq_true, if_false]
  change (if (!pktAuthentic x key) = true then _ else _) = _
  cases pktAuthentic x key <;> rfl

theorem exec_releaseComplete_of_releasing {s : State} {k : Nat} {x : VhPkt} (hx : tget s.cipher.pkts k = some x)
    (hs : x.state = .releasing) : exec (.releaseComplete k) s = .next (pktGone s k) := by
  change execReleaseComplete k s = _
  simp only [execReleaseComplete, hx, hs, beq_self_eq_true, if_true]
  rfl

theorem exec_granuleScrubDone_of_scrubbing {s : State} {k : Nat} {x : VhPkt} (hx : tget s.cipher.pkts k = some x)
    (hs : x.state = .scrubbing) : exec (.granuleScrubDone k) s = .next (pktGone s k) := by
  change execGranuleScrubDone k s = _
  simp only [execGranuleScrubDone, hx, hs, beq_self_eq_true, if_true]
  rfl

/-! The cadence tick of a session (06 R165, R167 to R170). -/

/-- The machine after a shift that waits for the session's tick has been taken in. -/
def shiftTaken (s : State) (n : Nat) (x : Sess) : State :=
  match x.shift with
  | some neg => s.onSession n (fun x => { x with shift := none, shifted := if neg then x.shifted - 1 else x.shifted + 1 })
  | none => s

/-- The frame a tick plays: the one that is due, after those that a shorter delay has made late (06 R169). -/
def tickFrame (x : Sess) (c : SessCfg) : Nat := x.due + (x.delay - c.blk.delay)

/-- The machine when a tick plays its frame: the shift is taken in and the late frames are dropped. -/
def tickReady (s : State) (n : Nat) (x : Sess) (c : SessCfg) : State :=
  (dropLate (shiftTaken s n x) n c.blk x.due (x.delay - c.blk.delay)).onSession n
    (fun y => { y with due := tickFrame x c, delay := c.blk.delay })

/-- Frame `e` of a jitter buffer, if it is there. -/
def bufferedFrame (y : Sess) (c : SessCfg) (e : Nat) : Option JbFrame :=
  match tget y.slots (e % c.blk.depth) with | some g => if g.frame == e then some g else none | none => none

/-- The read of the octets of frame `e`: its status, the octets and the machine after it. -/
def frameRead (a : State) (y : Sess) (c : SessCfg) (e : Nat) : Status × List Byte × State :=
  match bufferedFrame y c e with
  | some g => memLoad a (slotAddr y c.blk (e % c.blk.depth)) g.len
  | none => (.ok, [], a)

/-- Frame `e`, if it is there and its octets could be read. -/
def heldFrame (a : State) (y : Sess) (c : SessCfg) (e : Nat) : Option JbFrame :=
  if (frameRead a y c e).1 == .ok then bufferedFrame y c e else none

/-- The machine after frame `e` has been read; a missing frame takes a draw for the fields of its event. -/
def frameFetched (a : State) (y : Sess) (c : SessCfg) (e : Nat) : State :=
  if (heldFrame a y c e).isSome then (frameRead a y c e).2.2 else (draw (frameRead a y c e).2.2).2

/-- Frame `e` as its event reports it: the one held, or the free fields of a missing one (06 R170). -/
def reportedFrame (a : State) (y : Sess) (c : SessCfg) (e : Nat) : JbFrame :=
  let v := (draw (frameRead a y c e).2.2).1
  (heldFrame a y c e).getD { frame := e, marker := bit v 60, pt := field v 50 7, index := v % 2 ^ 48, len := 0 }

/-- The words of the event of frame `e` (06 R170). -/
def frameWords (a : State) (n : Nat) (y : Sess) (c : SessCfg) (e : Nat) : List Word :=
  let g := reportedFrame a y c e
  [word (kindWord 1 + b2n g.marker * 2 ^ 20 + b2n (heldFrame a y c e).isSome * 2 ^ 18 + n), word (g.index / 2 ^ 24),
    word (g.pt * 2 ^ 24 + g.index % 2 ^ 24), word (frameFetched a y c e).clock.now,
    word (tcount y.slots (fun _ g => e < g.frame) * 2 ^ 18 + g.len)]

/-- The machine after frame `e` has been put to the acts, unless the session suppresses a long run of missing frames. -/
def frameReported (a : State) (n : Nat) (y : Sess) (c : SessCfg) (e : Nat) : State :=
  let t := frameFetched a y c e
  if (heldFrame a y c e).isNone && c.blk.suppress && 8 ≤ y.missing then t
  else (putAct t c.part { kind := 1, binding := sessBinding c, session := n, epoch := epochAt t c.part 138
                          words := frameWords a n y c e, payload := (frameRead a y c e).2.1, source := 0 }).2

/-- The machine after frame `e` has been played out: its slot is free and the next frame is due. -/
def framePlayed (a : State) (n : Nat) (y : Sess) (c : SessCfg) (e : Nat) : State :=
  (frameReported a n y c e).onSession n (fun x => { x with
    slots := tdel x.slots (e % c.blk.depth)
    due := e + 1
    missing := if (heldFrame a y c e).isSome then 0 else x.missing + 1 })

theorem exec_frameTick_of_anchored {s : State} {n : Nat} {x y : Sess} {c : SessCfg} (hx : tget s.sess.sess n = some x)
    (hc : sessCfg s n = some c) (ha : x.anchor.isSome = true) (hq : quarantined s 138 = false) (hd : c.blk.delay ≤ x.delay)
    (hy : tget (tickReady s n x c).sess.sess n = some y) :
    exec (.frameTick n) s = .next (framePlayed (tickReady s n x c) n y c (tickFrame x c)) := by
  have ticking : (x.anchor.isNone || quarantined s 138) = false := by rw [hq, ← Option.not_isSome, ha]; rfl
  change execFrameTick n s = _
  unfold execFrameTick
  rw [hx, hc]
  refine (if_neg (ne_true_of_eq_false ticking)).trans ((if_neg (Nat.not_lt.mpr hd)).trans ?_)
  change (match tget (tickReady s n x c).sess.sess n with | none => _ | some y => _) = _
  rw [hy]
  rfl

/-! The requests of port 0: SEND and SHIFT (06 R167, R171 to R173). -/

/-- The octets around the payload of an outbound packet: RTP header and tag, UDP, IP and Ethernet. -/
def sendExtra (c : SessCfg) : Nat :=
  12 + profileTag c.blk.profile + 8 + (if c.blk.ipVersion == 4 then 20 else 40) + (if c.blk.tci == 0 then 14 else 18)

/-- Does a SEND set a bit outside its fields? -/
def sendFieldsBad (r : PortReq) : Bool :=
  field (reqWord r 0) 21 6 != 0 || field (reqWord r 0) 16 3 != 0 || reqWord r 1 / 2 ^ 30 != 0 || reqWord r 2 / 2 ^ 16 != 0
    || reqWord r 3 / 2 ^ 32 != 0

/-- Does the payload of a SEND leave the troupe memory, or the granules of its partition and tenant? -/
def sendSourceBad (s : State) (r : PortReq) : Bool :=
  let addr := field (reqWord r 1) 0 30
  let k := ceilDiv (field (reqWord r 2) 0 16) 4
  decide (1048576 < addr + k)
    || !(List.range k).all (fun i => troupeOwned s (cfgOf s r.part r.epoch) r.part r.tenant (r.tumbler / 8) (addr + i))

/-- The oldest request of port 0 is a SEND that passes its checks, on session `x` with configuration `c`. -/
structure SendReady (s : State) (r : PortReq) (c : SessCfg) (x : Sess) : Prop where
  head : headReq s 0 = some r
  op : reqOp r = 1
  served : quarantined s 138 = false
  fields : sendFieldsBad r = false
  cfg : tget (cfgOf s r.part r.epoch).sess.sessions (reqWord r 0 % 65536) = some c
  sess : tget s.sess.sess (reqWord r 0 % 65536) = some x
  tenant : seesTenant r c.part c.tenant = true
  queue : txFull s c.blk.txq = false
  source : sendSourceBad s r = false
  length : field (reqWord r 2) 0 16 + sendExtra c + 4 ≤ (lportCfg (cfgOf s r.part r.epoch) c.blk.lport).maxFrame
  index : x.outIndex < 2 ^ 48 - 1

/-- The timestamp of an outbound packet: the request's own, or the session's next. -/
def sendTs (r : PortReq) (x : Sess) : Nat := if bit (reqWord r 0) 19 then reqWord r 3 % 2 ^ 32 else x.outTs

/-- The RTP header of an outbound packet. -/
def sendHeader (r : PortReq) (c : SessCfg) (x : Sess) : List Byte :=
  [byteOf 0x80, byteOf (b2n (bit (reqWord r 0) 20) * 128 + c.blk.ptOut % 128)] ++ be 2 (x.outIndex % 65536)
    ++ be 4 (sendTs r x) ++ be 4 c.blk.ssrcOut

/-- The body of an outbound packet: the request's octets, sealed under the session's key if it has a profile. -/
def sendBody (s : State) (r : PortReq) (c : SessCfg) (x : Sess) : List Byte :=
  let len := field (reqWord r 2) 0 16
  let pay := troupeOctets s (r.tumbler / 8) (field (reqWord r 1) 0 30) len
  match c.blk.profile, tget s.cipher.slots c.blk.keyTx with
  | 0, _ => pay
  | _, some key => fit (len + profileTag c.blk.profile)
      (Config.aeadSeal key.alg key.material (srtpNonce key c.blk.ssrcOut x.outIndex) (sendHeader r c x) pay)
  | _, none => pay

/-- The frame of an outbound packet. -/
def sendFrame (s : State) (r : PortReq) (c : SessCfg) (x : Sess) : List Byte :=
  etherFrame (drawBytes (takeReq s r) 12).1 c.blk.tci c.blk.ipVersion
    (ipUdp c.blk.ipVersion c.blk.localAddr c.blk.remoteAddr c.blk.localPort c.blk.remotePort 0 0
      (sendHeader r c x ++ sendBody s r c x))

/-- The machine after an outbound packet has been queued, counted and answered. -/
def packetSent (s : State) (r : PortReq) (c : SessCfg) (x : Sess) : State :=
  let n := reqWord r 0 % 65536
  reply ((sessCount (txEnqueue (drawBytes (takeReq s r) 12).2 c.blk.txq (.session n) (sendFrame s r c x)) n 1).onSession n
    (fun y => { y with outIndex := x.outIndex + 1, outTs := (sendTs r x + c.blk.spf) % 2 ^ 32 })) r.reply 0 0 0 0

theorem exec_sendRequest_of_ready {s : State} {r : PortReq} {c : SessCfg} {x : Sess} (h : SendReady s r c x) :
    exec .sendRequest s = .next (packetSent s r c x) := by
  have notShift : (reqOp r == 2) = false := by rw [h.op]; rfl
  have fields : (reqOp r != 1 || field (reqWord r 0) 21 6 != 0 || field (reqWord r 0) 16 3 != 0 || reqWord r 1 / 2 ^ 30 != 0
      || reqWord r 2 / 2 ^ 16 != 0 || reqWord r 3 / 2 ^ 32 != 0) = false := by
    rw [h.op]; exact h.fields
  have tenant : (!seesTenant r c.part c.tenant) = false := by rw [h.tenant]; rfl
  change execSendRequest s = _
  unfold execSendRequest
  rw [h.head]
  refine (if_neg (ne_true_of_eq_false notShift)).trans ((if_neg (ne_true_of_eq_false h.served)).trans
    ((if_neg (ne_true_of_eq_false fields)).trans ?_))
  rw [h.cfg, h.sess]
  exact (if_neg (ne_true_of_eq_false tenant)).trans ((if_neg (ne_true_of_eq_false h.queue)).trans
    ((if_neg (ne_true_of_eq_false h.source)).trans ((if_neg (Nat.not_lt.mpr h.length)).trans (if_neg (Nat.not_le.mpr h.index)))))

theorem exec_shiftRequest_of_free {s : State} {r : PortReq} {c : SessCfg} {x : Sess} (hr : headReq s 0 = some r)
    (ho : reqOp r = 2) (hq : quarantined s 138 = false)
    (hf : (field (reqWord r 0) 16 11 != 0 || reqWord r 1 != 0 || reqWord r 2 / 2 != 0 || reqWord r 3 != 0) = false)
    (hc : tget (cfgOf s r.part r.epoch).sess.sessions (reqWord r 0 % 65536) = some c)
    (hx : tget s.sess.sess (reqWord r 0 % 65536) = some x) (ht : seesTenant r c.part c.tenant = true) (hs : x.shift = none) :
    exec .shiftRequest s = .next (reply ((takeReq s r).onSession (reqWord r 0 % 65536)
      (fun x => { x with shift := some (bit (reqWord r 2) 0) })) r.reply 0 0 0 0) := by
  change execShiftRequest s = _
  simp only [execShiftRequest, hr, ho, hq, hf, hc, hx, ht, hs, bne_self_eq_false, Bool.not_true, Option.isSome_none,
    Bool.false_eq_true, if_false]

/-! FEED, and the entries of feed rings (06 R174 to R178, R182 to R189). -/

/-- The actor of a request: its partition and tenant, under its configuration. -/
def reqActor (s : State) (r : PortReq) : Actor :=
  { part := r.part, tenant := r.tenant, priv := false, cfg := cfgOf s r.part r.epoch }

/-- The octets of the tensor a FEED makes. -/
def feedBytes (r : PortReq) : Nat := tensorBytes (field (reqWord r 0) 21 3) (field (reqWord r 0) 0 18)

/-- The read of the CONS of the ring of a FEED: its status, the count and the machine after it. -/
def feedCons (s : State) (r : PortReq) (c : FeedCfg) : Status × Nat × State := readCount (takeReq s r) c.bind.control

/-- The product of the four dimensions that a FEED names. -/
def feedShape (r : PortReq) : Nat :=
  (dims (reqWord r 3)).1 * (dims (reqWord r 3)).2 * (dims (reqWord r 4)).1 * (dims (reqWord r 4)).2

/-- The oldest request of port 1 is a FEED that passes its checks, on ring `f` with configuration `c`, which has an entry
and the data space of `off` and `used` free. -/
structure FeedReady (s : State) (r : PortReq) (c : FeedCfg) (f : Feed) (off used : Nat) : Prop where
  head : headReq s 1 = some r
  op : reqOp r = 1
  served : quarantined s 138 = false
  fields : formatBitsOk r = true
  cfg : tget (cfgOf s r.part r.epoch).sess.feeds (field (reqWord r 6) 0 12) = some c
  feed : tget s.sess.feeds (field (reqWord r 6) 0 12) = some f
  tenant : seesTenant r c.part c.tenant = true
  session : sessionOk r (cfgOf s r.part r.epoch) (field (reqWord r 2) 0 16) = true
  format : (field (reqWord r 0) 24 3 == 7 && !bit (reqWord r 0) 18) = false
  count : field (reqWord r 0) 0 18 ≠ 0
  shape : feedShape r = field (reqWord r 0) 0 18
  sound : f.error = false
  fits : feedBytes r ≤ dataArea c.bind
  control : (feedCons s r c).1 = .ok
  produced : modSub 32 f.prod (feedCons s r c).2.1 ≤ 2 ^ c.bind.log2
  entry : modSub 32 f.res (feedCons s r c).2.1 < 2 ^ c.bind.log2
  span : allocSpan f (dataArea c.bind) (feedCons s r c).2.1 (feedBytes r) = some (off, used)

/-- The read of the source of a FEED: its status, its values and the machine after it. -/
def feedRead (s : State) (r : PortReq) (c : FeedCfg) : Status × List (FV × Bool) × State :=
  feedSource (feedCons s r c).2.2 r (cfgOf s r.part r.epoch) (field (reqWord r 0) 24 3) (field (reqWord r 0) 0 18)

/-- The values of a request, scaled by the power of two it names. -/
def scaledBy (r : PortReq) (vs : List (FV × Bool)) : List (FV × Bool) :=
  vs.map (fun v => (scaleFV v.1 (signed 8 (field (reqWord r 2) 16 8)), v.2))

/-- The tensor of a FEED. -/
def feedTensor (s : State) (r : PortReq) (c : FeedCfg) : List Byte × ConvAll :=
  convTensor (field (reqWord r 0) 21 3) (bit (reqWord r 0) 19) (bit (reqWord r 0) 20) (scaledBy r (feedRead s r c).2.1)
    (genOf (feedRead s r c).2.2 (field (reqWord r 2) 0 16) r.part)

/-- The machine after the tensor of a FEED has been made. -/
def feedConverted (s : State) (r : PortReq) (c : FeedCfg) : State :=
  genPut (feedRead s r c).2.2 (field (reqWord r 2) 0 16) r.part (feedTensor s r c).2.gen

/-- The entry of a FEED (06 R177). -/
def feedEntryOctets (s : State) (r : PortReq) (c : FeedCfg) (f : Feed) (off : Nat) : List Byte :=
  let d := dims (reqWord r 3)
  let e := dims (reqWord r 4)
  le 2 (1 - f.res / 2 ^ c.bind.log2 % 2) ++ zeros 16 ++ le 2 r.epoch
    ++ [byteOf (field (reqWord r 0) 21 3), byteOf (field (reqWord r 2) 16 8)]
    ++ le 2 (field (reqWord r 2) 0 16) ++ le 4 off ++ le 4 (feedBytes r) ++ le 4 (field (reqWord r 0) 0 18)
    ++ le 2 d.1 ++ le 2 d.2 ++ le 2 e.1 ++ le 2 e.2
    ++ le 4 (reqWord r 5 % 2 ^ 32) ++ le 6 r.index ++ le 2 0 ++ le 8 (feedConverted s r c).clock.now

/-- What the ring keeps of a FEED until its entry is written. -/
def feedReservation (s : State) (r : PortReq) (c : FeedCfg) (f : Feed) (off used : Nat) : FeedRes :=
  { count := f.res, reply := r.reply, dataOff := off, used := used, bytes := feedBytes r
    entry := feedEntryOctets s r c f off, tumbler := r.tumbler, tag := reqWord r 5 % 2 ^ 32
    beyond := (feedTensor s r c).2.beyond, nans := (feedTensor s r c).2.nans, epoch := r.epoch, part := r.part }

/-- The machine after a FEED has taken its entry and its data space. -/
def feedReserved (s : State) (r : PortReq) (c : FeedCfg) (f : Feed) (off used : Nat) : State :=
  onFeed (feedConverted s r c) (field (reqWord r 6) 0 12) (fun g => { g with
    res := modAdd 32 g.res 1
    inflight := g.inflight ++ [feedReservation s r c f off used]
    spans := liveSpans g (feedCons s r c).2.1 ++ [(g.res, off, used)]
    ptr := (off + ceilDiv (feedBytes r) 64 * 64) % dataArea c.bind })

/-- The store of the tensor of a FEED into the ring's data area. -/
def feedStored (s : State) (r : PortReq) (c : FeedCfg) (f : Feed) (off used : Nat) : Status × Nat × State × Nat :=
  storeAll (feedReserved s r c f off used) 11 (reqActor s r)
    (.feedData (field (reqWord r 6) 0 12) f.res) (c.bind.dataArea + off) (feedTensor s r c).1

theorem exec_feedRequest_of_ready {s : State} {r : PortReq} {c : FeedCfg} {f : Feed} {off used : Nat}
    (h : FeedReady s r c f off used) (hr : (feedRead s r c).1 = .ok) (hw : (feedStored s r c f off used).1 = .ok) :
    exec .feedRequest s = .next (feedStored s r c f off used).2.2.1 := by
  have feed : (reqOp r == 2 || reqOp r == 3) = false := by rw [h.op]; rfl
  have fields : (reqOp r != 1 || !formatBitsOk r) = false := by rw [h.op, h.fields]; rfl
  have names : (!seesTenant r c.part c.tenant || !sessionOk r (cfgOf s r.part r.epoch) (field (reqWord r 2) 0 16)) = false := by
    rw [h.tenant, h.session]; rfl
  have shape : (field (reqWord r 0) 0 18 == 0 || feedShape r != field (reqWord r 0) 0 18) = false := by
    rw [h.shape, bne_self_eq_false, Bool.or_false]; exact beq_eq_false_iff_ne.mpr h.count
  have control : ((feedCons s r c).1 != .ok) = false := by rw [h.control]; rfl
  have corrected : ((feedRead s r c).1 == .memUncorrectable) = false := by rw [hr]; rfl
  have read : ((feedRead s r c).1 != .ok) = false := by rw [hr]; rfl
  have stored : ((feedStored s r c f off used).1 != .ok) = false := by rw [hw]; rfl
  change execFeedRequest s = _
  unfold execFeedRequest
  rw [h.head]
  refine (if_neg (ne_true_of_eq_false feed)).trans ((if_neg (ne_true_of_eq_false h.served)).trans
    ((if_neg (ne_true_of_eq_false fields)).trans ?_))
  rw [h.cfg, h.feed]
  refine (if_neg (ne_true_of_eq_false names)).trans ((if_neg (ne_true_of_eq_false h.format)).trans
    ((if_neg (ne_true_of_eq_false shape)).trans ((if_neg (ne_true_of_eq_false h.sound)).trans
    ((if_neg (Nat.not_lt.mpr h.fits)).trans ((if_neg (ne_true_of_eq_false control)).trans
    ((if_neg (Nat.not_lt.mpr h.produced)).trans ((if_neg (Nat.not_le.mpr h.entry)).trans ?_)))))))
  change (match allocSpan f (dataArea c.bind) (feedCons s r c).2.1 (feedBytes r) with | none => _ | some (off, used) => _) = _
  rw [h.span]
  exact (if_neg (ne_true_of_eq_false corrected)).trans ((if_neg (ne_true_of_eq_false read)).trans
    (if_neg (ne_true_of_eq_false stored)))

/-- The write of a ring's first accepted entry. -/
def entryStored (s : State) (ring : Nat) (r : FeedRes) (c : FeedCfg) : Status × State × Bool :=
  storeOne s 11 { part := r.part, tenant := c.tenant, priv := false, cfg := cfgOf s r.part r.epoch }
    (c.bind.entryArray + 64 * (r.count % 2 ^ c.bind.log2)) r.entry (.feedEntry ring r.count)

/-- The machine after a ring's first accepted entry has been written: PROD passes it and its request is answered. -/
def entryProduced (s : State) (ring : Nat) (r : FeedRes) (rest : List FeedRes) (c : FeedCfg) : State :=
  reply (writeCount (onFeed (entryStored s ring r c).2.1 ring (fun g => { g with inflight := rest, prod := modAdd 32 r.count 1 }))
    (c.bind.control + 4) (modAdd 32 r.count 1)) r.reply 0 r.tag r.beyond r.nans

theorem exec_feedEntryWrite_of_accepted {s : State} {ring : Nat} {f : Feed} {r : FeedRes} {rest : List FeedRes} {c : FeedCfg}
    (hf : tget s.sess.feeds ring = some f) (hi : f.inflight = r :: rest)
    (hc : tget (cfgOf s r.part r.epoch).sess.feeds ring = some c) (hq : quarantined s 138 = false)
    (hw : (entryStored s ring r c).1 = .ok) :
    exec (.feedEntryWrite ring) s = .next (entryProduced s ring r rest c) := by
  have written : ((entryStored s ring r c).1 != .ok) = false := by rw [hw]; rfl
  change execFeedEntryWrite ring s = _
  simp only [execFeedEntryWrite, hf, hi, hc, if_neg (ne_true_of_eq_false hq)]
  exact if_neg (ne_true_of_eq_false written)

/-! RETURN_READ and RETURN_RELEASE (06 R175, R179, R180, R182). -/

/-- The read of the return entry that a request names: its status, its octets and the machine after it. -/
def returnEntry (s e : State) (r : PortReq) (c : FeedCfg) (entry : List Byte) : Status × Nat × List Byte × State :=
  loadAll e 11 (reqActor s r) (c.bind.entryArray + 64 * (reqWord r 7 % 2 ^ c.bind.log2)) 64 entry

/-- The `n` octets of an entry from octet `o` on. -/
def entryField (en : List Byte) (o n : Nat) : Nat := ofLe ((en.drop o).take n)

/-- Is a return entry malformed: its format, its extent, or the session it names (06 R180)? -/
def returnEntryBad (s : State) (r : PortReq) (c : FeedCfg) (en : List Byte) : Bool :=
  7 < entryField en 20 1 || entryField en 28 4 != tensorBytes (entryField en 20 1) (entryField en 32 4)
    || dataArea c.bind < entryField en 24 4 + entryField en 28 4
    || !(entryField en 22 2 == 0xFFFF
      || (match tget (cfgOf s r.part r.epoch).sess.sessions (entryField en 22 2) with | some x => x.part == r.part | none => false))

/-- The words of troupe memory that a RETURN_READ fills. -/
def returnWords (r : PortReq) : Nat := troupeWords (field (reqWord r 0) 21 3) (field (reqWord r 0) 0 18)

/-- Do the words a RETURN_READ fills leave the troupe memory, or the granules of its partition and tenant? -/
def returnTargetBad (s e : State) (r : PortReq) : Bool :=
  let addr := field (reqWord r 1) 0 30
  decide (1048576 < addr + returnWords r)
    || !(List.range (returnWords r)).all (fun i =>
      troupeOwned e (cfgOf s r.part r.epoch) r.part r.tenant (r.tumbler / 8) (addr + i))

/-- The read of the tensor of the return entry `en`: its status, its octets and the machine after it. -/
def returnData (s e : State) (r : PortReq) (c : FeedCfg) (en data : List Byte) : Status × Nat × List Byte × State :=
  loadAll e 11 (reqActor s r) (c.bind.dataArea + entryField en 24 4) (entryField en 28 4) data

/-- The oldest request of port 1 is a RETURN_READ that passes its checks, on a ring with configuration `c`: the machine `e`
reads its entry as `x` and its tensor as `y`. -/
structure ReturnReady (s e : State) (r : PortReq) (c : FeedCfg) (f : Ret) (entry data : List Byte)
    (x y : Nat × List Byte × State) : Prop where
  head : headReq s 1 = some r
  op : reqOp r = 2
  served : quarantined s 138 = false
  fields : formatBitsOk r = true
  ring : returnReq (takeReq s r) r = .inr (c, f, e)
  format : field (reqWord r 0) 21 3 ≠ 7
  count : field (reqWord r 0) 0 18 ≠ 0
  entry : returnEntry s e r c entry = (.ok, x)
  sound : returnEntryBad s r c x.2.1 = false
  source : entryField x.2.1 20 1 = field (reqWord r 0) 24 3
  length : entryField x.2.1 32 4 = field (reqWord r 0) 0 18
  target : returnTargetBad s x.2.2 r = false
  tensor : returnData s x.2.2 r c x.2.1 data = (.ok, y)

/-- The elements that a RETURN_READ makes of a tensor's octets in format `fmt`, on machine `e`. -/
def returnElems (e : State) (r : PortReq) (fmt : Nat) (d : List Byte) : ConvAll :=
  convElems (field (reqWord r 0) 21 3) (bit (reqWord r 0) 19) (bit (reqWord r 0) 20)
    (scaledBy r (readTensor fmt (field (reqWord r 0) 0 18) d)) (genOf e (field (reqWord r 2) 0 16) r.part)

/-- The machine after converted elements have been written to the troupe memory and their request has been answered. -/
def elemsDelivered (e : State) (r : PortReq) (t : ConvAll) : State :=
  let addr := field (reqWord r 1) 0 30
  let base := 0x030100000000 + r.tumbler / 8 * 0x800000 + addr * 8
  reply ((genPut e (field (reqWord r 2) 0 16) r.part t.gen).onMem (fun m => { m with
    troupe := wordsWrite m.troupe (r.tumbler / 8 * 1048576 + addr) (packWords (field (reqWord r 0) 21 3) t.elems)
    bad := m.bad.filter (fun u => u < base || base + 8 * returnWords r ≤ u) })) r.reply 0 (reqWord r 5 % 2 ^ 32) t.beyond t.nans

/-- A read whose status is known is that status with what else it gave. -/
theorem eq_pair_of_fst {α β : Type} {x : α × β} {a : α} (h : x.1 = a) : x = (a, x.2) := Prod.ext h rfl

theorem exec_returnReadRequest_of_ready {s e : State} {r : PortReq} {c : FeedCfg} {f : Ret} {entry data : List Byte}
    {x y : Nat × List Byte × State} (h : ReturnReady s e r c f entry data x y) :
    exec (.returnReadRequest entry data none) s =
      .next (elemsDelivered y.2.2 r (returnElems y.2.2 r (entryField x.2.1 20 1) y.2.1)) := by
  have isRead : (reqOp r != 2) = false := by rw [h.op]; rfl
  have fields : (!formatBitsOk r) = false := by rw [h.fields]; rfl
  have source : (entryField x.2.1 20 1 != field (reqWord r 0) 24 3) = false := by rw [h.source, bne_self_eq_false]
  have length : (entryField x.2.1 32 4 != field (reqWord r 0) 0 18) = false := by rw [h.length, bne_self_eq_false]
  have entry := h.entry
  have tensor := h.tensor
  rw [returnEntry, reqActor] at entry
  rw [returnData, reqActor] at tensor
  change execReturnReadRequest _ data none s = _
  unfold execReturnReadRequest
  rw [h.head]
  refine (if_neg (ne_true_of_eq_false isRead)).trans ((if_neg (ne_true_of_eq_false h.served)).trans
    ((if_neg (ne_true_of_eq_false fields)).trans ?_))
  rw [h.ring]
  refine (if_neg (ne_true_of_eq_false (beq_eq_false_iff_ne.mpr h.format))).trans
    ((if_neg (ne_true_of_eq_false (beq_eq_false_iff_ne.mpr h.count))).trans ?_)
  rw [entry]
  refine (if_neg (ne_true_of_eq_false h.sound)).trans ((if_neg (ne_true_of_eq_false source)).trans
    ((if_neg (ne_true_of_eq_false length)).trans ((if_neg (ne_true_of_eq_false h.target)).trans ?_)))
  unfold entryField at tensor
  rw [tensor]
  rfl

/-- The released entries of a return ring once entry `n` is among them. -/
def releasedWith (f : Ret) (n : Nat) : List Nat := if f.released.contains n then f.released else f.released ++ [n]

/-- CONS of a return ring after it has passed the run of entries from it on that are all in `rel`. -/
def consPassed (f : Ret) (rel : List Nat) : Nat :=
  modAdd 32 f.cons ((List.range rel.length).takeWhile (fun i => rel.contains (modAdd 32 f.cons i))).length

/-- The machine after a RETURN_RELEASE. -/
def returnReleased (e : State) (r : PortReq) (c : FeedCfg) (f : Ret) : State :=
  let rel := releasedWith f (reqWord r 7 % 2 ^ 32)
  let cons := consPassed f rel
  reply (writeCount (onRet e (field (reqWord r 6) 0 12) (fun g => { g with
    cons := cons
    raised := if newer 32 cons g.raised then cons else g.raised
    released := rel.filter (fun x => modSub 32 x cons < 2 ^ 31) })) (c.bind.control + 4) cons) r.reply 0 (reqWord r 5 % 2 ^ 32) 0 0

theorem exec_returnReleaseRequest_of_entry {s e : State} {r : PortReq} {c : FeedCfg} {f : Ret} (hr : headReq s 1 = some r)
    (ho : reqOp r = 3) (hq : quarantined s 138 = false) (hf : formatBitsOk r = true)
    (hc : returnReq (takeReq s r) r = .inr (c, f, e)) :
    exec .returnReleaseRequest s = .next (returnReleased e r c f) := by
  have isRelease : (reqOp r != 3) = false := by rw [ho]; rfl
  have fields : (!formatBitsOk r) = false := by rw [hf]; rfl
  change execReturnReleaseRequest s = _
  unfold execReturnReleaseRequest
  rw [hr]
  refine (if_neg (ne_true_of_eq_false isRelease)).trans ((if_neg (ne_true_of_eq_false hq)).trans
    ((if_neg (ne_true_of_eq_false fields)).trans ?_))
  rw [hc]
  rfl

/-! Notes and the poll of a return ring (06 R179, 08 R235, R236). -/

/-- The function that a note goes to: the owner of the binding's tenant, or the function of the binding. -/
def noteFn (s : State) (r : PortReq) : Nat :=
  ownerFn r.part r.tenant (match tget (cfgOf s r.part r.epoch).acts.bindings r.binding with | some b => b.fn | none => 0)

/-- The ACT_NOTE record of a request (08 R235). -/
def noteRecord (r : PortReq) : List Byte :=
  [byteOf (r.binding % 64), byteOf r.tumbler] ++ zeros 14 ++ (r.words.take 4).flatMap (fun w => le 8 w.toNat)

theorem exec_noteRequest_of_head {s : State} {r : PortReq} (hr : headReq s 2 = some r) :
    exec .noteRequest s = .next
      (reply (raiseEvent (takeReq s r) (noteFn (takeReq s r) r) 0x000A r.part r.tenant (noteRecord r)) r.reply 0 0 0 0) := by
  change execNoteRequest s = _
  unfold execNoteRequest
  rw [hr]
  rfl

theorem exec_returnProdPoll_of_served {s : State} (hq : quarantined s 138 = false) (ring : Nat) (sessions : List Nat) :
    exec (.returnProdPoll ring sessions) s = .next (returnPoll s ring sessions) := if_neg (ne_true_of_eq_false hq)

/-- Settles O31: each row has the effect its lemma above states. -/
theorem cipherAndSessionEvents : Obligations.CipherAndSessionEvents := by
  intro s
  refine ⟨?intake, ?verify, ?release, ?scrub, ?tick, ?send, ?shift, ?feed, ?entry, ?read, ?free, ?note, ?poll⟩
  case intake => exact fun _ _ _ hx hr hq => exec_cipherIntake_of_room hx hr hq
  case verify => exact fun _ _ _ _ hx he hs hc hk => exec_tagVerify_of_decrypted hx he hs hc hk
  case release => exact fun _ _ hx hs => exec_releaseComplete_of_releasing hx hs
  case scrub => exact fun _ _ hx hs => exec_granuleScrubDone_of_scrubbing hx hs
  case tick => exact fun _ _ _ _ hx hc ha hq hd hy => exec_frameTick_of_anchored hx hc ha hq hd hy
  case send =>
    exact fun _ _ _ hr ho hq hf hc hx ht hu hs hl hi => exec_sendRequest_of_ready ⟨hr, ho, hq, hf, hc, hx, ht, hu, hs, hl, hi⟩
  case shift => exact fun _ _ _ hr ho hq hf hc hx ht hs => exec_shiftRequest_of_free hr ho hq hf hc hx ht hs
  case feed =>
    exact fun _ _ _ _ _ hr ho hq hb hc hf ht hn hm hk hd he hl hs hp hi ha hx hw =>
      exec_feedRequest_of_ready ⟨hr, ho, hq, hb, hc, hf, ht, hn, hm, hk, hd, he, hl, hs, hp, hi, ha⟩ hx hw
  case entry => exact fun _ _ _ _ _ hf hi hc hq hw => exec_feedEntryWrite_of_accepted hf hi hc hq hw
  case read =>
    intro entry data r c f e _ _ _ _ _ _ en _ _ _ _ _ _ _ _ x _ _ _ _ hr ho hq hb hc hf hn he hs hm hl ht hd
    exact exec_returnReadRequest_of_ready (x := en.2) (y := x.2)
      ⟨hr, ho, hq, hb, hc, hf, hn, eq_pair_of_fst he, hs, hm, hl, ht, eq_pair_of_fst hd⟩
  case free => exact fun _ _ _ _ hr ho hq hb hc => exec_returnReleaseRequest_of_entry hr ho hq hb hc
  case note => exact fun _ hr => exec_noteRequest_of_head hr
  case poll => exact fun ring sessions hq => exec_returnProdPoll_of_served hq ring sessions

end Sys2Proof.Proofs
end

section
/-! PROOFS. Proofs/StoresBehindMidway.lean: what a store does by the bank it goes to and by the octets it marks, when TAKE
waits, and the statement O51, which is put together from them. -/

namespace Sys2Proof.Proofs

open Machine Safety

/-! Stores to the banks behind Midway (08 R215 to R217, 09 R247). -/

/-- One run of marked octets is stored from address `a` on, unless an earlier run of the same store has failed. -/
def runStored (s : State) (n : Nat) (inv : Invocation) (a : Nat) (x : Status × State) (run : Nat × List Byte) : Status × State :=
  if x.1 != .ok then x
  else
    let y := storeOne x.2 (24 + n / 32) (tumblerActor s inv) (a + run.1) run.2 .other
    (y.1, y.2.1)

/-- All runs of a store: the status, and the machine after them. -/
def runsStored (s : State) (n : Nat) (inv : Invocation) (a : Nat) (runs : List (Nat × List Byte)) : Status × State :=
  runs.foldl (runStored s n inv a) (.ok, s)

/-- A tumbler whose store behind Midway has come to a status: a failed store stays under way (09 R259). -/
def afterStore (t : Tumbler) (st : Status) : Tumbler := if st == .ok then t else storeFails t (storeCode st)

theorem runsStored_singleton {s e : State} {n : Nat} {inv : Invocation} {a i : Nat} {d : List Byte} {st : Status} {p : Bool}
    (h : storeOne s (24 + n / 32) (tumblerActor s inv) (a + i) d .other = (st, e, p)) :
    runsStored s n inv a [(i, d)] = (st, e) := by
  change ((storeOne s (24 + n / 32) (tumblerActor s inv) (a + i) d .other).1,
    (storeOne s (24 + n / 32) (tumblerActor s inv) (a + i) d .other).2.1) = _
  rw [h]

section Stores

variable {s : State} {n : Nat} {o : Op} {inv : Invocation} {w : Word}

theorem storeOp_of_midway {a : Nat} (hi : issues n o s inv w) (ht : inTime s n inv 1)
    (hb : bankFor s inv (tum s n) w = .midway a) {r : Status × State}
    (hr : runsStored s n inv a (markedRuns 0 (storeNonets o w ((tum s n).get (fRd w)))) = r) :
    storeOp n o s = .next (goesNext n s r.2 (afterStore (tum s n) r.1) 1) := by
  subst hr
  exact runOp_next n o _ s _ inv w _ 1 hi ht (by rw [hb]; rfl)

theorem storeOp_of_unmarked {a : Nat} (hi : issues n o s inv w) (ht : inTime s n inv 1)
    (hb : bankFor s inv (tum s n) w = .midway a) (hm : markedRuns 0 (storeNonets o w ((tum s n).get (fRd w))) = []) :
    storeOp n o s = .next (goesNext n s s (tum s n) 1) :=
  storeOp_of_midway (r := (.ok, s)) hi ht hb (by rw [hm]; rfl)

theorem storeOp_of_oneRun {a i : Nat} {d : List Byte} {e : State × Bool} (hi : issues n o s inv w) (ht : inTime s n inv 1)
    (hb : bankFor s inv (tum s n) w = .midway a)
    (hm : markedRuns 0 (storeNonets o w ((tum s n).get (fRd w))) = [(i, d)])
    (hs : storeOne s (24 + n / 32) (tumblerActor s inv) (a + i) d .other = (.ok, e)) :
    storeOp n o s = .next (goesNext n s e.1 (tum s n) 1) :=
  storeOp_of_midway (r := (.ok, e.1)) hi ht hb (by rw [hm, runsStored_singleton hs])

/-! Stores of a part of an uncorrectable word (09 R259). -/

theorem storeOp_of_uncorrectable {k : Nat} (ho : o ≠ .stw) (hi : issues n o s inv w) (ht : inTime s n inv 1)
    (hb : bankFor s inv (tum s n) w = .troupe k) (hk : troupeOk s inv n k = true) (hu : troupeBad s n k = true) :
    storeOp n o s = .next (goesNext n s (memError s (troupeUnit n k)) (storeFails (tum s n) 6) 1) := by
  have owned : ¬ (!troupeOk s inv n k) = true := by simp [hk]
  have part : (o != .stw && troupeBad s n k) = true := by simp [ho, hu]
  refine runOp_next n o _ s _ inv w _ 1 hi ht ?_
  rw [hb]
  exact (if_neg owned).trans (if_pos part)

/-! TAKE (08 R235, 10 R282). -/

/-- A TAKE whose port has a reply outstanding meets no exception; with none there it waits. -/
theorem exec_take_of_outstanding (hi : issues n .take s inv w) (hp : fPort w ≤ 2) (ho : 0 < untakenOf s n (tum s n) (fPort w))
    (ha : (tum s n).arrived.find? (fun r => r.1 == fPort w) = none) :
    exec (.take n) s = .next (s.onTumbler n (fun t => { t with stall := .take w })) := by
  have legal : ¬ (2 < fPort w || untakenOf s n (tum s n) (fPort w) == 0) = true := by simp [hp, Nat.ne_of_gt ho]
  change execTake n s = _
  refine runOp_stall n .take _ s inv w _ hi ((if_neg legal).trans ?_)
  rw [takeDone, ha]

end Stores

/-- Settles O51: each instruction is `storeOp` of its operation, which the lemmas above describe for all three. -/
theorem belporStoresBehindMidway : Obligations.BelporStoresBehindMidway := by
  intro s n
  refine ⟨?wordUnmarked, ?wordRun, ?halfUnmarked, ?halfRun, ?nonetUnmarked, ?nonetRun, ?halfBad, ?nonetBad, ?take⟩
  case wordUnmarked | halfUnmarked | nonetUnmarked => exact fun _ _ _ hi ht hb hm => storeOp_of_unmarked hi ht hb hm
  case wordRun | halfRun | nonetRun => exact fun _ _ _ _ _ _ hi ht hb hm hs => storeOp_of_oneRun hi ht hb hm hs
  case halfBad | nonetBad => exact fun _ _ _ hi ht hb hk hu => storeOp_of_uncorrectable (by decide) hi ht hb hk hu
  case take => exact fun _ _ hi hp ho ha => exec_take_of_outstanding hi hp ho ha

end Sys2Proof.Proofs
end

section
/-! PROOFS. Proofs/TumblerEvents.lean: for each row of the tumblers, the state it leaves when its premise holds, and the
statement O32, which is their conjunction. -/

namespace Sys2Proof.Proofs

open Machine Safety

/-! Dispatch (06 R170, 08 R224, R228, R229). -/

/-- Does an event bring a payload: is it a frame due with its frame present? -/
def payloadPresent (e : Event) : Bool := e.kind == 1 && bit (listGet e.words 0 0).toNat 18

/-- What W1 to W8 of tumbler `n` hold when event `e` of binding `b` starts on it. -/
def entryWords (n : Nat) (e : Event) (b : BindCfg) : List Word :=
  [listGet e.words 0 0, listGet e.words 1 0, listGet e.words 2 0, listGet e.words 3 0, listGet e.words 4 0,
    word b.b.arg, if payloadPresent e then word (inputArea b.b n) else 0, word n]

/-- The invocation of partition `p` that event `e` of binding `b` becomes. -/
def eventInvocation (p : Nat) (e : Event) (b : BindCfg) : Invocation :=
  { part := p, binding := e.binding, tenant := b.tenant, epoch := e.epoch, session := e.session, kind := e.kind
    words := e.words, allowance := b.b.allowance }

/-- The event at place `i` has left the queue of partition `p`. -/
def eventTaken (s : State) (p i : Nat) : State :=
  s.onActs (fun a => { a with queues := tset a.queues p ((tgetD s.acts.queues p []).eraseIdx i) })

/-- The payload of event `e`, where it brings one, is in the input area of tumbler `n`. -/
def payloadPlaced (s : State) (n : Nat) (e : Event) (b : BindCfg) : State :=
  if payloadPresent e then s.onMem (fun m => { m with
    troupe := wordsWrite m.troupe (n / 8 * 1048576 + inputArea b.b n) (payloadWords e.payload) }) else s

/-- The machine after tumbler `n` has taken event `e`, at place `i` of the queue, and starts it at `pc`: the invocation is
counted, the tumbler's clock runs, and its registers are those of the entry. -/
def dispatched (s : State) (n p i : Nat) (e : Event) (b : BindCfg) (pc : Nat) : State :=
  let t := (payloadPlaced (eventTaken s p i) n e b).onStat e.binding (fun x => { x with invocations := modAdd 64 x.invocations 1 })
  (t.onPower (fun x => { x with gated := x.gated.filter (fun d => d != n) })).onTumbler n
    (fun _ => { w := wordsWrite [] 1 (entryWords n e b), pc := pc, run := some (eventInvocation p e b) })

/-- Tumbler `n`, idle and in service, chooses event `e` of partition `p`, whose binding `b` enters its act at `pc`. -/
structure DispatchReady (s : State) (n p i : Nat) (e : Event) (b : BindCfg) (pc : Nat) : Prop where
  owner : tumblerOwner s s.cfg n = some p
  idle : (tgetD s.acts.tumblers n {}).run = none
  served : quarantined s n = false
  dispatcher : quarantined s 138 = false
  chosen : chooseEvent s p n = some (i, e)
  binding : bindingAt s p e.epoch e.binding = some b
  entry : entryOf s p b.b = some pc

theorem exec_tumblerDispatch_of_ready {s : State} {n p i : Nat} {e : Event} {b : BindCfg} {pc : Nat}
    (h : DispatchReady s n p i e b pc) : exec (.tumblerDispatch n) s = .next (dispatched s n p i e b pc) := by
  have free : ¬ ((tgetD s.acts.tumblers n {}).run.isSome || quarantined s n || quarantined s 138) = true := by
    simp [h.idle, h.served, h.dispatcher]
  change execTumblerDispatch n s = _
  simp only [execTumblerDispatch, h.owner, if_neg free, h.chosen, h.binding, h.entry]
  rfl

/-! Timers (08 R225, R227). -/

/-- The event that timer `k` of partition `p` raises: its due time is given in Device Time. -/
def timerEvent (s : State) (p k : Nat) (d : TimerDyn) : Event :=
  { kind := 4, binding := 64 * p + d.cfg.binding, session := 0, epoch := epochAt s p 138
    words := [word (kindWord 4 + k), 0, 0, word (s.clock.now + d.due - s.clock.cadence), 0], payload := [], source := k }

/-- Timer `k` of partition `p` is due again one period later. -/
def timerRearmed (s : State) (p k : Nat) (d : TimerDyn) : State :=
  s.onActs (fun a => { a with timers := tset a.timers (64 * p + k) { d with due := d.due + d.cfg.periodUs * 1000 } })

theorem exec_actTimerExpire_of_set {s : State} {p k : Nat} {d : TimerDyn} (hd : tget s.acts.timers (64 * p + k) = some d)
    (hq : quarantined s 138 = false) (hk : k ≤ 63) :
    exec (.actTimerExpire p k) s = .next (putAct (timerRearmed s p k d) p (timerEvent s p k d)).2 := by
  have served : ¬ (quarantined s 138 || 63 < k) = true := by simp [hq, hk]
  change execActTimerExpire p k s = _
  simp only [execActTimerExpire, hd, if_neg served]
  rfl

/-! What reaches a running tumbler (08 R216, R232, R236, 09 R259, 10 R282). -/

section Running

variable {s : State} {n : Nat} {inv : Invocation}

theorem exec_allowanceOverrun_of_running (hr : (tum s n).run = some inv) :
    exec (.allowanceOverrun n) s = .next (overrun s n (tum s n) inv) := by
  rw [tum] at hr
  change execAllowanceOverrun n s = _
  simp only [execAllowanceOverrun, hr]
  rfl

/-- The words `w0` and `w1` of reply `r` have reached tumbler `n` at a port. -/
def replyArrived (s : State) (n port : Nat) (r : PortRep) (w0 w1 : Word) : State :=
  (s.onSess (fun x => { x with replies := x.replies.filter (fun y => y.id != r.id) })).onTumbler n
    (fun t => { t with arrived := t.arrived ++ [(port, w0, w1)] })

/-- Tumbler `n` waits in a TAKE `w`: a reply of that port ends it. -/
theorem exec_portReply_of_taking {port : Nat} {r : PortRep} {w0 w1 w : Word}
    (hf : s.sess.replies.find? (fun r => r.tumbler == n && r.port == port) = some r) (hw : r.words = some (w0, w1))
    (hr : (tum (replyArrived s n port r w0 w1) n).run = some inv)
    (ht : (tum (replyArrived s n port r w0 w1) n).stall = .take w) (stall : Nat) :
    exec (.portReply n port stall) s = .next
      (if fPort w == port then
        settle (replyArrived s n port r w0 w1) n (tum (replyArrived s n port r w0 w1) n) inv
          (takeDone (replyArrived s n port r w0 w1) (tum (replyArrived s n port r w0 w1) n) w stall)
      else replyArrived s n port r w0 w1) := by
  rw [tum, replyArrived] at hr ht
  change execPortReply n port stall s = _
  simp only [execPortReply, hf, hw, hr, ht]
  rfl

/-- The word that the octets of a load behind Midway make: each of the four carries a mark. -/
def markedWord (d : List Byte) : Word :=
  let b := fun (i : Nat) => 256 + (listGet d i 0).toNat
  ofNonets (b 0) (b 1) (b 2) (b 3)

/-- The load that tumbler `n` has waited for: its status, its octets and the machine after it. -/
def loadReturned (s : State) (n : Nat) (inv : Invocation) (a : Nat) : Status × Nat × List Byte × State :=
  loadAll s (24 + n / 32) (tumblerActor s inv) a 4 []

/-- A tumbler whose load `w` has brought the octets `d`. -/
def loadTaken (t : Tumbler) (w : Word) (d : List Byte) : Tumbler :=
  t.put (fRd w) (loadPart ((opOf (fOp w)).getD .ldw) w (markedWord d))

theorem exec_loadReturn_of_loading {w : Word} {a : Nat} (hr : (tum s n).run = some inv) (hl : (tum s n).stall = .load w a)
    (ho : (loadReturned s n inv a).1 = .ok) (stall : Nat) :
    exec (.loadReturn n stall) s = .next (settle (loadReturned s n inv a).2.2.2 n (tum s n) inv
      (.done (loadReturned s n inv a).2.2.2 (loadTaken (tum s n) w (loadReturned s n inv a).2.2.1) (2 + stall) none)) := by
  rw [tum] at hr hl
  rw [loadReturned] at ho
  change execLoadReturn n stall s = _
  simp only [execLoadReturn, hr, hl, ho]
  rfl

/-- The code that is remembered once a store of code `c` has failed: the least of those that have come back. -/
def leastFailure (c : Nat) (failed : Option Nat) : Nat := match failed with | some d => min c d | none => c

theorem exec_storeFailure_of_store {c : Nat} {cs : List Nat} (hr : (tum s n).run = some inv) (hs : (tum s n).stores = c :: cs) :
    exec (.storeFailure n) s = .next
      ((s.onStat inv.binding (fun x => { x with faults := modAdd 64 x.faults 1 })).onTumbler n
        (fun t => { t with stores := cs, storeFailed := some (leastFailure c t.storeFailed) })) := by
  rw [tum] at hr hs
  change execStoreFailure n s = _
  simp only [execStoreFailure, hr, hs]
  rfl

end Running

/-- Settles O32: each row has the effect its lemma above states. -/
theorem tumblerEvents : Obligations.TumblerEvents := by
  intro s
  refine ⟨?dispatch, ?timer, ?overrun, ?reply, ?load, ?store⟩
  case dispatch => exact fun _ _ _ _ _ _ ho hi hn hd hc hb he => exec_tumblerDispatch_of_ready ⟨ho, hi, hn, hd, hc, hb, he⟩
  case timer => exact fun _ _ _ hd hq hk => exec_actTimerExpire_of_set hd hq hk
  case overrun => exact fun _ _ hr => exec_allowanceOverrun_of_running hr
  case reply => exact fun _ _ stall _ _ _ _ _ hf hw hr ht => exec_portReply_of_taking hf hw hr ht stall
  case load => exact fun _ stall _ _ _ hr hl ho => exec_loadReturn_of_loading hr hl ho stall
  case store => exact fun _ _ _ _ hr hs => exec_storeFailure_of_store hr hs

end Sys2Proof.Proofs
end

section
/-! PROOFS. Proofs/BelporExceptions.lean: which instructions of Belpor-36 meet an exception or the allowance, what CALL and RET
leave when they meet none, and the statements O50 and O9, which are put together from them. -/

namespace Sys2Proof.Proofs

open Machine Safety

/-- Tumbler `n` of machine `s` has met exception `code` one cycle into its instruction: its invocation ends in machine `e`. -/
def faulted (s e : State) (n : Nat) (inv : Invocation) (code : Nat) : State :=
  endInv e n { tum s n with cyc := (tum s n).cyc + 1 } inv .actFault code false

/-- The access of `w` goes where its invocation may not: a bank that is not open, or a word of the troupe that is not the
partition's (08 R213, R215). -/
def unreachable (s : State) (n : Nat) (inv : Invocation) (w : Word) : Prop :=
  bankFor s inv (tum s n) w = .shut ∨ ∃ k, bankFor s inv (tum s n) w = .troupe k ∧ troupeOk s inv n k = false

/-- Word `k` of the troupe, to which the access of `w` goes, may be reached and is uncorrectable. -/
structure Uncorrectable (s : State) (n : Nat) (inv : Invocation) (w : Word) (k : Nat) : Prop where
  bank : bankFor s inv (tum s n) w = .troupe k
  owned : troupeOk s inv n k = true
  bad : troupeBad s n k = true

/-- A loop that a LOOPI or LOOPR cannot open with `count` turns up to address `stop` (09 R255). -/
def loopRefused (t : Tumbler) (count stop : Nat) : Prop :=
  depth t = 4 ∨ stop < t.pc + 1 ∨ 2 ^ 24 ≤ count ∨ (0 < depth t ∧ listGet t.le (depth t - 1) 0 < stop) ∨ atLoopEnd t = true

section Exceptions

variable {s : State} {n : Nat} {o : Op} {inv : Invocation} {w : Word}

/-! Memory instructions (10 R274, R275). -/

theorem loadOp_of_unreachable (hi : issues n o s inv w) (ht : inTime s n inv 1) (hu : unreachable s n inv w) :
    loadOp n o s = .next (faulted s s n inv 5) := by
  refine runOp_exc n o _ s s inv w 5 false hi ht ?_
  obtain hb | ⟨k, hb, hk⟩ := hu
  · simp only [hb]
  · simp only [hb, hk, Bool.not_false, if_true]

theorem storeOp_of_unreachable (hi : issues n o s inv w) (ht : inTime s n inv 1) (hu : unreachable s n inv w) :
    storeOp n o s = .next (faulted s s n inv 5) := by
  refine runOp_exc n o _ s s inv w 5 false hi ht ?_
  obtain hb | ⟨k, hb, hk⟩ := hu
  · simp only [hb]
  · simp only [hb, hk, Bool.not_false, if_true]

theorem loadOp_of_uncorrectable {k : Nat} (hi : issues n o s inv w) (ht : inTime s n inv 1) (hu : Uncorrectable s n inv w k) :
    loadOp n o s = .next (faulted s (memError s (troupeUnit n k)) n inv 6) := by
  refine runOp_exc n o _ s _ inv w 6 false hi ht ?_
  simp only [hu.bank, hu.owned, hu.bad, Bool.not_true, Bool.false_eq_true, if_false, if_true]

variable {f : Tumbler → Word → Word → Option Word × Tumbler}

theorem atomicOp_of_unreachable (hi : issues n o s inv w) (ht : inTime s n inv 1) (hu : unreachable s n inv w) :
    atomicOp n o f s = .next (faulted s s n inv 5) := by
  refine runOp_exc n o _ s s inv w 5 false hi ht ?_
  obtain hb | ⟨k, hb, hk⟩ := hu
  · simp only [hb]
  · simp only [hb, hk, Bool.not_false, if_true]

/-- No access behind Midway is indivisible (10 R275). -/
theorem atomicOp_of_midway {a : Nat} (hi : issues n o s inv w) (ht : inTime s n inv 1)
    (hb : bankFor s inv (tum s n) w = .midway a) : atomicOp n o f s = .next (faulted s s n inv 5) :=
  runOp_exc n o _ s s inv w 5 false hi ht (by simp only [hb])

theorem atomicOp_of_uncorrectable {k : Nat} (hi : issues n o s inv w) (ht : inTime s n inv 1) (hu : Uncorrectable s n inv w k) :
    atomicOp n o f s = .next (faulted s (memError s (troupeUnit n k)) n inv 6) := by
  refine runOp_exc n o _ s _ inv w 6 false hi ht ?_
  simp only [hu.bank, hu.owned, hu.bad, Bool.not_true, Bool.false_eq_true, if_false, if_true]

/-! Transfers and loops (09 R255). -/

variable {target : Tumbler → Word → Nat}

theorem branchOp_of_misplaced (hi : issues n o s inv w) (ht : inTime s n inv 1) (hc : condHolds (tum s n).fl (fCond w) = true)
    (hl : atLoopEnd (tum s n) = true ∨ inBody (tum s n) (tum s n).pc = true ∧ inBody (tum s n) (target (tum s n) w) = false) :
    branchOp n o target s = .next (faulted s s n inv 3) := by
  have taken : ¬ (!condHolds (tum s n).fl (fCond w)) = true := by simp [hc]
  have misplaced : (atLoopEnd (tum s n) || (inBody (tum s n) (tum s n).pc && !inBody (tum s n) (target (tum s n) w))) = true := by
    simpa using hl
  exact runOp_exc n o _ s s inv w 3 false hi ht ((if_neg taken).trans (if_pos misplaced))

theorem callOp_of_loopEnd {link : Bool} (hi : issues n o s inv w) (ht : inTime s n inv 1) (hl : atLoopEnd (tum s n) = true) :
    callOp n o link target s = .next (faulted s s n inv 3) :=
  runOp_exc n o _ s s inv w 3 false hi ht (if_pos hl)

theorem loopOp_of_refused (hi : issues n o s inv w) (ht : inTime s n inv 1)
    (hl : loopRefused (tum s n) (target (tum s n) w) (fTarget w)) : loopOp n o target s = .next (faulted s s n inv 3) := by
  refine runOp_exc n o _ s s inv w 3 false hi ht (if_pos ?_)
  have least (k : Nat) : 16777215 < k ↔ 2 ^ 24 ≤ k := Nat.succ_le_iff.symm
  simp only [Bool.or_eq_true, Bool.and_eq_true, beq_iff_eq, decide_eq_true_eq, least, or_assoc]
  exact hl

theorem exec_lexit_of_misplaced (hi : issues n .lexit s inv w) (ht : inTime s n inv 1)
    (hl : depth (tum s n) = 0 ∨ atLoopEnd (tum s n) = true) : exec (.lexit n) s = .next (faulted s s n inv 3) := by
  change execLexit n s = _
  have misplaced : (depth (tum s n) == 0 || atLoopEnd (tum s n)) = true := by simpa using hl
  exact runOp_exc n .lexit _ s s inv w 3 false hi ht (if_pos misplaced)

/-! Ports (08 R237). -/

theorem exec_take_of_nothing (hi : issues n .take s inv w) (ht : inTime s n inv 1)
    (hp : 2 < fPort w ∨ untakenOf s n (tum s n) (fPort w) = 0) : exec (.take n) s = .next (faulted s s n inv 4) := by
  change execTake n s = _
  have illegal : (2 < fPort w || untakenOf s n (tum s n) (fPort w) == 0) = true := by simpa using hp
  exact runOp_exc n .take _ s s inv w 4 false hi ht (if_pos illegal)

theorem exec_poll_of_absentPort (hi : issues n .poll s inv w) (ht : inTime s n inv 1) (hp : 2 < fPort w) :
    exec (.poll n) s = .next (faulted s s n inv 4) := by
  change execPoll n s = _
  exact runOp_exc n .poll _ s s inv w 4 false hi ht (if_pos hp)

/-- The words of a POST to a port that is absent are not looked at. -/
theorem exec_post_of_absentPort (hi : issues n .post s inv w) (ht : inTime s n inv 1) (hs : (tum s n).stores = [])
    (hf : (tum s n).storeFailed = none) (hp : 2 < fPort w) : exec (.post n) s = .next (faulted s s n inv 4) := by
  change execPost n s = _
  refine runOp_exc n .post _ s s inv w 4 false hi ht ?_
  have absent : decide (fPort w ≤ 2) = false := decide_eq_false (by omega)
  simp [hs, hp, absent, portExc, hf]

/-! Special registers (09 R244). -/

theorem exec_mts_of_readOnly (hi : issues n .mts s inv w) (ht : inTime s n inv 1) (hl : 4 ≤ fRd w) (hu : fRd w < 16) :
    exec (.mts n) s = .next (faulted s s n inv 3) := by
  change execMts n s = _
  have bank : ¬ fRd w < 4 := by omega
  have flags : ¬ (fRd w == 16) = true := by simp; omega
  exact runOp_exc n .mts _ s s inv w 3 false hi ht ((if_neg bank).trans ((if_neg flags).trans (if_pos hu)))

theorem exec_mts_of_reserved (hi : issues n .mts s inv w) (ht : inTime s n inv 1) (hr : 16 < fRd w) :
    exec (.mts n) s = .next (faulted s s n inv 2) := by
  change execMts n s = _
  have bank : ¬ fRd w < 4 := by omega
  have flags : ¬ (fRd w == 16) = true := by simp; omega
  have readOnly : ¬ fRd w < 16 := by omega
  exact runOp_exc n .mts _ s s inv w 2 false hi ht ((if_neg bank).trans ((if_neg flags).trans (if_neg readOnly)))

/-! Any instruction (08 R232, 09 R257). -/

theorem exec_of_badFetch {i : Instr} {code : Nat} (he : executes n i o) (hr : (tum s n).run = some inv)
    (hs : (tum s n).stall = .none) (hf : fetchOp s n (tum s n) = .inl code) (ht : inTime s n inv 1) :
    exec i s = .next (faulted s s n inv code) := by
  obtain ⟨f, step⟩ := executes_runOp n i o he
  rw [step]
  exact runOp_fetch n o f s inv code hr hs hf ht

theorem exec_of_overrun {i : Instr} {c : Nat} (he : executes n i o) (hc : resultCycles o = some c) (hi : issues n o s inv w)
    (ht : ¬ inTime s n inv c) : exec i s = .next (overrun s n (tum s n) inv) := by
  obtain ⟨f, step⟩ := executes_alu n i o c he hc
  rw [step]
  exact runOp_overrun n o _ s s inv w _ c none hi ht rfl

end Exceptions

/-- Settles O50: the instructions of one form share the lemma about their form above. -/
theorem belporExceptions : Obligations.BelporExceptions := by
  intro s n
  refine ⟨?fetch, ?overrun, ?ldwShut, ?ldwForeign, ?ldwBad, ?ldhShut, ?ldhForeign, ?ldhBad, ?ldhsShut, ?ldhsForeign, ?ldhsBad,
    ?ldnShut, ?ldnForeign, ?ldnBad, ?stwShut, ?stwForeign, ?sthShut, ?sthForeign, ?stnShut, ?stnForeign,
    ?aaddShut, ?aaddForeign, ?aaddBad, ?aaddMidway, ?acasShut, ?acasForeign, ?acasBad, ?acasMidway,
    ?b, ?br, ?call, ?callr, ?ret, ?loopi, ?loopr, ?lexit, ?take, ?poll, ?post, ?mtsReadOnly, ?mtsReserved⟩
  case fetch => exact fun _ _ _ _ he hr hs hf ht => exec_of_badFetch he hr hs hf ht
  case overrun => exact fun _ _ _ _ _ he hc hi ht => exec_of_overrun he hc hi ht
  case ldwShut | ldhShut | ldhsShut | ldnShut => exact fun _ _ hi ht hb => loadOp_of_unreachable hi ht (.inl hb)
  case ldwForeign | ldhForeign | ldhsForeign | ldnForeign =>
    exact fun _ _ k hi ht hb hk => loadOp_of_unreachable hi ht (.inr ⟨k, hb, hk⟩)
  case ldwBad | ldhBad | ldhsBad | ldnBad => exact fun _ _ _ hi ht hb hk hu => loadOp_of_uncorrectable hi ht ⟨hb, hk, hu⟩
  case stwShut | sthShut | stnShut => exact fun _ _ hi ht hb => storeOp_of_unreachable hi ht (.inl hb)
  case stwForeign | sthForeign | stnForeign => exact fun _ _ k hi ht hb hk => storeOp_of_unreachable hi ht (.inr ⟨k, hb, hk⟩)
  case aaddShut => exact fun _ _ hi ht hb => show execAadd n s = _ from atomicOp_of_unreachable hi ht (.inl hb)
  case acasShut => exact fun _ _ hi ht hb => show execAcas n s = _ from atomicOp_of_unreachable hi ht (.inl hb)
  case aaddForeign => exact fun _ _ k hi ht hb hk => show execAadd n s = _ from atomicOp_of_unreachable hi ht (.inr ⟨k, hb, hk⟩)
  case acasForeign => exact fun _ _ k hi ht hb hk => show execAcas n s = _ from atomicOp_of_unreachable hi ht (.inr ⟨k, hb, hk⟩)
  case aaddBad => exact fun _ _ _ hi ht hb hk hu => show execAadd n s = _ from atomicOp_of_uncorrectable hi ht ⟨hb, hk, hu⟩
  case acasBad => exact fun _ _ _ hi ht hb hk hu => show execAcas n s = _ from atomicOp_of_uncorrectable hi ht ⟨hb, hk, hu⟩
  case aaddMidway => exact fun _ _ _ hi ht hb => show execAadd n s = _ from atomicOp_of_midway hi ht hb
  case acasMidway => exact fun _ _ _ hi ht hb => show execAcas n s = _ from atomicOp_of_midway hi ht hb
  case b => exact fun _ _ hi ht hc hl => show execB n s = _ from branchOp_of_misplaced hi ht hc hl
  case br => exact fun _ _ hi ht hc hl => show execBr n s = _ from branchOp_of_misplaced hi ht hc hl
  case call => exact fun _ _ hi ht hl => show execCall n s = _ from callOp_of_loopEnd hi ht hl
  case callr => exact fun _ _ hi ht hl => show execCallr n s = _ from callOp_of_loopEnd hi ht hl
  case ret => exact fun _ _ hi ht hl => show execRet n s = _ from callOp_of_loopEnd hi ht hl
  case loopi => exact fun _ _ hi ht hl => show execLoopi n s = _ from loopOp_of_refused hi ht hl
  case loopr => exact fun _ _ hi ht hl => show execLoopr n s = _ from loopOp_of_refused hi ht hl
  case lexit => exact fun _ _ hi ht hl => exec_lexit_of_misplaced hi ht hl
  case take => exact fun _ _ hi ht hp => exec_take_of_nothing hi ht hp
  case poll => exact fun _ _ hi ht hp => exec_poll_of_absentPort hi ht hp
  case post => exact fun _ _ hi ht hs hf hp => exec_post_of_absentPort hi ht hs hf hp
  case mtsReadOnly => exact fun _ _ hi ht hl hu => exec_mts_of_readOnly hi ht hl hu
  case mtsReserved => exact fun _ _ hi ht hr => exec_mts_of_reserved hi ht hr

/-! CALL and RET (09 R260). -/

/-- A word reads back what was written. Zero is left out: it is written by taking an entry away, which says what is read only
of a memory in canonical form. -/
theorem wordGet_wordSet_self_of_ne_zero (m : Tbl Word) (a : Nat) (b : Word) (h : b ≠ 0) : wordGet (wordSet m a b) a = b := by
  have hb : ¬ (b == 0) = true := by simpa using h
  induction m with
  | nil => simp only [wordSet, if_neg hb, wordGet, beq_self_eq_true, if_true]
  | cons e m ih =>
    obtain ⟨k, v⟩ := e
    simp only [wordSet, if_neg hb]
    split
    case isTrue => simp only [wordGet, beq_self_eq_true, if_true]
    case isFalse =>
      split
      case isTrue => simp only [wordGet, beq_self_eq_true, if_true]
      case isFalse other =>
        have other : ¬ (k == a) = true := by rwa [BEq.comm]
        simp only [wordGet, if_neg other, ih]

theorem get_put_self {t : Tumbler} {r : Nat} {v : Word} (hr : r ≠ 0) (hv : v ≠ 0) : (t.put r v).get r = v := by
  have register : ¬ (r == 0) = true := by simpa using hr
  simp only [Tumbler.get, Tumbler.put, if_neg register, wordGet_wordSet_self_of_ne_zero _ _ _ hv]

theorem tum_goesTo (s e : State) (n : Nat) (t : Tumbler) (c a : Nat) :
    tum (goesTo n s e t c a) n = { t with pc := a % 1048576, cyc := (tum s n).cyc + c, stall := .none } := by
  simp [tum, goesTo]

section Calls

variable {s : State} {n : Nat} {o : Op} {inv : Invocation} {w : Word}

/-- An instruction is fetched from instruction memory, which holds 32,768 words (09 R251). -/
theorem pc_le_of_issues (hi : issues n o s inv w) : (tum s n).pc ≤ 32767 := by
  obtain ⟨-, -, fetched⟩ := hi
  refine Nat.le_of_not_lt fun beyond => ?_
  rw [fetchOp, if_pos beyond] at fetched
  cases fetched

/-- The link that a call leaves is not zero, since its address is one of instruction memory. -/
theorem link_ne_zero (hi : issues n o s inv w) : word ((tum s n).pc + 1) ≠ 0 := by
  have small := pc_le_of_issues hi
  intro zero
  have zero : ((tum s n).pc + 1) % 2 ^ 36 = 0 := congrArg BitVec.toNat zero
  omega

theorem callOp_of_taken {link : Bool} {target : Tumbler → Word → Nat} (hi : issues n o s inv w) (ht : inTime s n inv 2)
    (hc : condHolds (tum s n).fl (fCond w) = true) (hl : atLoopEnd (tum s n) = false) :
    callOp n o link target s = .next
      (goesTo n s s (if link then (tum s n).put 31 (word ((tum s n).pc + 1)) else tum s n) 2 (target (tum s n) w)) := by
  have inside : ¬ atLoopEnd (tum s n) = true := by simp [hl]
  have taken : ¬ (!condHolds (tum s n).fl (fCond w)) = true := by simp [hc]
  exact runOp_to n o _ s s inv w _ 2 _ hi ht ((if_neg inside).trans (if_neg taken))

end Calls

/-- Settles O9: a taken CALL goes on with its link put into W31, a taken RET with its tumbler as it was. -/
theorem callAndReturn : Obligations.CallAndReturn := by
  intro s n
  refine ⟨?call, ?ret⟩
  case call =>
    intro inv w hi ht hc hl
    refine ⟨_, show execCall n s = _ from callOp_of_taken hi ht hc hl, ?_⟩
    rw [tum_goesTo, if_pos rfl]
    exact ⟨get_put_self (by decide) (link_ne_zero hi), rfl, fun r hr => get_put _ 31 r _ hr, rfl, rfl, rfl, rfl, rfl,
      onlyTumbler_goesTo s n _ 2 _⟩
  case ret =>
    intro inv w hi ht hc hl
    refine ⟨_, show execRet n s = _ from callOp_of_taken hi ht hc hl, ?_⟩
    rw [tum_goesTo]
    exact ⟨Nat.mod_mod _ _, fun r => rfl, rfl, rfl, rfl, rfl, rfl, onlyTumbler_goesTo s n _ 2 _⟩

end Sys2Proof.Proofs
end

section
/-! PROOFS. Proofs/BelporResults.lean: what the register and immediate instructions of Belpor-36 put into Wd and into the flags,
and the statements O33, O34, O35, O10 and O11, which are put together from it. -/

namespace Sys2Proof.Proofs

open Machine Safety

/-! Results of the operations with their flags (10 R263 to R271). -/

theorem addWord_noCarry (a b : Word) :
    addWord a b 0 = (a + b, sumFlags (a + b) (decide (2 ^ 36 ≤ a.toNat + b.toNat)) (a.toInt + b.toInt)) := by
  simp [addWord_eq]

theorem subWord_noBorrow (a b : Word) :
    subWord a b 0 = (a - b, sumFlags (a - b) (decide (b.toNat ≤ a.toNat)) (a.toInt - b.toInt)) := by
  simp [subWord_eq]

theorem bfxWord_signed (a : Word) (fn : Nat) :
    bfxWord a fn true = (BitVec.ofInt 36 (signed (fn % 64) (field a.toNat (fn / 64) (fn % 64))),
      zAndN (BitVec.ofInt 36 (signed (fn % 64) (field a.toNat (fn / 64) (fn % 64))))) := by
  simp only [bfxWord, if_true, znOnly_eq, ofInt36_eq]

theorem sat_gives (s : State) (n : Nat) :
    gives (.sat n) n .sat 1 s (fun t w => (BitVec.ofInt 36 (satInt (fFn w) (wa t w).toInt),
      { zAndN (BitVec.ofInt 36 (satInt (fFn w) (wa t w).toInt)) with q := satInt (fFn w) (wa t w).toInt != (wa t w).toInt })) :=
  alu_gives _ n _ 1 s _ _ (show execSat n s = _ from rfl) fun _ _ => by rw [satWord_eq, sw_toInt]

/-- Settles O33: an exact sum or difference is `addWord` or `subWord`, a clipped one `satWord`. -/
theorem belporSums : Obligations.BelporSums := by
  intro s n
  refine ⟨?add, ?adc, ?sub, ?sbc, ?cmp, ?neg, ?addi, ?cmpi, ?adds, ?subs, sat_gives s n, ?macs, ?macp⟩
  case add => exact alu_gives _ n _ 1 s _ _ (show execAdd n s = _ from rfl) fun _ _ => addWord_noCarry _ _
  case adc => exact alu_gives _ n _ 1 s _ _ (show execAdc n s = _ from rfl) fun _ _ => addWord_eq _ _ _
  case sub => exact alu_gives _ n _ 1 s _ _ (show execSub n s = _ from rfl) fun _ _ => subWord_noBorrow _ _
  case sbc => exact alu_gives _ n _ 1 s _ _ (show execSbc n s = _ from rfl) fun _ _ => subWord_eq _ _ _
  case cmp => exact alu_gives _ n _ 1 s _ _ (show execCmp n s = _ from rfl) fun _ _ => subWord_noBorrow _ _
  case neg => exact alu_gives _ n _ 1 s _ _ (show execNeg n s = _ from rfl) fun _ _ => subWord_noBorrow _ _
  case addi => exact alu_gives _ n _ 1 s _ _ (show execAddi n s = _ from rfl) fun _ _ => addWord_noCarry _ _
  case cmpi => exact alu_gives _ n _ 1 s _ _ (show execCmpi n s = _ from rfl) fun _ _ => subWord_noBorrow _ _
  case adds => exact alu_gives _ n _ 1 s _ _ (show execAdds n s = _ from rfl) fun _ _ => by simp only [satWord_eq, sw_toInt]
  case subs => exact alu_gives _ n _ 1 s _ _ (show execSubs n s = _ from rfl) fun _ _ => by simp only [satWord_eq, sw_toInt]
  case macs => exact alu_gives _ n _ 2 s _ _ (show execMacs n s = _ from rfl) fun _ _ => by simp only [satWord_eq, sw_toInt]
  case macp => exact alu_gives _ n _ 2 s _ _ (show execMacp n s = _ from rfl) fun _ _ => by simp only [satWord_eq, sw_toInt]

/-- Settles O34: a logic operation or a product names Z and N only, a shift or rotation also C. -/
theorem belporLogicAndShifts : Obligations.BelporLogicAndShifts := by
  intro s n
  refine ⟨?and, ?or, ?xor, ?andn, ?andi, ?ori, ?xori, ?shl, ?shr, ?sar, ?ror, ?mul, ?mac, ?mulhs, ?mulhu⟩
  case and => exact alu_gives _ n _ 1 s _ _ (show execAnd n s = _ from rfl) fun _ _ => znOnly_eq _
  case or => exact alu_gives _ n _ 1 s _ _ (show execOr n s = _ from rfl) fun _ _ => znOnly_eq _
  case xor => exact alu_gives _ n _ 1 s _ _ (show execXor n s = _ from rfl) fun _ _ => znOnly_eq _
  case andn => exact alu_gives _ n _ 1 s _ _ (show execAndn n s = _ from rfl) fun _ _ => znOnly_eq _
  case andi => exact alu_gives _ n _ 1 s _ _ (show execAndi n s = _ from rfl) fun _ _ => znOnly_eq _
  case ori => exact alu_gives _ n _ 1 s _ _ (show execOri n s = _ from rfl) fun _ _ => znOnly_eq _
  case xori => exact alu_gives _ n _ 1 s _ _ (show execXori n s = _ from rfl) fun _ _ => znOnly_eq _
  case shl => exact alu_gives _ n _ 1 s _ _ (show execShl n s = _ from rfl) fun _ _ => shlWord_eq _ _
  case shr => exact alu_gives _ n _ 1 s _ _ (show execShr n s = _ from rfl) fun _ _ => shrWord_eq _ _
  case sar => exact alu_gives _ n _ 1 s _ _ (show execSar n s = _ from rfl) fun _ _ => sarWord_eq _ _
  case ror => exact alu_gives _ n _ 1 s _ _ (show execRor n s = _ from rfl) fun _ _ => rorWord_eq _ _
  case mul => exact alu_gives _ n _ 2 s _ _ (show execMul n s = _ from rfl) fun _ _ => znOnly_eq _
  case mac => exact alu_gives _ n _ 2 s _ _ (show execMac n s = _ from rfl) fun _ _ => znOnly_eq _
  case mulhs =>
    exact alu_gives _ n _ 2 s _ _ (show execMulhs n s = _ from rfl) fun _ _ => by rw [znOnly_eq, ofInt36_eq, sw_toInt, sw_toInt]; rfl
  case mulhu => exact alu_gives _ n _ 2 s _ _ (show execMulhu n s = _ from rfl) fun _ _ => znOnly_eq _

/-! Pairs (10 R269). -/

theorem half_lt (a : Word) (k : Nat) : half a k < 2 ^ 18 := Nat.mod_lt _ (Nat.two_pow_pos 18)

theorem unsigned18_lt (x : Int) : unsigned 18 x < 2 ^ 18 := by
  unfold unsigned
  omega

theorem unsigned18_add (x y : Nat) : unsigned 18 ((x : Int) + y) = (x + y) % 2 ^ 18 := by
  unfold unsigned
  omega

theorem unsigned18_sub (x : Nat) {y : Nat} (hy : y < 2 ^ 18) : unsigned 18 ((x : Int) - y) = (x + 2 ^ 18 - y) % 2 ^ 18 := by
  unfold unsigned
  omega

/-- A word is zero when both its halves are, and its sign is that of the upper half. -/
theorem zAndN_pair {h l : Nat} (hh : h < 2 ^ 18) (hl : l < 2 ^ 18) :
    zAndN (BitVec.ofNat 36 (h * 2 ^ 18 + l)) = { z := some (decide (h = 0 ∧ l = 0)), n := some (decide (2 ^ 17 ≤ h)) } := by
  have value : (BitVec.ofNat 36 (h * 2 ^ 18 + l)).toNat = h * 2 ^ 18 + l := by
    rw [BitVec.toNat_ofNat, Nat.mod_eq_of_lt (by omega)]
  have zero : (BitVec.ofNat 36 (h * 2 ^ 18 + l) = 0) ↔ (h = 0 ∧ l = 0) := by
    rw [← BitVec.toNat_inj, value, show (0 : Word).toNat = 0 from rfl]
    omega
  have sign : 2 ^ (36 - 1) ≤ h * 2 ^ 18 + l ↔ 2 ^ 17 ≤ h := by omega
  rw [zAndN, BitVec.msb_eq_decide, value, decide_eq_decide.2 zero, decide_eq_decide.2 sign]

theorem zAndN_lanes (a b : Word) (f : Nat → Nat → Int) :
    zAndN (lanes a b f) =
      { z := some (decide (unsigned 18 (f (half a 1) (half b 1)) = 0 ∧ unsigned 18 (f (half a 0) (half b 0)) = 0))
        n := some (decide (2 ^ 17 ≤ unsigned 18 (f (half a 1) (half b 1)))) } :=
  zAndN_pair (unsigned18_lt _) (unsigned18_lt _)

/-- Q of a saturating pair: the one lane clips or the other does. -/
theorem bne_or_bne (x x' y y' : Int) : (x != x' || y != y') = decide (x ≠ x' ∨ y ≠ y') :=
  Bool.eq_iff_iff.2 (by simp)

/-- Settles O35: each result is the manual's, and names Z and N only, but for Q of a lane that clips and for SETH and SETL. -/
theorem belporFieldsAndPairs : Obligations.BelporFieldsAndPairs := by
  intro s n
  refine ⟨?bfx, ?bfxs, ?bfi, ?cnt, ?nperm, ?addp, ?subp, ?addps, ?subps, ?seth, ?setl⟩
  case bfx => exact alu_gives _ n _ 1 s _ _ (show execBfx n s = _ from rfl) fun _ _ => znOnly_eq _
  case bfxs => exact alu_gives _ n _ 1 s _ _ (show execBfxs n s = _ from rfl) fun _ _ => bfxWord_signed _ _
  case bfi => exact alu_gives _ n _ 1 s _ _ (show execBfi n s = _ from rfl) fun _ _ => znOnly_eq _
  case cnt => exact alu_gives _ n _ 1 s _ _ (show execCnt n s = _ from rfl) fun _ _ => znOnly_eq _
  case nperm => exact alu_gives _ n _ 1 s _ _ (show execNperm n s = _ from rfl) fun _ _ => znOnly_eq _
  case addp => exact alu_gives _ n _ 1 s _ _ (show execAddp n s = _ from rfl) fun _ _ => znOnly_eq _
  case subp => exact alu_gives _ n _ 1 s _ _ (show execSubp n s = _ from rfl) fun _ _ => znOnly_eq _
  case addps => exact alu_gives _ n _ 1 s _ _ (show execAddps n s = _ from rfl) fun _ _ => by simp only [satLanes, zn_eq]
  case subps => exact alu_gives _ n _ 1 s _ _ (show execSubps n s = _ from rfl) fun _ _ => by simp only [satLanes, zn_eq]
  case seth => exact alu_gives _ n _ 1 s _ _ (show execSeth n s = _ from rfl) fun _ _ => rfl
  case setl => exact alu_gives _ n _ 1 s _ _ (show execSetl n s = _ from rfl) fun _ _ => rfl

/-- Settles O10: the flags of a pair are those of its lanes (`zAndN_lanes`), and a lane of an exact sum or difference is
computed modulo 2^18. -/
theorem pairsAreTwoLanes : Obligations.PairsAreTwoLanes := by
  intro s n
  refine ⟨?addp, ?subp, ?addps, ?subps⟩
  case addp =>
    exact alu_gives _ n _ 1 s _ _ (show execAddp n s = _ from rfl) fun _ _ =>
      (znOnly_eq _).trans (by rw [zAndN_lanes]; simp only [lanes, unsigned18_add])
  case subp =>
    exact alu_gives _ n _ 1 s _ _ (show execSubp n s = _ from rfl) fun _ _ =>
      (znOnly_eq _).trans (by rw [zAndN_lanes]; simp only [lanes, unsigned18_sub _ (half_lt _ _)])
  case addps =>
    exact alu_gives _ n _ 1 s _ _ (show execAddps n s = _ from rfl) fun _ _ => by
      simp only [satLanes, zn_eq, zAndN_lanes, bne_or_bne]; rfl
  case subps =>
    exact alu_gives _ n _ 1 s _ _ (show execSubps n s = _ from rfl) fun _ _ => by
      simp only [satLanes, zn_eq, zAndN_lanes, bne_or_bne]; rfl

/-! SAT (10 R271). -/

theorem opLegal_of_belporDecode {o : Op} {w : Word} (hd : belporDecode w = some o) : opLegal o w = true := by
  unfold belporDecode at hd
  split at hd
  case h_1 => cases hd
  case h_2 =>
    split at hd
    case isTrue legal => cases hd; exact legal
    case isFalse => cases hd

/-- An instruction that is issued is not a reserved encoding. -/
theorem opLegal_of_issues {s : State} {n : Nat} {o : Op} {inv : Invocation} {w : Word} (hi : issues n o s inv w) :
    opLegal o w = true := by
  obtain ⟨-, -, fetched⟩ := hi
  unfold fetchOp at fetched
  split at fetched
  · cases fetched
  · split at fetched
    · cases fetched
    · dsimp only at fetched
      split at fetched
      case h_1 decoded => cases fetched; exact opLegal_of_belporDecode decoded
      case h_2 => cases fetched

theorem opLegal_sat (w : Word) : opLegal .sat w = true ↔ fRb w = 0 ∧ 1 ≤ fFn w ∧ fFn w ≤ 36 := by
  simp [opLegal, and_assoc]

theorem belporDecode_sat_reserved {w : Word} (ho : opOf (fOp w) = some .sat) (hf : fFn w = 0 ∨ 36 < fFn w) :
    belporDecode w = none := by
  have reserved : ¬ opLegal .sat w = true := fun legal => by
    obtain ⟨-, least, most⟩ := (opLegal_sat w).1 legal
    omega
  simp only [belporDecode, ho, if_neg reserved]

/-- A clip to 36 bits never clips a word. -/
theorem satInt_36 (a : Word) : satInt 36 a.toInt = a.toInt := by
  have most := BitVec.toInt_lt (x := a)
  have least := BitVec.le_toInt (x := a)
  unfold satInt
  omega

/-- The low `k` bits of a word are those of the integer it is made of. -/
theorem ofInt36_toNat_mod (x : Int) {k : Nat} (hk : k ≤ 36) : (BitVec.ofInt 36 x).toNat % 2 ^ k = (x % (2 ^ k : Nat)).toNat := by
  have divides : ((2 ^ k : Nat) : Int) ∣ ((2 ^ 36 : Nat) : Int) := Int.natCast_dvd_natCast.2 (Nat.pow_dvd_pow 2 hk)
  have positive : (0 : Int) ≤ x % ((2 ^ 36 : Nat) : Int) := Int.emod_nonneg _ (by decide)
  calc (BitVec.ofInt 36 x).toNat % 2 ^ k
      = (x % ((2 ^ 36 : Nat) : Int)).toNat % ((2 ^ k : Nat) : Int).toNat := by rw [BitVec.toNat_ofInt, Int.toNat_natCast]
    _ = (x % (2 ^ k : Nat)).toNat := by rw [← Int.toNat_emod positive (Int.natCast_nonneg _), Int.emod_emod_of_dvd _ divides]

/-- Settles O11: the encodings of SAT are those `opLegal_sat` lists, and its result is clipped to FN bits. -/
theorem satClipsToItsWidth : Obligations.SatClipsToItsWidth := by
  intro s n
  refine ⟨?result, ?reserved, ?whole, ?field⟩
  case result =>
    intro inv w hi ht
    obtain ⟨-, least, most⟩ := (opLegal_sat w).1 (opLegal_of_issues hi)
    exact ⟨least, most, sat_gives s n inv w hi ht⟩
  case reserved => exact fun _ ho hf => belporDecode_sat_reserved ho hf
  case whole => exact fun a => by simp [satInt_36]
  case field => exact fun a k _ hk => by rw [Nat.pow_zero, Nat.div_one, ofInt36_toNat_mod _ hk]

end Sys2Proof.Proofs
end

section
/-! PROOFS. Proofs/BelporAccesses.lean: what the memory instructions, the transfers, the loops and the port instructions of
Belpor-36 do where they meet no exception, and the statements O36, O37 and O38, which are put together from it. -/

namespace Sys2Proof.Proofs

open Machine Safety

section Instructions

variable {s : State} {n : Nat} {o : Op} {inv : Invocation} {w : Word}

/-! Memory instructions (10 R274 to R276). -/

/-- Word `k` of the troupe, to which the access of `w` goes, may be reached and is readable. -/
structure Readable (s : State) (n : Nat) (inv : Invocation) (w : Word) (k : Nat) : Prop where
  bank : bankFor s inv (tum s n) w = .troupe k
  owned : troupeOk s inv n k = true
  good : troupeBad s n k = false

theorem loadOp_of_readable {k : Nat} (hi : issues n o s inv w) (ht : inTime s n inv 2) (hr : Readable s n inv w k) :
    loadOp n o s = .next (goesNext n s s ((tum s n).put (fRd w) (loadPart o w (troupeWord s n k))) 2) := by
  refine runOp_next n o _ s s inv w _ 2 hi ht ?_
  simp only [hr.bank, hr.owned, hr.good, Bool.not_true, Bool.false_eq_true, if_false]

theorem loadOp_of_midway {a : Nat} (hi : issues n o s inv w) (hb : bankFor s inv (tum s n) w = .midway a) :
    loadOp n o s = .next (s.onTumbler n (fun t => { t with stall := .load w a })) :=
  runOp_stall n o _ s inv w _ hi (by simp only [hb])

/-- A store of a whole word does not read the word it replaces, which may be uncorrectable (03 R76). -/
theorem storeOp_of_owned {k : Nat} (hi : issues n o s inv w) (ht : inTime s n inv 1)
    (hb : bankFor s inv (tum s n) w = .troupe k) (hk : troupeOk s inv n k = true) (hg : o = .stw ∨ troupeBad s n k = false) :
    storeOp n o s = .next (goesNext n s
      (troupePut s n k (storeWord (troupeWord s n k) (storeNonets o w ((tum s n).get (fRd w))))) (tum s n) 1) := by
  have performed : (o != .stw && troupeBad s n k) = false := by
    obtain rfl | good := hg
    · rfl
    · rw [good, Bool.and_false]
  refine runOp_next n o _ s _ inv w _ 1 hi ht ?_
  simp only [hb, hk, performed, Bool.not_true, Bool.false_eq_true, if_false]

/-- Word `k` of the troupe after an atomic access that stores a word, or none. -/
def atomicStored (s : State) (n k : Nat) : Option Word → State
  | some v => troupePut s n k v
  | none => s

theorem atomicOp_of_readable {f : Tumbler → Word → Word → Option Word × Tumbler} {k : Nat} (hi : issues n o s inv w)
    (ht : inTime s n inv 3) (hr : Readable s n inv w k) :
    atomicOp n o f s = .next (goesNext n s (atomicStored s n k (f (tum s n) w (troupeWord s n k)).1)
      (f (tum s n) w (troupeWord s n k)).2 3) := by
  refine runOp_next n o _ s _ inv w _ 3 hi ht ?_
  simp only [hr.bank, hr.owned, hr.good, Bool.not_true, Bool.false_eq_true, if_false]
  rfl

theorem exec_acas_of_readable {k : Nat} (hi : issues n .acas s inv w) (ht : inTime s n inv 3) (hr : Readable s n inv w k) :
    exec (.acas n) s = .next (goesNext n s
      (if troupeWord s n k = (tum s n).get (fRd w) then troupePut s n k ((tum s n).get (fRd w + 1)) else s)
      { (tum s n).put (fRd w) (troupeWord s n k) with
        fl := setFlags (tum s n).fl { z := some (decide (troupeWord s n k = (tum s n).get (fRd w))) } } 3) := by
  change execAcas n s = _
  rw [execAcas, atomicOp_of_readable hi ht hr]
  by_cases hit : troupeWord s n k = (tum s n).get (fRd w)
  · simp only [hit, beq_self_eq_true, if_true, decide_true, atomicStored]
  · simp only [hit, beq_false_of_ne hit, Bool.false_eq_true, if_false, decide_false, atomicStored]

/-! Branches and calls (10 R277, 09 R255). -/

section Transfers

variable {target : Tumbler → Word → Nat}

theorem branchOp_of_taken (hi : issues n o s inv w) (ht : inTime s n inv 2) (hc : condHolds (tum s n).fl (fCond w) = true)
    (hl : atLoopEnd (tum s n) = false)
    (hb : inBody (tum s n) (tum s n).pc = true → inBody (tum s n) (target (tum s n) w) = true) :
    branchOp n o target s = .next (goesTo n s s (tum s n) 2 (target (tum s n) w)) := by
  have taken : ¬ (!condHolds (tum s n).fl (fCond w)) = true := by simp [hc]
  have placed : ¬ (atLoopEnd (tum s n) || (inBody (tum s n) (tum s n).pc && !inBody (tum s n) (target (tum s n) w))) = true := by
    simpa [hl] using hb
  exact runOp_to n o _ s s inv w _ 2 _ hi ht ((if_neg taken).trans (if_neg placed))

theorem branchOp_of_not_taken (hi : issues n o s inv w) (ht : inTime s n inv 1)
    (hc : condHolds (tum s n).fl (fCond w) = false) : branchOp n o target s = .next (goesNext n s s (tum s n) 1) :=
  runOp_next n o _ s s inv w _ 1 hi ht (if_pos (by rw [hc]; rfl))

theorem callOp_of_not_taken {link : Bool} (hi : issues n o s inv w) (ht : inTime s n inv 1)
    (hc : condHolds (tum s n).fl (fCond w) = false) (hl : atLoopEnd (tum s n) = false) :
    callOp n o link target s = .next (goesNext n s s (tum s n) 1) := by
  have inside : ¬ atLoopEnd (tum s n) = true := by simp [hl]
  exact runOp_next n o _ s s inv w _ 1 hi ht ((if_neg inside).trans (if_pos (by rw [hc]; rfl)))

end Transfers

/-! Loops (09 R252, R255). -/

section Loops

variable {count : Tumbler → Word → Nat}

theorem not_loopRefused {t : Tumbler} {k e : Nat} (hd : depth t < 4) (he : t.pc + 1 ≤ e) (hk : k < 2 ^ 24)
    (hi : 0 < depth t → e ≤ listGet t.le (depth t - 1) 0) (hl : atLoopEnd t = false) : ¬ loopRefused t k e := by
  rintro (full | short | much | ⟨nested, beyond⟩ | ended)
  · omega
  · omega
  · omega
  · exact absurd (hi nested) (Nat.not_le_of_lt beyond)
  · simp [hl] at ended

/-- The test that LOOPI and LOOPR make is `loopRefused`. -/
theorem loopRefused_of_test {t : Tumbler} {k e : Nat}
    (h : (depth t == 4 || e < t.pc + 1 || 16777215 < k || (0 < depth t && listGet t.le (depth t - 1) 0 < e) || atLoopEnd t) = true) :
    loopRefused t k e := by
  have least : 16777215 < k ↔ 2 ^ 24 ≤ k := Nat.succ_le_iff.symm
  simp only [Bool.or_eq_true, Bool.and_eq_true, beq_iff_eq, decide_eq_true_eq, least, or_assoc] at h
  exact h

theorem loopOp_of_zero (hi : issues n o s inv w) (ht : inTime s n inv 1)
    (hl : ¬ loopRefused (tum s n) (count (tum s n) w) (fTarget w)) (hz : count (tum s n) w = 0) :
    loopOp n o count s = .next (goesTo n s s (tum s n) 1 (fTarget w + 1)) :=
  runOp_to n o _ s s inv w _ 1 _ hi ht ((if_neg (hl ∘ loopRefused_of_test)).trans (if_pos (by rw [hz]; rfl)))

/-- The tumbler with the next loop set open: its body starts at the next instruction, ends at `e` and runs `k` times. -/
def loopOpened (t : Tumbler) (e k : Nat) : Tumbler :=
  { t with ls := t.ls.set (depth t) (t.pc + 1), le := t.le.set (depth t) e, lc := t.lc.set (depth t) k }

theorem loopOp_of_pos (hi : issues n o s inv w) (ht : inTime s n inv 1)
    (hl : ¬ loopRefused (tum s n) (count (tum s n) w) (fTarget w)) (hp : 0 < count (tum s n) w) :
    loopOp n o count s =
      .next (goesTo n s s (loopOpened (tum s n) (fTarget w) (count (tum s n) w)) 1 ((tum s n).pc + 1)) := by
  have counted : ¬ (count (tum s n) w == 0) = true := by simp; omega
  exact runOp_to n o _ s s inv w _ 1 _ hi ht ((if_neg (hl ∘ loopRefused_of_test)).trans (if_neg counted))

theorem exec_lexit_of_active (hi : issues n .lexit s inv w) (ht : inTime s n inv 2) (hd : 0 < depth (tum s n))
    (hl : atLoopEnd (tum s n) = false) :
    exec (.lexit n) s = .next (goesTo n s s { tum s n with lc := (tum s n).lc.set (depth (tum s n) - 1) 0 } 2 (fTarget w)) := by
  have active : ¬ (depth (tum s n) == 0 || atLoopEnd (tum s n)) = true := by simp [hl]; omega
  change execLexit n s = _
  exact runOp_to n .lexit _ s s inv w _ 2 _ hi ht (if_neg active)

end Loops

/-! Ports (08 R235 to R237, 10 R281, R282). -/

/-- Word `i` after the one that Wa names, which is where a POST starts. -/
def postWord (s : State) (n : Nat) (w : Word) (i : Nat) : Nat := ((tum s n).get (fRa w)).toNat % 1048576 + i

/-- The machine after a POST: its request is at its port, and its reply is awaited. -/
def posted (s : State) (n : Nat) (inv : Invocation) (w : Word) : State :=
  s.onSess (fun x => { x with
    requests := x.requests ++ [portReq s n inv (fPort w)
      ((List.range (portLen (fPort w))).map (fun i => troupeWord s n (postWord s n w i)))]
    replies := x.replies ++ [{ id := x.nextReply, tumbler := n, port := fPort w, words := none }]
    nextReply := x.nextReply + 1 })

theorem exec_post_of_ready (hi : issues n .post s inv w) (ht : inTime s n inv (1 + portLen (fPort w))) (hp : fPort w ≤ 2)
    (hu : untaken s n (tum s n) < 8) (hs : (tum s n).stores = []) (hf : (tum s n).storeFailed = none)
    (hw : ∀ i, i < portLen (fPort w) → postWord s n w i < 1048576 ∧ troupeOk s inv n (postWord s n w i) = true
      ∧ troupeBad s n (postWord s n w i) = false) :
    exec (.post n) s = .next (goesNext n s (posted s n inv w) (tum s n) (1 + portLen (fPort w))) := by
  have allowed : (decide (2 < fPort w) || decide (8 ≤ untaken s n (tum s n))) = false := by simp; omega
  have port : decide (fPort w ≤ 2) = true := decide_eq_true hp
  have inside : (List.range (portLen (fPort w))).all (fun i =>
      decide (postWord s n w i < 1048576) && troupeOk s inv n (postWord s n w i)) = true := by
    simp only [List.all_eq_true, List.mem_range, Bool.and_eq_true, decide_eq_true_eq]
    exact fun i hi => ⟨(hw i hi).1, (hw i hi).2.1⟩
  have readable : (List.range (portLen (fPort w))).find? (fun i => troupeBad s n (postWord s n w i)) = none := by
    simp only [List.find?_eq_none, List.mem_range]
    exact fun i hi => ne_true_of_eq_false (hw i hi).2.2
  unfold postWord at inside readable
  change execPost n s = _
  refine runOp_next n .post _ s _ inv w _ _ hi ht ?_
  simp only [allowed, port, inside, readable, hs, portExc, hf]
  rfl

theorem put_with_arrived (t : Tumbler) (x : List (Nat × Word × Word)) (r : Nat) (v : Word) :
    ({ t with arrived := x } : Tumbler).put r v = { t.put r v with arrived := x } := by
  unfold Tumbler.put
  split <;> rfl

theorem exec_take_of_arrived {p : Nat} {w0 w1 : Word} (hi : issues n .take s inv w) (ht : inTime s n inv 1) (hp : fPort w ≤ 2)
    (ha : (tum s n).arrived.find? (fun r => r.1 == fPort w) = some (p, w0, w1)) :
    exec (.take n) s = .next (goesNext n s s { ((tum s n).put (fRd w) w0).put (fRa w) w1 with
      arrived := (tum s n).arrived.erase (fPort w, w0, w1)
      fl := setFlags (tum s n).fl { z := some (field w0.toNat 27 9 == 0), n := some false } } 1) := by
  have there : 0 < (tum s n).arrived.countP (fun r => r.1 == fPort w) :=
    List.countP_pos_iff.2 ⟨_, List.mem_of_find?_eq_some ha, List.find?_some (p := fun r : Nat × Word × Word => r.1 == fPort w) ha⟩
  have outstanding : untakenOf s n (tum s n) (fPort w) ≠ 0 := by unfold untakenOf; omega
  have legal : ¬ (2 < fPort w || untakenOf s n (tum s n) (fPort w) == 0) = true := by simp [hp, outstanding]
  change execTake n s = _
  refine runOp_next n .take _ s s inv w _ 1 hi ht ((if_neg legal).trans ?_)
  simp only [takeDone, ha, put_with_arrived]

theorem exec_poll_of_port (hi : issues n .poll s inv w) (ht : inTime s n inv 1) (hp : fPort w ≤ 2) :
    exec (.poll n) s = .next (goesNext n s s
      { (tum s n).put (fRd w) (word ((tum s n).arrived.countP (fun r => r.1 == fPort w))) with
        fl := setFlags (tum s n).fl (zAndN (word ((tum s n).arrived.countP (fun r => r.1 == fPort w)))) } 1) := by
  rw [← zn_eq]
  change execPoll n s = _
  exact runOp_next n .poll _ s s inv w _ 1 hi ht (if_neg (Nat.not_lt_of_le hp))

/-! Special registers and the end of an act (09 R244, 10 R283, 08 R231). -/

theorem exec_mfs_of_issues (hi : issues n .mfs s inv w) (ht : inTime s n inv 1) :
    exec (.mfs n) s = .next (goesNext n s s ((tum s n).put (fRd w) (word (specialGet s (tum s n) (fRa w)))) 1) := by
  change execMfs n s = _
  exact runOp_next n .mfs _ s s inv w _ 1 hi ht rfl

theorem exec_mts_of_bank (hi : issues n .mts s inv w) (ht : inTime s n inv 1) (hb : fRd w < 4) :
    exec (.mts n) s = .next (goesNext n s s
      { tum s n with bk := (tum s n).bk.set (fRd w) (((tum s n).get (fRa w)).toNat % 4096) } 1) := by
  change execMts n s = _
  exact runOp_next n .mts _ s s inv w _ 1 hi ht (if_pos hb)

theorem exec_mts_of_flags (hi : issues n .mts s inv w) (ht : inTime s n inv 1) (hf : fRd w = 16) :
    exec (.mts n) s = .next (goesNext n s s { tum s n with fl := ((tum s n).get (fRa w)).toNat % 32 } 1) := by
  have bank : ¬ fRd w < 4 := by omega
  change execMts n s = _
  exact runOp_next n .mts _ s s inv w _ 1 hi ht ((if_neg bank).trans (if_pos (beq_iff_eq.2 hf)))

theorem exec_endact_of_settled (hi : issues n .endact s inv w) (ht : inTime s n inv 1) (hs : (tum s n).stores = [])
    (hf : (tum s n).storeFailed = none) :
    exec (.endact n) s = .next (endInv s n { tum s n with cyc := (tum s n).cyc + 1 } inv .ok 0) := by
  change execEndact n s = _
  refine runOp_ends n .endact _ s inv w 1 hi ht ?_
  simp [hs, portExc, hf]

theorem exec_brk_of_issues (hi : issues n .brk s inv w) (ht : inTime s n inv 1) :
    exec (.brk n) s = .next (faulted s s n inv 7) := by
  change execBrk n s = _
  exact runOp_exc n .brk _ s s inv w 7 false hi ht rfl

end Instructions

/-- Settles O36: the instructions of one form share the lemma about their form; what is left is the part of the word that each
takes or names. -/
theorem belporLoadsAndStores : Obligations.BelporLoadsAndStores := by
  intro s n
  refine ⟨?ldw, ?ldh, ?ldhs, ?ldn, ?ldwMidway, ?ldhMidway, ?ldhsMidway, ?ldnMidway, ?stw, ?sth, ?stn, ?aadd, ?acas⟩
  case ldw => exact fun _ _ _ hi ht hb hk hg => show execLdw n s = _ from loadOp_of_readable hi ht ⟨hb, hk, hg⟩
  case ldh => exact fun _ _ _ hi ht hb hk hg => show execLdh n s = _ from loadOp_of_readable hi ht ⟨hb, hk, hg⟩
  case ldhs =>
    intro inv w k hi ht hb hk hg
    rw [← ofInt36_eq]
    exact show execLdhs n s = _ from loadOp_of_readable hi ht ⟨hb, hk, hg⟩
  case ldn => exact fun _ _ _ hi ht hb hk hg => show execLdn n s = _ from loadOp_of_readable hi ht ⟨hb, hk, hg⟩
  case ldwMidway => exact fun _ _ _ hi hb => show execLdw n s = _ from loadOp_of_midway hi hb
  case ldhMidway => exact fun _ _ _ hi hb => show execLdh n s = _ from loadOp_of_midway hi hb
  case ldhsMidway => exact fun _ _ _ hi hb => show execLdhs n s = _ from loadOp_of_midway hi hb
  case ldnMidway => exact fun _ _ _ hi hb => show execLdn n s = _ from loadOp_of_midway hi hb
  case stw =>
    intro inv w k hi ht hb hk
    have stored := storeOp_of_owned hi ht hb hk (.inl rfl)
    rw [storeWord_stw] at stored
    exact show execStw n s = _ from stored
  case sth => exact fun _ _ _ hi ht hb hk hg => show execSth n s = _ from storeOp_of_owned hi ht hb hk (.inr hg)
  case stn => exact fun _ _ _ hi ht hb hk hg => show execStn n s = _ from storeOp_of_owned hi ht hb hk (.inr hg)
  case aadd => exact fun _ _ _ hi ht hb hk hg => show execAadd n s = _ from atomicOp_of_readable hi ht ⟨hb, hk, hg⟩
  case acas => exact fun _ _ _ hi ht hb hk hg => exec_acas_of_readable hi ht ⟨hb, hk, hg⟩

/-- Settles O37: a branch, a call and a loop each have one lemma for the way that goes on and one for the way that jumps. -/
theorem belporTransfers : Obligations.BelporTransfers := by
  intro s n
  refine ⟨?b, ?bNot, ?br, ?brNot, ?call, ?callNot, ?callr, ?callrNot, ?ret, ?retNot, ?loopi,
    ?loopiZero, ?loopr, ?looprZero, ?lexit⟩
  case b => exact fun _ _ hi ht hc hl hb => show execB n s = _ from branchOp_of_taken hi ht hc hl hb
  case bNot => exact fun _ _ hi ht hc => show execB n s = _ from branchOp_of_not_taken hi ht hc
  case br => exact fun _ _ hi ht hc hl hb => show execBr n s = _ from branchOp_of_taken hi ht hc hl hb
  case brNot => exact fun _ _ hi ht hc => show execBr n s = _ from branchOp_of_not_taken hi ht hc
  case call => exact fun _ _ hi ht hc hl => show execCall n s = _ from callOp_of_taken hi ht hc hl
  case callNot => exact fun _ _ hi ht hc hl => show execCall n s = _ from callOp_of_not_taken hi ht hc hl
  case callr => exact fun _ _ hi ht hc hl => show execCallr n s = _ from callOp_of_taken hi ht hc hl
  case callrNot => exact fun _ _ hi ht hc hl => show execCallr n s = _ from callOp_of_not_taken hi ht hc hl
  case ret => exact fun _ _ hi ht hc hl => show execRet n s = _ from callOp_of_taken hi ht hc hl
  case retNot => exact fun _ _ hi ht hc hl => show execRet n s = _ from callOp_of_not_taken hi ht hc hl
  case loopi =>
    exact fun _ _ hi ht hd he hk hb hl hp => show execLoopi n s = _ from loopOp_of_pos hi ht (not_loopRefused hd he hk hb hl) hp
  case loopiZero =>
    exact fun _ _ hi ht hd he hk hb hl hz => show execLoopi n s = _ from loopOp_of_zero hi ht (not_loopRefused hd he hk hb hl) hz
  case loopr =>
    exact fun _ _ hi ht hd he hk hb hl hp => show execLoopr n s = _ from loopOp_of_pos hi ht (not_loopRefused hd he hk hb hl) hp
  case looprZero =>
    exact fun _ _ hi ht hd he hk hb hl hz => show execLoopr n s = _ from loopOp_of_zero hi ht (not_loopRefused hd he hk hb hl) hz
  case lexit => exact fun _ _ hi ht hd hl => exec_lexit_of_active hi ht hd hl

/-- Settles O38: each instruction has the effect its lemma above states. -/
theorem belporPortsAndEnds : Obligations.BelporPortsAndEnds := by
  intro s n
  refine ⟨?post, ?take, ?poll, ?mfs, ?mtsBank, ?mtsFlags, ?endact, ?brk⟩
  case post => exact fun _ _ hi ht hp hu hs hf hw => exec_post_of_ready hi ht hp hu hs hf hw
  case take => exact fun _ _ _ _ _ hi ht hp ha => exec_take_of_arrived hi ht hp ha
  case poll => exact fun _ _ hi ht hp => exec_poll_of_port hi ht hp
  case mfs => exact fun _ _ hi ht => exec_mfs_of_issues hi ht
  case mtsBank => exact fun _ _ hi ht hb => exec_mts_of_bank hi ht hb
  case mtsFlags => exact fun _ _ hi ht hf => exec_mts_of_flags hi ht hf
  case endact => exact fun _ _ hi ht hs hf => exec_endact_of_settled hi ht hs hf
  case brk => exact fun _ _ hi ht => exec_brk_of_issues hi ht

end Sys2Proof.Proofs
end

section
/-! PROOFS. Proofs/TrapezePortEvents.lean: for each row of the flits, the training and the lanes of a Trapeze port, the state
it leaves when its premise holds, and the statement O40, which is their conjunction. -/

namespace Sys2Proof.Proofs

open Machine

/-! Flits and acknowledgements (11 R306). -/

/-- A good flit after its header: a NULL one carries no more, the one expected is accepted, and any other is asked for again. -/
def tpTake (s : State) (p : Nat) (f : Flit) : State :=
  if f.null then s else if f.fseq == (s.tport p).expected then tpAccept s p f else tpNak s p

theorem exec_flitRx_of_good {s : State} {p : Nat} {f : Flit} (hi : ingress s = true) (hu : tpUp (s.tport p) = true)
    (hc : f.crcOk = true) (hn : f.nak = false) :
    exec (.flitRx p f) s = .next (tpPump (tpTake ((tpCount s p 1).onTp p (fun t => tpHeader t f)) p f) p) := by
  change execFlitRx p f s = _
  simp only [execFlitRx, tpTake, hi, hu, hc, hn, Bool.not_true, Bool.or_self, Bool.false_and, Bool.false_eq_true, if_false]

theorem exec_flitRx_of_bad {s : State} {p : Nat} {f : Flit} (hi : ingress s = true) (hu : tpUp (s.tport p) = true)
    (hc : f.crcOk = false) (hn : f.null = false) :
    exec (.flitRx p f) s = .next (tpNak (tpCount s p 2) p) := by
  change execFlitRx p f s = _
  simp only [execFlitRx, hi, hu, hc, hn, Bool.not_true, Bool.not_false, Bool.or_self, Bool.false_eq_true, if_false, if_true]

theorem exec_ackTimer_of_unacked {s : State} {p : Nat} (hu : tpUp (s.tport p) = true) (ha : 0 < (s.tport p).unacked) :
    exec (.ackTimer p) s = .next ((s.onTp p (fun t => { t with unacked := 0 })).send (.tpAck p (s.tport p).ackedSeq false)) := by
  change execAckTimer p s = _
  simp only [execAckTimer, hu, ha, decide_true, Bool.and_self, if_true]

/-! Training (11 R299, R300, R309). -/

/-- A number of `n` octets at offset `o` of a PARAM message. -/
def paramField (d : List Byte) (o n : Nat) : Nat := ofBe ((d.drop o).take n)

/-- A PARAM message that passes every check of 11 R299 and R300. -/
structure ParamGood (d : List Byte) : Prop where
  revision : paramField d 0 2 = 1
  request : 512 ≤ paramField d 2 2 ∧ paramField d 2 2 ≤ 2047
  response : 512 ≤ paramField d 4 2 ∧ paramField d 4 2 ≤ 2047
  control : 64 ≤ paramField d 6 2 ∧ paramField d 6 2 ≤ 2047
  reserved12 : paramField d 12 4 = 0
  reserved20 : paramField d 20 12 = 0

/-- The credits and the sum lane delay that a PARAM message gives a port. -/
def tpParamTaken (s : State) (p : Nat) (d : List Byte) : State :=
  s.onTp p (fun t => { t with
    crAdvReq := paramField d 2 2
    crAdvRsp := paramField d 4 2
    crAdvCtl := paramField d 6 2
    sumDelay := paramField d 16 4 })

/-- Does a PARAM message fail one of the checks? -/
def paramBad (d : List Byte) : Bool :=
  let short := fun (o lo : Nat) => paramField d o 2 < lo || 2047 < paramField d o 2
  paramField d 0 2 != 1 || short 2 512 || short 4 512 || short 6 64 || paramField d 12 4 != 0 || paramField d 20 12 != 0

theorem paramBad_of_good {d : List Byte} (hd : ParamGood d) : paramBad d = false := by
  obtain ⟨hrev, hreq, hrsp, hctl, h12, h20⟩ := hd
  simp only [paramBad, hrev, h12, h20, bne_self_eq_false, Bool.or_false, Bool.false_or, Bool.or_eq_false_iff,
    decide_eq_false_iff_not]
  omega

theorem exec_param_of_good {s : State} {p : Nat} {d : List Byte} (ht : (s.tport p).st = .training)
    (h6 : (s.tport p).step = 6) (hd : ParamGood d) : exec (.param p d) s = .next (tpParamTaken s p d) := by
  have under : ¬ ((s.tport p).st != .training || (s.tport p).step != 6) = true := by rw [ht, h6]; decide
  have good : ¬ paramBad d = true := Bool.eq_false_iff.1 (paramBad_of_good hd)
  exact (if_neg under).trans (if_neg good)

/-- A port that has completed a step of its training and begins the next. -/
def tpNextStep (s : State) (p : Nat) : State :=
  (s.onTp p (fun t => { t with step := t.step + 1, combOk := t.combOk || t.step == 2 })).send
    (.tpTrain p ((s.tport p).step + 1))

theorem exec_trainingStep_of_early {s : State} {p : Nat} (ht : (s.tport p).st = .training) (hs : (s.tport p).step < 6)
    (delay : Nat) :
    exec (.trainingStep p true delay) s = .next (if (s.tport p).step == 5
      then (tpNextStep s p).send (.tpMsg p (.param deviceParam)) else tpNextStep s p) := by
  have not6 : ((s.tport p).step == 6) = false := beq_eq_false_iff_ne.2 (by omega)
  have not7 : ((s.tport p).step == 7) = false := beq_eq_false_iff_ne.2 (by omega)
  change execTrainingStep p true delay s = _
  simp only [execTrainingStep, tpNextStep, ht, not6, not7, bne_self_eq_false, Bool.not_true, Bool.false_and,
    Bool.false_eq_true, if_false]

/-- A port that calibrates its sum lane and enters ACTIVE, with the delay that step 7 measured. -/
def tpTrained (s : State) (p delay : Nat) : State :=
  (s.send (.tpMsg p (.calPulse 51))).onTp p (fun t => { t with st := .active, step := 0, fails := 0, sumDelay := delay })

theorem exec_trainingStep_of_last {s : State} {p : Nat} (ht : (s.tport p).st = .training) (h7 : (s.tport p).step = 7)
    (ho : s.tp.sumOpen = none) (delay : Nat) :
    exec (.trainingStep p true delay) s
      = .next (tpPump (tpEnableDone (tpEvent (tpTrained s p delay) p .ok false) p .ok) p) := by
  have not6 : (7 == 6) = false := rfl
  change execTrainingStep p true delay s = _
  simp only [execTrainingStep, tpTrained, ht, h7, ho, not6, bne_self_eq_false, beq_self_eq_true, Option.isSome_none,
    Bool.not_true, Bool.false_and, Bool.false_eq_true, if_false, if_true]

theorem exec_trainingRetry_of_waiting {s : State} {p : Nat} (hd : (s.tport p).st = .down)
    (hr : (s.tport p).retryWait = true) : exec (.trainingRetry p) s = .next (tpTrain s p false false) := by
  change execTrainingRetry p s = _
  simp only [execTrainingRetry, hd, hr, beq_self_eq_true, Bool.and_self, if_true]

/-! Lane sparing (11 R292, R293, R295, R323). -/

/-- A move of a lane to its spare that a port has put on its list: its fibre drops at the move when the spare is in use. -/
def tpSwapAsked (s : State) (p fibre lane : Nat) (fs : Option Nat) : State :=
  s.onTp p (fun t => { t with swaps := t.swaps ++
    [{ fibre := fibre, lane := lane, fs := fs, dropFibre := fibreBit (s.tport p).spareUsed fibre }] })

/-- The machine without a move on a port's list. -/
def tpSwapDone (s : State) (p : Nat) (w : TpSwap) : State :=
  s.onTp p (fun t => { t with swaps := t.swaps.erase w })

theorem exec_spareReq_of_intact {s : State} {p fibre : Nat} (hu : tpUp (s.tport p) = true)
    (hd : fibreBit (s.tport p).fibreDropped fibre = false) (hl : lastFibre (s.tport p) fibre = false) (lane : Nat) :
    exec (.spareReq p fibre lane) s
      = .next (tpControl (tpSwapAsked s p fibre lane (some (modAdd 12 (s.tport p).nextSeq 32))) p
          (.spareAck fibre lane (modAdd 12 (s.tport p).nextSeq 32))) := by
  change execSpareReq p fibre lane s = _
  simp only [execSpareReq, tpSwapAsked, hu, hd, hl, Bool.not_true, Bool.or_self, Bool.false_eq_true, if_false]

/-- The one meaning of a lane's fault, whether its ring or its error density found it. -/
theorem tpFaultLane_of_intact {s : State} {p fibre lane : Nat} (hu : tpUp (s.tport p) = true)
    (hd : fibreBit (s.tport p).fibreDropped fibre = false)
    (hw : (s.tport p).swaps.any (fun w => w.fibre == fibre && w.lane == lane) = false)
    (hl : lastFibre (s.tport p) fibre = false) :
    tpFaultLane s p fibre lane = tpControl (tpSwapAsked s p fibre lane none) p (.spareReq fibre lane) := by
  simp only [tpFaultLane, tpSwapAsked, hu, hd, hw, hl, Bool.not_true, Bool.or_self, Bool.false_eq_true, if_false]

theorem exec_laneBerFault_of_received {fibre : Nat} (hf : 2 ≤ fibre) (s : State) (p lane : Nat) :
    exec (.laneBerFault p fibre lane) s = .next (tpFaultLane s p fibre lane) := by
  change execLaneBerFault p fibre lane s = _
  exact if_neg (by omega)

/-- A port whose lane has moved to the spare channel of its fibre. -/
def tpLaneMoved (s : State) (p : Nat) (w : TpSwap) : State :=
  (tpSwapDone s p w).onTp p (fun t => { t with
    laneMap := tset t.laneMap (16 * w.fibre + w.lane) 16
    spareUsed := t.spareUsed ||| 2 ^ (3 - w.fibre)
    counts := bump t.counts 4 })

theorem exec_laneSwap_of_spare {s : State} {p : Nat} {w : TpSwap}
    (hw : (s.tport p).swaps.find? (fun w => w.fs.isSome) = some w) (hd : w.dropFibre = false)
    (hf : fibreBit (s.tport p).spareUsed w.fibre = false) :
    exec (.laneSwap p) s = .next (tpEvent (rindLog (rindCount (rindMinute (tpLaneMoved s p w) (10 + p)) 0x19)
      0x000E (134 + p) [byteOf p, byteOf w.fibre, byteOf w.lane]) p .ok false) := by
  change execLaneSwap p s = _
  simp only [execLaneSwap, tpLaneMoved, tpSwapDone, hw, hd, hf, Bool.or_self, Bool.false_eq_true, if_false]

theorem exec_laneSwap_of_no_spare {s : State} {p : Nat} {w : TpSwap}
    (hw : (s.tport p).swaps.find? (fun w => w.fs.isSome) = some w)
    (hf : (w.dropFibre || fibreBit (s.tport p).spareUsed w.fibre) = true) :
    exec (.laneSwap p) s = .next (if lastFibre (s.tport p) w.fibre then tpLost (tpSwapDone s p w) p
      else tpDrop (rindMinute (tpSwapDone s p w) (10 + p)) p w.fibre) := by
  change execLaneSwap p s = _
  simp only [execLaneSwap, tpSwapDone, hw, hf, if_true]

theorem exec_spareAckTimeout_of_asked {s : State} {p fibre lane : Nat} {w : TpSwap}
    (hw : (s.tport p).swaps.find? (fun w => w.fibre == fibre && w.lane == lane && w.fs.isNone) = some w)
    (hu : tpUp (s.tport p) = true) :
    exec (.spareAckTimeout p fibre lane) s = .next (if (s.tport p).st == .degraded then tpLost (tpSwapDone s p w) p
      else tpDrop (rindMinute (tpSwapDone s p w) (10 + p)) p fibre) := by
  change execSpareAckTimeout p fibre lane s = _
  simp only [execSpareAckTimeout, tpSwapDone, hw, hu, Bool.not_true, Bool.false_eq_true, if_false]

/-! The comb and telemetry (11 R290, R316). -/

theorem exec_combLoss_of_up {s : State} {p : Nat} (hu : tpUp (s.tport p) = true) :
    exec (.combLoss p) s
      = .next (tpLeavePort (tpCount (s.onTp p (fun t => { t with combOk := false })) p 7) p .down .portDown) := by
  change execCombLoss p s = _
  simp only [execCombLoss, hu, if_true]

/-- A port that keeps a telemetry message as its latest, with its time. -/
def tpTelemKept (s : State) (p seq : Nat) (data : List Byte) : State :=
  s.onTp p (fun t => { t with
    telem := be 4 seq ++ fit 64 data, telemTime := s.clock.now, telemAt := some s.clock.cadence })

/-- A telemetry message at the end of its ring, where one is bound and has room. -/
def tpTelemPosted (s : State) (p : Nat) (data : List Byte) (ring : Option (HRing × Nat)) : State :=
  match ring with
  | none => s
  | some (r, v) =>
    if 2 ^ r.log2 ≤ modSub 32 r.prod r.cons then s
    else msixRaise ((hostPost s 0 none (r.base + 64 * (r.prod % 2 ^ r.log2)) (fit 64 data)).onTp p
      (fun t => { t with telemRing := some ({ r with prod := modAdd 32 r.prod 1 }, v) })) 0 v

/-- Does a message come less than 10 µs after the one a port keeps? -/
def tpTelemEarly (t : Tp) (cadence : Nat) : Bool :=
  match t.telemAt with | some x => decide (cadence < x + 10000) | none => false

theorem tpTelemEarly_of_due {t : Tp} {cadence : Nat} (hd : ∀ x, t.telemAt = some x → x + 10000 ≤ cadence) :
    tpTelemEarly t cadence = false := by
  unfold tpTelemEarly
  split
  next x hx => exact decide_eq_false (Nat.not_lt.2 (hd x hx))
  next => rfl

theorem exec_telemetry_of_due {s : State} {p : Nat} (hu : tpUp (s.tport p) = true)
    (hd : ∀ x, (s.tport p).telemAt = some x → x + 10000 ≤ s.clock.cadence) (seq : Nat) (data : List Byte) :
    exec (.telemetry p seq data) s
      = .next (tpTelemPosted (tpTelemKept s p seq data) p data (s.tport p).telemRing) := by
  have up : ¬ (!tpUp (s.tport p)) = true := by rw [hu]; decide
  have due : ¬ tpTelemEarly (s.tport p) s.clock.cadence = true := Bool.eq_false_iff.1 (tpTelemEarly_of_due hd)
  refine (if_neg up).trans ((if_neg due).trans ?_)
  cases (s.tport p).telemRing with
  | none => rfl
  | some ring => exact (apply_ite Host.Outcome.next _ _ _).symm

/-- Settles O40: each row has the effect its lemma above states. -/
theorem trapezePortEvents : Obligations.TrapezePortEvents := by
  intro s
  refine ⟨?good, ?bad, ?ack, ?param, ?spareReq, ?spareAck, ?telemetry, ?swap, ?drop, ?ring, ?ber, ?unanswered, ?comb,
    ?step, ?trained, ?retry⟩
  case good => exact fun _ _ hi hu hc hn => exec_flitRx_of_good hi hu hc hn
  case bad => exact fun _ _ hi hu hc hn => exec_flitRx_of_bad hi hu hc hn
  case ack => exact fun _ hu ha => exec_ackTimer_of_unacked hu ha
  case param =>
    exact fun _ _ ht h6 hrev hreq hrsp hctl h12 h20 => exec_param_of_good ht h6 ⟨hrev, hreq, hrsp, hctl, h12, h20⟩
  case spareReq => exact fun _ _ lane hu hd hl => exec_spareReq_of_intact hu hd hl lane
  case spareAck => exact fun _ _ _ _ => rfl
  case telemetry => exact fun _ seq data hu hd => exec_telemetry_of_due hu hd seq data
  case swap => exact fun _ _ hw hd hf => exec_laneSwap_of_spare hw hd hf
  case drop => exact fun _ _ hw hf => exec_laneSwap_of_no_spare hw hf
  case ring => exact fun _ _ _ hu hd hw hl => congrArg Host.Outcome.next (tpFaultLane_of_intact hu hd hw hl)
  case ber =>
    exact fun p _ lane hu hd hw hl hf =>
      (exec_laneBerFault_of_received hf s p lane).trans (congrArg Host.Outcome.next (tpFaultLane_of_intact hu hd hw hl))
  case unanswered => exact fun _ _ _ _ hw hu => exec_spareAckTimeout_of_asked hw hu
  case comb => exact fun _ hu => exec_combLoss_of_up hu
  case step => exact fun _ delay ht hs => exec_trainingStep_of_early ht hs delay
  case trained => exact fun _ delay ht h7 ho => exec_trainingStep_of_last ht h7 ho delay
  case retry => exact fun _ hd hr => exec_trainingRetry_of_waiting hd hr

end Sys2Proof.Proofs
end

section
/-! PROOFS. Proofs/TrapezeSumEvents.lean: for each row of the sum lane, the state it leaves when its premise holds, and the
statement O41, which is their conjunction. -/

namespace Sys2Proof.Proofs

open Machine

/-! Readings, boundaries and the members that miss theirs (11 R318, R319, 20 R540). -/

/-- The units of light that a window shows, the device's own among them. -/
def sumReading (s : State) (o : SumOp) (light : Nat) : Nat := min 5 ((light + 1000 * b2n (unitOn s o) + 500) / 1000)

/-- An operation with a port among those whose BOUNDARY has arrived. -/
def sumNoted (o : SumOp) (p : Nat) : SumOp :=
  { o with boundaries := if o.boundaries.contains p then o.boundaries else o.boundaries ++ [p] }

/-- Is an operation the Set of another job than the one a BOUNDARY names? -/
def otherJob (o : SumOp) (job : Nat) : Bool := match o.use with | .press j => j != job | .command _ _ => false

theorem otherJob_of_agrees {o : SumOp} {job : Nat} (hj : ∀ j, o.use = .press j → j = job) : otherJob o job = false := by
  unfold otherJob
  split
  next j hu => rw [hj j hu, bne_self_eq_false]
  next => rfl

/-- The machine that has counted SUM_MISMATCH on each member whose BOUNDARY has not arrived. -/
def sumLateCounted (s : State) (o : SumOp) : State :=
  ((membersOf o.members).filter (fun p => !o.boundaries.contains p)).foldl (fun s p => tpCount s p 12) s

section Open

variable {s : State} {o : SumOp} (ho : s.tp.sumOpen = some o)

include ho

/-! A window's reading (11 R318, R320). -/

theorem exec_sumWindow_of_scalar (hw : o.won = false) (hm : (membersOf o.members).all (fun p => tpUp (s.tport p)) = true)
    (hs : o.scalar = true) (light : Nat) :
    exec (.sumWindow light) s = .next (sumEnd s o .ok (min 255 ((light + 500) / 1000 + min 51 o.value))) := by
  change execSumWindow light s = _
  simp only [execSumWindow, ho, hw, hm, hs, Bool.not_true, Bool.false_eq_true, if_false, if_true]

theorem exec_sumWindow_of_excess (hw : o.won = false)
    (hm : (membersOf o.members).all (fun p => tpUp (s.tport p)) = true) (hs : o.scalar = false) {light : Nat}
    (hn : sumCount o < sumReading s o light) :
    exec (.sumWindow light) s = .next (sumEnd s o .sumExcess (sumReading s o light)) := by
  change execSumWindow light s = _
  rw [sumReading] at hn ⊢
  simp only [execSumWindow, ho, hw, hm, hs, hn, Bool.not_true, Bool.false_eq_true, if_false, if_true]

theorem exec_sumWindow_of_count (hw : o.won = false)
    (hm : (membersOf o.members).all (fun p => tpUp (s.tport p)) = true) (hs : o.scalar = false) {light : Nat}
    (hn : sumReading s o light = sumCount o) :
    exec (.sumWindow light) s = .next (if allBoundaries o then sumEnd s o .ok (sumReading s o light)
      else s.onTrapeze (fun t => { t with sumOpen := some { o with reached := true } })) := by
  change execSumWindow light s = _
  rw [sumReading] at hn ⊢
  simp only [execSumWindow, ho, hw, hm, hs, hn, Nat.lt_irrefl, beq_self_eq_true, Bool.not_true, Bool.false_eq_true,
    if_false, if_true, apply_ite Host.Outcome.next]

/-! Boundaries (11 R319, 20 R540). -/

theorem exec_boundary_of_step {p job stepNo : Nat} (hs : o.scalar = false) (hw : o.won = false)
    (hm : bit o.members p = true) (hu : tpUp (s.tport p) = true) (hj : ∀ j, o.use = .press j → j = job)
    (hn : stepNo = o.stepNo) :
    exec (.boundary p job stepNo) s = .next (if o.reached && allBoundaries (sumNoted o p)
      then sumEnd (s.onTrapeze (fun t => { t with sumOpen := some (sumNoted o p) })) (sumNoted o p) .ok (sumCount (sumNoted o p))
      else s.onTrapeze (fun t => { t with sumOpen := some (sumNoted o p) })) := by
  have heard : ¬ (o.scalar || o.won || !bit o.members p || !tpUp (s.tport p) || otherJob o job) = true := by
    rw [hs, hw, hm, hu, otherJob_of_agrees hj]; decide
  have same : ¬ (stepNo != o.stepNo) = true := by rw [hn, bne_self_eq_false]; decide
  change execBoundary p job stepNo s = _
  simp only [execBoundary, ho]
  exact (if_neg heard).trans ((if_neg same).trans (apply_ite Host.Outcome.next _ _ _).symm)

/-! Watchdogs (11 R319, 19 R527). -/

theorem exec_sumConfirmTimeout_of_missing (hr : o.reached = true) (hw : o.won = false) (hb : allBoundaries o = false) :
    exec .sumConfirmTimeout s = .next (sumEnd (sumLateCounted s o) o .sumMismatch 0) := by
  change execSumConfirmTimeout s = _
  simp only [execSumConfirmTimeout, sumLateCounted, ho, hr, hw, hb, Bool.not_true, Bool.or_self, Bool.false_eq_true, if_false]

theorem exec_trapezeSumTimeout_of_count {f k : Nat} (hu : o.use = .command f k) (hs : o.scalar = false)
    (hr : o.reached = false) : exec .trapezeSumTimeout s = .next (sumEnd s o .partnerTimeout 0) := by
  change execTrapezeSumTimeout s = _
  simp only [execTrapezeSumTimeout, ho, hu, hs, hr, Bool.or_self, Bool.false_eq_true, if_false]

/-! Calibration (11 R321). -/

theorem exec_sumCalibration_of_open (delays : List (Nat × Nat)) :
    exec (.sumCalibration delays) s = .next (s.onTrapeze (fun t => { t with calDue := some delays })) := by
  change execSumCalibration delays s = _
  simp only [execSumCalibration, ho, Option.isSome_some, if_true]

end Open

theorem exec_sumCalibration_of_idle {s : State} (ho : s.tp.sumOpen = none) (delays : List (Nat × Nat)) :
    exec (.sumCalibration delays) s = .next (calibrate s delays) := by
  change execSumCalibration delays s = _
  simp only [execSumCalibration, ho, Option.isSome_none, Bool.false_eq_true, if_false]

/-- Settles O41: each row has the effect its lemma above states. -/
theorem trapezeSumEvents : Obligations.TrapezeSumEvents := by
  intro s
  refine ⟨?boundary, ?scalar, ?count, ?confirm, ?idle, ?deferred, ?timeout⟩
  case boundary => exact fun _ _ _ _ ho hs hw hm hu hj hn => exec_boundary_of_step ho hs hw hm hu hj hn
  case scalar => exact fun light _ ho hw hm hs => exec_sumWindow_of_scalar ho hw hm hs light
  case count =>
    intro light o n ho hw hm hs hn
    rcases Nat.lt_or_eq_of_le hn with above | equal
    · exact (exec_sumWindow_of_excess ho hw hm hs above).trans (congrArg Host.Outcome.next (if_pos above).symm)
    · exact (exec_sumWindow_of_count ho hw hm hs equal.symm).trans
        (congrArg Host.Outcome.next (if_neg (Nat.not_lt.2 (Nat.le_of_eq equal.symm))).symm)
  case confirm => exact fun _ ho hr hw hb => exec_sumConfirmTimeout_of_missing ho hr hw hb
  case idle => exact fun delays ho => exec_sumCalibration_of_idle ho delays
  case deferred => exact fun delays _ ho => exec_sumCalibration_of_open ho delays
  case timeout => exact fun _ _ _ ho hu hs hr => exec_trapezeSumTimeout_of_count ho hu hs hr

end Sys2Proof.Proofs
end

section
/-! PROOFS. Proofs/MoverAndCodecEvents.lean: for each row of the mover engines and the codec, the state it leaves when its
premise holds, and the statement O44, which is their conjunction. -/

namespace Sys2Proof.Proofs

open Machine

/-! An engine's choice and the start of a descriptor (13 R357, R358, R362). -/

/-- The queues whose first descriptor may start, each with its partition. -/
def moverOffers (s : State) : List (Nat × Nat) :=
  (s.mover.queues.filter (fun x => moverEligible s x.1 x.2)).map (fun x => (x.1, x.2.own.part))

/-- The partitions among which an engine chooses: in fixed-equal-share mode only the one of its own number. -/
def offeringParts (s : State) (engine : Nat) : List Nat :=
  (List.range 16).filter (fun p => (moverOffers s).any (fun x => x.2 == p) && (!s.fixedMode || p == engine))

/-- The queues of a partition among which an engine chooses. -/
def offeringQueues (s : State) (p : Nat) : List Nat := ((moverOffers s).filter (fun x => x.2 == p)).map (·.1)

/-- An engine with room for another run chooses partition `p` and its queue `q`, whose first descriptor `d` passes its checks. -/
structure StartReady (s : State) (engine p q : Nat) (m : MvQueue) (d : MvDesc) (ds : List MvDesc) : Prop where
  part : firstAfter (offeringParts s engine) (tgetD s.mover.engines engine {}).lastPart = some p
  queue : firstAfter (offeringQueues s p) (tgetD s.mover.lastQueue p 1024) = some q
  room : (tgetD s.mover.engines engine {}).runs.length < 4
  serving : quarantined s 141 = false
  known : tget s.mover.queues q = some m
  next : m.waiting = d :: ds
  checked : moverChecks d = none

theorem StartReady.notHeld {s : State} {engine p q : Nat} {m : MvQueue} {d : MvDesc} {ds : List MvDesc}
    (h : StartReady s engine p q m d ds) :
    ¬ (4 ≤ (tgetD s.mover.engines engine {}).runs.length || quarantined s 141) = true := by
  rw [h.serving, decide_eq_false (Nat.not_le.mpr h.room)]
  decide

/-- The machine after an engine has taken the first descriptor of queue `q` of partition `p`: both round robins go on from
there. -/
def moverTaken (s : State) (engine p q : Nat) (ds : List MvDesc) : State :=
  (s.onMvq q (fun m => { m with waiting := ds })).onMover (fun x => { x with
    lastQueue := tset x.lastQueue p q
    engines := tupd x.engines engine {} (fun e => { e with lastPart := p }) })

/-- The run of a descriptor that starts, under the epoch its partition has at the mover's island. -/
def startedRun (a : State) (p q : Nat) (d : MvDesc) : MvRun :=
  { queue := q, desc := d, staged := stagedCopy d, epoch := epochAt a p 141, serial := a.mover.nextSerial }

/-- The machine after a run has its place on an engine; a staged copy is counted. -/
def runPlaced (a : State) (engine : Nat) (r : MvRun) : State :=
  let b := a.onMover (fun x => { x with
    nextSerial := x.nextSerial + 1
    engines := tupd x.engines engine {} (fun e => { e with runs := e.runs ++ [r] }) })
  if r.staged then b.onMvq r.queue (fun m => { m with counts := bump m.counts 2 }) else b

/-- The machine after a run has its place and reads its source, unless it waits for the snapshot buffer. -/
def runStarted (a : State) (engine : Nat) (m : MvQueue) (r : MvRun) : State :=
  let f := runPlaced a engine r
  if bufferBusy (tgetD f.mover.engines engine {}) r then f else moverReads f (moverMaster engine) (runActor a m r) engine r

theorem exec_moverStart_of_ready {s : State} {engine p q : Nat} {m : MvQueue} {d : MvDesc} {ds : List MvDesc}
    (h : StartReady s engine p q m d ds) :
    exec (.moverStart engine) s =
      .next (runStarted (moverTaken s engine p q ds) engine m (startedRun (moverTaken s engine p q ds) p q d)) := by
  have part := h.part
  have queue := h.queue
  simp only [offeringParts, offeringQueues, moverOffers] at part queue
  change execMoverStart engine s = _
  simp only [execMoverStart, part, queue, if_neg h.notHeld, h.known, h.next, h.checked]
  rfl

/-! The end of a run's reads and the write of its destination (13 R359, R363, R364). -/

/-- Run `i` of an engine has no READ outstanding, or has failed, and does not wait for the snapshot buffer. -/
structure MoveReady (s : State) (engine i : Nat) (r : MvRun) (m : MvQueue) : Prop where
  run : (tgetD s.mover.engines engine {}).runs[i]? = some r
  queue : tget s.mover.queues r.queue = some m
  unmoved : r.moved = false
  answered : 0 < r.reads → r.fail.isSome = true
  buffer : bufferBusy (tgetD s.mover.engines engine {}) r = false

theorem MoveReady.notWaiting {s : State} {engine i : Nat} {r : MvRun} {m : MvQueue} (h : MoveReady s engine i r m) :
    ¬ (r.moved || (0 < r.reads && r.fail.isNone) || bufferBusy (tgetD s.mover.engines engine {}) r) = true := by
  have answered : (decide (0 < r.reads) && r.fail.isNone) = false := by
    cases hf : r.fail with
    | some f => exact Bool.and_false _
    | none => simpa [hf] using h.answered
  rw [h.unmoved, answered, h.buffer]
  decide

/-- The rows of a run's destination. -/
def dstRows (d : MvDesc) : List Nat := rowsOf d.dst d.dstPitchZ d.dstPitchY d.y d.z

/-- What a run moves, a row of octets for each row of its footprint: the pattern of a fill, or the source that has been read,
with the status and address of a read that failed. -/
def moverSource (s : State) (engine : Nat) (ext : List Byte) (srcFail : Option (Status × Nat)) (r : MvRun) (m : MvQueue) :
    Status × Nat × List (List Byte) × State :=
  let d := r.desc
  if d.op == 2 then (.ok, 0, (dstRows d).map (fun _ => fillRow d.src d.x), s)
  else match r.fail, srcFail with
    | some f, _ => (f.1, f.2.1, [], s)
    | none, some f => (f.1, f.2, [], s)
    | none, none => readRows s (moverMaster engine) (runActor s m r) d.srcHost d.x ext r.got
        (rowsOf d.src d.srcPitchZ d.srcPitchY d.y d.z)

/-- The write of what a run moves to its destination. -/
def moverWritten (s : State) (engine : Nat) (r : MvRun) (m : MvQueue) (rd : Status × Nat × List (List Byte) × State) :
    Status × Nat × State × Nat :=
  writeRows rd.2.2.2 (moverMaster engine) (runActor s m r) engine r.serial m.own r.desc.dstHost (roOf s m.own.fn r.desc.roHint)
    ((dstRows r.desc).zip rd.2.2.1)

/-- A run after its writes have been issued. -/
def movedRun (r : MvRun) (wr : Status × Nat × State × Nat) : MvRun :=
  { r with
    moved := true
    writes := wr.2.2.2
    got := []
    fail := if wr.1 == .ok then none else some (wr.1, wr.2.1, true) }

/-- The machine after a run's writes have been issued: the run ends unless an accelerator has yet to answer one. -/
def runWritten (engine : Nat) (r : MvRun) (wr : Status × Nat × State × Nat) : State :=
  if wr.2.2.2 == 0 then moverEnd wr.2.2.1 engine (movedRun r wr)
  else onMvRun wr.2.2.1 engine r.serial (fun _ => movedRun r wr)

theorem exec_moverComplete_of_read {s : State} {engine i : Nat} {ext : List Byte} {srcFail : Option (Status × Nat)} {r : MvRun}
    {m : MvQueue} (h : MoveReady s engine i r m) (hr : (moverSource s engine ext srcFail r m).1 = .ok) :
    exec (.moverComplete engine i ext srcFail) s =
      .next (runWritten engine r (moverWritten s engine r m (moverSource s engine ext srcFail r m))) := by
  have read : ¬ ((moverSource s engine ext srcFail r m).1 != .ok) = true := by simp [hr]
  change execMoverComplete engine i ext srcFail s = _
  simp only [execMoverComplete, h.run, h.queue, if_neg h.notWaiting]
  exact if_neg read

/-! Descriptors of a codec stream (14 R381 to R384). -/

/-- May a stream take a descriptor: its type suits the stream's direction, and it names a buffer of the stream or a length that
is allowed? -/
def descriptorGood (x : Stream) (d : CdDesc) : Bool :=
  !d.rsvBad && (match d.typ with
    | 1 => x.own.blk.dir == 0 && (d.length != 0 && d.length ≤ 268435456)
    | 2 => x.own.blk.dir == 0 && thas x.bufs d.buf
    | 3 => !(x.own.blk.dir == 0) && thas x.bufs d.buf
    | 4 => !(x.own.blk.dir == 0) && (d.length != 0 && d.length ≤ 268435456)
    | 5 => true
    | _ => false)

/-- A stream's first waiting descriptor `d` is good, and the stream's codec unit is not quarantined. -/
structure TakeReady (s : State) (n : Nat) (x : Stream) (d : CdDesc) (ds : List CdDesc) : Prop where
  stream : tget s.codec.streams n = some x
  next : x.waiting = d :: ds
  serving : quarantined s (142 + n / 256) = false
  good : descriptorGood x d = true

/-- The machine after a stream's first waiting descriptor has been taken. -/
def descTaken (s : State) (n : Nat) (ds : List CdDesc) : State := s.onStream n (fun x => { x with waiting := ds })

/-- The picture that an AU, PICTURE or EOS descriptor brings; that of PICTURE has its buffer. -/
def takenPicture (a : State) (n : Nat) (x : Stream) (d : CdDesc) : Picture :=
  { stream := n, desc := d, epoch := epochAt a x.own.part (142 + n / 256), buf := if d.typ == 3 then some d.buf else none
    chunk := none, ready := false, order := 0, waitFrom := 0 }

/-- A stream gets a picture. -/
def pictureAdded (a : State) (n : Nat) (d : CdDesc) (p : Picture) : State :=
  a.onStream n (fun x => { x with
    pics := x.pics ++ [p]
    bufs := if d.typ == 3 then tmod x.bufs d.buf (fun b => { b with held := true, busy := true }) else x.bufs })

/-- A stream gets a chunk for its bitstream. -/
def chunkAdded (a : State) (n : Nat) (d : CdDesc) : State := a.onStream n (fun x => { x with chunks := x.chunks ++ [d] })

/-- A stream gets a buffer back; one that it already holds stays as it is. -/
def bufferReturned (a : State) (n : Nat) (d : CdDesc) : State :=
  a.onStream n (fun x => { x with bufs := tmod x.bufs d.buf (fun b =>
    if b.held then b else { b with held := true, busy := false, output := none, noRef := false }) })

/-- What a good descriptor brings to its stream, by its type. -/
def descriptorApplied (a : State) (n : Nat) (x : Stream) (d : CdDesc) : State :=
  if d.typ == 2 then bufferReturned a n d
  else if d.typ == 4 then chunkAdded a n d
  else pictureAdded a n d (takenPicture a n x d)

theorem takenPicture_eq (a : State) (n : Nat) (x : Stream) (d : CdDesc) :
    takenPicture a n x d =
      (let p : Picture := { stream := n, desc := d, epoch := epochAt a x.own.part (142 + n / 256), buf := none, chunk := none
                            ready := false, order := 0, waitFrom := 0 }
       if d.typ == 3 then { p with buf := some d.buf } else p) := by
  unfold takenPicture
  split <;> rfl

/-- What AU, PICTURE and EOS descriptors have to meet to bring a picture (14 R381, R382). -/
def bringsPicture (x : Stream) (d : CdDesc) : Prop :=
  match d.typ with
  | 1 => x.own.blk.dir = 0 ∧ d.length ≠ 0 ∧ d.length ≤ 268435456
  | 3 => x.own.blk.dir ≠ 0 ∧ thas x.bufs d.buf = true
  | 5 => True
  | _ => False

theorem descriptorGood_of_picture {x : Stream} {d : CdDesc} (hv : d.rsvBad = false) (hp : bringsPicture x d) :
    descriptorGood x d = true ∧ ¬ (d.typ == 2) = true ∧ ¬ (d.typ == 4) = true := by
  unfold bringsPicture at hp
  split at hp
  next ht =>
    obtain ⟨decodes, nonempty, bounded⟩ := hp
    simp [descriptorGood, hv, ht, decodes, nonempty, bounded]
  next ht =>
    obtain ⟨encodes, known⟩ := hp
    simp [descriptorGood, hv, ht, encodes, known]
  next ht => simp [descriptorGood, hv, ht]
  next => exact hp.elim

theorem exec_codecDescriptorTake_of_ready {s : State} {n : Nat} {x : Stream} {d : CdDesc} {ds : List CdDesc}
    (h : TakeReady s n x d ds) :
    exec (.codecDescriptorTake n) s = .next (codecKick (descriptorApplied (descTaken s n ds) n x d) n) := by
  have serving : ¬ quarantined (descTaken s n ds) (142 + n / 256) = true := Bool.not_eq_true _ |>.mpr h.serving
  have good : ¬ (!descriptorGood x d) = true := by rw [h.good]; decide
  change execCodecDescriptorTake n s = _
  simp only [execCodecDescriptorTake, h.stream, h.next]
  refine (if_neg serving).trans ((if_neg good).trans ?_)
  simp only [descriptorApplied, takenPicture_eq]
  split
  · rfl
  · split <;> rfl

/-! The pictures of a codec unit (14 R384, R385, R387, R388). -/

/-- The machine after a codec unit has been granted a picture. -/
def pictureGranted (s t : State) (i : Nat) (e : Stream × Picture) : State :=
  t.onInst i (fun x => { x with running := some e.2.stream, grantedAt := s.clock.cadence })

theorem exec_codecPictureGrant_of_best {s : State} {i : Nat} {e : Stream × Picture} (hr : (instOf s i).running = none)
    (hq : quarantined s (142 + i) = false) (hb : bestPic s (grantable s i) = some e) :
    exec (.codecPictureGrant i) s = .next (pictureGranted s s i e) := by
  change execCodecPictureGrant i s = _
  simp only [execCodecPictureGrant, hr, hq, hb, Option.isSome_none, Bool.or_self, Bool.false_eq_true, if_false]
  rfl

theorem exec_codecSlotEnd_of_fixedMode {s : State} (hm : s.fixedMode = true) (i : Nat) :
    exec (.codecSlotEnd i) s = .next ((codecSuspend s i).onInst i (fun x => { x with slot := (x.slot + 1) % 17 })) := by
  change execCodecSlotEnd i s = _
  simp only [execCodecSlotEnd, hm, Bool.not_true, Bool.false_eq_true, if_false]

theorem exec_exclIdleExpire_of_idle {s : State} {i : Nat} (he : (instCfg s.cfg i).exclusive = true)
    (hr : (instOf s i).running = none) (hg : grantable s i = []) : exec (.exclIdleExpire i) s = .next (exclNext s i) := by
  change execExclIdleExpire i s = _
  simp only [execExclIdleExpire, he, hr, hg, Option.isSome_none, List.isEmpty_nil, Bool.not_true, Bool.or_self,
    Bool.false_eq_true, if_false]

/-- After a picture of a stream has ended, the records that waited for it are written, its resources go to the next, and a
closing stream with nothing left is freed. -/
def streamServed (s : State) (n : Nat) : State := codecRelease (codecKick (codecSettled s n) n) n

/-- The end of a picture that has been coded: of EOS, of a decoded or of an encoded one. -/
def pictureEnded (s : State) (i n : Nat) (y : Stream) (p : Picture) (r : CdResult) : State :=
  if p.desc.typ == 5 then eosEnd s i n p r
  else if y.own.blk.dir == 0 then decodeEnd s i n y p r
  else encodeEnd s i n y p r

/-- The machine after an abandoned picture has left free values in the planes of its buffer, where it was being decoded. -/
def planesSpoiled (s : State) (y : Stream) (p : Picture) : State :=
  let w : Actor := { part := y.own.part, tenant := y.own.tenant, priv := false, cfg := cfgOf s y.own.part p.epoch }
  match tget y.bufs (p.buf.getD 0) with
  | some b =>
    if y.own.blk.dir == 0 && p.desc.typ == 1 then
      (planes y.own.blk b.luma b.chroma b.pitch).foldl (fun s x => spoilRows s w x.2 false [x.1]) s
    else s
  | none => s

/-- The machine after an abandoned picture has left its codec unit and its stream: a decoder keeps its buffer, which holds no
picture, and an encoder gives its buffer back and codes a key picture next. -/
def pictureDropped (a : State) (i n : Nat) (y : Stream) (p : Picture) : State :=
  let dec := y.own.blk.dir == 0
  (codecTakeOff a i n).onStream n (fun y => { y with
    bufs := tmod y.bufs (p.buf.getD 0) (fun b => { b with busy := false, noRef := dec, held := dec })
    forceKey := y.forceKey || !dec })

/-- The record of an abandoned picture. -/
def watchdogRecord (y : Stream) (p : Picture) : CdRecord :=
  { kind := kindOf y p.desc, status := 4, pts := p.desc.pts, tag := p.desc.tag, signal := p.desc.signal, picture := y.pictures
    buf := p.buf.getD 0 }

section Running

variable {s : State} {i n : Nat} {y : Stream} {p : Picture} {ps : List Picture}
  (hr : (instOf s i).running = some n) (hy : tget s.codec.streams n = some y) (hp : y.pics = p :: ps)

include hr hy hp

theorem exec_codecTakeoverPoint_of_better {e : Stream × Picture} (hx : (instCfg s.cfg i).exclusive = false)
    (hb : bestPic s ((grantable s i).filter (fun e => e.2.stream != n)) = some e)
    (hl : effPriority s y p (instOf s i).grantedAt < effPriority s e.1 e.2 s.clock.cadence) :
    exec (.codecTakeoverPoint i) s = .next (pictureGranted s (codecSuspend s i) i e) := by
  change execCodecTakeoverPoint i s = _
  simp only [execCodecTakeoverPoint, hr, hy, hp, hx, hb, if_pos hl, Bool.false_eq_true, if_false]
  rfl

/-! The end of a picture (14 R382, R389, R393). -/

theorem codecRunning_of_picture (f : Nat → Stream → Picture → State) : codecRunning s i f = f n y p := by
  simp only [codecRunning, hr, hy, hp]

theorem exec_codecPictureEnd_of_running (r : CdResult) :
    exec (.codecPictureEnd i r) s = .next (streamServed (pictureEnded s i n y p r) n) :=
  congrArg Host.Outcome.next (codecRunning_of_picture hr hy hp _)

theorem exec_streamWatchdog_of_running :
    exec (.streamWatchdog i) s = .next (streamServed (codecRecord
      (rindCount (pictureDropped (planesSpoiled s y p) i n y p) 0x1E) n (watchdogRecord y p)) n) :=
  congrArg Host.Outcome.next (codecRunning_of_picture hr hy hp _)

end Running

/-- Settles O44: each row has the effect its lemma above states. -/
theorem moverAndCodecEvents : Obligations.MoverAndCodecEvents := by
  intro s
  refine ⟨?start, ?complete, ?picture, ?chunk, ?buffer, ?grant, ?takeover, ?pictureEnd, ?watchdog, ?slot, ?idle⟩
  case start =>
    intro engine p q m d ds e qs parts a r b f hp hq hl hs hm hw hc
    exact exec_moverStart_of_ready ⟨hp, hq, hl, hs, hm, hw, hc⟩
  case complete =>
    intro engine i ext srcFail r m d w rows rd wr x hr hq hm ha hb read
    exact exec_moverComplete_of_read ⟨hr, hq, hm, ha, hb⟩ read
  case picture =>
    intro n x d ds a p e hx hw hs hv hg
    obtain ⟨good, noBuffer, noChunk⟩ := descriptorGood_of_picture hv hg
    rw [exec_codecDescriptorTake_of_ready ⟨hx, hw, hs, good⟩, descriptorApplied, if_neg noBuffer, if_neg noChunk]
    rfl
  case chunk =>
    intro n x d ds a hx hw hs hv ht hd hz hl
    have good : descriptorGood x d = true := by simp [descriptorGood, hv, ht, hd, hz, hl]
    rw [exec_codecDescriptorTake_of_ready ⟨hx, hw, hs, good⟩, descriptorApplied, ht]
    rfl
  case buffer =>
    intro n x d ds a hx hw hs hv ht hd hb
    have good : descriptorGood x d = true := by simp [descriptorGood, hv, ht, hd, hb]
    rw [exec_codecDescriptorTake_of_ready ⟨hx, hw, hs, good⟩, descriptorApplied, ht]
    rfl
  case grant => exact fun _ _ hr hq hb => exec_codecPictureGrant_of_best hr hq hb
  case takeover => exact fun _ _ _ _ _ _ hr hy hp hx hb hl => exec_codecTakeoverPoint_of_better hr hy hp hx hb hl
  case pictureEnd => exact fun _ r _ _ _ _ hr hy hp => exec_codecPictureEnd_of_running hr hy hp r
  case watchdog =>
    intro i n y p ps w dec k a c hr hy hp
    exact exec_streamWatchdog_of_running hr hy hp
  case slot => exact fun i hm => exec_codecSlotEnd_of_fixedMode hm i
  case idle => exact fun _ he hr hg => exec_exclIdleExpire_of_idle he hr hg

end Sys2Proof.Proofs
end

section
/-! PROOFS. Proofs/StorageEvents.lean: for each row of the storage queues, the drives, the volumes and NVMe over TCP, the state
it leaves when its premise holds, and the statement O45, which is their conjunction. -/

namespace Sys2Proof.Proofs

open Machine

/-! The start of a queue's next descriptor (15 R409, R410). -/

/-- The volumes in the configuration under which a queue's next command starts. -/
def queueVolumes (s : State) (x : StQueue) : Tbl VolumeCfg := (cfgOf s x.own.part (epochAt s x.own.part 144)).stor.volumes

/-- The first waiting descriptor `d` of a queue passes its checks and names the volume `v`, and nothing holds it back: neither
its fence, nor the queue's limit of 64 commands, nor a quarantine. -/
structure StorReady (s : State) (q : Nat) (x : StQueue) (d : StDesc) (ds : List StDesc) (v : VolumeCfg) : Prop where
  queue : tget s.stor.queues q = some x
  next : x.waiting = d :: ds
  serving : quarantined s 144 = false
  fenced : d.fence = true → x.runs = []
  room : x.runs.length < 64
  checked : storChecks s (queueVolumes s x) x.own.part (fun _ => x.own.tenant) (x.own.q.bounceCells != 0) d = none
  volume : tget (queueVolumes s x) d.volume = some v

theorem StorReady.notHeld {s : State} {q : Nat} {x : StQueue} {d : StDesc} {ds : List StDesc} {v : VolumeCfg}
    (h : StorReady s q x d ds v) : ¬ ((d.fence && !x.runs.isEmpty) || 64 ≤ x.runs.length) = true := by
  have unfenced : (d.fence && !x.runs.isEmpty) = false := by
    cases hf : d.fence with
    | false => rfl
    | true => simp [h.fenced hf]
  rw [unfenced, decide_eq_false (Nat.not_le.mpr h.room)]
  decide

/-- The run of a descriptor that starts: all its blocks are yet to be handed to the backing. -/
def storRun (s : State) (x : StQueue) (d : StDesc) (v : VolumeCfg) : StRun :=
  { count := x.nextCount, desc := d, vol := v, epoch := epochAt s x.own.part 144, parts := 0, next := 0, total := d.blocksM1 + 1
    status := 0, nvme := 0 }

/-- The machine after the first waiting descriptor of a queue has become the run `r`. -/
def storTaken (s : State) (q : Nat) (ds : List StDesc) (r : StRun) : State :=
  (s.onStq q (fun x => { x with waiting := ds })).onStq q (fun x => { x with nextCount := x.nextCount + 1, runs := x.runs ++ [r] })

theorem exec_storStart_of_ready {s : State} {q : Nat} {x : StQueue} {d : StDesc} {ds : List StDesc} {v : VolumeCfg}
    (h : StorReady s q x d ds v) (ext : List Byte) (fail : Nat) :
    exec (.storStart q ext fail) s = .next (storKick (storTaken s q ds (storRun s x d v)) q ext fail) := by
  have checked := h.checked
  have volume := h.volume
  simp only [queueVolumes] at checked volume
  change execStorStart q ext fail s = _
  simp only [execStorStart, h.queue, h.next, h.serving, if_neg h.notHeld, checked, volume, Bool.false_eq_true, if_false]
  rfl

/-! A drive's command ends, is timed out or brings its drive down (15 R412, R420). -/

/-- The machine after a drive has ended the command `c` with an NVMe status; one whose abort was sent ends STORAGE_TIMEOUT. -/
def driveCmdEnded (s : State) (drive id nvme : Nat) (c : DriveCmd) : State :=
  cmdEnd (onCmds s 0 drive (fun cs => cs.filter (fun x => x.id != id))) c
    (if c.aborted then 11 else if nvme == 0 then 0 else 10) nvme []

/-- The machine after the queue of an ended command has handed over the parts that find room now. -/
def queueResumed (s : State) (c : DriveCmd) (ext : List Byte) (fail : Nat) : State :=
  match c.use with
  | .queue q _ => storKick s q ext fail
  | .tcp _ _ => s

/-- The machine after the abort of a command has been marked, counted and sent to its drive. -/
def abortSent (s : State) (drive id : Nat) : State :=
  (rindCount (s.onDrive drive (fun d => { d with
    timeouts := modAdd 64 d.timeouts 1
    cmds := d.cmds.map (fun x => if x.id == id then { x with aborted := true } else x) })) 0x1C).send (.driveAbort drive id)

/-- The machine after a drive's controller has been reset and its commands have ended: those whose abort was sent with
STORAGE_TIMEOUT, the others with DRIVE_RESET. -/
def driveReset (s : State) (drive : Nat) : State :=
  backingEnd ((s.onDrive drive (fun d => { d with st := .resetting, resets := modAdd 64 d.resets 1 })).send (.driveReset drive))
    0 drive (fun c => if c.aborted then 11 else 12) 12

/-- The machine after the reset of a drive has been told: its volumes go OFFLINE for a cause that is drawn (log entry 37), and
the event and the Rind's entry follow. -/
def driveResetTold (s : State) (drive : Nat) : State :=
  let cause := draw s
  rindLog (driveEvent (volumesOffline cause.2 0 drive (cause.1 % 65536)) drive 4) 0x0010 144 [byteOf drive, 4]

/-- The drive's answer to a read of a queue's buffers: from the host what the host returned, else what the device reads. -/
def queueDataAnswered (s : State) (drive : Nat) (c : DriveCmd) (off len : Nat) (data : List Byte) : State :=
  if c.host then s.send (.driveAnswer drive (fit len data))
  else
    let r := dmaRead s drive c data (bufsAt c.bufs off len)
    r.2.send (.driveAnswer drive r.1)

theorem not_driveGone_of_up {s : State} {drive : Nat} (hu : (tgetD s.stor.drives drive {}).st = .up) :
    ¬ ((tgetD s.stor.drives drive {}).st == .absent || (tgetD s.stor.drives drive {}).st == .lost) = true := by
  rw [hu]
  decide

section Outstanding

variable {s : State} {drive id : Nat} {c : DriveCmd} (hc : driveCmdOf s drive id = some c)

include hc

theorem exec_driveCompletion_of_outstanding (nvme : Nat) (ext : List Byte) (fail : Nat) :
    exec (.driveCompletion drive id nvme ext fail) s =
      .next (tcpIssueAll (queueResumed (driveCmdEnded s drive id nvme c) c ext fail)) := by
  change execDriveCompletion drive id nvme ext fail s = _
  simp only [execDriveCompletion, hc]
  rfl

theorem exec_storageTimeout_of_unaborted (ha : c.aborted = false) :
    exec (.storageTimeout drive id) s = .next (abortSent s drive id) := by
  change execStorageTimeout drive id s = _
  simp only [execStorageTimeout, hc, ha, Bool.false_eq_true, if_false]
  rfl

theorem exec_abortConfirmTimeout_of_aborted (ha : c.aborted = true) :
    exec (.abortConfirmTimeout drive id) s = .next (driveResetTold (driveReset s drive) drive) := by
  change execAbortConfirmTimeout drive id s = _
  simp only [execAbortConfirmTimeout, hc, ha, Bool.not_true, Bool.false_eq_true, if_false]
  rfl

/-! A drive moves the data of one of its commands (15 R402). -/

section Dma

variable {off len : Nat} {a b : Nat} (hu : (tgetD s.stor.drives drive {}).st = .up)

include hu

theorem exec_driveDmaRequest_read_of_tcp (ht : c.use = .tcp a b) (hl : off + len ≤ c.data.length) (data : List Byte) :
    exec (.driveDmaRequest drive id off len false data) s = .next (s.send (.driveAnswer drive ((c.data.drop off).take len))) := by
  change execDriveDmaRequest drive id off len false data s = _
  simp only [execDriveDmaRequest, if_neg (not_driveGone_of_up hu), hc, ht, if_neg (Nat.not_lt.mpr hl), Bool.false_eq_true, if_false]

variable (hq : c.use = .queue a b) (hb : ((bufsAt c.bufs off len).map (·.2)).sum = len)

include hq hb

theorem exec_driveDmaRequest_write_of_queue (data : List Byte) :
    exec (.driveDmaRequest drive id off len true data) s = .next (dmaWrite s drive c (bufsAt c.bufs off len) (fit len data)) := by
  change execDriveDmaRequest drive id off len true data s = _
  simp only [execDriveDmaRequest, if_neg (not_driveGone_of_up hu), hc, hq, hb, bne_self_eq_false, Bool.false_eq_true, if_false,
    if_true]

theorem exec_driveDmaRequest_read_of_queue {data : List Byte} (hd : c.host = true → data ≠ []) :
    exec (.driveDmaRequest drive id off len false data) s = .next (queueDataAnswered s drive c off len data) := by
  change execDriveDmaRequest drive id off len false data s = _
  simp only [execDriveDmaRequest, if_neg (not_driveGone_of_up hu), hc, hq, hb, bne_self_eq_false, Bool.false_eq_true, if_false,
    queueDataAnswered]
  cases hh : c.host with
  | false => rfl
  | true =>
    have returned : ¬ data.isEmpty = true := mt List.isEmpty_iff.mp (hd hh)
    exact if_neg returned

end Dma

end Outstanding

/-! Drives and volumes come up and warn (15 R401, R405, R420 to R422). -/

theorem exec_driveReinitDone_of_resetting {s : State} {drive : Nat} (hr : (tgetD s.stor.drives drive {}).st = .resetting) :
    exec (.driveReinitDone drive) s = .next (volumesReady (driveEvent (s.onDrive drive (fun d => { d with st := .up })) drive 0)
      0 drive (tgetD s.stor.drives drive {}).spaces) := by
  have resetting : ¬ ((tgetD s.stor.drives drive {}).st != .resetting) = true := by
    rw [hr]
    decide
  exact if_neg resetting

/-- Is a drive that reported namespaces before back with another serial number or other namespaces? -/
def cameBackOther (d : Drive) (i : DriveInfo) : Bool :=
  !d.spaces.isEmpty && !(d.serial == i.serial && sameSpaces d.spaces (usedSpaces i.spaces))

/-- The machine after a drive's link has come up with what the drive reports. -/
def driveReported (s : State) (drive : Nat) (i : DriveInfo) : State :=
  driveEvent (s.onDrive drive (fun d => { d with
    st := .up, serial := i.serial, mdts := i.mdts, spaces := usedSpaces i.spaces, cmds := [] })) drive 0

theorem exec_driveLinkUp_of_supported {s : State} {drive : Nat} {i : DriveInfo} (hi : ingress s = true)
    (hl : driveLink s.cfg drive = true) (hu : (tgetD s.stor.drives drive {}).st ≠ .up)
    (hr : (tgetD s.stor.drives drive {}).st ≠ .resetting) (hs : i.supported = true) :
    exec (.driveLinkUp drive i) s =
      .next (if cameBackOther (tgetD s.stor.drives drive {}) i
        then volumesDead (driveReported s drive i) 0 drive Status.driveLost.code
        else volumesReady (driveReported s drive i) 0 drive (usedSpaces i.spaces)) := by
  have admitted : ¬ (!ingress s || !driveLink s.cfg drive || (tgetD s.stor.drives drive {}).st == .up
      || (tgetD s.stor.drives drive {}).st == .resetting) = true := by
    simp [hi, hl, hu, hr]
  have supported : ¬ (!i.supported) = true := by simp [hs]
  exact (if_neg admitted).trans (if_neg supported)

theorem exec_driveAsyncEvent_of_up {s : State} {drive : Nat} (hu : (tgetD s.stor.drives drive {}).st = .up) (bits : Nat) :
    exec (.driveAsyncEvent drive bits) s =
      .next (driveWarn (s.onDrive drive (fun d => { d with warnSince := d.warnSince + 1 })) drive bits) := by
  have up : ¬ ((tgetD s.stor.drives drive {}).st != .up) = true := by
    rw [hu]
    decide
  exact if_neg up

theorem exec_volumeScrubDone_of_creating {s : State} {n : Nat} {x : Volume} {v : VolumeCfg} (hx : tget s.stor.volumes n = some x)
    (hv : live s (·.stor.volumes) n = some v) (hc : x.st = .creating) (hd : x.dead = false)
    (hb : backingUp s v.v.backing v.v.source = true) :
    exec (.volumeScrubDone n) s = .next (volState s n v .ready 0) := by
  have created : (x.st == .creating && backingUp s v.v.backing v.v.source && !x.dead) = true := by
    rw [hc, hb, hd]
    decide
  change execVolumeScrubDone n s = _
  simp only [execVolumeScrubDone, hx, hv]
  exact if_pos created

/-! NVMe over TCP: segments received, retransmission and lost controllers (15 R417, R419). -/

/-- Is `t` the connection to which a segment in the parsed frame `p` belongs? -/
def segmentOf (part lport : Nat) (p : Pkt) (t : Tcp) : Bool :=
  t.part == part && t.lport == lport && t.ip == p.ip && t.localAddr == p.dst && t.remoteAddr == p.src && t.localPort == p.dport
    && t.remotePort == p.sport

theorem exec_tcpSegment_of_connection {s : State} {part lport n : Nat} {d : List Byte} {g : TcpIn} {t : Tcp}
    (hg : parseTcp d (parseFrame d) = some g) (hi : ingress s = true) (hq : quarantined s 144 = false)
    (ht : tfind s.stor.tcps (fun _ t => segmentOf part lport (parseFrame d) t) = some (n, t)) (pdus : List NvmePdu) :
    exec (.tcpSegment part lport d pdus) s = .next (if t.st == .synSent then tcpSynSent s n t g else tcpOpen s n t g pdus) := by
  have serving : ¬ (!ingress s || quarantined s 144) = true := by
    rw [hi, hq]
    decide
  simp only [segmentOf] at ht
  change execTcpSegment part lport d pdus s = _
  unfold execTcpSegment
  -- the parsed frame stays opaque: its fields need not be computed to find the connection
  generalize parseFrame d = p at hg ht ⊢
  simp only [hg, if_neg serving, ht]

/-- The machine after a connection's retransmission timeout: its window is halved, its timeout doubled and its oldest segment
sent again. -/
def tcpBackedOff (s : State) (n : Nat) : State :=
  tcpResend ((tcpHalve s n).onTcp n (fun t => { t with rtoNs := 2 * t.rtoNs, dups := 0 })) n

theorem exec_tcpRto_of_unacknowledged {s : State} {n : Nat} {t : Tcp} {x : TcpSeg} {xs : List TcpSeg}
    (ht : tget s.stor.tcps n = some t) (hx : t.segs = x :: xs) :
    exec (.tcpRto n) s =
      .next (if 100000000000 ≤ s.clock.cadence - x.sentAt then tcpAbort s n else tcpBackedOff s n) := by
  change execTcpRto n s = _
  simp only [execTcpRto, ht, hx]
  exact (apply_ite Host.Outcome.next _ _ _).symm

section LostController

variable {s : State} {c : Nat} {i : Initiator} (hi : tget s.stor.inits c = some i) (hl : i.lost = true) (hu : i.up = false)

include hi hl hu

theorem exec_nvmeiReconnectTimer_of_lost {own : InitCfg} (ho : i.own = some own) (hk : thas s.cfg.stor.initiators c = true)
    (hq : quarantined s 144 = false) (ht : tany s.stor.tcps (fun _ t => t.initiator == some c) = false) :
    exec (.nvmeiReconnectTimer c) s = .next (initStart s c own) := by
  change execNvmeiReconnectTimer c s = _
  simp only [execNvmeiReconnectTimer, hi, ho, hl, hu, hk, hq, ht, Bool.not_false, Bool.and_self, if_true]

theorem exec_ctrlLossTmoExpire_of_lost :
    exec (.ctrlLossTmoExpire c) s = .next (onInit (initReset s c) c (fun i => { i with lost := false })) := by
  change execCtrlLossTmoExpire c s = _
  simp only [execCtrlLossTmoExpire, hi, hl, hu, Bool.not_false, Bool.and_self, if_true]

end LostController

/-- Settles O45: each row has the effect its lemma above states. -/
theorem storageEvents : Obligations.StorageEvents := by
  intro s
  refine ⟨?start, ?completion, ?timeout, ?abort, ?reinit, ?loss, ?linkUp, ?tcpRead, ?queueWrite, ?queueRead, ?warning, ?scrub,
    ?segment, ?retransmit, ?reconnect, ?expire⟩
  case start =>
    intro q ext fail x d ds v vols hx hw hs hf hr hc hv
    exact exec_storStart_of_ready ⟨hx, hw, hs, hf, hr, hc, hv⟩ ext fail
  case completion =>
    intro drive id nvme ext fail c e hc
    exact exec_driveCompletion_of_outstanding hc nvme ext fail
  case timeout => exact fun _ _ _ hc ha => exec_storageTimeout_of_unaborted hc ha
  case abort =>
    intro drive id c a cause hc ha
    exact exec_abortConfirmTimeout_of_aborted hc ha
  case reinit => exact fun _ hr => exec_driveReinitDone_of_resetting hr
  case loss => exact fun _ => rfl
  case linkUp =>
    intro drive i d e hi hl hu hr hs
    exact exec_driveLinkUp_of_supported hi hl hu hr hs
  case tcpRead => exact fun _ _ _ _ data _ _ _ hu hc ht hl => exec_driveDmaRequest_read_of_tcp hc hu ht hl data
  case queueWrite => exact fun _ _ _ _ data _ _ _ hu hc hq hb => exec_driveDmaRequest_write_of_queue hc hu hq hb data
  case queueRead => exact fun _ _ _ _ _ _ _ _ hu hc hq hb hd => exec_driveDmaRequest_read_of_queue hc hu hq hb hd
  case warning => exact fun _ bits hu => exec_driveAsyncEvent_of_up hu bits
  case scrub => exact fun _ _ _ hx hv hc hd hb => exec_volumeScrubDone_of_creating hx hv hc hd hb
  case segment => exact fun _ _ _ pdus _ _ _ hg hi hq ht => exec_tcpSegment_of_connection hg hi hq ht pdus
  case retransmit => exact fun _ _ _ _ ht hx => exec_tcpRto_of_unacknowledged ht hx
  case reconnect => exact fun _ _ _ hi ho hl hu hk hq ht => exec_nvmeiReconnectTimer_of_lost hi hl hu ho hk hq ht
  case expire => exact fun _ _ hi hl hu => exec_ctrlLossTmoExpire_of_lost hi hl hu

end Sys2Proof.Proofs
end

section
/-! PROOFS. Proofs/DoorbellWrites.lean: what a write of four octets does at each kind of doorbell register, when the port hears
the function and the register accepts the value, and the statement O27, which is their conjunction. -/

namespace Sys2Proof.Proofs

open Machine

/-! The doorbells of a booth (04 R101, 18 R488, R495, R496). -/

theorem subDoorbell_of_accepted {s : State} {fn v : Nat} (hh : boothHeard s fn = true)
    (hv : prodOk v (s.fn fn).booth.subCons (2 ^ (s.fn fn).booth.subLog2) = true) :
    subDoorbell s fn v = s.onBooth fn (fun b => { b with subProd := v, readFailed := false }) := by
  simp only [subDoorbell, hh, hv, Bool.not_true, Bool.false_eq_true, if_false]

theorem cmpDoorbell_of_accepted {s : State} {fn v : Nat} (hh : boothHeard s fn = true)
    (hv : consOk v (s.fn fn).booth.cmpProd (2 ^ (s.fn fn).booth.cmpLog2) = true) :
    cmpDoorbell s fn v = s.onBooth fn (fun b => { b with
      cmpCons := v
      done := b.done.drop (b.done.length - (modSub 32 b.cmpProd v + b.held.length)) }) := by
  simp only [cmpDoorbell, hh, hv, Bool.not_true, Bool.false_eq_true, if_false]

theorem evtDoorbell_of_accepted {s : State} {fn v : Nat} (hh : boothHeard s fn = true)
    (hv : consOk v (s.fn fn).booth.evtProd (2 ^ (s.fn fn).booth.evtLog2) = true) :
    evtDoorbell s fn v = if newer 32 v (s.fn fn).booth.evtCons
      then eventsLost (s.onBooth fn (fun b => { b with evtCons := v })) fn
      else s.onBooth fn (fun b => { b with evtCons := v }) := by
  simp only [evtDoorbell, hh, hv, Bool.not_true, Bool.false_eq_true, if_false]

/-- The registers of the doorbell page below the Act doorbells: three of the booth, the rest reserved (16 R435). -/
def boothRegister (s : State) (fn off v : Nat) : State :=
  if off == 0 then subDoorbell s fn v
  else if off == 4 then cmpDoorbell s fn v
  else if off == 8 then evtDoorbell s fn v
  else dbDiscard s fn

section Booth

variable {s : State} {fn v : Nat} (hi : ingress s = true) (hf : fn = 0 ∨ vfExists s fn = true) (hv : v < 2 ^ 32)

include hi hf hv

theorem doorbellWrite_booth {off : Nat} (ha : off % 4 = 0) (ho : off < 0x100) :
    doorbellWrite s fn off 4 v = boothRegister s fn off v := by
  have present : (fn == 0 || vfExists s fn) = true := by simpa using hf
  have onPage : ¬ (if fn = 0 then 0x10000 else 0x1000) ≤ off := by split <;> omega
  simp only [doorbellWrite, boothRegister, beq_iff_eq, hi, present, ha, onPage, Nat.not_le.mpr hv, if_pos ho, bne_self_eq_false,
    decide_false, Bool.not_true, Bool.or_self, Bool.false_eq_true, if_false]

theorem doorbellWrite_submission : doorbellWrite s fn 0 4 v = subDoorbell s fn v := by
  rw [doorbellWrite_booth hi hf hv (by decide) (by decide), boothRegister, if_pos (by decide)]

theorem doorbellWrite_completion : doorbellWrite s fn 4 4 v = cmpDoorbell s fn v := by
  rw [doorbellWrite_booth hi hf hv (by decide) (by decide), boothRegister, if_neg (by decide), if_pos (by decide)]

theorem doorbellWrite_event : doorbellWrite s fn 8 4 v = evtDoorbell s fn v := by
  rw [doorbellWrite_booth hi hf hv (by decide) (by decide), boothRegister, if_neg (by decide), if_neg (by decide),
    if_pos (by decide)]

theorem exec_boothSubmissionDoorbell_of_accepted (hh : boothHeard s fn = true)
    (hr : prodOk v (s.fn fn).booth.subCons (2 ^ (s.fn fn).booth.subLog2) = true) :
    exec (.boothSubmissionDoorbell fn 4 v) s = .next (s.onBooth fn (fun b => { b with subProd := v, readFailed := false })) := by
  change execBoothSubmissionDoorbell fn 4 v s = _
  rw [execBoothSubmissionDoorbell, doorbellWrite_submission hi hf hv, subDoorbell_of_accepted hh hr]

theorem exec_boothCompletionDoorbell_of_accepted (hh : boothHeard s fn = true)
    (hr : consOk v (s.fn fn).booth.cmpProd (2 ^ (s.fn fn).booth.cmpLog2) = true) :
    exec (.boothCompletionDoorbell fn 4 v) s = .next (s.onBooth fn (fun b => { b with
      cmpCons := v
      done := b.done.drop (b.done.length - (modSub 32 b.cmpProd v + b.held.length)) })) := by
  change execBoothCompletionDoorbell fn 4 v s = _
  rw [execBoothCompletionDoorbell, doorbellWrite_completion hi hf hv, cmpDoorbell_of_accepted hh hr]

theorem exec_boothEventDoorbell_of_accepted (hh : boothHeard s fn = true)
    (hr : consOk v (s.fn fn).booth.evtProd (2 ^ (s.fn fn).booth.evtLog2) = true) :
    exec (.boothEventDoorbell fn 4 v) s = .next (if newer 32 v (s.fn fn).booth.evtCons
      then eventsLost (s.onBooth fn (fun b => { b with evtCons := v })) fn
      else s.onBooth fn (fun b => { b with evtCons := v })) := by
  change execBoothEventDoorbell fn 4 v s = _
  rw [execBoothEventDoorbell, doorbellWrite_event hi hf hv, evtDoorbell_of_accepted hh hr]

end Booth

/-! Act doorbells (08 R225, R226). -/

/-- The event that Act doorbell `k` of a function gives to the Act of binding `n`. -/
def doorbellEvent (s : State) (fn k v n : Nat) : Event where
  kind := 5
  binding := 64 * partOf fn + n
  session := 0
  epoch := epochAt s (partOf fn) 129
  words := [word (kindWord 5 + k), word (tenantOf fn), 0, word v, 0]
  payload := []
  source := k

section Act

variable {s : State} {fn k v n : Nat} {b : BindCfg}

theorem actDoorbell_of_bound (hf : fn ≠ 0) (hh : dbHeard s fn = true)
    (hn : tget (cfgAt s (partOf fn) 129).acts.doorbells (64 * partOf fn + k) = some n)
    (hb : tget (cfgAt s (partOf fn) 129).acts.bindings (64 * partOf fn + n) = some b)
    (ht : b.tenant = 0 ∨ b.tenant = tenantOf fn) :
    actDoorbell s fn k v =
      (putAct (s.onFn fn (fun f => { f with actLast := tset f.actLast k v })) (partOf fn) (doorbellEvent s fn k v n)).2 := by
  have heard : ¬ (fn == 0 || !dbHeard s fn) = true := by simp [hf, hh]
  have allowed : ¬ (b.tenant != 0 && b.tenant != tenantOf fn) = true := by
    rcases ht with ht | ht <;> simp [ht]
  simp only [actDoorbell, if_neg heard, hn, hb, if_neg allowed, doorbellEvent]

/-- A row's `k` counts modulo the 64 Act doorbells of the page. -/
theorem exec_actDoorbellWrite_of_bound (hi : ingress s = true) (hf : fn ≠ 0) (he : vfExists s fn = true) (hv : v < 2 ^ 32)
    (hh : dbHeard s fn = true)
    (hn : tget (cfgAt s (partOf fn) 129).acts.doorbells (64 * partOf fn + k % 64) = some n)
    (hb : tget (cfgAt s (partOf fn) 129).acts.bindings (64 * partOf fn + n) = some b)
    (ht : b.tenant = 0 ∨ b.tenant = tenantOf fn) :
    exec (.actDoorbellWrite fn k 4 v) s = .next
      (putAct (s.onFn fn (fun f => { f with actLast := tset f.actLast (k % 64) v })) (partOf fn)
        (doorbellEvent s fn (k % 64) v n)).2 := by
  change execActDoorbellWrite fn k 4 v s = _
  rw [execActDoorbellWrite, doorbellWrite_act s fn (k % 64) v hi (.inr he) hv (Nat.mod_lt k (by decide)),
    actDoorbell_of_bound hf hh hn hb ht]

end Act

/-! Ring and parley doorbells (16 R436, R437, 17 R475). -/

/-- A ring or parley doorbell of a function keeps the value last written to it. -/
def doorbellKept (s : State) (fn n v : Nat) : State :=
  s.onFn fn (fun f => { f with doorbells := tmod f.doorbells n (fun d => { d with last := v }) })

/-- The tenant's doorbell notifies the manager of its own function's parley, the manager's a tenant's. -/
theorem ringDoorbell_of_parley {s : State} {fn n v vf : Nat} {d : Doorbell} {up : Bool}
    (hd : tget (s.fn fn).doorbells n = some d) (hh : dbHeard s fn = true)
    (ht : d.target = if up then .parleyOfTenant else .parleyOfManager vf) (hu : up = true → vf = fn) :
    ringDoorbell s fn n v = doorbellKept (parleyWrite s vf up v) fn n v := by
  cases up with
  | true =>
    obtain rfl := hu rfl
    simp only [ringDoorbell, hd, hh, ht, Bool.not_true, Bool.false_eq_true, if_false, if_true, doorbellKept]
  | false => simp only [ringDoorbell, hd, hh, ht, Bool.not_true, Bool.false_eq_true, if_false, doorbellKept]

section Ring

variable {s : State} {fn off v : Nat} {d : Doorbell} (hi : ingress s = true) (hf : fn = 0 ∨ vfExists s fn = true)
  (hv : v < 2 ^ 32) (ha : off % 4 = 0) (hl : 0x200 ≤ off) (ho : off < (if fn = 0 then 0x10000 else 0x1000))
  (hd : tget (s.fn fn).doorbells ((off - 0x200) / 4) = some d) (hh : dbHeard s fn = true)

include hi hf hv ha hl ho hd hh

theorem exec_ringProducerDoorbell_of_accepted {count entries : Nat} (hr : ringView s d.target = some (true, count, entries))
    (hp : prodOk v count entries = true) :
    exec (.ringProducerDoorbell fn off 4 v) s =
      .next (ringKick (ringSet (doorbellKept s fn ((off - 0x200) / 4) v) d.target v) d.target) := by
  change execRingProducerDoorbell fn off 4 v s = _
  rw [execRingProducerDoorbell, doorbellWrite_ring s fn off v hi hf hv ha hl ho,
    ringDoorbell_ok s fn _ v d true count entries hd hh hr ((if_pos rfl).trans hp), doorbellKept]

theorem exec_ringConsumerDoorbell_of_accepted {count entries : Nat} (hr : ringView s d.target = some (false, count, entries))
    (hc : consOk v count entries = true) :
    exec (.ringConsumerDoorbell fn off 4 v) s =
      .next (ringKick (ringSet (doorbellKept s fn ((off - 0x200) / 4) v) d.target v) d.target) := by
  change execRingConsumerDoorbell fn off 4 v s = _
  rw [execRingConsumerDoorbell, doorbellWrite_ring s fn off v hi hf hv ha hl ho,
    ringDoorbell_ok s fn _ v d false count entries hd hh hr ((if_neg Bool.false_ne_true).trans hc), doorbellKept]

theorem exec_parleyDoorbell_of_heard {vf : Nat} {up : Bool} (ht : d.target = if up then .parleyOfTenant else .parleyOfManager vf)
    (hu : up = true → vf = fn) :
    exec (.parleyDoorbell fn off 4 v) s = .next (doorbellKept (parleyWrite s vf up v) fn ((off - 0x200) / 4) v) := by
  change execParleyDoorbell fn off 4 v s = _
  rw [execParleyDoorbell, doorbellWrite_ring s fn off v hi hf hv ha hl ho, ringDoorbell_of_parley hd hh ht hu]

end Ring

/-! The interval after a parley record (17 R475). -/

theorem exec_parleyIntervalEnd_of_running {s : State} {vf : Nat} {up : Bool} (hr : (parleyOf s vf up).running = true) :
    exec (.parleyIntervalEnd vf up) s = .next (match (parleyOf s vf up).pending with
      | some v => onParley (parleyRecord s vf up v) vf up (fun p => { p with pending := none })
      | none => onParley s vf up (fun p => { p with running := false })) := by
  have running : ¬ (!(parleyOf s vf up).running) = true := by simp [hr]
  change execParleyIntervalEnd vf up s = _
  simp only [execParleyIntervalEnd, if_neg running]
  cases (parleyOf s vf up).pending with
  | none => rfl
  | some v => rfl

/-- Settles O27: each register has the effect its lemma above states. -/
theorem doorbellWrites : Obligations.DoorbellWrites := by
  intro s
  refine ⟨?submission, ?completion, ?event, ?producer, ?consumer, ?act, ?parley, ?interval⟩
  case submission => exact fun _ _ hi hf hv hh hr => exec_boothSubmissionDoorbell_of_accepted hi hf hv hh hr
  case completion => exact fun _ _ hi hf hv hh hr => exec_boothCompletionDoorbell_of_accepted hi hf hv hh hr
  case event => exact fun _ _ hi hf hv hh hr => exec_boothEventDoorbell_of_accepted hi hf hv hh hr
  case producer => exact fun _ _ _ _ _ _ hi hf hv ha hl ho hd hh hr hp =>
    exec_ringProducerDoorbell_of_accepted hi hf hv ha hl ho hd hh hr hp
  case consumer => exact fun _ _ _ _ _ _ hi hf hv ha hl ho hd hh hr hc =>
    exec_ringConsumerDoorbell_of_accepted hi hf hv ha hl ho hd hh hr hc
  case act => exact fun _ _ _ _ _ hi hf he hv hh hn hb ht => exec_actDoorbellWrite_of_bound hi hf he hv hh hn hb ht
  case parley => exact fun _ _ _ _ _ _ hi hf hv ha hl ho hd hh ht hu =>
    exec_parleyDoorbell_of_heard hi hf hv ha hl ho hd hh ht hu
  case interval => exact fun _ _ hr => exec_parleyIntervalEnd_of_running hr

end Sys2Proof.Proofs
end

section
/-! PROOFS. Proofs/HostPortEvents.lean: for each row of the host port, the state it leaves when its premise holds, and the
statement O28, which is their conjunction. -/

namespace Sys2Proof.Proofs

open Machine

/-! Accesses of the host to a function that exists (16 R430 to R440, 22 R591). -/

/-- The octets of a read of BAR2, piece by piece, up to the first piece that fails (16 R434, R452). -/
def bar2Read (s : State) (fn off len : Nat) : Status × List Byte × State :=
  (pieces (len + 1) off len).foldl (fun acc pc =>
    if acc.1 != .ok then acc
    else let x := bar2ReadPiece acc.2.2 fn pc.1 pc.2; (x.1, acc.2.1 ++ x.2.1, x.2.2)) (.ok, [], s)

/-- The pieces of a write to BAR2 are stored, up to the first that fails (16 R434). -/
def bar2Write (s : State) (fn off : Nat) (d : List Byte) : Status × State :=
  (pieces (d.length + 1) off d.length).foldl (fun acc pc =>
    if acc.1 != .ok then acc else bar2WritePiece acc.2 fn pc.1 ((d.drop (pc.1 - off)).take pc.2)) (.ok, s)

section Function

variable {s : State} {fn : Nat} (hi : ingress s = true) (hf : fnExists s fn = true)

include hi hf

theorem not_absent : ¬ (!ingress s || !fnExists s fn) = true := by
  rw [hi, hf]
  decide

theorem exec_hostBar0Access_read_of_range {off len : Nat} {r : Bar0} (hr : bar0At fn off len = some r) :
    exec (.hostBar0Access fn off (.read len)) s =
      .next (s.send (.hostAnswer fn (.data ((List.range len).map (bar0Byte s fn r off))))) := by
  change execHostBar0Access fn off (.read len) s = _
  simp only [execHostBar0Access, if_neg (not_absent hi hf), hr]

theorem exec_hostBar0Access_write_of_doorbells {off : Nat} {d : List Byte} (hr : bar0At fn off d.length = some .doorbells) :
    exec (.hostBar0Access fn off (.write d false)) s = .next (doorbellWrite s fn off d.length (ofLe d)) := by
  change execHostBar0Access fn off (.write d false) s = _
  simp only [execHostBar0Access, if_neg (not_absent hi hf), hr, Bool.false_eq_true, if_false]

theorem exec_hostBar2Access_read_of_ok {off len : Nat} (hr : (bar2Read s fn off len).1 = .ok) :
    exec (.hostBar2Access fn off (.read len)) s =
      .next ((bar2Read s fn off len).2.2.send (.hostAnswer fn (.data (bar2Read s fn off len).2.1))) := by
  unfold bar2Read at hr ⊢
  change execHostBar2Access fn off (.read len) s = _
  simp only [execHostBar2Access, if_neg (not_absent hi hf), hr]

theorem exec_hostBar2Access_write_of_ok {off : Nat} {d : List Byte} (hr : (bar2Write s fn off d).1 = .ok) :
    exec (.hostBar2Access fn off (.write d false)) s = .next (bar2Write s fn off d).2 := by
  unfold bar2Write at hr ⊢
  change execHostBar2Access fn off (.write d false) s = _
  simp only [execHostBar2Access, if_neg (not_absent hi hf), hr, beq_self_eq_true, Bool.false_eq_true, if_false, if_true]

section NotResetting

variable (hr : (s.fn fn).flr = false)

include hr

theorem exec_hostBar0Access_write_of_table {off o : Nat} {d : List Byte} (ht : bar0At fn off d.length = some (.table o)) :
    exec (.hostBar0Access fn off (.write d false)) s = .next (msixTable s fn o d) := by
  change execHostBar0Access fn off (.write d false) s = _
  simp only [execHostBar0Access, if_neg (not_absent hi hf), ht, hr, Bool.false_eq_true, if_false]

theorem not_absentOrResetting : ¬ (!ingress s || !fnExists s fn || (s.fn fn).flr) = true := by
  rw [hi, hf, hr]
  decide

theorem exec_msixTableWrite_table_of_inside {off : Nat} {d : List Byte} (ho : off + d.length ≤ 16 * vectorsOf fn) :
    exec (.msixTableWrite fn (.table off d)) s = .next (msixTable s fn off d) := by
  change execMsixTableWrite fn (.table off d) s = _
  simp only [execMsixTableWrite, if_neg (not_absentOrResetting hi hf hr), if_neg (Nat.not_lt.mpr ho)]

theorem exec_msixTableWrite_control (enable mask : Bool) :
    exec (.msixTableWrite fn (.control enable mask)) s =
      .next (msixFlush (s.onFn fn (fun f => { f with msixEnable := enable, fnMask := mask })) fn) :=
  if_neg (not_absentOrResetting hi hf hr)

theorem exec_dStateChange_of_changed {d3 : Bool} (hd : (s.fn fn).d3 ≠ d3) :
    exec (.dStateChange fn d3) s = .next (if d3 then s.onFn fn (fun f => { f with d3 := true }) else backToD0 s fn) := by
  have changed : ¬ (!ingress s || !fnExists s fn || (s.fn fn).flr || (s.fn fn).d3 == d3) = true := by
    rw [hi, hf, hr, beq_eq_false_iff_ne.mpr hd]
    decide
  change execDStateChange fn d3 s = _
  unfold execDStateChange
  rw [if_neg changed]
  exact (apply_ite Host.Outcome.next _ _ _).symm

end NotResetting

end Function

/-- The end of an MSI-X vector's hold-off: a raise that came meanwhile is pending (16 R440). -/
def heldOff (s : State) (fn v : Nat) : State :=
  s.onFn fn (fun f => { f with msix := tupd f.msix v {} (fun e =>
    { e with held := false, raised := false, pending := e.pending || e.raised }) })

theorem exec_msixHoldoffEnd_of_held {s : State} {fn v : Nat} (hh : (tgetD (s.fn fn).msix v {}).held = true) :
    exec (.msixHoldoffEnd fn v) s = .next (msixRelease (heldOff s fn v) fn v) := by
  have held : ¬ (!(tgetD (s.fn fn).msix v {}).held) = true := by simp [hh]
  exact if_neg held

/-! Virtual functions and the resets of functions (16 R429, R454, R455). -/

/-- The virtual functions that exist. -/
def existingVfs (s : State) : List Nat := ((List.range 1008).map (· + 1)).filter (vfExists s)

theorem exec_vfEnableChange_of_allowed {s : State} (hi : ingress s = true) {enable : Bool}
    (he : s.host.vfEnable = false ∨ enable = false) (n : Nat) :
    exec (.vfEnableChange enable n) s = .next ((existingVfs s).foldl (fun s vf => flrStart s vf true)
      (s.onHost (fun h => { h with vfEnable := enable, numVfs := min n 1008 }))) := by
  have allowed : ¬ (!ingress s || (s.host.vfEnable && enable)) = true := by
    rcases he with he | he <;> simp [hi, he]
  exact if_neg allowed

theorem exec_functionLevelReset_of_running {s : State} {vf : Nat} (hi : ingress s = true) (he : vfExists s vf = true)
    (hr : (s.fn vf).flr = false) : exec (.functionLevelReset vf) s = .next (flrStart s vf false) := by
  have running : ¬ (!ingress s || !vfExists s vf || (s.fn vf).flr) = true := by
    rw [hi, he, hr]
    decide
  exact if_neg running

/-- The entry of a function's reset that has reached its last step (16 R454 step 8). -/
def resetReady (s : State) (vf : Nat) : Option Detach := s.detaches.find? (fun d => d.vf == vf && d.flr && d.stage == .ready)

/-- The reset `d` of a function has ended, and the manager is told. -/
def resetEnded (s : State) (vf : Nat) (d : Detach) : State :=
  raiseEvent ({ s with detaches := s.detaches.filter (fun x => x != d) }.onFn vf (fun f => { f with flr := false }))
    0 0x0015 (partOf vf) (tenantOf vf) (le 2 vf)

/-- A function that has ceased to exist is detached (16 R429, 17 R473). -/
def removalStarted (s : State) (vf : Nat) : State :=
  let t := s.onFn vf (fun f => { f with detaching := true })
  { t with detaches := t.detaches ++ [{ vf := vf, flr := false, removed := true, cmd := none, stage := .commit }] }

section Ready

variable {s : State} {vf : Nat} {d : Detach} (hd : resetReady s vf = some d)

include hd

theorem exec_flrReady_of_kept (hr : d.removed = false) :
    exec (.flrReady vf) s = .next (closeAdvance (shareUpdate (resetEnded s vf d) vf)) := by
  unfold resetReady at hd
  change execFlrReady vf s = _
  simp only [execFlrReady, hd, hr, Bool.false_eq_true, if_false, resetEnded]

theorem exec_flrReady_of_removed (hr : d.removed = true) :
    exec (.flrReady vf) s = .next (closeAdvance (removalStarted (resetEnded s vf d) vf)) := by
  unfold resetReady at hd
  change execFlrReady vf s = _
  simp only [execFlrReady, hd, hr, if_true, resetEnded, removalStarted]

end Ready

/-- The manager's reads, held posts and translations are gone; the posts of others that waited behind them go out. -/
def managerReadsDropped (s : State) : State :=
  releasePosts ((readsDrop s (fun r => r.fn == 0)).onHost (fun h => { h with
    heldPosts := h.heldPosts.filter (fun p => p.fn != 0)
    atc := h.atc.filter (fun e => e.fn != 0) }))

/-- Every job of the Press is told to end. -/
def pressCancelled (s : State) : State := (s.press.jobs.map (·.1)).foldl pressCancel s

theorem exec_managerFlr_of_ingress {s : State} (hi : ingress s = true) :
    exec (.managerFlr) s = .next (fnReset (pressCancelled (boothStop (managerReadsDropped s) 0)) 0) := by
  have served : ¬ (!ingress s) = true := by simp [hi]
  exact if_neg served

/-! The device's own reads and translations (16 R448 to R453). -/

/-- The outstanding read of a tag. -/
def readOf (s : State) (tag : Nat) : Option HostRd := s.host.reads.find? (fun r => r.tag == tag)

/-- The read of a tag has been given up, and the tag stays out of use (16 R453). -/
def tagDead (s : State) (tag : Nat) : State := (readTake s tag).onHost (fun h => { h with deadTags := h.deadTags ++ [tag] })

section Read

variable {s : State} {tag : Nat} {r : HostRd} (hr : readOf s tag = some r)

include hr

theorem exec_hostReadCompletion_data_of_outstanding (fn : Nat) (d : List Byte) :
    exec (.hostReadCompletion fn tag (.data d)) s = .next (readDone (readTake s tag) r.use (some (fit r.len d))) := by
  unfold readOf at hr
  change Host.Outcome.next (readAnswer s fn tag (.data d)) = _
  simp only [readAnswer, hr]

theorem exec_hostDmaTimeout_of_outstanding :
    exec (.hostDmaTimeout tag) s =
      .next (readDone (hostAbortCount (aerLog (tagDead s tag) r.fn .completionTimeout)) r.use none) := by
  unfold readOf at hr
  change execHostDmaTimeout tag s = _
  simp only [execHostDmaTimeout, hr, tagDead]

end Read

/-- Does a held request of the device wait for the translation of an address? -/
def translationAwaited (s : State) (fn : Nat) (pasid : Option Nat) (addr : Nat) : Bool :=
  s.host.heldPosts.any (fun p => p.msix.isNone && p.fn == fn && p.pasid == pasid && p.addr == addr)
    || s.host.heldReads.any (fun r => r.fn == fn && r.pasid == pasid && r.addr == addr)

theorem exec_translationCompletion_page_of_awaited {s : State} {fn : Nat} {pasid : Option Nat} {addr : Nat}
    (ha : translationAwaited s fn pasid addr = true) (base size : Nat) (read write : Bool) :
    exec (.translationCompletion fn pasid addr (.page base size read write)) s =
      .next (releaseReads (releasePosts (transRefuse
        (atcPut s { fn := fn, pasid := pasid, base := base, size := size, read := read, write := write })
        fn pasid (fun a => base ≤ a && a < base + size)))) := by
  have awaited : ¬ (!translationAwaited s fn pasid addr) = true := by simp [ha]
  exact if_neg awaited

/-- Does an invalidation of a range meet a cached translation? -/
def invalHit (fn : Nat) (pasid : Option Nat) (base size : Nat) (e : AtcEntry) : Bool :=
  e.fn == fn && e.pasid == pasid && e.base < base + size && base < e.base + e.size

/-- Does an address have a translation that an invalidation takes out? -/
def invalUses (s : State) (hit : AtcEntry → Bool) (f : Nat) (ps : Option Nat) (a : Nat) : Bool :=
  (s.host.atc.filter hit).any (fun e => e.fn == f && e.pasid == ps && e.base ≤ a && a < e.base + e.size)

/-- The reads for which an invalidation waits. -/
def invalWaits (s : State) (hit : AtcEntry → Bool) : List Nat :=
  (s.host.reads.filter (fun r => invalUses s hit r.fn r.pasid r.addr)).map (·.tag)

/-- The translations that an invalidation hits are gone, and the posts held on them have asked again (16 R449). -/
def invalidated (s : State) (hit : AtcEntry → Bool) : State :=
  (s.host.heldPosts.filter (fun p => p.msix.isNone && invalUses s hit p.fn p.pasid p.addr)).foldl
    (fun s p => s.send (.translationRequest p.fn p.pasid p.addr))
    (s.onHost (fun h => { h with atc := h.atc.filter (fun e => !hit e) }))

theorem exec_invalidateRequest_of_room {s : State} (hi : ingress s = true) (hr : s.host.invals.length < 32)
    (fn : Nat) (pasid : Option Nat) (base size tag : Nat) :
    exec (.invalidateRequest fn pasid base size tag) s =
      .next (if (invalWaits s (invalHit fn pasid base size)).isEmpty
        then (invalidated s (invalHit fn pasid base size)).send (.invalidateCompletion tag)
        else (invalidated s (invalHit fn pasid base size)).onHost (fun h => { h with
          invals := h.invals ++ [{ tag := tag, waits := invalWaits s (invalHit fn pasid base size) }] })) := by
  have room : ¬ (!ingress s || decide (32 ≤ s.host.invals.length)) = true := by
    rw [hi, decide_eq_false (Nat.not_le.mpr hr)]
    decide
  exact if_neg room

/-! The link (16 R425). -/

/-- The host's link is up at a rate and a width, and every tag may be used again. -/
def hostLinked (s : State) (rate width : Nat) : State :=
  s.onHost (fun h => { h with linkUp := true, linkRate := rate, linkWidth := width, deadTags := [] })

theorem exec_hostLinkUp_of_powered {s : State} (hv : s.power.vmain = true) (hs : s.power.shutdown = false) (rate width : Nat) :
    exec (.hostLinkUp rate width) s = .next (if rate < 5 || width < 8
      then raiseEvent (hostLinked s rate width) 0 0x0013 0 0 (le 1 rate ++ le 1 width)
      else hostLinked s rate width) := by
  have powered : ¬ (!s.power.vmain || s.power.shutdown) = true := by
    rw [hv, hs]
    decide
  exact if_neg powered

/-- Settles O28: each row has the effect its lemma above states, HOST_LINK_FATAL that of its definition. -/
theorem hostPortEvents : Obligations.HostPortEvents := by
  intro s
  refine ⟨?bar0Read, ?doorbellWrite, ?tableWrite, ?bar2Read, ?bar2Write, ?msixTable, ?msixControl, ?holdoff, ?vfEnable, ?reset,
    ?readyKept, ?readyRemoved, ?managerReset, ?dState, ?completion, ?timeout, ?translation, ?invalidate, ?linkUp, ?linkFatal⟩
  case bar0Read => exact fun _ _ _ _ hi hf hr => exec_hostBar0Access_read_of_range hi hf hr
  case doorbellWrite => exact fun _ _ _ hi hf hr => exec_hostBar0Access_write_of_doorbells hi hf hr
  case tableWrite => exact fun _ _ _ _ hi hf ht hr => exec_hostBar0Access_write_of_table hi hf hr ht
  case bar2Read => exact fun _ _ _ hi hf hr => exec_hostBar2Access_read_of_ok hi hf hr
  case bar2Write => exact fun _ _ _ hi hf hr => exec_hostBar2Access_write_of_ok hi hf hr
  case msixTable => exact fun _ _ _ hi hf hr ho => exec_msixTableWrite_table_of_inside hi hf hr ho
  case msixControl => exact fun _ enable mask hi hf hr => exec_msixTableWrite_control hi hf hr enable mask
  case holdoff => exact fun _ _ hh => exec_msixHoldoffEnd_of_held hh
  case vfEnable => exact fun _ n hi he => exec_vfEnableChange_of_allowed hi he n
  case reset => exact fun _ hi he hr => exec_functionLevelReset_of_running hi he hr
  case readyKept => exact fun _ _ hd hr => exec_flrReady_of_kept hd hr
  case readyRemoved => exact fun _ _ hd hr => exec_flrReady_of_removed hd hr
  case managerReset => exact fun hi => exec_managerFlr_of_ingress hi
  case dState => exact fun _ _ hi hf hr hd => exec_dStateChange_of_changed hi hf hr hd
  case completion => exact fun fn _ d _ hr => exec_hostReadCompletion_data_of_outstanding hr fn d
  case timeout => exact fun _ _ hr => exec_hostDmaTimeout_of_outstanding hr
  case translation => exact fun _ _ _ base size read write ha =>
    exec_translationCompletion_page_of_awaited ha base size read write
  case invalidate => exact fun fn pasid base size tag hi hr => exec_invalidateRequest_of_room hi hr fn pasid base size tag
  case linkUp => exact fun rate width hv hs => exec_hostLinkUp_of_powered hv hs rate width
  case linkFatal => exact fun _ => rfl

end Sys2Proof.Proofs
end

section
/-! PROOFS. Proofs/Steps.lean: what a step does with the queue and with the security version, and the machine after reset;
the statements O1 to O5, O7 and O8. -/

namespace Sys2Proof.Proofs

open Machine Safety

/-! The step (log entry 1). -/

theorem step_of_empty {s : State} (hq : s.pending = []) : step s = .next (idleTick s) := by
  unfold step
  rw [hq]

theorem step_cons (c : Instr) (q : List Instr) (s : State) :
    step { s with pending := c :: q } = exec c { s with pending := q } := rfl

/-- A command that goes on leaves the queue as it stood. -/
theorem exec_pending {i : Instr} {s t : State} (he : exec i s = .next t) : t.pending = s.pending := by
  obtain ⟨u, hu, hk⟩ := keeps_exec i s
  cases hu.symm.trans he
  exact hk.queue

/-- A step keeps the security version: the idle step and every command do, and the queue holds none of it. -/
theorem step_keeps_svn {s t : State} (hs : step s = .next t) : svnKept s t := by
  unfold step at hs
  split at hs
  case h_1 =>
    cases hs
    exact (keeps_idleTick s (Keeps.refl s)).svn
  case h_2 c cs _ =>
    obtain ⟨u, hu, hk⟩ := keeps_exec c { s with pending := cs }
    cases hu.symm.trans hs
    exact hk.svn

/-- Settles O5: the command runs in the state with the rest of the queue, and leaves the queue of that state. -/
theorem queueLosesOnlyItsFront : Obligations.QueueLosesOnlyItsFront :=
  fun c q s _ hs => exec_pending ((step_cons c q s).symm.trans hs)

/-- Settles O8: `keeps_exec` for a command, `keeps_idleTick` for none. -/
theorem svnMinNeverFalls : Obligations.SvnMinNeverFalls :=
  fun _ _ hs => step_keeps_svn hs

/-- Settles O4: each command's meaning answers a next state (`keeps_exec`). -/
theorem everyCommandGoesOn : Obligations.EveryCommandGoesOn := by
  intro i s
  obtain ⟨t, ht, _⟩ := keeps_exec i s
  exact ⟨t, ht⟩

/-- Settles O1: by the definition of `step`. -/
theorem stepRunsFrontCommand : Obligations.StepRunsFrontCommand := step_cons

/-! The idle step (21 R566, R569). -/

/-- With no closing under way there is none to advance. -/
theorem closeAdvance_of_none {s : State} (hd : s.detaches = []) : closeAdvance s = s := by
  simp only [closeAdvance, hd, List.foldl_nil]

/-- What a nanosecond does to the clocks: Device Time runs on VMAIN, the RTC on its crystal. -/
def nanosecond (p : Power) (c : Clock) : Clock :=
  let d := if p.vmain then deviceTick c else c
  if d.xtal && p.st != .off then rtcTick d else d

theorem idleTick_eq (s : State) : idleTick s = closeAdvance (s.onClock (nanosecond s.power)) := by
  unfold idleTick nanosecond
  refine congrArg closeAdvance ?_
  cases s.power.vmain
  case false =>
    change (if s.clock.xtal && s.power.st != .off then s.onClock rtcTick else s) =
      s.onClock (fun c => if c.xtal && s.power.st != .off then rtcTick c else c)
    simp only [State.onClock]
    split <;> rfl
  case true =>
    change (if (deviceTick s.clock).xtal && s.power.st != .off then (s.onClock deviceTick).onClock rtcTick else s.onClock deviceTick) =
      s.onClock (fun c => if (deviceTick c).xtal && s.power.st != .off then rtcTick (deviceTick c) else deviceTick c)
    simp only [State.onClock]
    split <;> rfl

theorem idleTick_of_none {s : State} (hd : s.detaches = []) : idleTick s = s.onClock (nanosecond s.power) :=
  (idleTick_eq s).trans (closeAdvance_of_none hd)

/-- Without VMAIN and without the crystal no clock runs. -/
theorem nanosecond_of_still {p : Power} {c : Clock} (hv : p.vmain = false) (hx : c.xtal = false) : nanosecond p c = c := by
  simp [nanosecond, hv, hx]

/-- Settles O2: without a closing the idle step is that of the clocks alone. -/
theorem emptyQueueTicks : Obligations.EmptyQueueTicks := by
  intro s hq
  refine ⟨step_of_empty hq, fun hd t ht => ?_, fun hd hv hx => ?_⟩
  · cases (step_of_empty hq).symm.trans ht
    rw [idleTick_of_none hd]
    rfl
  · rw [step_of_empty hq, idleTick_of_none hd, State.onClock, nanosecond_of_still hv hx]

/-! The machine after reset (17 R456, 22 R604). -/

/-- Settles O3: every table is empty, and every unlisted entry is as at reset. -/
theorem resetHolds : Obligations.ResetHolds :=
  ⟨rfl, fun _ => ⟨rfl, rfl⟩, fun _ => rfl, fun _ => ⟨rfl, fun _ => rfl⟩, fun _ => ⟨rfl, rfl, rfl⟩, fun _ => rfl, fun _ => rfl,
    rfl, rfl, rfl⟩

/-- Settles O7: every memory is empty. -/
theorem resetMemoriesCanonical : Obligations.ResetMemoriesCanonical := ⟨rfl, rfl, rfl⟩

end Sys2Proof.Proofs
end

section
/-! PROOFS. Proofs/CompletionFrame.lean: what the completion of a booth command leaves unchanged, and the statement O54. -/

namespace Sys2Proof.Proofs

open Machine Safety

/-- From the first state to the second nothing changes but one function, what the device sends and the host port. -/
structure OnlyFn (fn : Nat) (s t : State) : Prop where
  rest : { t with fns := s.fns, out := s.out, host := s.host } = s
  others : ∀ g, g ≠ fn → t.fn g = s.fn g

theorem OnlyFn.refl (fn : Nat) (s : State) : OnlyFn fn s s := ⟨rfl, fun _ _ => rfl⟩

theorem OnlyFn.trans {fn : Nat} {s t u : State} (h : OnlyFn fn s t) (k : OnlyFn fn t u) : OnlyFn fn s u where
  rest := by
    have hu := congrArg (fun x : State => { x with fns := s.fns, out := s.out, host := s.host }) k.rest
    exact hu.trans h.rest
  others g hg := (k.others g hg).trans (h.others g hg)

/-- A field that is neither a function's, nor sent, nor the host port's. -/
theorem OnlyFn.field {α : Type} {fn : Nat} {s t : State} (h : OnlyFn fn s t) (p : State → α)
    (hp : ∀ fns host out, p { t with fns := fns, out := out, host := host } = p t) : p t = p s :=
  (hp s.fns s.host s.out).symm.trans (congrArg p h.rest)

theorem OnlyFn.ite {fn : Nat} {s t u : State} {c : Prop} [Decidable c] (h : OnlyFn fn s t) (k : OnlyFn fn s u) :
    OnlyFn fn s (if c then t else u) := by
  split <;> assumption

theorem OnlyFn.foldl {α : Type} {fn : Nat} {f : State → α → State} (hf : ∀ s x, OnlyFn fn s (f s x)) (l : List α) (s : State) :
    OnlyFn fn s (l.foldl f s) := by
  induction l generalizing s with
  | nil => exact OnlyFn.refl fn s
  | cons x l ih => exact (hf s x).trans (ih (f s x))

/-! The operations a completion is made of. -/

theorem onlyFn_onFn (s : State) (fn : Nat) (f : Fn → Fn) : OnlyFn fn s (s.onFn fn f) where
  rest := rfl
  others g hg := by simp only [State.fn, State.onFn_fns, tgetD_tupd, if_neg hg]

theorem onlyFn_onBooth (s : State) (fn : Nat) (f : Booth → Booth) : OnlyFn fn s (s.onBooth fn f) := onlyFn_onFn s fn _

theorem onlyFn_onHost (fn : Nat) (s : State) (f : HostPort → HostPort) : OnlyFn fn s (s.onHost f) := ⟨rfl, fun _ _ => rfl⟩

theorem onlyFn_send (fn : Nat) (s : State) (o : Out) : OnlyFn fn s (s.send o) :=
  OnlyFn.ite (OnlyFn.refl fn s) ⟨rfl, fun _ _ => rfl⟩

theorem onlyFn_holdPost (fn : Nat) (s : State) (p : HeldPost) (ask : Bool) : OnlyFn fn s (holdPost s p ask) :=
  have held := onlyFn_onHost fn s (fun h => { h with heldPosts := h.heldPosts ++ [p] })
  OnlyFn.ite (held.trans (onlyFn_send fn _ _)) held

theorem onlyFn_hostPost (fn : Nat) (s : State) (g : Nat) (pasid : Option Nat) (addr : Nat) (data : List Byte) (ro isEvent : Bool) :
    OnlyFn fn s (hostPost s g pasid addr data ro isEvent) :=
  OnlyFn.ite (OnlyFn.refl fn s) (OnlyFn.ite (onlyFn_send fn s _) (onlyFn_holdPost fn s _ _))

theorem onlyFn_msixSend (s : State) (fn v : Nat) : OnlyFn fn s (msixSend s fn v) :=
  (OnlyFn.ite (onlyFn_send fn s _) (onlyFn_holdPost fn s _ _)).trans (onlyFn_onFn _ fn _)

theorem onlyFn_msixRaise (s : State) (fn v : Nat) : OnlyFn fn s (msixRaise s fn v) :=
  OnlyFn.ite (OnlyFn.refl fn s) (OnlyFn.ite (onlyFn_onFn s fn _) (OnlyFn.ite (onlyFn_onFn s fn _) (onlyFn_msixSend s fn v)))

theorem onlyFn_writeRecord (s : State) (fn : Nat) (rcd : List Byte) (signal : Bool) :
    OnlyFn fn s (writeRecord s fn rcd signal) :=
  have written := (onlyFn_hostPost fn s fn _ _ _ _ _).trans (onlyFn_onBooth _ fn _)
  OnlyFn.ite (written.trans (onlyFn_msixRaise _ fn _)) written

theorem onlyFn_endOne (s : State) (fn : Nat) (c : OutCmd) (st : Status) (r : Report) : OnlyFn fn s (endOne s fn c st r) :=
  have out := onlyFn_onBooth s fn (fun b => { b with outst := b.outst.filter (fun x => x.id != c.id) })
  have counted := out.trans (onlyFn_onBooth _ fn (fun b => { b with done := b.done ++ [c.id] }))
  OnlyFn.ite (OnlyFn.refl fn s) (OnlyFn.ite out
    (OnlyFn.ite (counted.trans (onlyFn_onBooth _ fn _)) (counted.trans (onlyFn_writeRecord _ fn _ _))))

theorem onlyFn_finish (s : State) (fn id : Nat) (st : Status) (r : Report) : OnlyFn fn s (finish s fn id st r) := by
  unfold finish
  split
  case h_1 => exact OnlyFn.refl fn s
  case h_2 c _ => exact (onlyFn_endOne s fn c st r).trans (OnlyFn.foldl (fun u k => onlyFn_endOne u fn k _ {}) _ _)

/-- Settles O54: the next state is the completion of the effect, which touches the command's function alone. -/
theorem completionFrame : Obligations.CompletionFrame := by
  intro i h s e t r hc ht
  cases hc.symm.trans ht
  have frame := onlyFn_finish e h.fn h.id .ok { result := r }
  exact ⟨frame.rest, frame.others, frame.field State.mem (fun _ _ _ => rfl), frame.field State.cfg (fun _ _ _ => rfl)⟩

end Sys2Proof.Proofs
end

section
/-! PROOFS. Proofs/Jtag.lean: the JTAG instructions, each by the way it loads its opcode (23 R620, R621); the statements O49
and O55. -/

namespace Sys2Proof.Proofs

open Machine

theorem jtagLoad_of_powered {s : State} (hv : s.power.vmain = true) (op : Nat) : jtagLoad s op = jtagFree s op := if_pos hv

theorem jtagRestricted_of_reset {s : State} (hv : s.power.vmain = true) (hp : s.power.perst = true) (op : Nat) :
    jtagRestricted s op = s.onTest (fun t => { t with ir := op, restricted := true }) := by
  simp [jtagRestricted, hv, hp]

theorem exec_hbm1500_of_reset {s : State} (hv : s.power.vmain = true) (hp : s.power.perst = true) (stack : Nat) :
    exec (.hbm1500 stack) s = .next
      ((draw (s.onTest (fun t => { t with ir := 0x20, restricted := true, hbmStack := stack % 2 }))).2.onMem
        (fun m => { m with spoiled := tset m.spoiled (stack % 2) s.draws })) := by
  change execHbm1500 stack s = _
  unfold execHbm1500
  rw [jtagRestricted_of_reset hv hp, hv, hp]
  rfl

/-- The machine has changed in nothing but its test logic. -/
def onlyTest (s t : State) : Prop := { t with test := s.test } = s

/-- An unrestricted instruction changes the test logic alone where no boot waits for it. -/
theorem onlyTest_jtagFree {s : State} (hb : s.test.bootWaits = false) (op : Nat) : onlyTest s (jtagFree s op) := by
  have still : jtagFree s op = s.onTest (fun t => { t with ir := op, restricted := false }) :=
    if_neg (Bool.eq_false_iff.mp hb)
  rw [still]
  rfl

theorem onlyTest_jtagLoad {s : State} (hb : s.test.bootWaits = false) (op : Nat) : onlyTest s (jtagLoad s op) := by
  unfold jtagLoad
  split
  · exact onlyTest_jtagFree hb op
  · rfl

theorem onlyTest_jtagRestricted (s : State) (op : Nat) : onlyTest s (jtagRestricted s op) := by
  unfold jtagRestricted
  split
  · rfl
  · split <;> rfl

/-- The frame of an instruction is that of the state it answers. -/
theorem onlyTest_of_next {s t u : State} (hu : onlyTest s u)
    (h : (.next u : Host.Outcome State Fault Refusal) = .next t) : onlyTest s t := by
  cases h
  exact hu

/-- Settles O55: where no boot waits, loading an instruction touches the test logic alone. -/
theorem jtagFrame : Obligations.JtagFrame := by
  intro s t hb
  refine ⟨?samplePreload, ?bypass, ?tapReset, ?extest, ?highz, ?clamp, ?extestPulse, ?extestTrain⟩
  case samplePreload => exact onlyTest_of_next (onlyTest_jtagLoad hb 0x02)
  case bypass => exact onlyTest_of_next (onlyTest_jtagLoad hb 0xFF)
  case tapReset => exact onlyTest_of_next (onlyTest_jtagLoad hb 0x01)
  case extest => exact onlyTest_of_next (onlyTest_jtagRestricted s 0x03)
  case highz => exact onlyTest_of_next (onlyTest_jtagRestricted s 0x04)
  case clamp => exact onlyTest_of_next (onlyTest_jtagRestricted s 0x05)
  case extestPulse => exact onlyTest_of_next (onlyTest_jtagRestricted s 0x06)
  case extestTrain => exact onlyTest_of_next (onlyTest_jtagRestricted s 0x07)

/-- Settles O49: an unrestricted instruction is loaded on VMAIN, a restricted one during a reset; IDCODE, ATB_JTAG and
HBM_1500 go on from there. -/
theorem jtagInstructions : Obligations.JtagInstructions := by
  intro s
  refine ⟨?samplePreload, ?bypass, ?tapReset, ?idcode, ?atbJtag, ?extest, ?highz, ?clamp, ?extestPulse, ?extestTrain, ?hbm1500⟩
  case samplePreload => exact fun hv => congrArg _ (jtagLoad_of_powered hv 0x02)
  case bypass => exact fun hv => congrArg _ (jtagLoad_of_powered hv 0xFF)
  case tapReset => exact fun hv => congrArg _ (if_pos hv)
  case idcode =>
    intro hv
    refine congrArg _ ((if_pos hv).trans ?_)
    rw [jtagLoad_of_powered hv]
  case atbJtag =>
    intro v hv
    refine congrArg _ ((if_pos hv).trans ?_)
    rw [jtagLoad_of_powered hv]
  case extest => exact fun hv hp => congrArg _ (jtagRestricted_of_reset hv hp 0x03)
  case highz => exact fun hv hp => congrArg _ (jtagRestricted_of_reset hv hp 0x04)
  case clamp => exact fun hv hp => congrArg _ (jtagRestricted_of_reset hv hp 0x05)
  case extestPulse => exact fun hv hp => congrArg _ (jtagRestricted_of_reset hv hp 0x06)
  case extestTrain => exact fun hv hp => congrArg _ (jtagRestricted_of_reset hv hp 0x07)
  case hbm1500 => exact fun stack hv hp => exec_hbm1500_of_reset hv hp stack

end Sys2Proof.Proofs
end

section
/-! PROOFS. Proofs/BoothCommands.lean: how a handed command that breaks none of its checks ends, by what its effect comes to
(18 R493 to R497, 19 R501, R504). -/

namespace Sys2Proof.Proofs

open Machine Safety

section
variable {i : Instr} {ci : CmdInfo} {h : Hdr} {ch : State → List (Bool × Status)} {eff : State → Applied} {s e : State}

/-- The effect ends at once and OK: the command completes. -/
theorem completes_of_done {r : List Byte} (hx : exec i s = boothStep ci h ch eff s) (hh : handed s h ci.group ci.code)
    (hc : allClear (ch s)) (hep : ci.ep = .none_) (he : eff (applied s h) = .done e .ok r) : completes i h s e r := by
  unfold completes
  rw [hx, boothStep_clear ci h ch eff s hh hc (busyEpoch_none s ci h hep), he]

/-- The command's whole effect is the block it writes, and the block fits. -/
theorem completes_of_writeOut {blk : OutBlk} {d : List Byte} (hx : exec i s = boothStep ci h ch eff s)
    (hh : handed s h ci.group ci.code) (hc : allClear (ch s)) (hep : ci.ep = .none_)
    (he : eff (applied s h) = writeOut h blk d (applied s h)) (hl : d.length ≤ blk.len) :
    completes i h s (wrote (applied s h) h blk.addr d) (le 4 d.length) :=
  completes_of_done hx hh hc hep (he.trans (writeOut_fits h blk d (applied s h) hl))

/-- The command writes a block that fits, and may clear what the block reports. -/
theorem completes_of_statsDone {blk : OutBlk} {d : List Byte} {clear : Bool} {f : State → State}
    (hx : exec i s = boothStep ci h ch eff s) (hh : handed s h ci.group ci.code) (hc : allClear (ch s)) (hep : ci.ep = .none_)
    (he : eff (applied s h) = statsDone (writeOut h blk d (applied s h)) clear f) (hl : d.length ≤ blk.len) :
    completes i h s (if clear then f (wrote (applied s h) h blk.addr d) else wrote (applied s h) h blk.addr d) (le 4 d.length) := by
  rw [writeOut_fits h blk d (applied s h) hl] at he
  exact completes_of_done hx hh hc hep he

/-- The effect commits an epoch of the command's partition. -/
theorem commits_of_epoch {p : Nat} {r : List Byte} (hx : exec i s = boothStep ci h ch eff s) (hh : handed s h ci.group ci.code)
    (hc : allClear (ch s)) (hep : ci.ep = .part) (hf : epochFree s h) (he : eff (applied s h) = .epoch e p r) :
    commits i h s e p r := by
  unfold commits
  rw [hx, boothStep_clear ci h ch eff s hh hc (busyEpoch_part s ci h hep hf), he]

/-- The effect is a device-wide change. -/
theorem commitsAll_of_device (hx : exec i s = boothStep ci h ch eff s) (hh : handed s h ci.group ci.code)
    (hc : allClear (ch s)) (hep : ci.ep = .dev) (hf : allFree s) (he : eff (applied s h) = .device e) : commitsAll i h s e := by
  unfold commitsAll
  rw [hx, boothStep_clear ci h ch eff s hh hc (busyEpoch_dev s ci h hep hf), he]

/-- The command stays outstanding after its effect. -/
theorem exec_of_long (hx : exec i s = boothStep ci h ch eff s) (hh : handed s h ci.group ci.code)
    (hc : allClear (ch s)) (hb : busyEpoch s ci h = false) (he : eff (applied s h) = .long e) : exec i s = .next e := by
  rw [hx, boothStep_clear ci h ch eff s hh hc hb, he]

end

/-! Lists of checks (19 R504). -/

theorem allClear_nil : allClear [] := List.forall_mem_nil _

theorem allClear_cons {b : Bool} {st : Status} {l : List (Bool × Status)} (hb : b = false) (hl : allClear l) :
    allClear ((b, st) :: l) := List.forall_mem_cons.mpr ⟨hb, hl⟩

theorem allClear_append {k l : List (Bool × Status)} (hk : allClear k) (hl : allClear l) : allClear (k ++ l) :=
  List.forall_mem_append.mpr ⟨hk, hl⟩

theorem allClear_one {b : Bool} {st : Status} (hb : b = false) : allClear [(b, st)] := allClear_cons hb allClear_nil

/-! Marking a command as applied. -/

@[simp] theorem applied_fixedMode (s : State) (h : Hdr) : (applied s h).fixedMode = s.fixedMode := rfl
@[simp] theorem applied_sess (s : State) (h : Hdr) : (applied s h).sess = s.sess := rfl
@[simp] theorem applied_cipher (s : State) (h : Hdr) : (applied s h).cipher = s.cipher := rfl
@[simp] theorem applied_acts (s : State) (h : Hdr) : (applied s h).acts = s.acts := rfl
@[simp] theorem applied_press (s : State) (h : Hdr) : (applied s h).press = s.press := rfl
@[simp] theorem applied_cfg (s : State) (h : Hdr) : (applied s h).cfg = s.cfg := rfl

@[simp] theorem statsBlock_applied (s : State) (h : Hdr) (n : Nat) (c m : List Nat) :
    statsBlock (applied s h) n c m = statsBlock s n c m := rfl
@[simp] theorem tumblersOf_applied (s : State) (h : Hdr) (c : Cfg) (p : Nat) : tumblersOf (applied s h) c p = tumblersOf s c p := rfl

/-- The number of commands a booth has outstanding does not change when one is marked. -/
theorem outst_length_applied (s : State) (h : Hdr) :
    ((applied s h).fn h.fn).booth.outst.length = (s.fn h.fn).booth.outst.length := by
  simp [applied, markCmd, State.fn]

/-- A command other than the one handed has another number. -/
theorem id_ne_of_handed {s : State} {h : Hdr} {g k : Nat} (hh : handed s h g k) {target : Nat} {c : OutCmd}
    (hc : outCmd s h.fn target = some c) (hd : ¬ (c.group = g ∧ c.code = k)) : target ≠ h.id := by
  rintro rfl
  obtain ⟨d, hd', hg, hk, _⟩ := hh
  cases hc.symm.trans hd'
  exact hd ⟨hg, hk⟩

end Sys2Proof.Proofs
end

section
/-! PROOFS. Proofs/GeneralAndEpochCommands.lean: the commands of the GENERAL and EPOCH groups, and the statement O12. -/

namespace Sys2Proof.Proofs

open Machine Safety

theorem ledgerInfo_row (fn : Nat) : (ledgerInfo fn).group = 4 ∧ (ledgerInfo fn).code = 3 ∧ (ledgerInfo fn).ep = .none_ := by
  unfold ledgerInfo
  split <;> exact ⟨rfl, rfl, rfl⟩

/-- LEDGER_AUDIT of every index of a kind writes the records of the ledgers that the function may see (02 R51). -/
theorem completes_ledgerAudit_all {s : State} {h : Hdr} {blk : OutBlk} {kind : Nat} {l : List Audit} {d : List Byte}
    (hh : handed s h 4 3) (hk : kind ≤ 8) (hf : h.fn ≠ 0 → kind ≠ 1 ∧ kind ≠ 7)
    (hl : l = (auditsNamed (applied s h) kind 0xFFFF).filter (mayAudit (applied s h) h))
    (hd : d = l.flatMap (auditRecord (applied s h))) (hlen : d.length ≤ blk.len) :
    completes (.ledgerAudit h blk kind 0xFFFF) h s (wrote (applied s h) h blk.addr d) (le 4 d.length ++ le 4 l.length) := by
  obtain ⟨hg, hc, hep⟩ := ledgerInfo_row h.fn
  rw [← hg, ← hc] at hh
  have allowed : (h.fn != 0 && (kind == 1 || kind == 7)) = false := by
    by_cases h0 : h.fn = 0
    · simp [h0]
    · simp [hf h0]
  refine completes_of_done rfl hh (allClear_cons (decide_eq_false (Nat.not_lt.mpr hk)) (allClear_cons allowed
    (allClear_cons rfl (allClear_one rfl)))) hep ?_
  subst hl hd
  dsimp only
  rw [writeOut_fits h blk _ (applied s h) hlen]

/-- Settles O12: each command ends by the lemma about what its effect comes to; LEDGER_AUDIT has its own. -/
theorem generalAndEpochCommands : Obligations.GeneralAndEpochCommands := by
  intro s h
  refine ⟨?nop, ?cancel, ?boothInfo, ?holdoff, ?epochInfo, ?waitOver, ?waits, ?audit⟩
  case nop => exact fun hh => completes_of_done rfl hh allClear_nil rfl rfl
  case cancel =>
    intro target c hh ht hc ha
    have stands : outCmd (applied s h) h.fn target = some c := (outCmd_applied s h target (id_ne_of_handed hh ht hc)).trans ht
    refine completes_of_done rfl hh ?_ rfl ?_
    · simp only [ht]
      exact allClear_one (by simpa using hc)
    · simp only [stands]
  case boothInfo =>
    intro hh
    refine completes_of_done rfl hh allClear_nil rfl ?_
    simp only [outst_length_applied]
    simp [applied, markCmd, State.fn]
  case holdoff =>
    intro v us hh hv hu
    exact completes_of_done rfl hh (allClear_one (by simp [hv, hu])) rfl rfl
  case epochInfo => exact fun hh => completes_of_done rfl hh allClear_nil rfl rfl
  case waitOver => exact fun _ hh hn hw => completes_of_done rfl hh (allClear_one hn) rfl (if_pos hw)
  case waits => exact fun _ hh hn hw => exec_of_long rfl hh (allClear_one hn) rfl (if_neg (Bool.eq_false_iff.mp hw))
  case audit => exact fun _ _ hh hk hf hl => completes_ledgerAudit_all hh hk hf rfl rfl hl

end Sys2Proof.Proofs
end

section
/-! PROOFS. Proofs/PartitionCommands.lean: the commands of the PARTITION group, and the statement O13. -/

namespace Sys2Proof.Proofs

open Machine Safety

theorem choose16_of_lt {n : Nat} (hn : n < 0xFFFF) : choose16 n = false := by
  simp [choose16]
  omega

/-- A creation that names its number gets it. -/
theorem pickNumber_of_lt {α : Type} {n : Nat} (hn : n < 0xFFFF) (t : Tbl α) (fixed : Bool) (p perPart pool : Nat) :
    pickNumber t fixed p perPart pool n = some n := by
  simp [pickNumber, choose16_of_lt hn]

/-- A resize whose shrinks may begin starts with them (17 R465, R467). -/
theorem exec_partitionSharesSet_of_free {s : State} {h : Hdr} {m : List Nat} {r : Resize} (hh : handed s h 2 1)
    (hr : r = { fn := h.fn, id := h.id, stage := .shrink, moves := mapMoves s m, cancelled := false })
    (hm : s.fixedMode = false) (hl : m.length = 256) (hb : ∀ b ∈ m, b ≤ 15 ∨ b = 255) (hn : s.resize = none)
    (hj : tany s.press.jobs (fun _ j => (resizeParts r).contains j.arm.partition) = false)
    (he : ∀ p ∈ resizeParts r, twoEpochs s p = false)
    (hs : (losers r).findSome? (fun p => shrinkFault (applied s h) p (leavingOf r p)) = none) :
    exec (.partitionSharesSet h (some m)) s =
      .next ((resizeParts r).foldl shareResize ((losers r).foldl (shrinkCommit r) { applied s h with resize := some r })) := by
  subst hr
  have shape : (m.length != 256 || m.any (fun b => 15 < b && b != 255)) = false := by
    simp only [hl, bne_self_eq_false, Bool.false_or, List.any_eq_false]
    intro b hm
    rcases hb b hm with hb | hb
    · simp [Nat.not_lt.mpr hb]
    · simp [hb]
  refine exec_of_long rfl hh (allClear_cons hm (allClear_cons rfl (allClear_cons shape (allClear_cons ?_ (allClear_one ?_)))))
    (busyEpoch_resize s _ h rfl) ?_
  · rw [hn]; exact hj
  · simpa using he
  · have moves : mapMoves (applied s h) ((some m).getD []) = mapMoves s m := rfl
    simp only [moves, hs]

/-- Settles O13: each command ends by the lemma about what its effect comes to. -/
theorem partitionCommands : Obligations.PartitionCommands := by
  intro s h
  refine ⟨?shares, ?info, ?priority, ?window, ?aperture, ?apertureOff, ?timeout, ?release⟩
  case shares => exact fun _ hh hm hl hb hn hj he hs => exec_partitionSharesSet_of_free hh rfl hm hl hb hn hj he hs
  case info => exact fun blk hh hl => completes_of_writeOut rfl hh allClear_nil rfl rfl hl
  case priority =>
    intro l hh hf hl hb
    refine commitsAll_of_device rfl hh (allClear_cons rfl (allClear_one ?_)) rfl hf rfl
    simpa [hl] using hb
  case window =>
    intro n w old hh hf hn hv ho hov hop hm hb hw
    have pick : pickNumber s.cfg.own.windows false 0 0 4096 n = some n := pickNumber_of_lt (by omega) _ _ _ _ _
    refine commits_of_epoch rfl hh ?_ rfl hf ?_
    · have range : (!choose16 n && decide (4096 ≤ n)) = false := by simp [hn]
      have named : (pickNumber s.cfg.own.windows false 0 0 4096 n).getD 0 = n := by rw [pick]; rfl
      dsimp only
      rw [named]
      refine allClear_append (allClear_cons range (allClear_cons ?_ (allClear_cons ?_ (allClear_cons ?_ (allClear_one ?_))))) ?_
      · rw [pick]; rfl
      · simp [ho, hm]
      · simp [hb]
      · simp [hw]
      · simpa [ho, hov, hop] using allClear_nil
    · simp [pick, hv]
  case aperture =>
    intro vf base entry hh hf h0 hv hp he hb hr
    refine commits_of_epoch rfl hh ?_ rfl hf ?_
    · exact allClear_cons (by simp [h0]) (allClear_cons (by simp [hv, hp]) (allClear_cons (by simp [he])
        (allClear_one (by simp [hb, hr]))))
    · simp [h0]
  case apertureOff =>
    intro base entry hh hf h0 he
    refine commits_of_epoch rfl hh ?_ rfl hf ?_
    · exact allClear_cons (by simp) (allClear_cons (by simp [h0]) (allClear_cons (by simp [he])
        (allClear_one rfl)))
    · simp [h0]
  case timeout => exact fun us hh hl hu => completes_of_done rfl hh (allClear_one (by simp [hl, hu])) rfl rfl
  case release => exact fun island hh hi hq hn =>
    completes_of_done rfl hh (allClear_cons (by simp [hi, hq]) (allClear_cons (by simp [hn]) (allClear_one rfl))) rfl rfl

end Sys2Proof.Proofs
end

section
/-! PROOFS. Proofs/TenantCommands.lean: the commands of the TENANT group, and the statement O14. -/

namespace Sys2Proof.Proofs

open Machine Safety

/-- Settles O14: each command ends by the lemma about what its effect comes to. -/
theorem tenantCommands : Obligations.TenantCommands := by
  intro s h
  refine ⟨?attach, ?detach, ?limits, ?memory⟩
  case attach =>
    intro vf addr hh hv ha hn hd hm hi
    refine completes_of_done rfl hh (allClear_cons ?_ (allClear_cons hn (allClear_cons rfl (allClear_cons rfl
      (allClear_cons ?_ (allClear_one ?_)))))) rfl rfl
    · simp [vfBad, hv, ha]
    · simp [hd, hm]
    · simp [hi]
  case detach =>
    intro vf hh hv ha hd
    exact exec_of_long rfl hh (allClear_cons (by simp [vfBad, hv]) (allClear_one (by simp [ha, hd]))) rfl rfl
  case limits =>
    intro vf code cap hh hv hc hn
    refine completes_of_done rfl hh (allClear_one (by simp [vfBad, hv, hc])) rfl ?_
    simp [hn]
  case memory =>
    intro first count tenant hh hf h0 ht hc ho
    have mine : ((List.range count).map (fun g => g + first)).any (fun g => unitOwner s s.cfg g != hp h) = false := by
      simp only [List.any_map, List.any_eq_false, List.mem_range, Function.comp, bne_iff_ne, not_not]
      exact fun g hg => ho (g + first) (by omega) (by omega)
    refine commits_of_epoch rfl hh (allClear_one ?_) rfl hf ?_
    · simpa [ht, hc] using mine
    · simp [Nat.pos_iff_ne_zero.mp h0]

end Sys2Proof.Proofs
end

section
/-! PROOFS. Proofs/SessionCommands.lean: the commands of the SESSION group, and the statement O15. -/

namespace Sys2Proof.Proofs

open Machine Safety

/-- A number of a range, or the one that asks the device to choose, is no bad number. -/
theorem not_choose16_and_of_lt {n k : Nat} (hn : n = 0xFFFF ∨ n < k) : (!choose16 n && decide (k ≤ n)) = false := by
  rcases hn with rfl | hn
  · rfl
  · rw [decide_eq_false (Nat.not_le.mpr hn), Bool.and_false]

/-- A number that is free, and the partition's own in fixed mode, is not taken. -/
theorem not_taken {used fixed : Bool} {owner p : Nat} (hu : used = false) (hf : fixed = true → owner = p) :
    (used || (fixed && owner != p)) = false := by
  subst hu
  cases fixed
  · rfl
  · simp [hf]

/-- Settles O15: what is left of each command is that its checks are clear and that its number is the one picked. -/
theorem sessionCommands : Obligations.SessionCommands := by
  intro s h
  refine ⟨?open_, ?modify, ?close, ?stats, ?feedBind, ?returnBind, ?feedReset, ?returnReset, ?feedUnbind, ?returnUnbind, ?seed⟩
  case open_ =>
    intro n k b hh hf hn hb hp hu hk hr hc hy hx
    refine commits_of_epoch rfl hh ?_ rfl hf ?_
    · exact allClear_append (allClear_append (allClear_append (allClear_append
        (allClear_cons (not_choose16_and_of_lt hn) (allClear_cons rfl (allClear_cons hb
          (allClear_one (by simp only [hp]; exact not_taken hu hk))))) hr)
        (allClear_one (decide_eq_false (Nat.not_lt.mpr hc)))) hy) (allClear_one hx)
    · simp only [applied_sess, applied_fixedMode, hp]
      rfl
  case modify =>
    intro n c b hh hf hn hc hb hx hk hi
    have old : (tget s.cfg.sess.sessions n).map (·.blk) = some c.blk := by rw [hc]; rfl
    refine commits_of_epoch rfl hh ?_ rfl hf ?_
    · dsimp only
      rw [old]
      exact allClear_append (allClear_append (allClear_append hn (allClear_cons rfl (allClear_cons hb
        (allClear_one (by simp [hx]))))) hk) (allClear_one hi)
    · simp [hc]
  case close => exact fun _ hh hf hn => commits_of_epoch rfl hh hn rfl hf rfl
  case stats =>
    intro n x blk hh hn hx d hl
    refine completes_of_writeOut rfl hh hn rfl ?_ hl
    simp [hx, d]
  case feedBind =>
    intro r k hh hf hb hn hp hu hk hr hd
    refine commits_of_epoch rfl hh ?_ rfl hf ?_
    · exact allClear_append (allClear_append (allClear_cons (by simp [hb, not_choose16_and_of_lt hn])
        (allClear_one (by simp only [hp]; exact not_taken hu hk))) hr) (allClear_one hd)
    · simp [hp]
  case returnBind =>
    intro r k binding hh hf hb hn hp hu hk hr hd hx ⟨x, hg, ht⟩
    refine commits_of_epoch rfl hh ?_ rfl hf ?_
    · exact allClear_append (allClear_append (allClear_cons (by simp [hb, not_choose16_and_of_lt hn])
        (allClear_cons (by simp [hg, hx, ht]) (allClear_one (by simp only [hp]; exact not_taken hu hk)))) hr) (allClear_one hd)
    · simp [hp]
  case feedReset =>
    intro n c f hh hf hn hc hx
    refine commits_of_epoch rfl hh hn rfl hf ?_
    simp [hc, hx]
  case returnReset =>
    intro n c hh hf hn hc
    refine commits_of_epoch rfl hh hn rfl hf ?_
    simp [hc]
  case feedUnbind => exact fun _ hh hf hn => commits_of_epoch rfl hh hn rfl hf rfl
  case returnUnbind => exact fun _ hh hf hn => commits_of_epoch rfl hh hn rfl hf rfl
  case seed => exact fun _ hh hf => commits_of_epoch rfl hh allClear_nil rfl hf rfl

end Sys2Proof.Proofs
end

section
/-! PROOFS. Proofs/KeyCommands.lean: the commands of the KEY group, and the statement O16. -/

namespace Sys2Proof.Proofs

open Machine Safety

/-- Settles O16: what is left of each command is that its checks are clear. -/
theorem keyCommands : Obligations.KeyCommands := by
  intro s h
  refine ⟨?load, ?info, ?infoEmpty, ?destroy, ?selftest⟩
  case load =>
    intro slot n b hh hs hz ht hk hm hp hu hr
    have number : slot = 0xFFFF ∨ slot < 32768 := hs.imp_right And.left
    have mine : (!choose16 slot && slotDenied s h slot) = false := by
      rcases hs with rfl | ⟨_, hd⟩
      · rfl
      · rw [hd, Bool.and_false]
    refine completes_of_done rfl hh ?_ rfl ?_
    · exact allClear_append (allClear_cons (not_choose16_and_of_lt number) (allClear_cons rfl (allClear_cons (by simp [hz])
        (allClear_cons (by simp [ht]) (allClear_cons mine (allClear_cons (by simp [hk]) (allClear_cons (by simp [hm])
        (allClear_cons (by simp [hp, hu]) (allClear_one (by simp [hp])))))))))) hr
    · simp [hp]
  case info =>
    intro slot k hh hs hd hk hl
    refine completes_of_done rfl hh (allClear_cons (decide_eq_false (Nat.not_le.mpr hs)) (allClear_one hd)) rfl ?_
    simp [hk, hl]
  case infoEmpty =>
    intro slot hh hs hd hk
    refine completes_of_done rfl hh (allClear_cons (decide_eq_false (Nat.not_le.mpr hs)) (allClear_one hd)) rfl ?_
    simp [hk]
  case destroy =>
    intro slot k hh hs hd hk hl hb
    exact completes_of_done rfl hh (allClear_cons (decide_eq_false (Nat.not_le.mpr hs)) (allClear_cons hd
      (allClear_cons (by simp [hk, hl]) (allClear_one (by simp [hb]))))) rfl rfl
  case selftest => exact fun hh => completes_of_done rfl hh allClear_nil rfl rfl

end Sys2Proof.Proofs
end

section
/-! PROOFS. Proofs/ActCommands.lean: the commands of the ACT group, and the statement O17. -/

namespace Sys2Proof.Proofs

open Machine Safety

/-- Settles O17: the checks are given clear; ACT_LOAD and ACT_UNLOAD find their image and their act. -/
theorem actCommands : Obligations.ActCommands := by
  intro s h
  refine ⟨?load, ?unload, ?bind, ?rebind, ?unbind, ?timer, ?doorbell, ?stats⟩
  case load =>
    intro act image g k hh hc hi hp hu hb
    refine completes_of_done rfl hh hc rfl ?_
    simp [hi, hp, hu, hb]
  case unload =>
    intro act a hh hc ha
    refine completes_of_done rfl hh hc rfl ?_
    simp [ha]
  case bind => exact fun _ hh hf hc => commits_of_epoch rfl hh hc rfl hf rfl
  case rebind => exact fun _ hh hf hc => commits_of_epoch rfl hh hc rfl hf rfl
  case unbind => exact fun _ hh hf hc => commits_of_epoch rfl hh hc rfl hf rfl
  case timer => exact fun _ _ _ _ hh hf hc => commits_of_epoch rfl hh hc rfl hf rfl
  case doorbell => exact fun _ _ hh hf hc => commits_of_epoch rfl hh hc rfl hf rfl
  case stats =>
    intro n clear blk hh hc x d hl
    exact completes_of_statsDone (f := fun s => s.onStat (64 * hp h + n) (fun x => { x with hwCycles := 0 })) rfl hh hc rfl rfl hl

end Sys2Proof.Proofs
end

section
/-! PROOFS. Proofs/NetworkConfigCommands.lean: the commands of the NETWORK group that configure ports, rings, rules and
queues, and the statement O18. -/

namespace Sys2Proof.Proofs

open Machine Safety

/-- Settles O18: the checks are given clear, and each effect is a commit by definition. -/
theorem networkConfigCommands : Obligations.NetworkConfigCommands := by
  intro s h
  refine ⟨?portMode, ?portConfig, ?vlan, ?mac, ?ringCreate, ?ringDestroy, ?rule, ?txqCreate, ?txqDestroy, ?gdpPort⟩
  case portMode => exact fun _ _ hh hf hc => commitsAll_of_device rfl hh hc rfl hf rfl
  case portConfig => exact fun _ hh hf hc => commitsAll_of_device rfl hh hc rfl hf rfl
  case vlan => exact fun _ _ _ hh hf hc => commitsAll_of_device rfl hh hc rfl hf rfl
  case mac => exact fun _ _ _ _ _ hh hf hc => commitsAll_of_device rfl hh hc rfl hf rfl
  case ringCreate => exact fun _ hh hf hc => commits_of_epoch rfl hh hc rfl hf rfl
  case ringDestroy => exact fun _ hh hf hc => commits_of_epoch rfl hh hc rfl hf rfl
  case rule => exact fun _ _ _ hh hf hc => commits_of_epoch rfl hh hc rfl hf rfl
  case txqCreate => exact fun _ hh hf hc => commits_of_epoch rfl hh hc rfl hf rfl
  case txqDestroy => exact fun _ hh hf hc => commits_of_epoch rfl hh hc rfl hf rfl
  case gdpPort => exact fun _ _ hh hf hc => commits_of_epoch rfl hh hc rfl hf rfl

end Sys2Proof.Proofs
end

section
/-! PROOFS. Proofs/NetworkTrafficCommands.lean: the commands of the NETWORK group about traffic, and the statement O19. -/

namespace Sys2Proof.Proofs

open Machine Safety

theorem shaperInfo_queue {shaper : Nat} (hs : shaper < 8192) : shaperInfo shaper = { group := 8, code := 13, ep := .part } :=
  if_pos hs

theorem shaperInfo_class {shaper : Nat} (hs : 8192 ≤ shaper) :
    shaperInfo shaper = { group := 8, code := 13, mgr := true, ep := .dev } :=
  if_neg (Nat.not_lt.mpr hs)

/-- Settles O19: each command ends by the lemma about what its effect comes to; the row of SHAPER_SET is that of its shaper. -/
theorem networkTrafficCommands : Obligations.NetworkTrafficCommands := by
  intro s h
  refine ⟨?cancel, ?flush, ?meter, ?queueShaper, ?classShaper, ?classes, ?gates, ?sample, ?queueStats, ?portStats⟩
  case cancel =>
    intro q count f hh hc hd
    refine completes_of_done rfl hh hc rfl ?_
    have place : descPlace (applied s h) q count = descPlace s q count := rfl
    simp only [place, hd]
  case flush => exact fun _ hh hc => completes_of_done rfl hh hc rfl rfl
  case meter => exact fun _ hh hf hc => commits_of_epoch rfl hh hc rfl hf rfl
  case queueShaper =>
    intro shaper mode rate size hh hf hs hm hz hq
    refine commits_of_epoch rfl (shaperInfo_queue hs ▸ hh) ?_ (by rw [shaperInfo_queue hs]) hf (if_pos hs)
    refine allClear_append (allClear_one ?_) ?_
    · have top : shaper ≤ 8447 := by omega
      simp [hm, hz, top]
    · rw [if_pos hs]; exact hq
  case classShaper =>
    intro shaper mode rate size hh hf hs hl hm hz he hx
    refine commitsAll_of_device rfl (shaperInfo_class hs ▸ hh) ?_ (by rw [shaperInfo_class hs]) hf (if_neg (Nat.not_lt.mpr hs))
    refine allClear_append (allClear_one ?_) ?_
    · simp [hm, hz, hl]
    · rw [if_neg (Nat.not_lt.mpr hs)]
      exact allClear_cons (by simp [he]) (allClear_one hx)
  case classes => exact fun _ _ hh hf hc => commitsAll_of_device rfl hh hc rfl hf rfl
  case gates => exact fun _ _ _ _ _ hh hf hc => commitsAll_of_device rfl hh hc rfl hf rfl
  case sample =>
    intro x isIt unbind hh hc hp
    refine completes_of_done rfl hh hc rfl ?_
    exact if_neg (by simpa using hp)
  case queueStats =>
    intro q clear blk hh hc x d hl
    exact completes_of_statsDone (f := fun s => s.onTxq q (fun x => { x with hwDepth := 0, hwSojourn := 0 })) rfl hh hc rfl rfl hl
  case portStats =>
    intro n clear blk hh hc hn l d hl
    exact completes_of_writeOut rfl hh hc rfl (if_pos hn) hl

end Sys2Proof.Proofs
end

section
/-! PROOFS. Proofs/CodecCommands.lean: the commands of the CODEC group, and the statement O21. -/

namespace Sys2Proof.Proofs

open Machine Safety

/-- Settles O21: each command ends by the lemma about what its effect comes to. -/
theorem codecCommands : Obligations.CodecCommands := by
  intro s h
  refine ⟨?mode, ?open_, ?modify, ?flush, ?close, ?buffer, ?stats⟩
  case mode => exact fun _ _ _ _ _ hh hf hc => commitsAll_of_device rfl hh hc rfl hf rfl
  case open_ => exact fun _ _ hh hf hc hw => commits_of_epoch rfl hh hc rfl hf (if_neg (Nat.not_lt.mpr hw))
  case modify =>
    intro m put hh hf hn hm hp hr
    refine commits_of_epoch rfl hh (allClear_append hn (allClear_one ?_)) rfl hf rfl
    have priority : (bit m.mask 0 && decide (3 < m.priority)) = false := by
      cases hb : bit m.mask 0
      · rfl
      · simp [hp hb]
    cases hc : tget s.cfg.codec.streams m.stream
    case none => simp [hm, priority]
    case some c =>
      have rate := hr c hc
      simp only [Nat.not_lt.mpr hm, priority, decide_false, Bool.false_or]
      exact rate
  case flush => exact fun _ hh hc => completes_of_done rfl hh hc rfl rfl
  case close => exact fun _ hh hf hc => commits_of_epoch rfl hh hc rfl hf rfl
  case buffer => exact fun _ hh hc => completes_of_done rfl hh hc rfl rfl
  case stats => exact fun _ _ hh hc hl => completes_of_writeOut rfl hh hc rfl rfl hl

end Sys2Proof.Proofs
end

section
/-! PROOFS. Proofs/StorageCommands.lean: the commands of the STORAGE group, and the statement O22. -/

namespace Sys2Proof.Proofs

open Machine Safety

/-- DRIVE_ADMIN of a command that the drive answers with success and data (15 R404). -/
theorem completes_driveAdmin_of_answer {s : State} {h : Hdr} {drive buf len : Nat} {blk cqe data : List Byte} (hh : handed s h 12 2)
    (hd : drive ≤ 3) (ho : [0x06, 0x02, 0x0A].contains (o8 (fit 64 blk) 0) = true) (hu : (tgetD s.stor.drives drive {}).st = .up)
    (hn : data ≠ []) (hl : len ≠ 0) (hs : ofLe (((fit 16 cqe).drop 14).take 2) / 2 = 0) :
    completes (.driveAdmin h drive (some blk) buf len (.entry cqe data)) h s
      (wrote ((applied s h).send (.driveAdmin drive (fit 64 blk))) h buf (data.take len)) (fit 16 cqe) := by
  have op : o8 (fit 64 blk) 0 = 0x06 ∨ o8 (fit 64 blk) 0 = 0x02 ∨ o8 (fit 64 blk) 0 = 0x0A := by simpa using ho
  refine completes_of_done rfl hh (allClear_cons (by simp [hd]) (allClear_cons rfl (allClear_cons ?_ (allClear_cons ?_
    (allClear_one ?_))))) rfl ?_
  · rcases op with op | op | op <;> simp [op]
  · rcases op with op | op | op <;> simp [op]
  · simp [hu]
  · have kept : (data.isEmpty || len == 0) = false := by simp [hn, hl]
    simp only [kept, hs, wrote]
    rfl

/-- Settles O22: each command ends by the lemma about what its effect comes to. -/
theorem storageCommands : Obligations.StorageCommands := by
  intro s h
  refine ⟨?port, ?admin, ?volumeCreate, ?volumeDestroy, ?queueCreate, ?queueFlush, ?queueDestroy, ?subsystem, ?listener, ?connect,
    ?disconnect, ?timeout, ?stats⟩
  case port => exact fun _ _ hh hf hc => commitsAll_of_device rfl hh hc rfl hf rfl
  case admin => exact fun _ _ _ _ _ _ hh hd ho hu hn hl hs => completes_driveAdmin_of_answer hh hd ho hu hn hl hs
  case volumeCreate => exact fun _ hh hf hc => commits_of_epoch rfl hh hc rfl hf rfl
  case volumeDestroy => exact fun _ hh hf hc => commits_of_epoch rfl hh hc rfl hf rfl
  case queueCreate => exact fun _ hh hf hc => commits_of_epoch rfl hh hc rfl hf rfl
  case queueFlush => exact fun _ hh hc => completes_of_done rfl hh hc rfl rfl
  case queueDestroy => exact fun _ hh hf hc => commits_of_epoch rfl hh hc rfl hf rfl
  case subsystem => exact fun _ _ _ hh hf hc => commits_of_epoch rfl hh hc rfl hf rfl
  case listener => exact fun _ hh hf hc => commits_of_epoch rfl hh hc rfl hf rfl
  case connect => exact fun _ hh hf hc => exec_of_long rfl hh hc (busyEpoch_part s _ h rfl hf) rfl
  case disconnect => exact fun _ hh hf hc => commits_of_epoch rfl hh hc rfl hf rfl
  case timeout => exact fun _ hh hc => completes_of_done rfl hh hc rfl rfl
  case stats => exact fun _ _ _ hh hc hl => completes_of_writeOut rfl hh hc rfl rfl hl

end Sys2Proof.Proofs
end

section
/-! PROOFS. Proofs/TrapezeCommands.lean: the commands of the TRAPEZE group, and the statement O23. -/

namespace Sys2Proof.Proofs

open Machine Safety

/-- Settles O23: each command ends by the lemma about what its effect comes to. -/
theorem trapezeCommands : Obligations.TrapezeCommands := by
  intro s h
  refine ⟨?enableUp, ?enable, ?disable, ?window, ?inwindow, ?telem, ?sum, ?watchdogs, ?stats⟩
  case enableUp => exact fun _ hh hc hu => completes_of_done rfl hh hc rfl (if_pos hu)
  case enable =>
    exact fun _ hh hc hu ht => exec_of_long rfl hh hc rfl
      ((if_neg (Bool.eq_false_iff.mp hu)).trans (if_neg (Bool.eq_false_iff.mp ht)))
  case disable => exact fun _ hh hc => completes_of_done rfl hh hc rfl rfl
  case window => exact fun _ _ _ _ hh hf hc => commits_of_epoch rfl hh hc rfl hf rfl
  case inwindow => exact fun _ _ _ _ hh hf hc => commits_of_epoch rfl hh hc rfl hf rfl
  case telem => exact fun _ _ _ _ hh hc hb => completes_of_done rfl hh hc rfl (if_neg (by simpa using hb))
  case sum => exact fun _ hh hc => exec_of_long rfl hh hc rfl rfl
  case watchdogs => exact fun _ _ _ hh hc => completes_of_done rfl hh hc rfl rfl
  case stats => exact fun _ _ hh hc hl => completes_of_writeOut rfl hh hc rfl rfl hl

end Sys2Proof.Proofs
end

section
/-! PROOFS. Proofs/PressCommands.lean: the commands of the PRESS group, and the statement O24. -/

namespace Sys2Proof.Proofs

open Machine Safety

/-- Settles O24: each command ends by the lemma about what its effect comes to. -/
theorem pressCommands : Obligations.PressCommands := by
  intro s h
  refine ⟨?arm, ?checkpoint, ?restore, ?disarm, ?status⟩
  case arm =>
    exact fun _ _ hh hc hl hs => completes_of_done rfl hh hc rfl
      ((if_neg (Nat.not_lt.mpr hl)).trans (if_neg (Bool.eq_false_iff.mp hs)))
  case checkpoint =>
    intro jn flush step j hh hc hj
    refine exec_of_long rfl hh hc rfl ?_
    simp only [applied_press, hj]
  case restore => exact fun _ _ hh hc => exec_of_long rfl hh hc rfl rfl
  case disarm =>
    intro jn j hh hc hj
    refine completes_of_done rfl hh hc rfl ?_
    simp only [applied_press, hj]
  case status => exact fun _ hh => completes_of_done rfl hh allClear_nil rfl rfl

end Sys2Proof.Proofs
end

section
/-! PROOFS. Proofs/ManagementCommands.lean: the commands of the MANAGEMENT group, and the statement O25. -/

namespace Sys2Proof.Proofs

open Machine Safety

/-- Settles O25: each command ends by the lemma about what its effect comes to. -/
theorem managementCommands : Obligations.ManagementCommands := by
  intro s h
  refine ⟨?info, ?config, ?timeSet, ?timeAdjust, ?alarm, ?playbill, ?rindRead, ?rindCommit⟩
  case info => exact fun hh => completes_of_done rfl hh allClear_nil rfl rfl
  case config =>
    exact fun _ hh hc => completes_of_done rfl hh (allClear_cons rfl (allClear_cons rfl (allClear_one (by simp [hc])))) rfl rfl
  case timeSet => exact fun _ hh => completes_of_done rfl hh allClear_nil rfl rfl
  case timeAdjust => exact fun _ hh hc => completes_of_done rfl hh hc rfl rfl
  case alarm => exact fun _ _ _ _ hh hc => completes_of_done rfl hh hc rfl rfl
  case playbill => exact fun _ hh hc => exec_of_long rfl hh hc rfl rfl
  case rindRead => exact fun _ _ hh hc hl => completes_of_writeOut rfl hh hc rfl rfl hl
  case rindCommit => exact fun hh => exec_of_long rfl hh allClear_nil rfl rfl

end Sys2Proof.Proofs
end

section
/-! PROOFS. Proofs/BoothService.lean: for each row of the Booth service, the state it leaves when its premise holds, and the
statement O26, which is their conjunction. -/

namespace Sys2Proof.Proofs

open Machine

/-! Enabling and stopping (18 R483 to R485, R487). -/

/-- A Booth just enabled: its features and its interface negotiated, its counts at zero, nothing outstanding. -/
def boothOpened (s : State) (fn : Nat) (negotiating : Bool) : State :=
  s.onBooth fn (fun b => { b with
    enable := true
    negotiating := negotiating
    ready := true
    error := 0
    featEn := b.featReq &&& featuresOffered s
    minor := b.reqMinor
    subProd := 0
    subCons := 0
    cmpProd := 0
    cmpCons := 0
    evtProd := 0
    evtCons := 0
    lost := 0
    lostTotal := 0
    reading := 0
    readFailed := false
    outst := []
    done := []
    held := [] })

theorem exec_boothEnable_of_disabled {s : State} {fn : Nat} {negotiating : Bool} (ha : fnAnswers s fn = true)
    (he : (s.fn fn).booth.enable = false) (hs : (s.fn fn).booth.stopping = false)
    (hn : enableError s fn (s.fn fn).booth negotiating = 0) :
    exec (.boothEnable fn negotiating) s = .next
      (if fn == 0 && !(boothOpened s fn negotiating).mgmt.bootReady
          && (tgetD (boothOpened s fn negotiating).comps 8 {}).state == .running
        then alarmsMissed (boothOpened s fn negotiating) else boothOpened s fn negotiating) := by
  change execBoothEnable fn negotiating s = _
  simp only [execBoothEnable, ha, he, hs, hn, Bool.not_true, Bool.false_eq_true, if_false, bne_self_eq_false]
  rfl

theorem exec_boothDisable_of_answering {s : State} {fn : Nat} (ha : fnAnswers s fn = true) :
    exec (.boothDisable fn) s = .next (boothStop s fn) := by
  change execBoothDisable fn s = _
  simp only [execBoothDisable, ha, Bool.not_true, Bool.false_eq_true, if_false]

theorem exec_boothStopComplete_of_idle {s : State} {fn : Nat} (hs : (s.fn fn).booth.stopping = true)
    (ho : (s.fn fn).booth.outst = []) :
    exec (.boothStopComplete fn) s = .next (s.onBooth fn (fun b => { b with stopping := false, ready := false, featEn := 0 })) := by
  change execBoothStopComplete fn s = _
  simp only [execBoothStopComplete, hs, ho, List.isEmpty_nil, Bool.not_true, Bool.or_self, Bool.false_eq_true, if_false]

/-! Reading and handing over commands (18 R492, R494). -/

/-- The function the service visits next. -/
def visitNext (s : State) : Option Nat := ((List.range 1009).map (fun i => (s.host.boothNext + i) % 1009)).find? (visitable s)

theorem exec_boothFetchVisit_of_visitable {s : State} {fn : Nat} (hv : visitNext s = some fn) :
    exec .boothFetchVisit s = .next (hostRead ((s.onHost (fun h => { h with boothNext := (fn + 1) % 1009 })).onBooth fn
        (fun b => { b with reading := visitCount (s.fn fn).booth })) fn
      (if (s.fn fn).booth.pasidEn then some (s.fn fn).booth.pasid else none)
      ((s.fn fn).booth.subBase + 64 * ((s.fn fn).booth.subCons % 2 ^ (s.fn fn).booth.subLog2))
      (64 * visitCount (s.fn fn).booth) (.submission fn)) := by
  unfold visitNext at hv
  refine Eq.trans (b := execBoothFetchVisit s) rfl ?_
  unfold execBoothFetchVisit
  rw [hv]

/-- The answer of the read of a submission ring is the commands the Booth had asked for. -/
theorem exec_submissionReadDone_of_outstanding {s : State} {fn : Nat} {r : HostRd}
    (hu : s.host.reads.find? (fun r => r.use == .submission fn) = some r)
    (ht : s.host.reads.find? (fun x => x.tag == r.tag) = some r) (d : List Byte) :
    exec (.submissionReadDone fn (.data d)) s = .next (submissionRead (readTake s r.tag) fn (some (fit r.len d))) := by
  have use : r.use = .submission fn := by simpa using List.find?_some hu
  have answered := exec_hostReadCompletion_data_of_outstanding ht fn d
  rw [use] at answered
  change execSubmissionReadDone fn (.data d) s = _
  simp only [execSubmissionReadDone, hu]
  exact answered

theorem exec_commandHandoff_of_waiting {s : State} {fn id : Nat} {c : OutCmd} (hc : outCmd s fn id = some c)
    (hm : mayHand s fn c = true) : exec (.commandHandoff fn id) s = .next (markCmd s fn id .handed) := by
  change execCommandHandoff fn id s = _
  simp only [execCommandHandoff, hc, hm, if_true]

/-! Components (18 R479, R481). -/

theorem exec_componentFault_of_run {s : State} (hr : s.power.st = .run) (c : Nat) :
    exec (.componentFault c) s = .next (componentFault s c) := congrArg _ (if_pos (beq_iff_eq.mpr hr))

theorem exec_supervisorTimeout_of_run {s : State} (hr : s.power.st = .run) (c : Nat) :
    exec (.supervisorTimeout c) s = .next (componentFault s c) := congrArg _ (if_pos (beq_iff_eq.mpr hr))

/-- A component whose restart has ended. -/
def compRunning (s : State) (c : Nat) : State := s.onComp c (fun k => { k with state := .running })

theorem exec_componentResume_of_restarting {s : State} {c : Nat} (hc : (tgetD s.comps c {}).state = .restarting) :
    exec (.componentResume c) s = .next
      (if c = 1 then (s.fns.map (·.1)).foldl writeHeld (compRunning s c)
      else if c = 8 then s.mgmt.mctpWait.foldl mgmtServe ((compRunning s c).onMgmt (fun m => { m with mctpWait := [] }))
      else compRunning s c) := by
  change execComponentResume c s = _
  simp only [execComponentResume, hc, bne_self_eq_false, Bool.false_eq_true, if_false, beq_iff_eq]
  rw [apply_ite Host.Outcome.next, apply_ite Host.Outcome.next]
  rfl

/-- Settles O26: each row has the effect its lemma above states. -/
theorem boothServiceEvents : Obligations.BoothServiceEvents := by
  intro s
  refine ⟨?enable, ?disable, ?stopped, ?visit, ?read, ?handoff, ?fault, ?supervisor, ?resume⟩
  case enable => exact fun _ _ ha he hs hn => exec_boothEnable_of_disabled ha he hs hn
  case disable => exact fun _ ha => exec_boothDisable_of_answering ha
  case stopped => exact fun _ hs ho => exec_boothStopComplete_of_idle hs ho
  case visit => exact fun _ hv => exec_boothFetchVisit_of_visitable hv
  case read => exact fun _ d _ hu ht => exec_submissionReadDone_of_outstanding hu ht d
  case handoff => exact fun _ _ _ hc hm => exec_commandHandoff_of_waiting hc hm
  case fault => exact fun c hr => exec_componentFault_of_run hr c
  case supervisor => exact fun c hr => exec_supervisorTimeout_of_run hr c
  case resume => exact fun _ hc => exec_componentResume_of_restarting hc

end Sys2Proof.Proofs
end

section
/-! PROOFS. Proofs/PressEvents.lean: for each message and stage of the Press, the state it leaves when its premise holds, and
the statement O43, which is their conjunction. -/

namespace Sys2Proof.Proofs

open Machine

/-- The checkpoint a job has verified: its header is marked complete, and its generation counts. -/
def pressVerified (s : State) (jn : Nat) (a : ArmBlock) : State :=
  pressRecord ((stageWrite (stageWrite s a 42 [1]) a 52 (le 4 0xFFFFFFFF)).onJob jn
    (fun j => { j with generation := modAdd 64 j.generation 1 })) jn 5 0

/-- The status a flush ends with: that of the drive, unless its volume is gone. -/
def flushStatus (s : State) (a : ArmBlock) (st : Status) : Status :=
  if a.flushKind == 1 && !thas s.cfg.stor.volumes a.flushTarget then .volumeUnknown else st

section Operation

variable {s : State} {jn : Nat} {j : PressJob} {o : PressOp} (hj : tget s.press.jobs jn = some j) (ho : j.op = some o)

include hj ho

/-- A stage that ends finds its job and its operation. -/
theorem pressAt_of_op (f : PressJob → PressOp → State) : pressAt s jn f = f j o := by
  simp only [pressAt, hj, ho]

/-! The stages (20 R540, R544, R546, R550). -/

theorem exec_pressDrainDone_of_drained (hs : o.stage = .drain) (hn : o.sentDrained = false) (hd : pressDrained s j o = true) :
    exec (.pressDrainDone jn) s = .next
      (pressDrainCheck (onOp (pressSend s jn j o .drained 0 (fun _ => true)) jn (fun o => { o with sentDrained := true })) jn) := by
  refine congrArg _ ((pressAt_of_op hj ho _).trans (if_neg ?_))
  simp [hs, hn, hd]

theorem exec_pressCopyDone_of_copy (hs : o.stage = .copy) (hn : o.copying = false) (data : List (List Byte)) :
    exec (.pressCopyDone jn data none) s = .next (if o.restore then copyIn s jn j o data else copyOut s jn j o data) := by
  refine congrArg _ ((pressAt_of_op hj ho _).trans (if_neg ?_))
  simp [hs, hn]

theorem exec_pressVerifyDone_of_restore (hs : o.stage = .verify) (hr : o.restore = true) {crcs : List Nat}
    (hc : lowestBad o.manifest.regions (o.manifest.regions.map (·.crc)) crcs = none) (manifestOk : Bool) :
    exec (.pressVerifyDone jn crcs manifestOk none) s = .next (pressNext s jn o .copy) := by
  refine congrArg _ ((pressAt_of_op hj ho _).trans ((if_neg (by simp [hs])).trans ?_))
  simp only [hr, hc, if_true]

theorem exec_pressVerifyDone_of_checkpoint (hs : o.stage = .verify) (hr : o.restore = false) {crcs : List Nat}
    (hc : lowestBad j.arm.regions o.crcs crcs = none) :
    exec (.pressVerifyDone jn crcs true none) s = .next
      (if o.cancel then Machine.pressCancelled (pressVerified s jn j.arm) jn 7 else pressCopiedOut (pressVerified s jn j.arm) jn) := by
  refine congrArg _ ((pressAt_of_op hj ho _).trans ((if_neg (by simp [hs])).trans ?_))
  simp only [hr, hc, Option.isSome_none, Bool.not_true, Bool.or_self, Bool.false_eq_true, if_false]
  rfl

theorem exec_pressFlushDone_of_flush (hs : o.stage = .flush) (st : Status) :
    exec (.pressFlushDone jn st) s = .next
      (pressEnd (if flushStatus s j.arm st == .ok then pressRecord s jn 7 (flushStatus s j.arm st).code
          else pressFailLog (pressRecord s jn 7 (flushStatus s j.arm st).code) jn 7 (flushStatus s j.arm st))
        jn o (flushStatus s j.arm st) (if flushStatus s j.arm st == .ok then 7 else 6) 0) :=
  congrArg _ ((pressAt_of_op hj ho _).trans (if_neg (by simp [hs])))

theorem exec_pressSetTimeout_of_waiting (hs : o.stage = .set ∨ o.stage = .drain) :
    exec (.pressSetTimeout jn) s = .next (pressFail s jn .pressSetTimeout) :=
  congrArg _ ((pressAt_of_op hj ho _).trans (if_pos (by simpa using hs)))

theorem exec_pressReleaseTimeout_of_release (hs : o.stage = .release) :
    exec (.pressReleaseTimeout jn) s = .next (pressFail s jn .pressSetTimeout) :=
  congrArg _ ((pressAt_of_op hj ho _).trans (if_pos (by simp [hs])))

end Operation

section Message

variable {s : State} {m : PressMsg} {j : PressJob} {o : PressOp} (hj : tget s.press.jobs m.job = some j) (ho : j.op = some o)
  (hm : m.magicOk = true) (hp : j.arm.peers.contains m.conn = true) (hs : m.step = o.step) (hg : m.generation = o.generation)

include hj ho hm hp hs hg

/-- A message of a peer of the job, of the step and generation of its operation, counts for it (20 R541, R543). -/
theorem pressMsg_of_current (typ : PressType) (f : State → PressOp → State) : pressMsg s typ m f = f s o := by
  simp only [pressMsg, hj, hm, hp, ho, hs, hg, Bool.not_true, Bool.or_self, bne_self_eq_false, Bool.false_eq_true, if_false]

theorem exec_pressAbandon_of_current (hf : o.stage ≠ .flush) :
    exec (.pressAbandon m) s = .next (pressAbort s m.job m.status .pressSetTimeout) :=
  congrArg _ ((pressMsg_of_current hj ho hm hp hs hg .abandon _).trans (if_neg (by simpa using hf)))

end Message

/-- Settles O43: each row has the effect its lemma above states; READY, DRAINED and COPIED count by `pressMsg_of_current`. -/
theorem pressEvents : Obligations.PressEvents := by
  intro s
  refine ⟨?ready, ?drained, ?copied, ?abandon, ?drainDone, ?copyIn, ?copyOut, ?verifyRestore, ?verifyCheckpoint, ?flush, ?setTimeout,
    ?releaseTimeout⟩
  case ready => exact fun _ _ _ hj ho hm hp hs hg => congrArg _ (pressMsg_of_current hj ho hm hp hs hg .ready _)
  case drained => exact fun _ _ _ hj ho hm hp hs hg => congrArg _ (pressMsg_of_current hj ho hm hp hs hg .drained _)
  case copied => exact fun _ _ _ hj ho hm hp hs hg => congrArg _ (pressMsg_of_current hj ho hm hp hs hg .copied _)
  case abandon => exact fun _ _ _ hj ho hm hp hs hg hf => exec_pressAbandon_of_current hj ho hm hp hs hg hf
  case drainDone => exact fun _ _ _ hj ho hs hn hd => exec_pressDrainDone_of_drained hj ho hs hn hd
  case copyIn =>
    exact fun _ data _ _ hj ho hs hn hr => (exec_pressCopyDone_of_copy hj ho hs hn data).trans (congrArg _ (if_pos hr))
  case copyOut =>
    exact fun _ data _ _ hj ho hs hn hr =>
      (exec_pressCopyDone_of_copy hj ho hs hn data).trans (congrArg _ (if_neg (Bool.eq_false_iff.mp hr)))
  case verifyRestore =>
    exact fun _ _ manifestOk _ _ hj ho hs hr hc => exec_pressVerifyDone_of_restore hj ho hs hr hc manifestOk
  case verifyCheckpoint => exact fun _ _ _ _ hj ho hs hr hc => exec_pressVerifyDone_of_checkpoint hj ho hs hr hc
  case flush => exact fun _ st _ _ hj ho hs => exec_pressFlushDone_of_flush hj ho hs st
  case setTimeout => exact fun _ _ _ hj ho hs => exec_pressSetTimeout_of_waiting hj ho hs
  case releaseTimeout => exact fun _ _ _ hj ho hs => exec_pressReleaseTimeout_of_release hj ho hs

end Sys2Proof.Proofs
end

section
/-! PROOFS. Proofs/TimedManagement.lean: the alarms, the Playbill and the Rind take their timed steps; the statement O47. -/

namespace Sys2Proof.Proofs

open Machine

/-- An alarm is due: it is enabled, its time has come, and the clock that it compares is valid and powered (21 R571, R572). -/
theorem guard_of_dueAlarm {s : State} {n : Nat} (hn : n ≤ 3) (he : (tgetD s.mgmt.alarms n {}).enable = true) (hv : s.clock.timeInvalid = false)
    (ht : (tgetD s.mgmt.alarms n {}).t ≤ s.clock.rtc) (hp : (s.power.vstby || s.power.vbat) = true) :
    (3 < n || !(tgetD s.mgmt.alarms n {}).enable || s.clock.timeInvalid || s.clock.rtc < (tgetD s.mgmt.alarms n {}).t
      || !(s.power.vstby || s.power.vbat)) = false := by
  rw [he, hv, hp, decide_eq_false (Nat.not_lt.mpr hn), decide_eq_false (Nat.not_lt.mpr ht)]
  rfl

/-- Settles O47: each row goes on past its guard, which its premise clears. -/
theorem timedManagementEvents : Obligations.TimedManagementEvents := by
  intro s
  refine ⟨?alarm, ?writeback, ?phaseNext, ?phaseLast, ?panelTimeout, ?intervalEnd, ?commitTimer, ?recordOk, ?recordFailed,
    ?second, ?minute⟩
  case alarm =>
    refine fun n hn he hv ht hp => (if_neg (Bool.eq_false_iff.mp (guard_of_dueAlarm hn he hv ht hp))).trans (congrArg _ ?_)
    cases s.power.vstby <;> rfl
  case writeback =>
    intro d hd ht hr
    have due : (!(match s.clock.rtcWrite with | some t => decide (t ≤ s.clock.cadence) | none => false) || !mgmtRuns s) = false := by
      simp [hd, ht, hr]
    exact if_neg (Bool.eq_false_iff.mp due)
  case phaseNext =>
    intro h1 h3
    have updating : s.mgmt.playbill.phase ≠ 0 := by omega
    exact (if_neg (by simpa using updating)).trans (if_pos h3)
  case phaseLast =>
    intro h3
    have updating : s.mgmt.playbill.phase ≠ 0 := by omega
    exact (if_neg (by simpa using updating)).trans (if_neg (Nat.not_lt.mpr h3))
  case panelTimeout => exact fun hp => if_neg (by simpa using hp)
  case intervalEnd => rfl
  case commitTimer => rfl
  case recordOk =>
    intro w p a e hw
    change execRindRecordDone true s = _
    simp only [execRindRecordDone, hw, if_true]
    rfl
  case recordFailed =>
    intro w e hw
    change execRindRecordDone false s = _
    simp only [execRindRecordDone, hw, Bool.false_eq_true, if_false]
    rfl
  case second =>
    intro x lin a b c d hb
    have powered : (!b.power.vmain) = false := by rw [hb]; rfl
    exact if_neg (Bool.eq_false_iff.mp powered)
  case minute =>
    intro vbat20 e hp
    have powered : (!s.power.vstby && !s.power.vbat) = false := by rw [← Bool.not_or, hp]; rfl
    refine (if_neg (Bool.eq_false_iff.mp powered)).trans ?_
    change (if !e.power.vmain then Host.Outcome.next e else _) = _
    cases e.power.vmain <;> rfl

end Sys2Proof.Proofs
end

section
/-! PROOFS. Proofs/PowerEvents.lean: the supplies, resets, islands and clocks take their events; the statement O48. -/

namespace Sys2Proof.Proofs

open Machine

/-- Settles O48: each row goes on past its guard, which its premise clears. -/
theorem powerEvents : Obligations.PowerEvents := by
  intro s
  refine ⟨?vmainGood, ?brownout, ?vstbyLoss, ?vstbyReturn, ?vbatLow, ?alwaysOn, ?perstAssert, ?perstDeassert, ?hotReset, ?quiesced,
    ?bringUp, ?trialTimeout, ?hot, ?cool, ?trip, ?current, ?gate, ?ungate, ?erefLoss, ?hrefLoss, ?xtalLoss, ?erefReturn⟩
  case vmainGood => exact fun hv => if_neg (by simp [hv])
  case brownout => exact fun hv => if_neg (by simp [hv])
  case vstbyLoss => exact fun hv => if_neg (by simp [hv])
  case vstbyReturn => exact fun hv hb => if_neg (by simp [hv, hb])
  case vbatLow => exact fun hv hb => if_neg (by simp [hv, hb])
  case alwaysOn => exact fun _ hv hb => if_neg (by simp [hv, hb])
  case perstAssert => exact fun hp => if_neg (by simp [hp])
  case perstDeassert => exact fun hp => if_neg (by simp [hp])
  case hotReset => rfl
  case quiesced =>
    intro hs hc
    have rested : (!s.power.shutdown || (s.rind.committing && newer 32 s.power.commitGoal s.rind.flash.recordSeq)) = false := by
      rw [hs]
      cases hw : s.rind.committing
      · rfl
      · rw [hc hw]; rfl
    exact if_neg (Bool.eq_false_iff.mp rested)
  case bringUp =>
    intro passes kat i a b0 b c d hi hb hq hs ht
    have boots : (s.power.st != .boot || s.mgmt.quiesced || s.power.shutdown || (0 < s.power.order && s.power.tripWait)) = false := by
      simpa [hb, hq, hs] using ht
    change execIslandBringUp passes kat s = _
    unfold execIslandBringUp
    dsimp only
    rw [hi]
    exact if_neg (Bool.eq_false_iff.mp boots)
  case trialTimeout => exact fun ht hs hq => if_pos (by simpa [ht, hq, or_assoc] using hs)
  case hot => exact fun hot hv h8 => (if_neg (by simp [hv])).trans (congrArg _ (if_pos (by simp [h8])))
  case cool =>
    intro hot a e hv h7
    have cool : (decide (800 ≤ hot) || (a.power.throttling && decide (784 ≤ hot))) = false := by
      rw [decide_eq_false (by omega), decide_eq_false (by omega), Bool.and_false]
      rfl
    exact (if_neg (by simp [hv])).trans (congrArg _ (if_neg (Bool.eq_false_iff.mp cool)))
  case trip => exact fun _ _ hv ht hs => if_neg (by simp [hv, ht, hs])
  case current => exact fun _ _ hv hc => if_pos (by simp [hv, hc])
  case gate => exact fun _ hr hg hm => (if_neg (by simp [hr])).trans ((if_neg (by simpa using hg)).trans (congrArg _ (if_pos hm)))
  case ungate =>
    exact fun _ hr hg hm =>
      (if_neg (by simp [hr])).trans ((if_pos hg).trans (congrArg _ (if_neg (Bool.eq_false_iff.mp hm))))
  case erefLoss => exact fun he => if_neg (by simp [he])
  case hrefLoss => rfl
  case xtalLoss => rfl
  case erefReturn => rfl

end Sys2Proof.Proofs
end
